-- ==== Sys2Proof/Word.lean ====
section
/-! DEFINITION. The word types of the module and the shapes of its register tables (R10, R16, R62). -/

namespace Sys2Proof

/-- A 32-bit register of BAR0 space (R62). -/
abbrev Word := BitVec 32

/-- One byte of a frame or of a memory. -/
abbrev Byte := BitVec 8

/-- One field of one register: the register's BAR0 offset, the field's lowest bit, its width. -/
structure Fld where
  addr : Nat
  lo : Nat
  width : Nat
  deriving DecidableEq, Repr

/-- The access codes of R10. -/
inductive Acc
  | ro | rw | wo | w1c | w1s | rc | rsv | ros | rwl
  deriving DecidableEq, Repr

/-- One row of a register table: bits hi..lo, the access code, the cold reset value, whether a warm
reset leaves it unchanged, and whether a write of the field is a step of its own (another command). -/
structure FieldRow where
  hi : Nat
  lo : Nat
  acc : Acc
  cold : Nat
  keep : Bool
  step : Bool
  deriving DecidableEq, Repr

/-- One register group: the offset of its first register, its index dimensions as (stride, count)
with the largest stride first, and its fields. -/
structure RegRow where
  base : Nat
  dims : List (Nat × Nat)
  fields : List FieldRow
  deriving DecidableEq, Repr

/-- The four members of the family (R2, R3). -/
inductive Member
  | ny9640 | ny9620 | ny9610 | ny9602
  deriving DecidableEq, Repr

/-- The requesters of register space (R63): the host link, a Ridge core, the JTAG port. -/
inductive Requester
  | host
  | ridge (m : Nat)
  | jtag
  deriving DecidableEq, Repr

/-- A frame as a port received it: the bytes from the destination address up to the check sequence, whether the check
sequence agrees, whether an uncorrectable RS-FEC codeword touched the frame, TIM_NOW at its message time-stamp
point, in 2⁻¹⁶ ns, at the balls (R93); the RS-FEC codewords corrected and found uncorrectable since the frame before (R121);
in place of a frame, under PRBS, the bit errors since the last such command (R123); and, where the copy of this frame on the
lower-numbered port of its pair reaches duplicate discard in the same intake-clock cycle, that copy's stamp (R141). -/
structure RxFrame where
  bytes : List Byte
  fcs : Bool := true
  fec : Bool := false
  stamp : Nat := 0
  corr : Nat := 0
  uncorr : Nat := 0
  prbs : Nat := 0
  twin : Option Nat := none
  deriving DecidableEq, Repr

/-- An IRIG-B frame as the receiver sampled it (R100, R101): the widths of its bits in µs from the reference marker on, the code
heard, the extension's parity, the two-digit year, the day of the year from 1, the second of the
day, the extension's time offset in half hours, and the marker's leading edge (TIM_NOW, 2⁻¹⁶ ns). -/
structure IrigFrame where
  widths : List Nat
  code : Nat
  parity : Bool
  year : Nat
  day : Nat
  sec : Nat
  offset : Int
  edge : Nat
  deriving DecidableEq, Repr

/-- The registers of configuration space that R59, R61, R488, R489 and R514 describe. -/
inductive CfgReg
  | id | command | classRev | header | bar0Lo | bar0Hi | bar2Lo | bar2Hi | subsystem | intPin | pm | link | msix | pasid | l1ss | vsec
  | bar4 | bar5 | rom | pmCap | devCap | devCap2 | linkCap | linkStat | msixTable | msixPba | serialLo | serialHi | pasidCap | l1ssCap | vsecHead
  deriving DecidableEq, Repr

/-- The kinds of control state under a code (R44): the sequencer table bank by byte offset, instance descriptors by instance, queue
contexts by index, translation-unit entries by number, key slots by slot, configuration registers by BAR0 offset. -/
inductive Store
  | seq | inst | ctx | tu | key | cfg
  deriving DecidableEq, Repr

/-- An upset of checked control state (R44): which word, and whether two bits of it flipped. -/
structure Upset where
  store : Store
  place : Nat
  double : Bool
  deriving DecidableEq, Repr

/-- The start of a task on a tuft, and the errors in checked control state that the codes found since the start before (R44, R301). -/
structure Starting where
  tuft : Nat
  found : List Upset := []
  deriving DecidableEq, Repr

/-- The loss of a link: the port, or 20 and 21 for the lanes of the Rope, and whether the partner reported the fault (R122, R149). -/
structure LinkLost where
  port : Nat
  remote : Bool := false
  deriving DecidableEq, Repr

/-- What a start stage finds outside the module (R527, R531, R613, R616, R633): the levels of SLOT_ID[5:0] and PAIR_ID, whether
the wipe verified, whether each copy of the journal could be read, whether the root was regenerated, for each DDR channel
(trained, from the record, ms, write and read margins), and whether stages 7 and 8 met an error in checked state. -/
structure StageIn where
  slotId : Nat := 0
  pairId : Nat := 0
  wipeOk : Bool := true
  journal0 : Bool := true
  journal1 : Bool := true
  rootOk : Bool := true
  train : List (Bool × Bool × Nat × Nat × Nat) := []
  err : Bool := false
  deriving DecidableEq, Repr

end Sys2Proof
end

