-- ==== Sys2Proof/Syntax.lean ====
section
/-! DEFINITION. The commands of the module, one constructor per row of spec/opcode_table.json, with the operands
the row's step takes from outside: an index, a register value, a frame's bytes, an instant. -/

namespace Sys2Proof

/-- The commands. An operand Nat is an index, a length, an address or a tick; stamps are TIM_NOW in 2⁻¹⁶ ns. -/
inductive Instr
  /-- REGISTER_WRITE (R10): A write to a register field that has no step of its own loads, ignores or discards the value according to its access code. -/
  | registerWrite (who : Requester) (addr : Nat) (v : Word)
  /-- UNMAPPED_ACCESS (R60): An access to a reserved range, an absent unit or an unlisted offset completes normally, and a write sets ROOT_ERR.UNMAPPED. -/
  | unmappedAccess (who : Requester) (addr : Nat) (write : Bool)
  /-- MISALIGNED_ACCESS (R62): A sub-word write or a misaligned access to register space is discarded or reads zero, and it sets ROOT_ERR.WIDTH. -/
  | misalignedAccess (who : Requester) (addr : Nat) (bytes : Nat) (write : Bool)
  /-- COUNTER_LO_READ (R64): A read of a 64-bit counter's _LO word returns the live low word and latches the high word into the requester's shadow. -/
  | counterLoRead (who : Requester) (addr : Nat)
  /-- COUNTER_HI_WRITE (R66): A write to a counter's _HI word stores a staging value and leaves the counter unchanged. -/
  | counterHiWrite (who : Requester) (addr : Nat) (v : Word)
  /-- COUNTER_LO_WRITE (R66): A write to a counter's _LO word loads the whole counter from the staging value in one cycle. -/
  | counterLoWrite (who : Requester) (addr : Nat) (v : Word)
  /-- COUNTER_64_ACCESS (R67): An aligned 64-bit access to a counter pair reads or loads it as a single snapshot. -/
  | counter64Access (who : Requester) (addr : Nat) (write : Bool) (v : Nat)
  /-- UNIT_QUIESCE_WRITE (R78): Setting QUIESCE stops a unit accepting work, and clearing it resumes the unit. -/
  | unitQuiesceWrite (who : Requester) (hdr : Nat) (v : Bool)
  /-- UNIT_IDLE_REACHED (R78): A quiescing unit finishes its in-flight work and sets IDLE; during a unit reset the reset is then applied. -/
  | unitIdleReached (hdr : Nat)
  /-- UNIT_RESET_REQUEST (R79): A write of 1 to UNIT_CTRL.RESET starts a unit reset, unless it is refused under R80 or R81. -/
  | unitResetRequest (who : Requester) (hdr : Nat)
  /-- QUIESCE_TIMEOUT (R79): When UNIT_QTMO elapses without IDLE, the reset is forced, in-flight work completes with UNIT_RESET, and FORCED is set. -/
  | quiesceTimeout (hdr : Nat)
  /-- EVT_PEND_CLEAR (R76): A W1C write to EVT_PEND clears pending bits; a report in the same cycle keeps its bit set. -/
  | evtPendClear (k : Nat) (v : Word) (again : Word)
  /-- RIDGE_RQ_CONS_WRITE (R71): Firmware writes the count of receive descriptors it has consumed, freeing ring space. -/
  | ridgeRqConsWrite (q : Nat) (v : Word)
  /-- RIDGE_QUEUE_ENABLE (R73): EN going from 0 to 1 in a Ridge queue CFG enables the queue and clears PROD and CONS. -/
  | ridgeQueueEnable (tx : Bool) (q : Nat) (v : Word)
  /-- RIDGE_TQ_PROD_WRITE (R72): Firmware advances a transmit queue's PROD and hands descriptors to the module. -/
  | ridgeTqProdWrite (q : Nat) (v : Word)
  /-- RIDGE_TX_DESCRIPTOR (R72): The module takes the next transmit descriptor, sends its frame, writes STATUS and DONE, and advances CONS. -/
  | ridgeTxDescriptor (q : Nat) (coll : Nat)
  /-- RIDGE_TSF_POP (R73): A read of RIDGE_TSF3 removes the head entry from the egress time-stamp FIFO. -/
  | ridgeTsfPop
  /-- TICK_ISSUE (R110): When TIM_NOW passes a tick boundary, the time base issues one tick with its number and coalesces skipped boundaries. -/
  | tickIssue
  /-- TICK_RATE_WRITE (R722): A write to TIM_TICK.RATE before the image lock renumbers the ticks at the next time-base cycle. -/
  | tickRateWrite (v : Word)
  /-- OFFSET_SUBMIT (R89): A write to TIM_OFFSET_IN submits a measurement, which is discarded if its tag is stale and otherwise steps or steers the servo. -/
  | offsetSubmit (v : Word)
  /-- STEP_CMD (R88): A write of 1 to TIM_CTRL.STEP_CMD steps by TIM_STEP when STEP_POLICY permits, and otherwise raises event 55. -/
  | stepCmd
  /-- FREQ_ADJ_WRITE (R90): Firmware trims the free-running rate while PRIMARY is none, and the write is ignored otherwise. -/
  | freqAdjWrite (v : Word)
  /-- SOURCE_WATCHDOG_EXPIRY (R91): A time source's watchdog expires, and the module switches source or enters HOLDOVER or FREE. -/
  | sourceWatchdogExpiry (src : Nat)
  /-- PPS_EDGE (R98): A PPS_IN edge is stamped and either forms an offset measurement or is rejected. -/
  | ppsEdge (rising : Bool)
  /-- IRIGB_FRAME (R100): An IRIG-B frame is validated and converted to TAI, and its on-time edge is stamped. -/
  | irigbFrame (f : IrigFrame)
  /-- HOLD_LIMIT_EXCEEDED (R102): EST_ERR grows past TIM_HOLD_LIMIT in holdover, and the state becomes HOLD_EXCEEDED. -/
  | holdLimitExceeded
  /-- TIMEBASE_PLL_LOSS (R105): The time-base PLL loses lock: TIM_NOW runs from the crystal, PLL_LOST sets and HOLDOVER is entered. -/
  | timebasePllLoss
  /-- TIMEBASE_PLL_RELOCK (R105): After the PLL has been relocked and stable for 2 µs, PLL_LOST clears and event 63 is raised. -/
  | timebasePllRelock
  /-- LEAP_APPLY (R108): When TAI seconds reach TIM_LEAP with ARM set, the UTC offset changes by one and ARM clears. -/
  | leapApply
  /-- CMP_ARM (R113): A write of ARM arms a time comparator on its 40-bit target. -/
  | cmpArm (n : Nat) (v : Word)
  /-- CMP_DISARM (R113): A write of DISARM clears a comparator's ARM, and it wins over ARM in the same write. -/
  | cmpDisarm (n : Nat)
  /-- COMPARATOR_FIRE (R113): An armed comparator reaches its target and fires: it sets FIRED and possibly LATE, raises events, triggers acquisition and starts a generator. -/
  | comparatorFire (n : Nat)
  /-- PG_START (R114): A pulse generator starts its train at START, at a comparator's target or at the next TAI second. -/
  | pgStart (g : Nat)
  /-- PG_PULSE (R114): A pulse generator places the edges of its next pulse, or suppresses them under SYNC_ONLY. -/
  | pgPulse (g : Nat)
  /-- PG_TRAIN_DONE (R114): A generator completes COUNT pulses, clears RUNNING and raises event 59. -/
  | pgTrainDone (g : Nat)
  /-- FRAME_LAUNCH (R116): A frame with a launch time reaches its launch time and is sent at L, or is handled as late or discarded at the Belay gate. -/
  | frameLaunch (port : Nat)
  /-- PORT_ENABLE (R122): EN going from 0 to 1 on a process or station port reads MODE, FEC, AN and the redundancy settings and brings up the lane. -/
  | portEnable (p : Nat) (v : Word)
  /-- PORT_DISABLE (R122): Clearing EN drops the link at once and ends the frames in reception and transmission. -/
  | portDisable (p : Nat) (receiving : Bool)
  /-- LINK_UP (R120): A port reaches LINK and raises its link-change event. -/
  | linkUp (p speed : Nat) (eee : Bool)
  /-- LINK_LOSS (R164): A port's link drops: LINK_DOWN counts, queued frames are flushed and link-group buckets are reassigned. -/
  | linkLoss (p : LinkLost)
  /-- LANE_RETRAIN (R124): A port regains block lock or re-adapts and retrains its lane without host action, raising event 12. -/
  | laneRetrain (p : Nat)
  /-- PORT_FRAME_RECEIVED (R129): A process port receives a whole frame, applies the MAC checks and redundancy handling, and sends it to exactly one destination. -/
  | portFrameReceived (p : Nat) (f : RxFrame)
  /-- LPI_RECEIVED (R131): A process port receives low-power idle signalling, keeps its link and counts the episode. -/
  | lpiReceived (p : Nat)
  /-- NODE_ENTRY_FORGET (R140): A node-table entry unused for longer than FORGET is freed. -/
  | nodeEntryForget (p mac : Nat)
  /-- SUPERVISION_TX (R135): Every SUP_INT seconds a PRP pair sends a supervision frame on both ports. -/
  | supervisionTx (p : Nat)
  /-- LAN_SILENT (R143): A port of a PRP pair that has received nothing for SILENT_MS while its partner has received a frame raises event 9. -/
  | lanSilent (p : Nat)
  /-- SWITCH_FORWARD (R154): The switch core determines a frame's destination set and admits it into the shared buffer. -/
  | switchForward
  /-- FDB_ENTRY_AGE (R155): A learned entry ages out after AGE_S seconds without a frame from its source. -/
  | fdbEntryAge (vid mac : Nat)
  /-- FDB_READ (R186): The FDB read command looks up the entry of the key into SWC_FDB_RES. -/
  | fdbRead
  /-- FDB_WRITE (R155): The FDB write command writes an entry, with a static entry replacing a learned one. -/
  | fdbWrite
  /-- FDB_DELETE (R186): The FDB delete command removes the entry of the key. -/
  | fdbDelete
  /-- FDB_FLUSH_LEARNED (R186): The FDB flush command removes every learned entry. -/
  | fdbFlushLearned
  /-- EGRESS_FRAME_START (R169): A frame reaches the head of its egress port and starts, or is discarded at the closed Belay gate. -/
  | egressFrameStart (port : Nat)
  /-- EGRESS_FRAME_END (R160): A frame's transmission ends and its reference is released, freeing cells when the count reaches zero. -/
  | egressFrameEnd (port : Nat)
  /-- LAG_BUCKET_WRITE (R164): Firmware rewrites a link group's bucket map, and the new map takes effect between frames. -/
  | lagBucketWrite (k w : Nat) (v : Word)
  /-- MIRROR_CONS_WRITE (R167): Software writes the count of mirror records it has consumed. -/
  | mirrorConsWrite (m : Nat) (v : Word)
  /-- GATE_FORCE_CLOSE_WRITE (R170): A write to SWC_GATE.FORCE_CLOSE closes the gate, or when cleared opens it if the lease is held. -/
  | gateForceCloseWrite (v : Bool)
  /-- STATION_FRAME_RECEIVED (R172): A station port receives a whole frame, verifies MAC checks and MACsec, and sends it to exactly one destination. -/
  | stationFrameReceived (p : Nat) (f : RxFrame)
  /-- EEE_LPI_ENTRY (R173): A station port whose queues have been empty for IDLE_US enters transmit low-power idle. -/
  | eeeLpiEntry (p : Nat)
  /-- EEE_WAKE (R175): A frame or a due launch makes a port leave low-power idle, and the frame starts TX_TW µs later. -/
  | eeeWake (p : Nat)
  /-- EEE_TW_WRITE (R176): Firmware writes the resolved wake time, and a value below TW_MIN raises event 5. -/
  | eeeTwWrite (p : Nat) (v : Word)
  /-- SA_ENABLE (R179): Setting SA_EN records the key slot's generation, or clears SA_EN with KEY_REFUSED. -/
  | saEnable (p sa : Nat) (v : Word)
  /-- RHIZOID_SV_FRAME (R196): A Rhizoid engine parses and matches every ASDU of a sampled-value frame and checks and places each one. -/
  | rhizoidSvFrame (e : Nat)
  /-- SLOT_ENABLE (R190): EN going from 0 to 1 on a stream slot reads its configuration, increments GEN and enters ACQUIRING. -/
  | slotEnable (k : Nat) (v : Word)
  /-- SLOT_DISABLE (R214): Clearing a slot's EN makes it DISABLED and marks its later entries STREAM_INV. -/
  | slotDisable (k : Nat)
  /-- GROUP_ENABLE (R727): Enabling an alignment group reads its configuration and sets NEXT to the first instant not yet past. -/
  | groupEnable (g : Nat) (v : Word)
  /-- GROUP_DISABLE (R217): Clearing a group's EN discards its unreleased rows and removes its slots from matching. -/
  | groupDisable (g : Nat)
  /-- SIM_MODE_WRITE (R204): A write to RHZ_CTRL.SIM_MODE changes simulation acceptance, and clearing it clears SIM_SEEN on every slot. -/
  | simModeWrite (v : Bool)
  /-- INSTANT_RELEASE (R212): An alignment instant is released at completion or at its deadline plus the guard, and its slot states, substitutions and release record are set. -/
  | instantRelease (g : Nat)
  /-- SORUS_INSTANT_DONE (R253): A Sorus lane finishes a released decimated instant and writes channel records, tracking records, pickup entries and LATEST. -/
  | sorusInstantDone (g : Nat)
  /-- CHANNEL_ENABLE (R226): EN going from 0 to 1 on a Sorus channel reads its configuration and causes a channel switch. -/
  | channelEnable (c : Nat) (v : Word)
  /-- TRK_GROUP_ENABLE (R244): Enabling or disabling a tracking group resets it to NOMINAL at FNOM. -/
  | trkGroupEnable (t : Nat) (v : Word)
  /-- GOLDEN_VECTOR_RUN (R226): A lane completes a golden-vector run on idle contexts and counts any mismatch. -/
  | goldenVectorRun (l : Nat) (ok again : Bool)
  /-- STICKY_CLEAR (R271): A write of 1 to STICKY clears STICKY, COUNT and FIRST of a comparator's watermark. -/
  | stickyClear (w : Nat) (v : Word)
  /-- THR_STAT_READ (R272): A read of THRk_STAT returns the watermark and latches FIRST into the requester's shadow. -/
  | thrStatRead (who : Requester) (k : Nat)
  /-- COMPARATOR_ENABLE (R278): EN going from 0 to 1 on a comparator reads its configuration and clears LIVE, run and TRANS. -/
  | comparatorEnable (k : Nat) (v : Word)
  /-- INSTANT_MARKER (R297): An instant marker reaches Crozier, which copies the snapshot ranges and decides the fence of the ready tick. -/
  | instantMarker (g m : Nat)
  /-- CRZ_TICK (R285): Crozier acts on a tick number: it handles gaps, table boundaries and skips, makes due entries ready and runs moves. -/
  | crzTick
  /-- TASK_START (R301): A pending task whose conditions are met has its PMP loaded, stages in, has its header written and starts on its core. -/
  | taskStart (t : Starting)
  /-- HOLD_LIMIT_EXPIRY (R296): A held task reaches its hold limit and starts with PLANE_LATE set. -/
  | holdLimitExpiry (c : Nat)
  /-- TASK_EXIT (R337): A task executes ECALL with a7 = 0, records its exit status and begins its commit. -/
  | taskExit (c : Nat)
  /-- COMMIT_COMPLETE (R299): A task's stage-out commits as one whole, its digest record is formed and output-image changes are detected. -/
  | commitComplete (c : Nat)
  /-- BUDGET_EXPIRY (R307): A running task reaches its budget and enters OVER, counting an overrun. -/
  | budgetExpiry (c : Nat)
  /-- TASK_ABORT (R307): A task reaches twice its budget, the core is halted and nothing is committed. -/
  | taskAbort (c : Nat)
  /-- LEASE_RENEWAL (R310): Every 2 ms Crozier renews the Belay lease when every health check passes. -/
  | leaseRenewal
  /-- SWAP_ARM (R316): A write of ARM arms a program swap at tick S, or refuses it. -/
  | swapArm (v : Word)
  /-- SWAP_CANCEL (R316): A write of CANCEL returns an armed swap to IDLE. -/
  | swapCancel
  /-- DESC_READ (R322): The descriptor read command copies a descriptor into CRZ_DESC_DATA. -/
  | descRead
  /-- DESC_WRITE (R292): The descriptor write command writes a descriptor with GEN + 1, or is refused when the descriptor is in use. -/
  | descWrite
  /-- TBL_EN_WRITE (R309): A write to CRZ_CTRL.TBL_EN enables or disables tables, and clearing P or C is refused while the lease is held. -/
  | tblEnWrite (who : Requester) (v : Nat)
  /-- QADD (R340): A Frond core executes a saturating Q31 add. -/
  | qadd (c rd rs1 rs2 : Nat)
  /-- QSUB (R340): A Frond core executes a saturating Q31 subtract. -/
  | qsub (c rd rs1 rs2 : Nat)
  /-- QMUL (R340): A Frond core executes a rounded Q31 product. -/
  | qmul (c rd rs1 rs2 : Nat)
  /-- QNEG (R340): A Frond core executes a saturating negate. -/
  | qneg (c rd rs1 : Nat)
  /-- QSHL (R340): A Frond core executes a saturating left shift. -/
  | qshl (c rd rs1 rs2 : Nat)
  /-- QRSHR (R340): A Frond core executes a rounding right shift. -/
  | qrshr (c rd rs1 rs2 : Nat)
  /-- CMUL (R340): A Frond core executes a complex product. -/
  | cmul (c rd rs1 rs2 : Nat)
  /-- CMULC (R340): A Frond core executes a complex product with the conjugate of rs2. -/
  | cmulc (c rd rs1 rs2 : Nat)
  /-- CMAC (R340): A Frond core accumulates a complex product. -/
  | cmac (c rs1 rs2 : Nat)
  /-- CMACC (R340): A Frond core accumulates a complex product with a conjugate. -/
  | cmacc (c rs1 rs2 : Nat)
  /-- CACCRD (R340): A Frond core reads the accumulator with rounding and saturation. -/
  | caccrd (c rd rs1 : Nat)
  /-- CACCCLR (R340): A Frond core clears the accumulator. -/
  | caccclr (c : Nat)
  /-- CMAG (R340): A Frond core computes the magnitude of a complex operand as Sorus does. -/
  | cmag (c rd rs1 : Nat)
  /-- CANG (R340): A Frond core computes the angle of a complex operand as Sorus does. -/
  | cang (c rd rs1 : Nat)
  /-- GLD16 (R341): A Frond core gathers n words restartably from xfgstart. -/
  | gld16 (c rd rs1 rs2 n : Nat)
  /-- RISCV_INSTRUCTION (R325): A Frond core executes a standard RISC-V instruction of its profile, or raises illegal-instruction. -/
  | riscvInstruction (c : Nat)
  /-- TASK_FAULT (R343): An exception from user mode traps to the monitor, which records the fault; the task is aborted and its instance faulted. -/
  | taskFault (c cause : Nat) (tval : BitVec 64) (machine : Bool)
  /-- DEBUG_HALT (R350): A JTAG debug halt stops a core, between GLD16 elements where one is running. -/
  | debugHalt (c : Nat) (inGather : Bool)
  /-- DEBUG_RESUME (R350): A halted core resumes, continuing any GLD16 from xfgstart. -/
  | debugResume (c : Nat)
  /-- TCM_READ (R353): A TCM port read waits for the core to be IDLE and reads a word into TCM_DATA. -/
  | tcmRead (t : Nat) (v : Word)
  /-- TCM_WRITE (R353): A TCM port write waits for the core to be IDLE and writes a word, or is refused under the lease. -/
  | tcmWrite (t : Nat) (v : Word)
  /-- TUFT_FREQ_WRITE (R347): A FREQ_MHZ write requests a tuft frequency change, or is refused for a tuft holding P or C work. -/
  | tuftFreqWrite (t : Nat) (v : Word)
  /-- TUFT_CLOCK_CHANGE (R555): Once no task is active, the tuft moves to the safe clock, relocks its PLL and switches back. -/
  | tuftClockChange (t : Nat) (done : Bool)
  /-- GOOSE_FRAME_INTAKE (R362): A Rhizoid engine matches a GOOSE frame to a subscription entry and judges it NEW, RETRANS, DUP or OLD. -/
  | gooseFrameIntake (e : Nat)
  /-- GSUB_TIMEOUT (R364): A subscription entry's deadline passes without a frame, and the entry becomes TIMED_OUT. -/
  | gsubTimeout (e : Nat)
  /-- GIN_POST (R366): Firmware posts an auxiliary node's frame as one change to a KIND 1 entry. -/
  | ginPost (v : Word)
  /-- PUB_BLOCK_ENABLE (R376): Enabling a publication block starts its curve with stNum 1 and sends its first frame. -/
  | pubBlockEnable (k : Nat) (v : Word)
  /-- GOOSE_FRAME_DUE (R376): A block's retransmission interval elapses and the next frame is built and sent. -/
  | gooseFrameDue (k : Nat)
  /-- PUB_RESEND (R379): A write of RESEND builds one retransmission of every enabled block. -/
  | pubResend
  /-- FEI_EDGE (R387): An edge on a fast event input is stamped by its TDC, or is lost. -/
  | feiEdge (i : Nat) (rising : Bool) (tap : Nat) (full : Bool)
  /-- TDC_CALIBRATION_START (R390): Calibration of a standby TDC starts by period, temperature change or at start. -/
  | tdcCalibrationStart (i : Nat) (both : Bool)
  /-- CAL_NOW (R390): A write of CAL_NOW calibrates every standby TDC. -/
  | calNow
  /-- TDC_CALIBRATION_DONE (R389): A TDC calibration completes and passes, swapping roles, or fails. -/
  | tdcCalibrationDone (i : Nat) (sideB : Bool) (hist : List Nat)
  /-- XTRIG_EDGE (R391): A falling edge on a cross-trigger line is a trigger unless masked. -/
  | xtrigEdge (l : Nat)
  /-- XTRIG_RELEASE (R391): A capture set releases its XTRIG drive after XT_WIDTH_US. -/
  | xtrigRelease (k : Nat)
  /-- TRIGGER_TIMEOUT (R393): A TIMEOUT unit's source stays past its level for T1_NS, and the unit fires. -/
  | triggerTimeout (u : Nat)
  /-- SETTLE_WINDOW_END (R401): A settling window closes and the earliest acceptable trigger opens a segment. -/
  | settleWindowEnd (k : Nat)
  /-- AUTO_TRIGGER (R402): An AUTO set with no trigger by ARM + AUTO_US takes a forced trigger. -/
  | autoTrigger (k : Nat)
  /-- FORCE (R402): A write of FORCE offers an armed capture set a trigger at the time of the write. -/
  | force (k : Nat)
  /-- REARM (R400): A write of REARM re-arms a stopped SINGLE set. -/
  | rearm (k : Nat)
  /-- CSET_ENABLE (R400): Enabling a capture set arms it, writing any pending gap record. -/
  | csetEnable (k : Nat) (v : Word)
  /-- CSET_DISABLE (R409): Disabling a capture set during a capture truncates the segment. -/
  | csetDisable (k : Nat)
  /-- SEGMENT_COMPLETE (R403): A segment's rows, events, header and directory entry are in DRAM, and the set re-arms. -/
  | segmentComplete (k : Nat)
  /-- ACQ_CONS_WRITE (R407): Host software writes the count of records it has consumed from a capture set. -/
  | acqConsWrite (k : Nat) (v : Word)
  /-- BELAY_IN_CHANGE (R424): The filtered partner Belay line changes level. -/
  | belayInChange (level : Bool)
  /-- LEASE_EXPIRY (R425): The lease timer reaches zero, the gate closes and the Belay line drops. -/
  | leaseExpiry
  /-- ALONE_TIMEOUT (R421): A syncing module waits ALONE_MS with its partner's line inactive and takes authority. -/
  | aloneTimeout
  /-- DOUBLE_CLAIM (R431): An active module sees its partner's line asserted for 1 µs, and the double claim is resolved by epoch and PAIR_ID. -/
  | doubleClaim
  /-- HELLO (R437): A HELLO frame is received and the pair handshake is judged. -/
  | hello (lane : Nat) (f : List Byte)
  /-- KEEPALIVE (R433): A KEEPALIVE frame is received and keeps the Rope up. -/
  | keepalive (lane : Nat) (f : List Byte)
  /-- KEEPALIVE_TX (R433): A module sends KEEPALIVE in each 100 µs in which it has sent no other Rope frame. -/
  | keepaliveTx
  /-- ROPE_TIMEOUT (R433): No valid Rope frame arrives within TMO_US, and the Rope goes down. -/
  | ropeTimeout
  /-- RELEASE (R439): A RELEASE record is received, and the standby follows it in its own release. -/
  | release (lane : Nat) (f : List Byte)
  /-- ASDU_FWD (R200): A forwarded ASDU is received and enters its Rhizoid engine with its original stamp. -/
  | asduFwd (lane : Nat) (f : List Byte)
  /-- GIN_LEDGER (R440): A GIN_LEDGER frame is received and the standby makes its flip of that tick from it. -/
  | ginLedger (lane : Nat) (f : List Byte)
  /-- GOOSE_FWD (R440): A forwarded input change is received by the active module and assigned as late. -/
  | gooseFwd (lane : Nat) (f : List Byte)
  /-- DIGESTS (R445): A DIGESTS frame is received and the standby compares task digests, finding matches or divergences. -/
  | digests (lane : Nat) (f : List Byte)
  /-- LEDGER (R442): A LEDGER frame is received and its digest compared with the module's own for the tick. -/
  | ledger (lane : Nat) (f : List Byte)
  /-- CLAIM (R431): A CLAIM frame from a partner reporting ACTIVE is received and starts double-claim resolution. -/
  | claim (lane : Nat) (f : List Byte)
  /-- HEALTH (R449): A partner HEALTH report is received and stored in ROPE_PHEALTH. -/
  | health (lane : Nat) (f : List Byte)
  /-- HEALTH_TX (R449): Every 100 ms the module sends a HEALTH report. -/
  | healthTx
  /-- HEALTH_MISSING (R449): No partner HEALTH report arrives for three periods while the Rope is up, and event 914 is raised. -/
  | healthMissing
  /-- JOIN (R450): A JOIN frame is received: a request, a reply naming J, or a state block to adopt. -/
  | join (lane : Nat) (f : List Byte)
  /-- JOIN_TIMEOUT (R450): A join does not complete within 2 s, and the joiner sends a new request. -/
  | joinTimeout
  /-- RESOLVE (R447): A RESOLVE request or result is received, and the pair acts on the results. -/
  | resolve (lane : Nat) (f : List Byte)
  /-- TARGETED_SELFTEST_DONE (R446): The targeted self-test of a divergence completes and its result is sent. -/
  | targetedSelftestDone (task : Nat) (pass : Bool) (channels : List Nat)
  /-- RESOLVE_TIMEOUT (R447): No self-test result arrives within 20 ms, and the missing side is faulted or the divergence left unresolved. -/
  | resolveTimeout
  /-- SWAP (R451): A SWAP frame is received and the standby arms, defers or refuses the same swap. -/
  | swap (lane : Nat) (f : List Byte)
  /-- HANDOVER (R452): A HANDOVER frame is received and acknowledged for tick K. -/
  | handover (lane : Nat) (f : List Byte)
  /-- HANDOVER_ACK_TIMEOUT (R452): No acknowledgement arrives within 2 ticks, and the active module keeps authority with HANDOVER_FAIL. -/
  | handoverAckTimeout
  /-- FOLLOW_TIMEOUT (R441): A standby follow step is not complete within FOLLOW_US, and the module decides alone and enters SYNCING. -/
  | followTimeout
  /-- SELFTEST_RESULT (R448): A continuous self-test run completes, and any failure is classified. -/
  | selftestResult (channel : Nat) (ok again : Bool)
  /-- DEMOTE (R452): A write of DEMOTE starts a handover to a healthy standby partner. -/
  | demote
  /-- DEMOTE_FORCE (R421): A write of DEMOTE with FORCE drops authority at once. -/
  | demoteForce
  /-- ROPE_JOIN_CMD (R455): A write of ROPE_CMD.JOIN sends a new join request. -/
  | ropeJoinCmd
  /-- READ (R471): The READ queue command copies instance memory through translation to host memory. -/
  | read (i q : Nat) (e : List Byte)
  /-- WRITE_AT_TICK (R472): The WRITE_AT_TICK command buffers data for application at tick T, or is refused. -/
  | writeAtTick (i q : Nat) (e : List Byte)
  /-- WRITE_AT_TICK_APPLY (R472): A pending write is applied as one commit between the stage-ins of ticks below T and those of tick T. -/
  | writeAtTickApply (i : Nat)
  /-- NOP (R471): The NOP command completes with status OK. -/
  | nop (i q : Nat) (e : List Byte)
  /-- INST_CREATE (R458): INST_CREATE sets up an instance with a new generation, windows and PMP block. -/
  | instCreate (e : List Byte)
  /-- INST_SET_WINDOWS (R463): INST_SET_WINDOWS replaces an instance's windows and PMP block. -/
  | instSetWindows (e : List Byte)
  /-- INST_MAP (R468): INST_MAP writes translation entries tagged with the owner. -/
  | instMap (e : List Byte)
  /-- INST_UNMAP (R468): INST_UNMAP clears VALID on translation entries. -/
  | instUnmap (e : List Byte)
  /-- INST_START (R458): INST_START schedules the instance to become RUNNING at tick K. -/
  | instStart (e : List Byte)
  /-- INST_FREEZE (R458): INST_FREEZE schedules the instance to stop starting tasks from tick T. -/
  | instFreeze (e : List Byte)
  /-- FREEZE_COMPLETE (R458): A freezing instance's last outstanding task ends, and it becomes FROZEN. -/
  | freezeComplete (inst : Nat)
  /-- INST_SAVE (R476): INST_SAVE writes a saved image of a frozen instance to host memory. -/
  | instSave (e : List Byte)
  /-- INST_RESTORE (R478): INST_RESTORE checks and writes a saved image into a target instance. -/
  | instRestore (e : List Byte)
  /-- INST_RESTART (R458): INST_RESTART schedules a faulted instance to resume at tick K. -/
  | instRestart (e : List Byte)
  /-- INST_MIGRATE_OUT (R480): INST_MIGRATE_OUT schedules disabling of the owned blocks at tick K. -/
  | instMigrateOut (e : List Byte)
  /-- INST_CANCEL (R473): INST_CANCEL withdraws the instance's pending tick actions. -/
  | instCancel (e : List Byte)
  /-- INST_DESTROY (R458): INST_DESTROY frees an instance and deletes its queues. -/
  | instDestroy (e : List Byte)
  /-- QUEUE_CREATE (R470): QUEUE_CREATE creates a queue with a new QGEN. -/
  | queueCreate (e : List Byte)
  /-- QUEUE_DELETE (R473): QUEUE_DELETE deletes a queue. -/
  | queueDelete (e : List Byte)
  /-- QUEUE_REINIT (R470): QUEUE_REINIT resets a queue's indices and increments QGEN. -/
  | queueReinit (e : List Byte)
  /-- SLICE_WRITE (R465): A write through a slice window is discarded and counted. -/
  | sliceWrite (addr : Nat)
  /-- DOORBELL_WRITE (R494): A DB write updates a queue's producer or consumer index and may re-arm its vector. -/
  | doorbellWrite (addr bytes : Nat) (v : Word)
  /-- SQ_ENTRY_FETCH (R498): The module fetches and starts the next submission entry when completion room allows. -/
  | sqEntryFetch
  /-- ADMQ_ENABLE (R501): EN going from 0 to 1 on the admin queue re-initialises both admin queues, and clearing EN deletes them. -/
  | admqEnable (v : Word)
  /-- PERST_ASSERT (R38): PERST_N asserts and resets the PCIe controller and HIF while protection runs on. -/
  | perstAssert
  /-- PERST_DEASSERT (R38): PERST_N deasserts and link training begins. -/
  | perstDeassert
  /-- FUNCTION_LEVEL_RESET (R490): A Function Level Reset acts as PERST_N. -/
  | functionLevelReset
  /-- LINK_DL_DOWN (R506): The PCIe link goes down without PERST_N; completions are held and in-flight writes lost. -/
  | linkDlDown (lost : Nat)
  /-- CONFIG_REQUEST (R491): A configuration request is answered with retry status until the always-on stage is complete. -/
  | configRequest (r : CfgReg) (write : Bool) (v : Word)
  /-- MSIX_ENABLE (R39): Enabling MSI-X sends one message for each pending vector. -/
  | msixEnable (en mask : Bool)
  /-- MSIX_UNMASK (R505): Clearing a vector's mask sends its pending message. -/
  | msixUnmask (v : Nat)
  /-- ASPM_L1_ENTRY (R508): After L1_IDLE_US of idleness the module enters ASPM L1. -/
  | aspmL1Entry (clkreq : Bool)
  /-- D_STATE_CHANGE (R509): The host moves the function between D0 and D3hot, holding or resuming queue traffic. -/
  | dStateChange (d3 : Bool)
  /-- PME_TURN_OFF (R510): The host's PME_Turn_Off is answered with PME_TO_Ack and the module enters L2. -/
  | pmeTurnOff
  /-- PME_SEND (R512): The module starts L1 exit or asserts WAKE_N, and sends PM_PME. -/
  | pmeSend
  /-- LINK_TRAINING_START (R513): Host-initiated link training begins and withdraws an unsent PME. -/
  | linkTrainingStart
  /-- HOST_WINDOW_ACCESS (R523): A host or Ridge access to a Thallus window or the DRAM aperture is served, or refused under the lease or region rules. -/
  | hostWindowAccess (who : Requester) (addr n : Nat) (write : Bool) (data : List Byte)
  /-- HOST_WINDOW_TIMEOUT (R524): A window access not completed within THL_HOST_TMO returns 0xFF bytes or is discarded. -/
  | hostWindowTimeout (who : Requester) (n : Nat) (write : Bool)
  /-- WIPE_START (R527): A wipe trigger sets WIPE_PEND and starts zeroing the secure bank. -/
  | wipeStart
  /-- WIPE_DONE (R527): The wipe ends verified, setting WIPED, or fails and keeps the key store closed. -/
  | wipeDone (ok : Bool)
  /-- DDR_ZQ_CALIBRATION (R532): Every 128 ms the controller runs ZQ calibration. -/
  | ddrZqCalibration (c : Nat)
  /-- DDR_DQS_OSC_CHECK (R532): Every 64 ms the DQS oscillator is read, and a drifted rank is retrained. -/
  | ddrDqsOscCheck (c drifted : Nat)
  /-- DDR_MR4_READ (R532): Every 32 ms MR4 is read and the refresh rate and temperature flags are set. -/
  | ddrMr4Read (c : Nat) (hot above : Bool)
  /-- DOMAIN_POWER_REQUEST (R552): A power-up or power-down request for a domain joins the governor's queue. -/
  | domainPowerRequest (d : Nat)
  /-- DOMAIN_ADMIT (R552): The ramp governor admits a request from the head of its queue within the window budget. -/
  | domainAdmit
  /-- DOMAIN_ON (R553): An admitted domain completes its transition to ON, OFF or RET. -/
  | domainOn (d : Nat)
  /-- CORE_IDLE_TIMEOUT (R550): A core idle for IDLE_US goes to RET or OFF. -/
  | coreIdleTimeout (c : Nat)
  /-- PLL_LOSS_OF_LOCK (R35): A PLL loses lock uncommanded, causing a tuft unit reset, a warm reset or holdover. -/
  | pllLossOfLock (p : Nat) (srLost : Bool)
  /-- RELOCK_TIMEOUT (R556): A commanded relock is not locked within 100 µs, and is retried or treated as loss of lock. -/
  | relockTimeout (p : Nat)
  /-- SENSOR_SAMPLE (R557): Every 100 µs the temperature sensors are read, and faults, zones and PL_THERMAL are updated. -/
  | sensorSample (temps : List Int)
  /-- THERMAL_TRIP (R560): A zone comparator trips at 125 °C, asserting THERMTRIP_N, ending the lease and holding cold reset. -/
  | thermalTrip
  /-- SSM_SAMPLE (R561): Every 1 ms the supply monitor samples VBAT and IBAT, counts charge and checks UVLO. -/
  | ssmSample (vcode : Nat) (icode : Int)
  /-- SOC_EVALUATE (R564): Once per second the two charge estimates are compared, re-anchored and PL_SUPPLY updated. -/
  | socEvaluate
  /-- SOCQ_SET (R562): Firmware loads a saved SOC_Q value. -/
  | socqSet (v : Word)
  /-- BIV_ENTER (R570): A write of BIV_ENTER takes the module into Bivouac, or is refused. -/
  | bivEnter
  /-- BIV_EXIT (R572): A write of BIV_EXIT is a wake request from Bivouac. -/
  | bivExit
  /-- AUX_ENABLE (R586): EN going from 0 to 1 on an auxiliary segment powers its PHY and raises AUXEN. -/
  | auxEnable (seg : Nat) (v : Word)
  /-- AUX_DISABLE (R586): Clearing EN disables a segment at once, dropping AUXEN and flushing its queues. -/
  | auxDisable (seg : Nat)
  /-- AUXEN_RAMP_DONE (R586): The ramp timer elapses, a wake burst is sent and the segment enters NORMAL. -/
  | auxenRampDone (seg : Nat)
  /-- AUX_FRAME_RECEIVED (R581): A segment receives a frame, stamps it and delivers it to its Ridge queue. -/
  | auxFrameReceived (seg : Nat) (f : RxFrame)
  /-- GO_LISTEN (R586): The GO_LISTEN command moves a segment from NORMAL to LISTEN. -/
  | goListen (seg : Nat)
  /-- GO_NORMAL (R586): The GO_NORMAL command moves a segment to NORMAL from LISTEN, DRAINING, STANDBY or SLEEP. -/
  | goNormal (seg : Nat)
  /-- SLEEP (R594): The SLEEP command starts orderly sleep, or is refused under the lease. -/
  | sleep (seg : Nat)
  /-- WAKE (R586): The WAKE command wakes a segment from SLEEP. -/
  | wake (seg : Nat)
  /-- STAY (R586): The STAY command restarts the awake timer. -/
  | stay (seg : Nat)
  /-- AWAKE_TIMER_EXPIRY (R586): The awake timer expires and the segment enters DRAINING. -/
  | awakeTimerExpiry (seg : Nat)
  /-- SLEEP_FRAME_TX (R591): A draining segment sends the next of its three sleep frames 1 ms apart. -/
  | sleepFrameTx (seg : Nat)
  /-- SLEEP_DELAY_DONE (R591): SLEEP_DLY_MS after the third frame, the segment enters SLEEP. -/
  | sleepDelayDone (seg : Nat)
  /-- AUXEN_HOLD_EXPIRY (R591): AUXEN_HOLD_MS after SLEEP, AUXEN is driven low. -/
  | auxenHoldExpiry (seg : Nat)
  /-- WAKE_DETECT (R588): The wake detector fires on line activity and the segment enters WAKING, or the wake is ignored. -/
  | wakeDetect (seg : Nat) (us : Nat)
  /-- WAKE_WINDOW_EXPIRY (R586): FW_WIN_MS passes unconfirmed, a false wake is counted and the segment returns to SLEEP. -/
  | wakeWindowExpiry (seg : Nat)
  /-- WAKE_LOCK_EXPIRY (R590): WAKE_LOCK clears after FW_LOCK_S. -/
  | wakeLockExpiry (seg : Nat)
  /-- AUX_FS_KICK (R595): A write of KICK restarts the fail-safe timer. -/
  | auxFsKick (seg : Nat)
  /-- AUX_FS_CLEAR (R596): A write of CLEAR clears FS_LATCHED and restarts the timer. -/
  | auxFsClear (seg : Nat)
  /-- FAILSAFE_TIMEOUT (R595): The fail-safe timer expires, setting FS_LATCHED and starting the fail-safe sequence. -/
  | failsafeTimeout (seg : Nat)
  /-- FAILSAFE_FRAME_TX (R596): The fail-safe sequence sends its next native or NY7100 frame. -/
  | failsafeFrameTx (seg : Nat)
  /-- POWER_ON (R601): VDD_AON rises and a power-on reset starts. -/
  | powerOn
  /-- SYS_RST_ASSERT (R602): SYS_RST_N going low causes a cold reset. -/
  | sysRstAssert (cool : Bool)
  /-- WARM_RST_ASSERT (R602): WARM_RST_N going low causes a warm reset. -/
  | warmRstAssert
  /-- RESET_RELEASE (R608): A held reset source is released and the start sequence begins. -/
  | resetRelease (c : Nat)
  /-- RAIL_FAULT (R602): A monitored rail falls below its threshold and causes a cold reset. -/
  | railFault
  /-- TAMPER (R658): TAMPER_N asserts, starting a wipe followed by a warm reset. -/
  | tamper
  /-- RST_CMD_COLD (R604): RST_CMD.COLD with the key causes a cold reset, subject to the lease. -/
  | rstCmdCold (who : Requester) (v : Word)
  /-- RST_CMD_WARM (R604): RST_CMD.WARM with the key causes a warm reset, subject to the lease. -/
  | rstCmdWarm (who : Requester) (v : Word)
  /-- CRZ_WATCHDOG_EXPIRY (R605): The Crozier watchdog is not reloaded for CRZ_MS and raises a warm reset. -/
  | crzWatchdogExpiry
  /-- RIDGE_WATCHDOG_HALF (R606): A Ridge watchdog reaches half its period and raises event 2. -/
  | ridgeWatchdogHalf (m : Nat)
  /-- RIDGE_WATCHDOG_EXPIRY (R606): A Ridge watchdog expires and causes a warm reset or a unit reset of its core. -/
  | ridgeWatchdogExpiry (m : Nat)
  /-- RST_KICK (R606): A write to RST_KICK reloads Ridge watchdogs. -/
  | rstKick (v : Word)
  /-- START_STAGE_DONE (R613): A start stage completes, the next begins or the start falls back or enters recovery. -/
  | startStageDone (w : StageIn)
  /-- ERASE (R635): The ERASE command journals and erases sectors of a slot. -/
  | erase (v : Word)
  /-- PROGRAM (R635): The PROGRAM command programs bytes of a slot from DRAM or IMG_PAGE. -/
  | program (v : Word) (bad : Bool)
  /-- VERIFY (R635): The VERIFY command checks a staged slot and sets STAGED_VALID. -/
  | verify (v : Word) (bad : Bool)
  /-- ACTIVATE (R635): The ACTIVATE command writes a BCR record naming the staged slot. -/
  | activate (v : Word) (bad : Bool)
  /-- LOAD_SWAP (R637): The LOAD_SWAP command checks and applies a SWAP package from DRAM. -/
  | loadSwap (v : Word)
  /-- IMG_READ (R635): The READ command copies slot bytes to DRAM. -/
  | imgRead (v : Word) (bad : Bool)
  /-- FLASH_ERASE_DONE (R630): The device reports the last sector erased and a DONE entry is journalled. -/
  | flashEraseDone (ok : Bool)
  /-- KEY_WRITE (R650): The WRITE command loads material and attributes into a key slot. -/
  | keyWrite (v : Word)
  /-- DERIVE (R652): The DERIVE command computes a KDF key into a slot from a parent or the root. -/
  | derive (v : Word)
  /-- INVALIDATE (R653): The INVALIDATE command zeroes a slot and increments its GEN, orphaning its descendants. -/
  | invalidate (v : Word)
  /-- KEY_READ (R651): The READ command copies a readable slot to KEY_RDATA. -/
  | keyRead (v : Word)
  /-- RDATA_TIMEOUT (R650): KEY_RDATA is cleared 1 ms after the READ ends. -/
  | rdataTimeout
  /-- KEY_CLR (R650): A write of CLR clears KEY_RDATA. -/
  | keyClr
  /-- WIPE (R650): The WIPE command wipes the secure bank. -/
  | wipe (v : Word)
  /-- ENROL (R646): The ENROL command sets ENROL_PEND for new helper data at the next cold start. -/
  | enrol (v : Word)
  /-- LC_ADVANCE (R642): The LC_ADVANCE command advances the life-cycle fuses with a wipe and a cold reset. -/
  | lcAdvance (v : Word)
  /-- SVN_RAISE (R657): The SVN_RAISE command raises the fused minimum SVN by one. -/
  | svnRaise (v : Word)
  /-- ANCHOR_REVOKE (R657): The ANCHOR_REVOKE command revokes a fused anchor. -/
  | anchorRevoke (v : Word)
  /-- DBG_ARM (R647): The DBG_ARM command arms debug for the next cold start. -/
  | dbgArm (v : Word)
  /-- DBG_DISARM (R647): The DBG_DISARM command clears DBG_ARMED. -/
  | dbgDisarm (v : Word)
  /-- LOG_RECORD_WRITE (R670): Cairn writes the FIFO head to the log when enabled, unfrozen and with room, emitting coalesced records at a marker. -/
  | logRecordWrite
  /-- RECORD_WRITE_RETRY (R679): A failed record write is retried every 10 µs. -/
  | recordWriteRetry
  /-- CRN_CONS_WRITE (R674): Software writes the count of consumed records, freeing log room. -/
  | crnConsWrite (v : Word)
  /-- FREEZE (R677): Setting FREEZE holds record writing, and clearing it resumes writing. -/
  | freeze (v : Bool)
  /-- FREEZE_TIMEOUT (R677): FREEZE clears itself after FREEZE_MAX_MS. -/
  | freezeTimeout
  /-- NOTE (R676): A write of NOTE places a NOTE report from CRN_NOTE into the FIFO. -/
  | note
  /-- RETIRE_CMD (R686): A write of GO to CRN_RETIRE retires a channel by command, or is refused. -/
  | retireCmd (channel : Nat)
  /-- DATA_LINK_UP (R516): The PCIe data link comes up after training, raising event 64 and event 65 when it trains below 32.0 GT/s x8, and lets a pending PM_PME be sent. -/
  | dataLinkUp (speed width : Nat)
  /-- COMPLETION_TIMEOUT (R500): A host read of a ring or of command data ends in a completion timeout or an unsuccessful completion, and the queue enters ERROR with event 72. -/
  | completionTimeout (i q : Nat)
  /-- PLCA_STATUS_CHANGE (R579): A segment's PLCA status goes false and the segment falls back to CSMA/CD, or goes true again, raising segment event 3. -/
  | plcaStatusChange (seg : Nat) (v : Bool)
  /-- JABBER (R580): A transmission on a segment that lasts longer than 2 ms is ended by the jabber function, counted in JABBER and reported with event 3. -/
  | jabber (seg : Nat)
  /-- WAKE_BURST_DECODED (R589): Sixteen consecutive wake words are decoded on a segment, confirming a wake in WAKING or abandoning a sleep in DRAINING. -/
  | wakeBurstDecoded (seg : Nat)
  /-- GSUB_ENABLE (R361): EN going from 0 to 1 on a GOOSE subscription entry reads its configuration, increments its GEN and clears its history; clearing EN discards a pending change. -/
  | gsubEnable (e : Nat) (v : Word)
  /-- DDR_SELF_REFRESH_ENTRY (R571): In Bivouac a trained DDR channel that has been idle for 10 µs enters self-refresh. -/
  | ddrSelfRefreshEntry (c : Nat)
  /-- LOSS_OF_VDD_AON (R422): VDD_AON falls below its power-on threshold, the Belay line is left undriven and the module stops until power returns. -/
  | lossOfVddAon
  /-- UNKNOWN_ROPE_FRAME (R435): A Rope frame of an unknown TYPE is received, counted in ROPE_UNKNOWN and ignored. -/
  | unknownRopeFrame (lane : Nat) (f : List Byte)
  deriving DecidableEq, Repr

end Sys2Proof
end

