-- ==== Sys2Proof/WellFormed.lean ====
section
/-! DEFINITION. Which commands name something that the module has: the ranges of their operands. The meanings take any operand; a
command that is not well formed names nothing and has no effect of its own. -/

namespace Sys2Proof

/-- A submission entry has 64 bytes (R495); a sensor sample has 48 readings (R557); a calibration has 64 counts (R389). -/
def entryWf (e : List Byte) : Bool := e.length == 64

/-- Are the operands of a command in their ranges? -/
def Instr.wf (i : Instr) : Bool :=
  match i with
  | .registerWrite _ addr _ => decide (addr < 0x8000000)
  | .unmappedAccess _ addr _ => decide (addr < 0x11000000)
  | .misalignedAccess _ addr _ _ => decide (addr < 0x8000000)
  | .counterLoRead _ addr => decide (addr < 0x8000000)
  | .counterHiWrite _ addr _ => decide (addr < 0x8000000)
  | .counterLoWrite _ addr _ => decide (addr < 0x8000000)
  | .counter64Access _ addr _ _ => decide (addr < 0x8000000)
  | .unitQuiesceWrite _ hdr _ => decide (hdr < 0x8000000)
  | .unitIdleReached hdr => decide (hdr < 0x8000000)
  | .unitResetRequest _ hdr => decide (hdr < 0x8000000)
  | .quiesceTimeout hdr => decide (hdr < 0x8000000)
  | .evtPendClear k _ _ => decide (k < 32)
  | .ridgeRqConsWrite q _ => decide (q < 9)
  | .ridgeQueueEnable _ q _ => decide (q < 9)
  | .ridgeTqProdWrite q _ => decide (q < 9)
  | .ridgeTxDescriptor q _ => decide (q < 9)
  | .ridgeTsfPop => true
  | .tickIssue => true
  | .tickRateWrite _ => true
  | .offsetSubmit _ => true
  | .stepCmd => true
  | .freqAdjWrite _ => true
  | .sourceWatchdogExpiry src => decide (src < 4)
  | .ppsEdge _ => true
  | .irigbFrame _ => true
  | .holdLimitExceeded => true
  | .timebasePllLoss => true
  | .timebasePllRelock => true
  | .leapApply => true
  | .cmpArm n _ => decide (n < 64)
  | .cmpDisarm n => decide (n < 64)
  | .comparatorFire n => decide (n < 64)
  | .pgStart g => decide (g < 8)
  | .pgPulse g => decide (g < 8)
  | .pgTrainDone g => decide (g < 8)
  | .frameLaunch port => decide (port < 23)
  | .portEnable p _ => decide (p < 20)
  | .portDisable p _ => decide (p < 20)
  | .linkUp p _ _ => decide (p < 22)
  | .linkLoss p => decide (p.port < 22)
  | .laneRetrain p => decide (p < 22)
  | .portFrameReceived p _ => decide (p < 16)
  | .lpiReceived p => decide (p < 16)
  | .nodeEntryForget p mac => decide (p < 16) && decide (mac < 2 ^ 48)
  | .supervisionTx p => decide (p < 16)
  | .lanSilent p => decide (p < 16)
  | .switchForward => true
  | .fdbEntryAge vid mac => decide (vid < 4096) && decide (mac < 2 ^ 48)
  | .fdbRead => true
  | .fdbWrite => true
  | .fdbDelete => true
  | .fdbFlushLearned => true
  | .egressFrameStart port => decide (port < 23)
  | .egressFrameEnd port => decide (port < 23)
  | .lagBucketWrite k w _ => decide (k < 4) && decide (w < 16)
  | .mirrorConsWrite m _ => decide (m < 4)
  | .gateForceCloseWrite _ => true
  | .stationFrameReceived p _ => decide (p < 4)
  | .eeeLpiEntry p => decide (p < 4)
  | .eeeWake p => decide (p < 4)
  | .eeeTwWrite p _ => decide (p < 4)
  | .saEnable p sa _ => decide (p < 4) && decide (sa < 36)
  | .rhizoidSvFrame e => decide (e < 17)
  | .slotEnable k _ => decide (k < 1024)
  | .slotDisable k => decide (k < 1024)
  | .groupEnable g _ => decide (g < 16)
  | .groupDisable g => decide (g < 16)
  | .simModeWrite _ => true
  | .instantRelease g => decide (g < 16)
  | .sorusInstantDone g => decide (g < 16)
  | .channelEnable c _ => decide (c < 8192)
  | .trkGroupEnable t _ => decide (t < 64)
  | .goldenVectorRun l _ _ => decide (l < 16)
  | .stickyClear w _ => decide (w < 1024)
  | .thrStatRead _ k => decide (k < 32768)
  | .comparatorEnable k _ => decide (k < 32768)
  | .instantMarker g _ => decide (g < 16)
  | .crzTick => true
  | .taskStart t => decide (t.tuft < 16)
  | .holdLimitExpiry c => decide (c < 128)
  | .taskExit c => decide (c < 128)
  | .commitComplete c => decide (c < 128)
  | .budgetExpiry c => decide (c < 128)
  | .taskAbort c => decide (c < 128)
  | .leaseRenewal => true
  | .swapArm _ => true
  | .swapCancel => true
  | .descRead => true
  | .descWrite => true
  | .tblEnWrite _ v => decide (v < 16)
  | .qadd c rd rs1 rs2 => decide (c < 128) && decide (rd < 32) && decide (rs1 < 32) && decide (rs2 < 32)
  | .qsub c rd rs1 rs2 => decide (c < 128) && decide (rd < 32) && decide (rs1 < 32) && decide (rs2 < 32)
  | .qmul c rd rs1 rs2 => decide (c < 128) && decide (rd < 32) && decide (rs1 < 32) && decide (rs2 < 32)
  | .qneg c rd rs1 => decide (c < 128) && decide (rd < 32) && decide (rs1 < 32)
  | .qshl c rd rs1 rs2 => decide (c < 128) && decide (rd < 32) && decide (rs1 < 32) && decide (rs2 < 32)
  | .qrshr c rd rs1 rs2 => decide (c < 128) && decide (rd < 32) && decide (rs1 < 32) && decide (rs2 < 32)
  | .cmul c rd rs1 rs2 => decide (c < 128) && decide (rd < 32) && decide (rs1 < 32) && decide (rs2 < 32)
  | .cmulc c rd rs1 rs2 => decide (c < 128) && decide (rd < 32) && decide (rs1 < 32) && decide (rs2 < 32)
  | .cmac c rs1 rs2 => decide (c < 128) && decide (rs1 < 32) && decide (rs2 < 32)
  | .cmacc c rs1 rs2 => decide (c < 128) && decide (rs1 < 32) && decide (rs2 < 32)
  | .caccrd c rd rs1 => decide (c < 128) && decide (rd < 32) && decide (rs1 < 32)
  | .caccclr c => decide (c < 128)
  | .cmag c rd rs1 => decide (c < 128) && decide (rd < 32) && decide (rs1 < 32)
  | .cang c rd rs1 => decide (c < 128) && decide (rd < 32) && decide (rs1 < 32)
  | .gld16 c rd rs1 rs2 n => decide (c < 128) && decide (rd < 32) && decide (rs1 < 32) && decide (rs2 < 32) && decide (n < 16)
  | .riscvInstruction c => decide (c < 128)
  | .taskFault c _ _ _ => decide (c < 128)
  | .debugHalt c _ => decide (c < 128)
  | .debugResume c => decide (c < 128)
  | .tcmRead t _ => decide (t < 16)
  | .tcmWrite t _ => decide (t < 16)
  | .tuftFreqWrite t _ => decide (t < 16)
  | .tuftClockChange t _ => decide (t < 16)
  | .gooseFrameIntake e => decide (e < 17)
  | .gsubTimeout e => decide (e < 4096)
  | .ginPost _ => true
  | .pubBlockEnable k _ => decide (k < 4096)
  | .gooseFrameDue k => decide (k < 4096)
  | .pubResend => true
  | .feiEdge n _ tap _ => decide (n < 16) && decide (tap < 64)
  | .tdcCalibrationStart n _ => decide (n < 16)
  | .calNow => true
  | .tdcCalibrationDone n _ hist => decide (n < 16) && hist.length == 64
  | .xtrigEdge l => decide (l < 4)
  | .xtrigRelease k => decide (k < 8)
  | .triggerTimeout u => decide (u < 32)
  | .settleWindowEnd k => decide (k < 8)
  | .autoTrigger k => decide (k < 8)
  | .force k => decide (k < 8)
  | .rearm k => decide (k < 8)
  | .csetEnable k _ => decide (k < 8)
  | .csetDisable k => decide (k < 8)
  | .segmentComplete k => decide (k < 8)
  | .acqConsWrite k _ => decide (k < 8)
  | .belayInChange _ => true
  | .leaseExpiry => true
  | .aloneTimeout => true
  | .doubleClaim => true
  | .hello lane _ => decide (lane < 2)
  | .keepalive lane _ => decide (lane < 2)
  | .keepaliveTx => true
  | .ropeTimeout => true
  | .release lane _ => decide (lane < 2)
  | .asduFwd lane _ => decide (lane < 2)
  | .ginLedger lane _ => decide (lane < 2)
  | .gooseFwd lane _ => decide (lane < 2)
  | .digests lane _ => decide (lane < 2)
  | .ledger lane _ => decide (lane < 2)
  | .claim lane _ => decide (lane < 2)
  | .health lane _ => decide (lane < 2)
  | .healthTx => true
  | .healthMissing => true
  | .join lane _ => decide (lane < 2)
  | .joinTimeout => true
  | .resolve lane _ => decide (lane < 2)
  | .targetedSelftestDone task _ _ => decide (task < 65536)
  | .resolveTimeout => true
  | .swap lane _ => decide (lane < 2)
  | .handover lane _ => decide (lane < 2)
  | .handoverAckTimeout => true
  | .followTimeout => true
  | .selftestResult channel _ _ => decide (channel < 4096)
  | .demote => true
  | .demoteForce => true
  | .ropeJoinCmd => true
  | .read n q e => decide (n < 256) && decide (q < 1024) && entryWf e
  | .writeAtTick n q e => decide (n < 256) && decide (q < 1024) && entryWf e
  | .writeAtTickApply n => decide (n < 256)
  | .nop n q e => decide (n < 256) && decide (q < 1024) && entryWf e
  | .instCreate e => entryWf e
  | .instSetWindows e => entryWf e
  | .instMap e => entryWf e
  | .instUnmap e => entryWf e
  | .instStart e => entryWf e
  | .instFreeze e => entryWf e
  | .freezeComplete inst => decide (inst < 256)
  | .instSave e => entryWf e
  | .instRestore e => entryWf e
  | .instRestart e => entryWf e
  | .instMigrateOut e => entryWf e
  | .instCancel e => entryWf e
  | .instDestroy e => entryWf e
  | .queueCreate e => entryWf e
  | .queueDelete e => entryWf e
  | .queueReinit e => entryWf e
  | .sliceWrite addr => decide (addr < 0x8000000)
  | .doorbellWrite addr _ _ => decide (addr < 0x10000000)
  | .sqEntryFetch => true
  | .admqEnable _ => true
  | .perstAssert => true
  | .perstDeassert => true
  | .functionLevelReset => true
  | .linkDlDown _ => true
  | .configRequest _ _ _ => true
  | .msixEnable _ _ => true
  | .msixUnmask v => decide (v < 2048)
  | .aspmL1Entry _ => true
  | .dStateChange _ => true
  | .pmeTurnOff => true
  | .pmeSend => true
  | .linkTrainingStart => true
  | .hostWindowAccess _ addr _ _ _ => decide (addr < 0x10000000)
  | .hostWindowTimeout _ _ _ => true
  | .wipeStart => true
  | .wipeDone _ => true
  | .ddrZqCalibration c => decide (c < 2)
  | .ddrDqsOscCheck c drifted => decide (c < 2) && decide (drifted < 3)
  | .ddrMr4Read c _ _ => decide (c < 2)
  | .domainPowerRequest d => decide (d < 212)
  | .domainAdmit => true
  | .domainOn d => decide (d < 212)
  | .coreIdleTimeout c => decide (c < 128)
  | .pllLossOfLock p _ => decide (p < 20)
  | .relockTimeout p => decide (p < 16)
  | .sensorSample temps => temps.length == 48
  | .thermalTrip => true
  | .ssmSample vcode icode => decide (vcode < 65536) && decide (-32768 ≤ icode) && decide (icode ≤ 32767)
  | .socEvaluate => true
  | .socqSet _ => true
  | .bivEnter => true
  | .bivExit => true
  | .auxEnable seg _ => decide (seg < 8)
  | .auxDisable seg => decide (seg < 8)
  | .auxenRampDone seg => decide (seg < 8)
  | .auxFrameReceived seg _ => decide (seg < 8)
  | .goListen seg => decide (seg < 8)
  | .goNormal seg => decide (seg < 8)
  | .sleep seg => decide (seg < 8)
  | .wake seg => decide (seg < 8)
  | .stay seg => decide (seg < 8)
  | .awakeTimerExpiry seg => decide (seg < 8)
  | .sleepFrameTx seg => decide (seg < 8)
  | .sleepDelayDone seg => decide (seg < 8)
  | .auxenHoldExpiry seg => decide (seg < 8)
  | .wakeDetect seg _ => decide (seg < 8)
  | .wakeWindowExpiry seg => decide (seg < 8)
  | .wakeLockExpiry seg => decide (seg < 8)
  | .auxFsKick seg => decide (seg < 8)
  | .auxFsClear seg => decide (seg < 8)
  | .failsafeTimeout seg => decide (seg < 8)
  | .failsafeFrameTx seg => decide (seg < 8)
  | .powerOn => true
  | .sysRstAssert _ => true
  | .warmRstAssert => true
  | .resetRelease c => decide (c < 14)
  | .railFault => true
  | .tamper => true
  | .rstCmdCold _ _ => true
  | .rstCmdWarm _ _ => true
  | .crzWatchdogExpiry => true
  | .ridgeWatchdogHalf m => decide (m < 4)
  | .ridgeWatchdogExpiry m => decide (m < 4)
  | .rstKick _ => true
  | .startStageDone _ => true
  | .erase _ => true
  | .program _ _ => true
  | .verify _ _ => true
  | .activate _ _ => true
  | .loadSwap _ => true
  | .imgRead _ _ => true
  | .flashEraseDone _ => true
  | .keyWrite _ => true
  | .derive _ => true
  | .invalidate _ => true
  | .keyRead _ => true
  | .rdataTimeout => true
  | .keyClr => true
  | .wipe _ => true
  | .enrol _ => true
  | .lcAdvance _ => true
  | .svnRaise _ => true
  | .anchorRevoke _ => true
  | .dbgArm _ => true
  | .dbgDisarm _ => true
  | .logRecordWrite => true
  | .recordWriteRetry => true
  | .crnConsWrite _ => true
  | .freeze _ => true
  | .freezeTimeout => true
  | .note => true
  | .retireCmd channel => decide (channel < 4096)
  | .dataLinkUp _ _ => true
  | .completionTimeout n q => decide (n < 256) && decide (q < 1024)
  | .plcaStatusChange seg _ => decide (seg < 8)
  | .jabber seg => decide (seg < 8)
  | .wakeBurstDecoded seg => decide (seg < 8)
  | .gsubEnable e _ => decide (e < 4096)
  | .ddrSelfRefreshEntry c => decide (c < 2)
  | .lossOfVddAon => true
  | .unknownRopeFrame lane _ => decide (lane < 2)

end Sys2Proof
end

