-- ==== Sys2Proof/Decode.lean ====
section
/-! DEFINITION. Commands from words. The opcode table gives its rows no bits: a command reaches the module as an access, a frame,
an edge or an event, never as a word, so that no word spells one. -/

namespace Sys2Proof

/-- The command that a word of nbits bits spells by the opcode table: none, for the table gives no row bits. -/
def decodeTableWord (nbits w : Nat) : Option Instr :=
  match nbits, w with
  | _, _ => none

end Sys2Proof
end

