-- ==== Sys2Proof/Config.lean ====
section
/-! DEFINITION. What an implementation fixes or the spec leaves open: uninterpreted constants without a body.
Nothing in Lean can evaluate them, so a statement that holds does so for every value they could have. -/

namespace Sys2Proof.Config

/-- The n-th value the spec leaves open, one fresh value per use (State's counter freeCtr names n). -/
opaque free : Nat → Nat

/-- The AES-256 block cipher of the GCM engines: key bytes, block bytes (R177, R436, R660 name the standard only). -/
opaque aes : List Byte → List Byte → List Byte

/-- The bytes of a message's tag under HMAC-SHA256 with a key (R660, R661 name the standard only). -/
opaque hmacSha256 : List Byte → List Byte → List Byte

/-- The SHA-384 digest of a byte string (R625, R626 name the standard only). -/
opaque sha384 : List Byte → List Byte

/-- Does an ECDSA P-384 signature (r, s) of a digest verify under a public key (R626)? -/
opaque ecdsaOk : List Byte → List Byte → List Byte → Bool

/-- The SHA-384 hashes of the four fused anchors and of the test anchor (R641, R657). -/
opaque anchor : Nat → List Byte
opaque testAnchor : List Byte

/-- The helper data that the n-th enrolment computes (R646). -/
opaque helper : Nat → List Byte

/-- The GCM seal of (key, nonce, associated data, plaintext): ciphertext followed by the 16-byte tag. -/
opaque gcmSeal : List Byte → List Byte → List Byte → List Byte → List Byte

/-- The GCM opening of (key, nonce, associated data, ciphertext and tag): the plaintext when the tag agrees. -/
opaque gcmOpen : List Byte → List Byte → List Byte → List Byte → Option (List Byte)

/-- HMAC-SHA-384 of a message under a key: 48 bytes (R652 names the standard only). -/
opaque hmacSha384 : List Byte → List Byte → List Byte

/-- The 48 bytes of the device root after n enrolments (R644, R646), and of the test root in ROM (R647). -/
opaque deviceRoot : Nat → List Byte
opaque testRoot : List Byte

/-- The module's serial number in its fuses (R489). -/
opaque serial : Nat

/-- The module's own MAC address, which no register of the spec holds (R135, R136). -/
opaque ownMac : Nat

end Sys2Proof.Config
end

