-- ==== Sys2Proof/Machine/Sparse.lean ====
section
/-! DEFINITION. Sparse tables: the register file, the memories and the per-index state of the units are
lists of (key, value) pairs over a default. Writes of one command go in front; the command's end folds
them into the one canonical form: keys strictly rising, no entry equal to what an unlisted key reads as. -/

namespace Sys2Proof

/-- A table of values by key; an unlisted key reads as a default the reader names. -/
abbrev Sparse (α : Type) := List (Nat × α)

/-- The value at key k: the first entry for k, else the default. -/
def Sparse.get {α : Type} (d : Nat → α) : Sparse α → Nat → α
  | [], k => d k
  | (k', v) :: t, k => if k' = k then v else Sparse.get d t k

/-- Insertion of an entry into a list with rising keys. -/
def Sparse.insert {α : Type} (k : Nat) (v : α) : Sparse α → Sparse α
  | [] => [(k, v)]
  | (k', v') :: t => if k < k' then (k, v) :: (k', v') :: t else (k', v') :: Sparse.insert k v t

/-- Removal of every entry for a key. -/
def Sparse.erase {α : Type} (k : Nat) : Sparse α → Sparse α
  | [] => []
  | (k', v') :: t => if k' = k then Sparse.erase k t else (k', v') :: Sparse.erase k t

/-- A write that keeps the canonical form. -/
def Sparse.put {α : Type} [DecidableEq α] (d : Nat → α) (k : Nat) (v : α) (m : Sparse α) : Sparse α :=
  if v = d k then Sparse.erase k m else Sparse.insert k v (Sparse.erase k m)

/-- The canonical form of a list whose newer entries stand in front. -/
def Sparse.norm {α : Type} [DecidableEq α] (d : Nat → α) : Sparse α → Sparse α
  | [] => []
  | (k, v) :: t => Sparse.put d k v (Sparse.norm d t)

/-- Keys strictly rising from above a bound. -/
def Sparse.above {α : Type} (n : Nat) : Sparse α → Bool
  | [] => true
  | (k, _) :: t => decide (n < k + 1) && Sparse.above (k + 1) t

/-- The canonical form: keys strictly rising, no entry equal to the default of its key. -/
def Sparse.canon {α : Type} [DecidableEq α] (d : Nat → α) (m : Sparse α) : Bool :=
  Sparse.above 0 m && m.all (fun e => decide (e.2 ≠ d e.1))

end Sys2Proof
end

