-- ==== Sys2Proof/Machine/RegMap.lean ====
section
/-! DEFINITION. The register map of BAR0, as the register tables of the chapters give it: the offset of every
register, the place of every field, and the table rows with access codes and reset values (R10, R59, R69, R73,
R118, R150, R186, R187, R219 to R222, R259 to R264, R281, R282, R322 to R324, R352, R354, R382 to R384, R415 to
R418, R455, R485, R486, R517, R544 to R547, R575 to R578, R600, R621, R640, R666 to R668, R689). -/

namespace Sys2Proof.Reg

open Sys2Proof

/-! ROOT -/

def ROOT_ERR : Nat := 0x40
def ROOT_ERR_REFUSED : Fld := ⟨ROOT_ERR, 3, 1⟩
def ROOT_ERR_WIDTH : Fld := ⟨ROOT_ERR, 2, 1⟩
def ROOT_ERR_UNMAPPED : Fld := ⟨ROOT_ERR, 1, 1⟩
def ROOT_ERR_ADDR : Nat := 0x44
def ROOT_ERR_ADDR_PORT : Fld := ⟨ROOT_ERR_ADDR, 30, 2⟩
def ROOT_ERR_ADDR_ADDR : Fld := ⟨ROOT_ERR_ADDR, 0, 28⟩
def EVT_ROUTE_n (n : Nat) : Nat := 0x1000 + 4 * n
def EVT_ROUTE_n_MSIX_EN (n : Nat) : Fld := ⟨EVT_ROUTE_n n, 31, 1⟩
def EVT_ROUTE_n_VECTOR (n : Nat) : Fld := ⟨EVT_ROUTE_n n, 16, 11⟩
def EVT_ROUTE_n_RIDGE (n : Nat) : Fld := ⟨EVT_ROUTE_n n, 12, 4⟩
def EVT_ROUTE_n_CRZ_EN (n : Nat) : Fld := ⟨EVT_ROUTE_n n, 8, 1⟩
def EVT_PEND_k (k : Nat) : Nat := 0x2000 + 4 * k
def EVT_PEND_k_PEND (k : Nat) : Fld := ⟨EVT_PEND_k k, 0, 32⟩
def RIDGE_BOOT_LO : Nat := 0x3000
def RIDGE_BOOT_LO_ADDR : Fld := ⟨RIDGE_BOOT_LO, 0, 32⟩
def RIDGE_BOOT_HI : Nat := 0x3004
def RIDGE_BOOT_HI_ADDR : Fld := ⟨RIDGE_BOOT_HI, 0, 32⟩
def RIDGE_RUN : Nat := 0x3008
def RIDGE_RUN_RUN : Fld := ⟨RIDGE_RUN, 0, 4⟩
def RIDGE_RQq_BASE_LO (q : Nat) : Nat := 0x3100 + 0x20 * q
def RIDGE_RQq_BASE_LO_ADDR (q : Nat) : Fld := ⟨RIDGE_RQq_BASE_LO q, 0, 32⟩
def RIDGE_RQq_BASE_HI (q : Nat) : Nat := 0x3104 + 0x20 * q
def RIDGE_RQq_BASE_HI_ADDR (q : Nat) : Fld := ⟨RIDGE_RQq_BASE_HI q, 0, 32⟩
def RIDGE_RQq_CFG (q : Nat) : Nat := 0x3108 + 0x20 * q
def RIDGE_RQq_CFG_EN (q : Nat) : Fld := ⟨RIDGE_RQq_CFG q, 31, 1⟩
def RIDGE_RQq_CFG_SIZE_LOG (q : Nat) : Fld := ⟨RIDGE_RQq_CFG q, 0, 4⟩
def RIDGE_RQq_PROD (q : Nat) : Nat := 0x310c + 0x20 * q
def RIDGE_RQq_PROD_COUNT (q : Nat) : Fld := ⟨RIDGE_RQq_PROD q, 0, 32⟩
def RIDGE_RQq_CONS (q : Nat) : Nat := 0x3110 + 0x20 * q
def RIDGE_RQq_CONS_COUNT (q : Nat) : Fld := ⟨RIDGE_RQq_CONS q, 0, 32⟩
def RIDGE_RQq_DROP (q : Nat) : Nat := 0x3114 + 0x20 * q
def RIDGE_RQq_DROP_COUNT (q : Nat) : Fld := ⟨RIDGE_RQq_DROP q, 0, 32⟩
def RIDGE_TQq_BASE_LO (q : Nat) : Nat := 0x3400 + 0x20 * q
def RIDGE_TQq_BASE_LO_ADDR (q : Nat) : Fld := ⟨RIDGE_TQq_BASE_LO q, 0, 32⟩
def RIDGE_TQq_BASE_HI (q : Nat) : Nat := 0x3404 + 0x20 * q
def RIDGE_TQq_BASE_HI_ADDR (q : Nat) : Fld := ⟨RIDGE_TQq_BASE_HI q, 0, 32⟩
def RIDGE_TQq_CFG (q : Nat) : Nat := 0x3408 + 0x20 * q
def RIDGE_TQq_CFG_EN (q : Nat) : Fld := ⟨RIDGE_TQq_CFG q, 31, 1⟩
def RIDGE_TQq_CFG_CEVT (q : Nat) : Fld := ⟨RIDGE_TQq_CFG q, 30, 1⟩
def RIDGE_TQq_CFG_SIZE_LOG (q : Nat) : Fld := ⟨RIDGE_TQq_CFG q, 0, 4⟩
def RIDGE_TQq_PROD (q : Nat) : Nat := 0x340c + 0x20 * q
def RIDGE_TQq_PROD_COUNT (q : Nat) : Fld := ⟨RIDGE_TQq_PROD q, 0, 32⟩
def RIDGE_TQq_CONS (q : Nat) : Nat := 0x3410 + 0x20 * q
def RIDGE_TQq_CONS_COUNT (q : Nat) : Fld := ⟨RIDGE_TQq_CONS q, 0, 32⟩
def RIDGE_TSF0 : Nat := 0x3800
def RIDGE_TSF0_VALID : Fld := ⟨RIDGE_TSF0, 31, 1⟩
def RIDGE_TSF0_PORT : Fld := ⟨RIDGE_TSF0, 20, 5⟩
def RIDGE_TSF0_MSGTYPE : Fld := ⟨RIDGE_TSF0, 16, 4⟩
def RIDGE_TSF0_SEQID : Fld := ⟨RIDGE_TSF0, 0, 16⟩
def RIDGE_TSF1 : Nat := 0x3804
def RIDGE_TSF1_FRAC : Fld := ⟨RIDGE_TSF1, 0, 16⟩
def RIDGE_TSF2 : Nat := 0x3808
def RIDGE_TSF2_NS : Fld := ⟨RIDGE_TSF2, 0, 32⟩
def RIDGE_TSF3 : Nat := 0x380c
def RIDGE_TSF3_NS : Fld := ⟨RIDGE_TSF3, 0, 32⟩
def RIDGE_TSF_FILL : Nat := 0x3810
def RIDGE_TSF_FILL_FILL : Fld := ⟨RIDGE_TSF_FILL, 0, 9⟩
/-! TIM -/

def TIM_CTRL : Nat := 0x50040
def TIM_CTRL_PPS_POL : Fld := ⟨TIM_CTRL, 8, 1⟩
def TIM_CTRL_STEP_CMD : Fld := ⟨TIM_CTRL, 7, 1⟩
def TIM_CTRL_HOLD_EN : Fld := ⟨TIM_CTRL, 6, 1⟩
def TIM_CTRL_STEP_POLICY : Fld := ⟨TIM_CTRL, 4, 2⟩
def TIM_CTRL_SECONDARY : Fld := ⟨TIM_CTRL, 2, 2⟩
def TIM_CTRL_PRIMARY : Fld := ⟨TIM_CTRL, 0, 2⟩
def TIM_STATUS : Nat := 0x50044
def TIM_STATUS_STEP_GEN : Fld := ⟨TIM_STATUS, 24, 8⟩
def TIM_STATUS_PLL_LOST : Fld := ⟨TIM_STATUS, 9, 1⟩
def TIM_STATUS_SRC_ACTIVE : Fld := ⟨TIM_STATUS, 4, 2⟩
def TIM_STATUS_STATE : Fld := ⟨TIM_STATUS, 0, 3⟩
def TIM_NOW_FRAC : Nat := 0x50048
def TIM_NOW_FRAC_FRAC : Fld := ⟨TIM_NOW_FRAC, 0, 16⟩
def TIM_NOW_LO : Nat := 0x5004c
def TIM_NOW_LO_NS_LO : Fld := ⟨TIM_NOW_LO, 0, 32⟩
def TIM_NOW_HI : Nat := 0x50050
def TIM_NOW_HI_NS_HI : Fld := ⟨TIM_NOW_HI, 0, 32⟩
def TIM_STEP_FRAC : Nat := 0x50054
def TIM_STEP_FRAC_FRAC : Fld := ⟨TIM_STEP_FRAC, 0, 16⟩
def TIM_STEP_LO : Nat := 0x50058
def TIM_STEP_LO_NS : Fld := ⟨TIM_STEP_LO, 0, 32⟩
def TIM_STEP_HI : Nat := 0x5005c
def TIM_STEP_HI_NS : Fld := ⟨TIM_STEP_HI, 0, 32⟩
def TIM_FREQ_ADJ : Nat := 0x50060
def TIM_FREQ_ADJ_ADJ : Fld := ⟨TIM_FREQ_ADJ, 0, 32⟩
def TIM_FREQ_HOLD : Nat := 0x50064
def TIM_FREQ_HOLD_HOLD : Fld := ⟨TIM_FREQ_HOLD, 0, 32⟩
def TIM_OFFSET_TAG : Nat := 0x50068
def TIM_OFFSET_TAG_GEN : Fld := ⟨TIM_OFFSET_TAG, 0, 8⟩
def TIM_OFFSET_IN : Nat := 0x5006c
def TIM_OFFSET_IN_OFFSET : Fld := ⟨TIM_OFFSET_IN, 0, 32⟩
def TIM_SERVO : Nat := 0x50070
def TIM_SERVO_KP_SHIFT : Fld := ⟨TIM_SERVO, 20, 4⟩
def TIM_SERVO_KI_SHIFT : Fld := ⟨TIM_SERVO, 16, 4⟩
def TIM_SERVO_LOG_INT : Fld := ⟨TIM_SERVO, 12, 4⟩
def TIM_SERVO_LOCK_THRESH : Fld := ⟨TIM_SERVO, 0, 12⟩
def TIM_SERVO2 : Nat := 0x50074
def TIM_SERVO2_UNLOCK_THRESH : Fld := ⟨TIM_SERVO2, 16, 16⟩
def TIM_SERVO2_STEP_THRESH : Fld := ⟨TIM_SERVO2, 0, 16⟩
def TIM_SLEW : Nat := 0x50078
def TIM_SLEW_LIMIT : Fld := ⟨TIM_SLEW, 0, 10⟩
def TIM_WATCH : Nat := 0x5007c
def TIM_WATCH_PTP_WATCH : Fld := ⟨TIM_WATCH, 0, 16⟩
def TIM_HOLD : Nat := 0x50080
def TIM_HOLD_SENSOR : Fld := ⟨TIM_HOLD, 24, 6⟩
def TIM_HOLD_AVG_LOG : Fld := ⟨TIM_HOLD, 16, 4⟩
def TIM_HOLD_DRIFT : Fld := ⟨TIM_HOLD, 0, 16⟩
def TIM_HOLD_LIMIT : Nat := 0x50084
def TIM_HOLD_LIMIT_LIMIT : Fld := ⟨TIM_HOLD_LIMIT, 0, 32⟩
def TIM_EST_ERR : Nat := 0x50088
def TIM_EST_ERR_ERR : Fld := ⟨TIM_EST_ERR, 0, 32⟩
def TIM_UTC : Nat := 0x5008c
def TIM_UTC_VALID : Fld := ⟨TIM_UTC, 31, 1⟩
def TIM_UTC_ACC : Fld := ⟨TIM_UTC, 24, 5⟩
def TIM_UTC_OFFSET : Fld := ⟨TIM_UTC, 0, 16⟩
def TIM_LEAP_LO : Nat := 0x50090
def TIM_LEAP_LO_SEC : Fld := ⟨TIM_LEAP_LO, 0, 32⟩
def TIM_LEAP_HI : Nat := 0x50094
def TIM_LEAP_HI_SEC : Fld := ⟨TIM_LEAP_HI, 0, 32⟩
def TIM_LEAP_CTRL : Nat := 0x50098
def TIM_LEAP_CTRL_SIGN : Fld := ⟨TIM_LEAP_CTRL, 1, 1⟩
def TIM_LEAP_CTRL_ARM : Fld := ⟨TIM_LEAP_CTRL, 0, 1⟩
def TIM_TICK : Nat := 0x5009c
def TIM_TICK_RATE : Fld := ⟨TIM_TICK, 0, 15⟩
def TIM_TICKNUM_LO : Nat := 0x500a0
def TIM_TICKNUM_LO_NUM : Fld := ⟨TIM_TICKNUM_LO, 0, 32⟩
def TIM_TICKNUM_HI : Nat := 0x500a4
def TIM_TICKNUM_HI_NUM : Fld := ⟨TIM_TICKNUM_HI, 0, 32⟩
def TIM_PPS_DELAY : Nat := 0x500a8
def TIM_PPS_DELAY_DELAY : Fld := ⟨TIM_PPS_DELAY, 0, 32⟩
def TIM_PPS_WIN : Nat := 0x500ac
def TIM_PPS_WIN_WIN : Fld := ⟨TIM_PPS_WIN, 0, 16⟩
def TIM_PPS_STAMP_FRAC : Nat := 0x500b0
def TIM_PPS_STAMP_FRAC_STAMP : Fld := ⟨TIM_PPS_STAMP_FRAC, 0, 32⟩
def TIM_PPS_STAMP_LO : Nat := 0x500b4
def TIM_PPS_STAMP_LO_STAMP : Fld := ⟨TIM_PPS_STAMP_LO, 0, 32⟩
def TIM_PPS_STAMP_HI : Nat := 0x500b8
def TIM_PPS_STAMP_HI_STAMP : Fld := ⟨TIM_PPS_STAMP_HI, 0, 32⟩
def TIM_IRIG_CFG : Nat := 0x500bc
def TIM_IRIG_CFG_DELAY : Fld := ⟨TIM_IRIG_CFG, 16, 16⟩
def TIM_IRIG_CFG_EXT1344 : Fld := ⟨TIM_IRIG_CFG, 4, 1⟩
def TIM_IRIG_CFG_CODE : Fld := ⟨TIM_IRIG_CFG, 0, 3⟩
def TIM_IRIG_SEC_LO : Nat := 0x500c0
def TIM_IRIG_SEC_LO_SEC : Fld := ⟨TIM_IRIG_SEC_LO, 0, 32⟩
def TIM_IRIG_SEC_HI : Nat := 0x500c4
def TIM_IRIG_SEC_HI_SEC : Fld := ⟨TIM_IRIG_SEC_HI, 0, 32⟩
def TIM_IRIG_STAT : Nat := 0x500c8
def TIM_IRIG_STAT_NO_YEAR : Fld := ⟨TIM_IRIG_STAT, 3, 1⟩
def TIM_IRIG_STAT_FORMAT_ERR : Fld := ⟨TIM_IRIG_STAT, 2, 1⟩
def TIM_IRIG_STAT_PARITY_ERR : Fld := ⟨TIM_IRIG_STAT, 1, 1⟩
def TIM_IRIG_STAT_VALID : Fld := ⟨TIM_IRIG_STAT, 0, 1⟩
def TIM_LAUNCH : Nat := 0x500cc
def TIM_LAUNCH_LATE_POLICY : Fld := ⟨TIM_LAUNCH, 31, 1⟩
def TIM_LAUNCH_LATE_WIN : Fld := ⟨TIM_LAUNCH, 0, 16⟩
def TIM_LAUNCH_LATE : Nat := 0x500d0
def TIM_LAUNCH_LATE_COUNT : Fld := ⟨TIM_LAUNCH_LATE, 0, 32⟩
def TIM_OFFSET_STALE : Nat := 0x500d4
def TIM_OFFSET_STALE_COUNT : Fld := ⟨TIM_OFFSET_STALE, 0, 32⟩
def TIM_PPS_REJECT : Nat := 0x500d8
def TIM_PPS_REJECT_COUNT : Fld := ⟨TIM_PPS_REJECT, 0, 32⟩
def TIM_TSFIFO_DROP : Nat := 0x500dc
def TIM_TSFIFO_DROP_COUNT : Fld := ⟨TIM_TSFIFO_DROP, 0, 32⟩
def TIM_PTP_MODE : Nat := 0x500e0
def TIM_PTP_MODE_DOMAIN : Fld := ⟨TIM_PTP_MODE, 16, 8⟩
def TIM_PTP_MODE_PROFILE : Fld := ⟨TIM_PTP_MODE, 3, 1⟩
def TIM_PTP_MODE_ONE_STEP : Fld := ⟨TIM_PTP_MODE, 2, 1⟩
def TIM_PTP_MODE_ROLE : Fld := ⟨TIM_PTP_MODE, 0, 2⟩
def TIM_TC_PORTS : Nat := 0x500e4
def TIM_TC_PORTS_MASK : Fld := ⟨TIM_TC_PORTS, 0, 20⟩
def TIM_TCOMPk (k : Nat) : Nat := 0x50100 + 4 * k
def TIM_TCOMPk_TEMP (k : Nat) : Fld := ⟨TIM_TCOMPk k, 24, 8⟩
def TIM_TCOMPk_CORR (k : Nat) : Fld := ⟨TIM_TCOMPk k, 0, 24⟩
def TIM_PORTp_ILAT (p : Nat) : Nat := 0x50400 + 0x10 * p
def TIM_PORTp_ILAT_LAT (p : Nat) : Fld := ⟨TIM_PORTp_ILAT p, 0, 32⟩
def TIM_PORTp_ELAT (p : Nat) : Nat := 0x50404 + 0x10 * p
def TIM_PORTp_ELAT_LAT (p : Nat) : Fld := ⟨TIM_PORTp_ELAT p, 0, 32⟩
def TIM_PORTp_ASYM (p : Nat) : Nat := 0x50408 + 0x10 * p
def TIM_PORTp_ASYM_ASYM (p : Nat) : Fld := ⟨TIM_PORTp_ASYM p, 0, 32⟩
def TIM_PORTp_LINKDLY (p : Nat) : Nat := 0x5040c + 0x10 * p
def TIM_PORTp_LINKDLY_DLY (p : Nat) : Fld := ⟨TIM_PORTp_LINKDLY p, 0, 32⟩
def TIM_CMPn_TGT_LO (n : Nat) : Nat := 0x50800 + 0x10 * n
def TIM_CMPn_TGT_LO_TGT (n : Nat) : Fld := ⟨TIM_CMPn_TGT_LO n, 0, 32⟩
def TIM_CMPn_TGT_HI (n : Nat) : Nat := 0x50804 + 0x10 * n
def TIM_CMPn_TGT_HI_TGT (n : Nat) : Fld := ⟨TIM_CMPn_TGT_HI n, 0, 8⟩
def TIM_CMPn_CTRL (n : Nat) : Nat := 0x50808 + 0x10 * n
def TIM_CMPn_CTRL_ARM (n : Nat) : Fld := ⟨TIM_CMPn_CTRL n, 31, 1⟩
def TIM_CMPn_CTRL_DISARM (n : Nat) : Fld := ⟨TIM_CMPn_CTRL n, 30, 1⟩
def TIM_CMPn_CTRL_FIRED (n : Nat) : Fld := ⟨TIM_CMPn_CTRL n, 29, 1⟩
def TIM_CMPn_CTRL_LATE (n : Nat) : Fld := ⟨TIM_CMPn_CTRL n, 28, 1⟩
def TIM_CMPn_CTRL_CANCELLED (n : Nat) : Fld := ⟨TIM_CMPn_CTRL n, 27, 1⟩
def TIM_CMPn_CTRL_PG_START (n : Nat) : Fld := ⟨TIM_CMPn_CTRL n, 7, 1⟩
def TIM_CMPn_CTRL_PG (n : Nat) : Fld := ⟨TIM_CMPn_CTRL n, 4, 3⟩
def TIM_CMPn_CTRL_ACQ (n : Nat) : Fld := ⟨TIM_CMPn_CTRL n, 2, 1⟩
def TIM_CMPn_CTRL_EVT (n : Nat) : Fld := ⟨TIM_CMPn_CTRL n, 0, 1⟩
def TIM_PGg_CTRL (g : Nat) : Nat := 0x50c00 + 0x20 * g
def TIM_PGg_CTRL_EN (g : Nat) : Fld := ⟨TIM_PGg_CTRL g, 31, 1⟩
def TIM_PGg_CTRL_SYNC_ONLY (g : Nat) : Fld := ⟨TIM_PGg_CTRL g, 30, 1⟩
def TIM_PGg_CTRL_ALIGN_SEC (g : Nat) : Fld := ⟨TIM_PGg_CTRL g, 29, 1⟩
def TIM_PGg_CTRL_POL (g : Nat) : Fld := ⟨TIM_PGg_CTRL g, 28, 1⟩
def TIM_PGg_CTRL_RUNNING (g : Nat) : Fld := ⟨TIM_PGg_CTRL g, 27, 1⟩
def TIM_PGg_CTRL_OUT (g : Nat) : Fld := ⟨TIM_PGg_CTRL g, 0, 4⟩
def TIM_PGg_START_LO (g : Nat) : Nat := 0x50c04 + 0x20 * g
def TIM_PGg_START_LO_START (g : Nat) : Fld := ⟨TIM_PGg_START_LO g, 0, 32⟩
def TIM_PGg_START_HI (g : Nat) : Nat := 0x50c08 + 0x20 * g
def TIM_PGg_START_HI_START (g : Nat) : Fld := ⟨TIM_PGg_START_HI g, 0, 8⟩
def TIM_PGg_PERIOD (g : Nat) : Nat := 0x50c0c + 0x20 * g
def TIM_PGg_PERIOD_NS (g : Nat) : Fld := ⟨TIM_PGg_PERIOD g, 0, 32⟩
def TIM_PGg_PFRAC (g : Nat) : Nat := 0x50c10 + 0x20 * g
def TIM_PGg_PFRAC_FRAC (g : Nat) : Fld := ⟨TIM_PGg_PFRAC g, 0, 16⟩
def TIM_PGg_WIDTH (g : Nat) : Nat := 0x50c14 + 0x20 * g
def TIM_PGg_WIDTH_NS (g : Nat) : Fld := ⟨TIM_PGg_WIDTH g, 0, 32⟩
def TIM_PGg_COUNT (g : Nat) : Nat := 0x50c18 + 0x20 * g
def TIM_PGg_COUNT_COUNT (g : Nat) : Fld := ⟨TIM_PGg_COUNT g, 0, 32⟩
/-! PRT -/

def PRTp_CFG (p : Nat) : Nat := 0x100040 + 0x10000 * p
def PRTp_CFG_FWD (p : Nat) : Fld := ⟨PRTp_CFG p, 5, 1⟩
def PRTp_CFG_FEC (p : Nat) : Fld := ⟨PRTp_CFG p, 4, 1⟩
def PRTp_CFG_AN (p : Nat) : Fld := ⟨PRTp_CFG p, 3, 1⟩
def PRTp_CFG_MODE (p : Nat) : Fld := ⟨PRTp_CFG p, 1, 2⟩
def PRTp_CFG_EN (p : Nat) : Fld := ⟨PRTp_CFG p, 0, 1⟩
def PRTp_STAT (p : Nat) : Nat := 0x100044 + 0x10000 * p
def PRTp_STAT_SPEED (p : Nat) : Fld := ⟨PRTp_STAT p, 6, 2⟩
def PRTp_STAT_RED_CFG_ERR (p : Nat) : Fld := ⟨PRTp_STAT p, 4, 1⟩
def PRTp_STAT_FEC_LOCK (p : Nat) : Fld := ⟨PRTp_STAT p, 3, 1⟩
def PRTp_STAT_REMOTE_FAULT (p : Nat) : Fld := ⟨PRTp_STAT p, 2, 1⟩
def PRTp_STAT_LOCAL_FAULT (p : Nat) : Fld := ⟨PRTp_STAT p, 1, 1⟩
def PRTp_STAT_LINK (p : Nat) : Fld := ⟨PRTp_STAT p, 0, 1⟩
def PRTp_SERDES (p : Nat) : Nat := 0x100048 + 0x10000 * p
def PRTp_SERDES_TX_POST (p : Nat) : Fld := ⟨PRTp_SERDES p, 18, 6⟩
def PRTp_SERDES_TX_MAIN (p : Nat) : Fld := ⟨PRTp_SERDES p, 12, 6⟩
def PRTp_SERDES_TX_PRE (p : Nat) : Fld := ⟨PRTp_SERDES p, 6, 6⟩
def PRTp_SERDES_RX_ADAPT (p : Nat) : Fld := ⟨PRTp_SERDES p, 5, 1⟩
def PRTp_SERDES_PRBS (p : Nat) : Fld := ⟨PRTp_SERDES p, 4, 1⟩
def PRTp_PRBS_ERR (p : Nat) : Nat := 0x10004c + 0x10000 * p
def PRTp_PRBS_ERR_COUNT (p : Nat) : Fld := ⟨PRTp_PRBS_ERR p, 0, 32⟩
def PRTp_RED (p : Nat) : Nat := 0x100050 + 0x10000 * p
def PRTp_RED_PARTNER (p : Nat) : Fld := ⟨PRTp_RED p, 28, 4⟩
def PRTp_RED_INTERLINK (p : Nat) : Fld := ⟨PRTp_RED p, 24, 4⟩
def PRTp_RED_SILENT_MS (p : Nat) : Fld := ⟨PRTp_RED p, 16, 8⟩
def PRTp_RED_SUP_INT (p : Nat) : Fld := ⟨PRTp_RED p, 8, 8⟩
def PRTp_RED_LAN (p : Nat) : Fld := ⟨PRTp_RED p, 3, 1⟩
def PRTp_RED_MODE (p : Nat) : Fld := ⟨PRTp_RED p, 0, 3⟩
def PRTp_DD (p : Nat) : Nat := 0x100054 + 0x10000 * p
def PRTp_DD_WINDOW (p : Nat) : Fld := ⟨PRTp_DD p, 16, 8⟩
def PRTp_DD_FORGET_MS (p : Nat) : Fld := ⟨PRTp_DD p, 0, 16⟩
def PRTp_SKEW_MAX (p : Nat) : Nat := 0x100058 + 0x10000 * p
def PRTp_SKEW_MAX_NS (p : Nat) : Fld := ⟨PRTp_SKEW_MAX p, 0, 32⟩
def PRTp_SKEW_LIMIT (p : Nat) : Nat := 0x10005c + 0x10000 * p
def PRTp_SKEW_LIMIT_NS (p : Nat) : Fld := ⟨PRTp_SKEW_LIMIT p, 0, 32⟩
def PRTp_NODES (p : Nat) : Nat := 0x100060 + 0x10000 * p
def PRTp_NODES_USED (p : Nat) : Fld := ⟨PRTp_NODES p, 0, 11⟩
def PRTp_CNT_ROLL (p : Nat) : Nat := 0x100064 + 0x10000 * p
def PRTp_CNT_ROLL_ROLL (p : Nat) : Fld := ⟨PRTp_CNT_ROLL p, 0, 23⟩
def PRTp_WAKE_CTRL (p : Nat) : Nat := 0x100068 + 0x10000 * p
def PRTp_WAKE_CTRL_EVT (p : Nat) : Fld := ⟨PRTp_WAKE_CTRL p, 8, 8⟩
def PRTp_WAKE_CTRL_EN (p : Nat) : Fld := ⟨PRTp_WAKE_CTRL p, 0, 8⟩
def PRTp_WAKE_CAUSE (p : Nat) : Nat := 0x10006c + 0x10000 * p
def PRTp_WAKE_CAUSE_VALID (p : Nat) : Fld := ⟨PRTp_WAKE_CAUSE p, 31, 1⟩
def PRTp_WAKE_CAUSE_FILTER (p : Nat) : Fld := ⟨PRTp_WAKE_CAUSE p, 0, 3⟩
def PRTp_WAKE_TIME_LO (p : Nat) : Nat := 0x100070 + 0x10000 * p
def PRTp_WAKE_TIME_LO_NS (p : Nat) : Fld := ⟨PRTp_WAKE_TIME_LO p, 0, 32⟩
def PRTp_WAKE_TIME_HI (p : Nat) : Nat := 0x100074 + 0x10000 * p
def PRTp_WAKE_TIME_HI_NS (p : Nat) : Fld := ⟨PRTp_WAKE_TIME_HI p, 0, 32⟩
def PRTp_CNTi (p i : Nat) : Nat := 0x100100 + 0x10000 * p + 4 * i
def PRTp_CNTi_COUNT (p i : Nat) : Fld := ⟨PRTp_CNTi p i, 0, 32⟩
def PRTp_WFf_MASKw (p f w : Nat) : Nat := 0x100200 + 0x10000 * p + 0x20 * f + 4 * w
def PRTp_WFf_MASKw_MASK (p f w : Nat) : Fld := ⟨PRTp_WFf_MASKw p f w, 0, 32⟩
def PRTp_WFf_CHECK (p f : Nat) : Nat := 0x100210 + 0x10000 * p + 0x20 * f
def PRTp_WFf_CHECK_CHECK (p f : Nat) : Fld := ⟨PRTp_WFf_CHECK p f, 0, 16⟩
/-! SWC -/

def SWC_BUF_CFG : Nat := 0x300040
def SWC_BUF_CFG_DYN_SHIFT : Fld := ⟨SWC_BUF_CFG, 16, 4⟩
def SWC_BUF_CFG_PUB_CELLS : Fld := ⟨SWC_BUF_CFG, 0, 16⟩
def SWC_BUF_STAT : Nat := 0x300044
def SWC_BUF_STAT_FREE : Fld := ⟨SWC_BUF_STAT, 0, 16⟩
def SWC_BUF_WM : Nat := 0x300048
def SWC_BUF_WM_LOW : Fld := ⟨SWC_BUF_WM, 0, 16⟩
def SWC_BUF_MIN : Nat := 0x30004c
def SWC_BUF_MIN_MIN_CELLS : Fld := ⟨SWC_BUF_MIN, 0, 8⟩
def SWC_LEARN_AGE : Nat := 0x300050
def SWC_LEARN_AGE_AGE_S : Fld := ⟨SWC_LEARN_AGE, 0, 16⟩
def SWC_HASH_CFG : Nat := 0x300054
def SWC_HASH_CFG_FIELDS : Fld := ⟨SWC_HASH_CFG, 0, 6⟩
def SWC_GATE : Nat := 0x300058
def SWC_GATE_OPEN : Fld := ⟨SWC_GATE, 1, 1⟩
def SWC_GATE_FORCE_CLOSE : Fld := ⟨SWC_GATE, 0, 1⟩
def SWC_FDB_KEY_LO : Nat := 0x300060
def SWC_FDB_KEY_LO_MAC_LO : Fld := ⟨SWC_FDB_KEY_LO, 0, 32⟩
def SWC_FDB_KEY_HI : Nat := 0x300064
def SWC_FDB_KEY_HI_VID : Fld := ⟨SWC_FDB_KEY_HI, 16, 12⟩
def SWC_FDB_KEY_HI_MAC_HI : Fld := ⟨SWC_FDB_KEY_HI, 0, 16⟩
def SWC_FDB_RES : Nat := 0x300068
def SWC_FDB_RES_VALID : Fld := ⟨SWC_FDB_RES, 25, 1⟩
def SWC_FDB_RES_STATIC : Fld := ⟨SWC_FDB_RES, 24, 1⟩
def SWC_FDB_RES_MASK : Fld := ⟨SWC_FDB_RES, 0, 24⟩
def SWC_FDB_CMD : Nat := 0x30006c
def SWC_FDB_CMD_BUSY : Fld := ⟨SWC_FDB_CMD, 31, 1⟩
def SWC_FDB_CMD_RESULT : Fld := ⟨SWC_FDB_CMD, 2, 2⟩
def SWC_FDB_CMD_OP : Fld := ⟨SWC_FDB_CMD, 0, 2⟩
def SWC_PORTn_CFG (n : Nat) : Nat := 0x300080 + 4 * n
def SWC_PORTn_CFG_PVID (n : Nat) : Fld := ⟨SWC_PORTn_CFG n, 12, 12⟩
def SWC_PORTn_CFG_PCP (n : Nat) : Fld := ⟨SWC_PORTn_CFG n, 9, 3⟩
def SWC_PORTn_CFG_LEARN (n : Nat) : Fld := ⟨SWC_PORTn_CFG n, 8, 1⟩
def SWC_LAGk (k : Nat) : Nat := 0x300100 + 4 * k
def SWC_LAGk_EN (k : Nat) : Fld := ⟨SWC_LAGk k, 31, 1⟩
def SWC_LAGk_NMEM (k : Nat) : Fld := ⟨SWC_LAGk k, 20, 2⟩
def SWC_LAGk_MEMBERS (k : Nat) : Fld := ⟨SWC_LAGk k, 0, 20⟩
def SWC_LAG_STAT : Nat := 0x300110
def SWC_LAG_STAT_CFG_ERR : Fld := ⟨SWC_LAG_STAT, 16, 4⟩
def SWC_LAG_STAT_LIVE : Fld := ⟨SWC_LAG_STAT, 0, 16⟩
def SWC_LAGk_BUCKETw (k w : Nat) : Nat := 0x300400 + 0x40 * k + 4 * w
def SWC_LAGk_BUCKETw_BUCKET (k w : Nat) : Fld := ⟨SWC_LAGk_BUCKETw k w, 0, 32⟩
def SWC_MIRm_CTRL (m : Nat) : Nat := 0x300800 + 0x40 * m
def SWC_MIRm_CTRL_EN (m : Nat) : Fld := ⟨SWC_MIRm_CTRL m, 31, 1⟩
def SWC_MIRm_CTRL_POLICY (m : Nat) : Fld := ⟨SWC_MIRm_CTRL m, 30, 1⟩
def SWC_MIRm_CTRL_DROPS (m : Nat) : Fld := ⟨SWC_MIRm_CTRL m, 29, 1⟩
def SWC_MIRm_CTRL_SNAP (m : Nat) : Fld := ⟨SWC_MIRm_CTRL m, 27, 2⟩
def SWC_MIRm_CTRL_RING_LOG (m : Nat) : Fld := ⟨SWC_MIRm_CTRL m, 22, 5⟩
def SWC_MIRm_ING (m : Nat) : Nat := 0x300804 + 0x40 * m
def SWC_MIRm_ING_MASK (m : Nat) : Fld := ⟨SWC_MIRm_ING m, 0, 24⟩
def SWC_MIRm_EGR (m : Nat) : Nat := 0x300808 + 0x40 * m
def SWC_MIRm_EGR_MASK (m : Nat) : Fld := ⟨SWC_MIRm_EGR m, 0, 24⟩
def SWC_MIRm_ETYPE (m : Nat) : Nat := 0x30080c + 0x40 * m
def SWC_MIRm_ETYPE_MASK (m : Nat) : Fld := ⟨SWC_MIRm_ETYPE m, 16, 16⟩
def SWC_MIRm_ETYPE_VALUE (m : Nat) : Fld := ⟨SWC_MIRm_ETYPE m, 0, 16⟩
def SWC_MIRm_BASE_LO (m : Nat) : Nat := 0x300810 + 0x40 * m
def SWC_MIRm_BASE_LO_ADDR (m : Nat) : Fld := ⟨SWC_MIRm_BASE_LO m, 0, 32⟩
def SWC_MIRm_BASE_HI (m : Nat) : Nat := 0x300814 + 0x40 * m
def SWC_MIRm_BASE_HI_ADDR (m : Nat) : Fld := ⟨SWC_MIRm_BASE_HI m, 0, 32⟩
def SWC_MIRm_PROD (m : Nat) : Nat := 0x300818 + 0x40 * m
def SWC_MIRm_PROD_COUNT (m : Nat) : Fld := ⟨SWC_MIRm_PROD m, 0, 32⟩
def SWC_MIRm_CONS (m : Nat) : Nat := 0x30081c + 0x40 * m
def SWC_MIRm_CONS_COUNT (m : Nat) : Fld := ⟨SWC_MIRm_CONS m, 0, 32⟩
def SWC_MIRm_LOST (m : Nat) : Nat := 0x300820 + 0x40 * m
def SWC_MIRm_LOST_COUNT (m : Nat) : Fld := ⟨SWC_MIRm_LOST m, 0, 32⟩
def SWC_CNTi (i : Nat) : Nat := 0x300c00 + 4 * i
def SWC_CNTi_COUNT (i : Nat) : Fld := ⟨SWC_CNTi i, 0, 32⟩
def SWC_CNT_ROLL : Nat := 0x300c40
def SWC_CNT_ROLL_ROLL : Fld := ⟨SWC_CNT_ROLL, 0, 12⟩
def SWC_VLANv (v : Nat) : Nat := 0x301000 + 4 * v
def SWC_VLANv_FLOOD (v : Nat) : Fld := ⟨SWC_VLANv v, 30, 1⟩
def SWC_VLANv_MEMBERS (v : Nat) : Fld := ⟨SWC_VLANv v, 0, 24⟩
def SWC_QOCCn_w (n w : Nat) : Nat := 0x305000 + 0x10 * n + 4 * w
def SWC_QOCCn_w_QODD (n w : Nat) : Fld := ⟨SWC_QOCCn_w n w, 16, 16⟩
def SWC_QOCCn_w_QEVEN (n w : Nat) : Fld := ⟨SWC_QOCCn_w n w, 0, 16⟩
/-! STN -/

def STNs_CFG (s : Nat) : Nat := 0x200040 + 0x10000 * s
def STNs_CFG_FWD (s : Nat) : Fld := ⟨STNs_CFG s, 6, 1⟩
def STNs_CFG_FEC (s : Nat) : Fld := ⟨STNs_CFG s, 5, 1⟩
def STNs_CFG_AN (s : Nat) : Fld := ⟨STNs_CFG s, 4, 1⟩
def STNs_CFG_MODE (s : Nat) : Fld := ⟨STNs_CFG s, 1, 3⟩
def STNs_CFG_EN (s : Nat) : Fld := ⟨STNs_CFG s, 0, 1⟩
def STNs_STAT (s : Nat) : Nat := 0x200044 + 0x10000 * s
def STNs_STAT_SPEED (s : Nat) : Fld := ⟨STNs_STAT s, 6, 2⟩
def STNs_STAT_EEE_ACTIVE (s : Nat) : Fld := ⟨STNs_STAT s, 5, 1⟩
def STNs_STAT_TX_LPI (s : Nat) : Fld := ⟨STNs_STAT s, 4, 1⟩
def STNs_STAT_FEC_LOCK (s : Nat) : Fld := ⟨STNs_STAT s, 3, 1⟩
def STNs_STAT_REMOTE_FAULT (s : Nat) : Fld := ⟨STNs_STAT s, 2, 1⟩
def STNs_STAT_LOCAL_FAULT (s : Nat) : Fld := ⟨STNs_STAT s, 1, 1⟩
def STNs_STAT_LINK (s : Nat) : Fld := ⟨STNs_STAT s, 0, 1⟩
def STNs_SERDES (s : Nat) : Nat := 0x200048 + 0x10000 * s
def STNs_SERDES_TX_POST (s : Nat) : Fld := ⟨STNs_SERDES s, 18, 6⟩
def STNs_SERDES_TX_MAIN (s : Nat) : Fld := ⟨STNs_SERDES s, 12, 6⟩
def STNs_SERDES_TX_PRE (s : Nat) : Fld := ⟨STNs_SERDES s, 6, 6⟩
def STNs_SERDES_RX_ADAPT (s : Nat) : Fld := ⟨STNs_SERDES s, 5, 1⟩
def STNs_SERDES_PRBS (s : Nat) : Fld := ⟨STNs_SERDES s, 4, 1⟩
def STNs_PRBS_ERR (s : Nat) : Nat := 0x20004c + 0x10000 * s
def STNs_PRBS_ERR_COUNT (s : Nat) : Fld := ⟨STNs_PRBS_ERR s, 0, 32⟩
def STNs_EEE (s : Nat) : Nat := 0x200050 + 0x10000 * s
def STNs_EEE_IDLE_US (s : Nat) : Fld := ⟨STNs_EEE s, 16, 16⟩
def STNs_EEE_BLOCKED (s : Nat) : Fld := ⟨STNs_EEE s, 1, 1⟩
def STNs_EEE_EN (s : Nat) : Fld := ⟨STNs_EEE s, 0, 1⟩
def STNs_EEE_TW (s : Nat) : Nat := 0x200054 + 0x10000 * s
def STNs_EEE_TW_TW_MIN (s : Nat) : Fld := ⟨STNs_EEE_TW s, 16, 16⟩
def STNs_EEE_TW_TX_TW (s : Nat) : Fld := ⟨STNs_EEE_TW s, 0, 16⟩
def STNs_SEC (s : Nat) : Nat := 0x200060 + 0x10000 * s
def STNs_SEC_REPLAY_WINDOW (s : Nat) : Fld := ⟨STNs_SEC s, 16, 16⟩
def STNs_SEC_TX_AN (s : Nat) : Fld := ⟨STNs_SEC s, 8, 2⟩
def STNs_SEC_PTP_BYPASS (s : Nat) : Fld := ⟨STNs_SEC s, 7, 1⟩
def STNs_SEC_INCLUDE_SCI (s : Nat) : Fld := ⟨STNs_SEC s, 6, 1⟩
def STNs_SEC_STRICT (s : Nat) : Fld := ⟨STNs_SEC s, 5, 1⟩
def STNs_SEC_REPLAY (s : Nat) : Fld := ⟨STNs_SEC s, 4, 1⟩
def STNs_SEC_CONF (s : Nat) : Fld := ⟨STNs_SEC s, 3, 1⟩
def STNs_SEC_CIPHER (s : Nat) : Fld := ⟨STNs_SEC s, 1, 1⟩
def STNs_SEC_EN (s : Nat) : Fld := ⟨STNs_SEC s, 0, 1⟩
def STNs_SEC_STAT (s : Nat) : Nat := 0x200064 + 0x10000 * s
def STNs_SEC_STAT_KEY_REFUSED (s : Nat) : Fld := ⟨STNs_SEC_STAT s, 0, 1⟩
def STNs_TXSC_SCI_LO (s : Nat) : Nat := 0x200068 + 0x10000 * s
def STNs_TXSC_SCI_LO_SCI (s : Nat) : Fld := ⟨STNs_TXSC_SCI_LO s, 0, 32⟩
def STNs_TXSC_SCI_HI (s : Nat) : Nat := 0x20006c + 0x10000 * s
def STNs_TXSC_SCI_HI_SCI (s : Nat) : Fld := ⟨STNs_TXSC_SCI_HI s, 0, 32⟩
def STNs_PN_THRESH_LO (s : Nat) : Nat := 0x200070 + 0x10000 * s
def STNs_PN_THRESH_LO_PN (s : Nat) : Fld := ⟨STNs_PN_THRESH_LO s, 0, 32⟩
def STNs_PN_THRESH_HI (s : Nat) : Nat := 0x200074 + 0x10000 * s
def STNs_PN_THRESH_HI_PN (s : Nat) : Fld := ⟨STNs_PN_THRESH_HI s, 0, 32⟩
def STNs_CNTi (s i : Nat) : Nat := 0x200100 + 0x10000 * s + 4 * i
def STNs_CNTi_COUNT (s i : Nat) : Fld := ⟨STNs_CNTi s i, 0, 32⟩
def STNs_CNT_ROLL (s : Nat) : Nat := 0x200160 + 0x10000 * s
def STNs_CNT_ROLL_ROLL (s : Nat) : Fld := ⟨STNs_CNT_ROLL s, 0, 23⟩
def STNs_TXSAa_CTRL (s a : Nat) : Nat := 0x200200 + 0x10000 * s + 0x20 * a
def STNs_TXSAa_CTRL_SA_EN (s a : Nat) : Fld := ⟨STNs_TXSAa_CTRL s a, 31, 1⟩
def STNs_TXSAa_CTRL_KEY_SLOT (s a : Nat) : Fld := ⟨STNs_TXSAa_CTRL s a, 0, 9⟩
def STNs_TXSAa_PN_LO (s a : Nat) : Nat := 0x200204 + 0x10000 * s + 0x20 * a
def STNs_TXSAa_PN_LO_NEXT_PN (s a : Nat) : Fld := ⟨STNs_TXSAa_PN_LO s a, 0, 32⟩
def STNs_TXSAa_PN_HI (s a : Nat) : Nat := 0x200208 + 0x10000 * s + 0x20 * a
def STNs_TXSAa_PN_HI_NEXT_PN (s a : Nat) : Fld := ⟨STNs_TXSAa_PN_HI s a, 0, 32⟩
def STNs_TXSAa_SSCI (s a : Nat) : Nat := 0x20020c + 0x10000 * s + 0x20 * a
def STNs_TXSAa_SSCI_SSCI (s a : Nat) : Fld := ⟨STNs_TXSAa_SSCI s a, 0, 32⟩
def STNs_TXSAa_SALT0 (s a : Nat) : Nat := 0x200210 + 0x10000 * s + 0x20 * a
def STNs_TXSAa_SALT0_SALT (s a : Nat) : Fld := ⟨STNs_TXSAa_SALT0 s a, 0, 32⟩
def STNs_TXSAa_SALT1 (s a : Nat) : Nat := 0x200214 + 0x10000 * s + 0x20 * a
def STNs_TXSAa_SALT1_SALT (s a : Nat) : Fld := ⟨STNs_TXSAa_SALT1 s a, 0, 32⟩
def STNs_TXSAa_SALT2 (s a : Nat) : Nat := 0x200218 + 0x10000 * s + 0x20 * a
def STNs_TXSAa_SALT2_SALT (s a : Nat) : Fld := ⟨STNs_TXSAa_SALT2 s a, 0, 32⟩
def STNs_RADDRr (s r : Nat) : Nat := 0x200400 + 0x10000 * s + 8 * r
def STNs_RADDRr_ADDR (s r : Nat) : Fld := ⟨STNs_RADDRr s r, 0, 32⟩
def STNs_RCTLr (s r : Nat) : Nat := 0x200404 + 0x10000 * s + 8 * r
def STNs_RCTLr_EN (s r : Nat) : Fld := ⟨STNs_RCTLr s r, 0, 1⟩
def STNs_RXSCc_SCI_LO (s c : Nat) : Nat := 0x200800 + 0x10000 * s + 0x100 * c
def STNs_RXSCc_SCI_LO_SCI (s c : Nat) : Fld := ⟨STNs_RXSCc_SCI_LO s c, 0, 32⟩
def STNs_RXSCc_SCI_HI (s c : Nat) : Nat := 0x200804 + 0x10000 * s + 0x100 * c
def STNs_RXSCc_SCI_HI_SCI (s c : Nat) : Fld := ⟨STNs_RXSCc_SCI_HI s c, 0, 32⟩
def STNs_RXSCc_CTRL (s c : Nat) : Nat := 0x200808 + 0x10000 * s + 0x100 * c
def STNs_RXSCc_CTRL_EN (s c : Nat) : Fld := ⟨STNs_RXSCc_CTRL s c, 0, 1⟩
def STNs_RXSCc_SAa_CTRL (s c a : Nat) : Nat := 0x200840 + 0x10000 * s + 0x100 * c + 0x20 * a
def STNs_RXSCc_SAa_CTRL_SA_EN (s c a : Nat) : Fld := ⟨STNs_RXSCc_SAa_CTRL s c a, 31, 1⟩
def STNs_RXSCc_SAa_CTRL_KEY_SLOT (s c a : Nat) : Fld := ⟨STNs_RXSCc_SAa_CTRL s c a, 0, 9⟩
def STNs_RXSCc_SAa_LPN_LO (s c a : Nat) : Nat := 0x200844 + 0x10000 * s + 0x100 * c + 0x20 * a
def STNs_RXSCc_SAa_LPN_LO_LPN (s c a : Nat) : Fld := ⟨STNs_RXSCc_SAa_LPN_LO s c a, 0, 32⟩
def STNs_RXSCc_SAa_LPN_HI (s c a : Nat) : Nat := 0x200848 + 0x10000 * s + 0x100 * c + 0x20 * a
def STNs_RXSCc_SAa_LPN_HI_LPN (s c a : Nat) : Fld := ⟨STNs_RXSCc_SAa_LPN_HI s c a, 0, 32⟩
def STNs_RXSCc_SAa_SSCI (s c a : Nat) : Nat := 0x20084c + 0x10000 * s + 0x100 * c + 0x20 * a
def STNs_RXSCc_SAa_SSCI_SSCI (s c a : Nat) : Fld := ⟨STNs_RXSCc_SAa_SSCI s c a, 0, 32⟩
def STNs_RXSCc_SAa_SALT0 (s c a : Nat) : Nat := 0x200850 + 0x10000 * s + 0x100 * c + 0x20 * a
def STNs_RXSCc_SAa_SALT0_SALT (s c a : Nat) : Fld := ⟨STNs_RXSCc_SAa_SALT0 s c a, 0, 32⟩
def STNs_RXSCc_SAa_SALT1 (s c a : Nat) : Nat := 0x200854 + 0x10000 * s + 0x100 * c + 0x20 * a
def STNs_RXSCc_SAa_SALT1_SALT (s c a : Nat) : Fld := ⟨STNs_RXSCc_SAa_SALT1 s c a, 0, 32⟩
def STNs_RXSCc_SAa_SALT2 (s c a : Nat) : Nat := 0x200858 + 0x10000 * s + 0x100 * c + 0x20 * a
def STNs_RXSCc_SAa_SALT2_SALT (s c a : Nat) : Fld := ⟨STNs_RXSCc_SAa_SALT2 s c a, 0, 32⟩
/-! RHZ -/

def RHZ_CTRL : Nat := 0x400040
def RHZ_CTRL_SIM_MODE : Fld := ⟨RHZ_CTRL, 0, 1⟩
def RHZ_MISMATCH : Nat := 0x400044
def RHZ_MISMATCH_KIND : Fld := ⟨RHZ_MISMATCH, 30, 2⟩
def RHZ_MISMATCH_SLOT : Fld := ⟨RHZ_MISMATCH, 0, 10⟩
def RHZ_ATTNk (k : Nat) : Nat := 0x400080 + 4 * k
def RHZ_ATTNk_ATTN (k : Nat) : Fld := ⟨RHZ_ATTNk k, 0, 32⟩
def RHZ_INVk (k : Nat) : Nat := 0x400100 + 4 * k
def RHZ_INVk_INV (k : Nat) : Fld := ⟨RHZ_INVk k, 0, 32⟩
def RHZe_STAT (e : Nat) : Nat := 0x401040 + 0x100 * e
def RHZe_STAT_QMAX (e : Nat) : Fld := ⟨RHZe_STAT e, 8, 7⟩
def RHZe_STAT_QFILL (e : Nat) : Fld := ⟨RHZe_STAT e, 0, 7⟩
def RHZe_CNTi (e i : Nat) : Nat := 0x401080 + 0x100 * e + 4 * i
def RHZe_CNTi_COUNT (e i : Nat) : Fld := ⟨RHZe_CNTi e i, 0, 32⟩
def RHZe_CNT_ROLL (e : Nat) : Nat := 0x4010c0 + 0x100 * e
def RHZe_CNT_ROLL_ROLL (e : Nat) : Fld := ⟨RHZe_CNT_ROLL e, 0, 12⟩
def RHZ_GRPg_CFG (g : Nat) : Nat := 0x404000 + 0x40 * g
def RHZ_GRPg_CFG_EN (g : Nat) : Fld := ⟨RHZ_GRPg_CFG g, 31, 1⟩
def RHZ_GRPg_CFG_DL_EVT (g : Nat) : Fld := ⟨RHZ_GRPg_CFG g, 8, 1⟩
def RHZ_GRPg_CFG_DEPTH_LOG (g : Nat) : Fld := ⟨RHZ_GRPg_CFG g, 4, 4⟩
def RHZ_GRPg_CFG_RATE (g : Nat) : Fld := ⟨RHZ_GRPg_CFG g, 0, 3⟩
def RHZ_GRPg_WAIT (g : Nat) : Nat := 0x404004 + 0x40 * g
def RHZ_GRPg_WAIT_WAIT_NS (g : Nat) : Fld := ⟨RHZ_GRPg_WAIT g, 0, 20⟩
def RHZ_GRPg_DMAX (g : Nat) : Nat := 0x404008 + 0x40 * g
def RHZ_GRPg_DMAX_DMAX_US (g : Nat) : Fld := ⟨RHZ_GRPg_DMAX g, 0, 16⟩
def RHZ_GRPg_PLAUS (g : Nat) : Nat := 0x40400c + 0x40 * g
def RHZ_GRPg_PLAUS_GUARD_NS (g : Nat) : Fld := ⟨RHZ_GRPg_PLAUS g, 16, 16⟩
def RHZ_GRPg_PLAUS_PLAUS_US (g : Nat) : Fld := ⟨RHZ_GRPg_PLAUS g, 0, 16⟩
def RHZ_GRPg_RING (g : Nat) : Nat := 0x404010 + 0x40 * g
def RHZ_GRPg_RING_BASE (g : Nat) : Fld := ⟨RHZ_GRPg_RING g, 6, 19⟩
def RHZ_GRPg_CH (g : Nat) : Nat := 0x404014 + 0x40 * g
def RHZ_GRPg_CH_CH_COUNT (g : Nat) : Fld := ⟨RHZ_GRPg_CH g, 16, 14⟩
def RHZ_GRPg_CH_CH_FIRST (g : Nat) : Fld := ⟨RHZ_GRPg_CH g, 0, 13⟩
def RHZ_GRPg_NEXT_LO (g : Nat) : Nat := 0x404018 + 0x40 * g
def RHZ_GRPg_NEXT_LO_NEXT (g : Nat) : Fld := ⟨RHZ_GRPg_NEXT_LO g, 0, 32⟩
def RHZ_GRPg_NEXT_HI (g : Nat) : Nat := 0x40401c + 0x40 * g
def RHZ_GRPg_NEXT_HI_NEXT (g : Nat) : Fld := ⟨RHZ_GRPg_NEXT_HI g, 0, 32⟩
def RHZ_GRPg_REL_COMPLETE (g : Nat) : Nat := 0x404020 + 0x40 * g
def RHZ_GRPg_REL_COMPLETE_COUNT (g : Nat) : Fld := ⟨RHZ_GRPg_REL_COMPLETE g, 0, 32⟩
def RHZ_GRPg_REL_DEADLINE (g : Nat) : Nat := 0x404024 + 0x40 * g
def RHZ_GRPg_REL_DEADLINE_COUNT (g : Nat) : Fld := ⟨RHZ_GRPg_REL_DEADLINE g, 0, 32⟩
def RHZ_GRPg_AWAIT (g : Nat) : Nat := 0x404028 + 0x40 * g
def RHZ_GRPg_AWAIT_SLOTS (g : Nat) : Fld := ⟨RHZ_GRPg_AWAIT g, 16, 11⟩
def RHZ_GRPg_AWAIT_AWAITED (g : Nat) : Fld := ⟨RHZ_GRPg_AWAIT g, 0, 11⟩
def RHZ_GRPg_CNT_ROLL (g : Nat) : Nat := 0x40402c + 0x40 * g
def RHZ_GRPg_CNT_ROLL_ROLL (g : Nat) : Fld := ⟨RHZ_GRPg_CNT_ROLL g, 0, 2⟩
def RHZ_SLOTs_CFG (s : Nat) : Nat := 0x410000 + 0x40 * s
def RHZ_SLOTs_CFG_EN (s : Nat) : Fld := ⟨RHZ_SLOTs_CFG s, 31, 1⟩
def RHZ_SLOTs_CFG_AWAIT_EN (s : Nat) : Fld := ⟨RHZ_SLOTs_CFG s, 30, 1⟩
def RHZ_SLOTs_CFG_ALLOW_UNSYNC (s : Nat) : Fld := ⟨RHZ_SLOTs_CFG s, 29, 1⟩
def RHZ_SLOTs_CFG_SYNC_REQ (s : Nat) : Fld := ⟨RHZ_SLOTs_CFG s, 27, 2⟩
def RHZ_SLOTs_CFG_PROFILE (s : Nat) : Fld := ⟨RHZ_SLOTs_CFG s, 25, 2⟩
def RHZ_SLOTs_CFG_GROUP (s : Nat) : Fld := ⟨RHZ_SLOTs_CFG s, 20, 4⟩
def RHZ_SLOTs_CFG_NASDU (s : Nat) : Fld := ⟨RHZ_SLOTs_CFG s, 16, 4⟩
def RHZ_SLOTs_CFG_ENG_B (s : Nat) : Fld := ⟨RHZ_SLOTs_CFG s, 5, 5⟩
def RHZ_SLOTs_CFG_ENG_A (s : Nat) : Fld := ⟨RHZ_SLOTs_CFG s, 0, 5⟩
def RHZ_SLOTs_KEY (s : Nat) : Nat := 0x410004 + 0x40 * s
def RHZ_SLOTs_KEY_APPID (s : Nat) : Fld := ⟨RHZ_SLOTs_KEY s, 16, 16⟩
def RHZ_SLOTs_KEY_NCH (s : Nat) : Fld := ⟨RHZ_SLOTs_KEY s, 0, 5⟩
def RHZ_SLOTs_ADDR_LO (s : Nat) : Nat := 0x410008 + 0x40 * s
def RHZ_SLOTs_ADDR_LO_ADDR (s : Nat) : Fld := ⟨RHZ_SLOTs_ADDR_LO s, 0, 32⟩
def RHZ_SLOTs_ADDR_HI (s : Nat) : Nat := 0x41000c + 0x40 * s
def RHZ_SLOTs_ADDR_HI_MAC_HI (s : Nat) : Fld := ⟨RHZ_SLOTs_ADDR_HI s, 0, 16⟩
def RHZ_SLOTs_CONFREV (s : Nat) : Nat := 0x410010 + 0x40 * s
def RHZ_SLOTs_CONFREV_CONFREV (s : Nat) : Fld := ⟨RHZ_SLOTs_CONFREV s, 0, 32⟩
def RHZ_SLOTs_CH (s : Nat) : Nat := 0x410014 + 0x40 * s
def RHZ_SLOTs_CH_CH_BASE (s : Nat) : Fld := ⟨RHZ_SLOTs_CH s, 0, 13⟩
def RHZ_SLOTs_TRANSIT (s : Nat) : Nat := 0x410018 + 0x40 * s
def RHZ_SLOTs_TRANSIT_TRANSIT_NS (s : Nat) : Fld := ⟨RHZ_SLOTs_TRANSIT s, 0, 24⟩
def RHZ_SLOTs_SVLEN (s : Nat) : Nat := 0x41001c + 0x40 * s
def RHZ_SLOTs_SVLEN_LEN (s : Nat) : Fld := ⟨RHZ_SLOTs_SVLEN s, 0, 7⟩
def RHZ_SLOTs_SVIDw (s w : Nat) : Nat := 0x430000 + 0x40 * s + 4 * w
def RHZ_SLOTs_SVIDw_OCTETS (s w : Nat) : Fld := ⟨RHZ_SLOTs_SVIDw s w, 0, 32⟩
def RHZ_SLOTs_STAT (s : Nat) : Nat := 0x420000 + 0x40 * s
def RHZ_SLOTs_STAT_GEN (s : Nat) : Fld := ⟨RHZ_SLOTs_STAT s, 28, 4⟩
def RHZ_SLOTs_STAT_STATE (s : Nat) : Fld := ⟨RHZ_SLOTs_STAT s, 25, 3⟩
def RHZ_SLOTs_STAT_ARRIVING (s : Nat) : Fld := ⟨RHZ_SLOTs_STAT s, 24, 1⟩
def RHZ_SLOTs_STAT_MISS (s : Nat) : Fld := ⟨RHZ_SLOTs_STAT s, 22, 2⟩
def RHZ_SLOTs_STAT_GOOD_RUN (s : Nat) : Fld := ⟨RHZ_SLOTs_STAT s, 17, 5⟩
def RHZ_SLOTs_STAT_SIM_SEEN (s : Nat) : Fld := ⟨RHZ_SLOTs_STAT s, 16, 1⟩
def RHZ_SLOTs_STAT_MU_HOLD (s : Nat) : Fld := ⟨RHZ_SLOTs_STAT s, 15, 1⟩
def RHZ_SLOTs_STAT_UNSYNC (s : Nat) : Fld := ⟨RHZ_SLOTs_STAT s, 14, 1⟩
def RHZ_SLOTs_STAT_CONFREV_ERR (s : Nat) : Fld := ⟨RHZ_SLOTs_STAT s, 13, 1⟩
def RHZ_SLOTs_LAST (s : Nat) : Nat := 0x420004 + 0x40 * s
def RHZ_SLOTs_LAST_SYNCH (s : Nat) : Fld := ⟨RHZ_SLOTs_LAST s, 24, 8⟩
def RHZ_SLOTs_LAST_CNT (s : Nat) : Fld := ⟨RHZ_SLOTs_LAST s, 0, 17⟩
def RHZ_SLOTs_LASTI_LO (s : Nat) : Nat := 0x420008 + 0x40 * s
def RHZ_SLOTs_LASTI_LO_INSTANT (s : Nat) : Fld := ⟨RHZ_SLOTs_LASTI_LO s, 0, 32⟩
def RHZ_SLOTs_LASTI_HI (s : Nat) : Nat := 0x42000c + 0x40 * s
def RHZ_SLOTs_LASTI_HI_INSTANT (s : Nat) : Fld := ⟨RHZ_SLOTs_LASTI_HI s, 0, 32⟩
def RHZ_SLOTs_SPDU (s : Nat) : Nat := 0x420010 + 0x40 * s
def RHZ_SLOTs_SPDU_SPDU (s : Nat) : Fld := ⟨RHZ_SLOTs_SPDU s, 0, 32⟩
def RHZ_SLOTs_QUAL (s : Nat) : Nat := 0x420014 + 0x40 * s
def RHZ_SLOTs_QUAL_QOR (s : Nat) : Fld := ⟨RHZ_SLOTs_QUAL s, 0, 14⟩
def RHZ_SLOTs_CONFREV_SEEN (s : Nat) : Nat := 0x420018 + 0x40 * s
def RHZ_SLOTs_CONFREV_SEEN_CONFREV (s : Nat) : Fld := ⟨RHZ_SLOTs_CONFREV_SEEN s, 0, 32⟩
def RHZ_SLOTs_CNT_ROLL (s : Nat) : Nat := 0x42001c + 0x40 * s
def RHZ_SLOTs_CNT_ROLL_ROLL (s : Nat) : Fld := ⟨RHZ_SLOTs_CNT_ROLL s, 0, 8⟩
def RHZ_SLOTs_CNTi (s i : Nat) : Nat := 0x420020 + 0x40 * s + 4 * i
def RHZ_SLOTs_CNTi_COUNT (s i : Nat) : Fld := ⟨RHZ_SLOTs_CNTi s i, 0, 32⟩
/-! SOR -/

def SOR_CTRL : Nat := 0x800040
def SOR_CTRL_PLANE_BASE : Fld := ⟨SOR_CTRL, 16, 9⟩
def SOR_CTRL_GV_EN : Fld := ⟨SOR_CTRL, 0, 1⟩
def SOR_LANEMAP_LO : Nat := 0x800044
def SOR_LANEMAP_LO_MAP : Fld := ⟨SOR_LANEMAP_LO, 0, 32⟩
def SOR_LANEMAP_HI : Nat := 0x800048
def SOR_LANEMAP_HI_MAP : Fld := ⟨SOR_LANEMAP_HI, 0, 32⟩
def SOR_SPARE : Nat := 0x80004c
def SOR_SPARE_SPARE : Fld := ⟨SOR_SPARE, 0, 16⟩
def SOR_TRK_ATTN0 : Nat := 0x800050
def SOR_TRK_ATTN0_ATTN : Fld := ⟨SOR_TRK_ATTN0, 0, 32⟩
def SOR_TRK_ATTN1 : Nat := 0x800054
def SOR_TRK_ATTN1_ATTN : Fld := ⟨SOR_TRK_ATTN1, 0, 32⟩
def SOR_CNT_ROLL : Nat := 0x800058
def SOR_CNT_ROLL_ROLL : Fld := ⟨SOR_CNT_ROLL, 0, 4⟩
def SOR_DECg (g : Nat) : Nat := 0x800060 + 4 * g
def SOR_DECg_DEC_IN (g : Nat) : Fld := ⟨SOR_DECg g, 0, 6⟩
def SOR_CNTi (i : Nat) : Nat := 0x8000a0 + 4 * i
def SOR_CNTi_COUNT (i : Nat) : Fld := ⟨SOR_CNTi i, 0, 32⟩
def SOR_SATk (k : Nat) : Nat := 0x800100 + 4 * k
def SOR_SATk_SAT (k : Nat) : Fld := ⟨SOR_SATk k, 0, 32⟩
def SOR_LANEl_STAT (l : Nat) : Nat := 0x801040 + 0x100 * l
def SOR_LANEl_STAT_BLOCK (l : Nat) : Fld := ⟨SOR_LANEl_STAT l, 16, 4⟩
def SOR_LANEl_STAT_PROC_MAX (l : Nat) : Fld := ⟨SOR_LANEl_STAT l, 0, 16⟩
def SOR_LANEl_LOAD (l : Nat) : Nat := 0x801044 + 0x100 * l
def SOR_LANEl_LOAD_UPDATES (l : Nat) : Fld := ⟨SOR_LANEl_LOAD l, 0, 16⟩
def SOR_LANEl_CNTi (l i : Nat) : Nat := 0x801048 + 0x100 * l + 4 * i
def SOR_LANEl_CNTi_COUNT (l i : Nat) : Fld := ⟨SOR_LANEl_CNTi l i, 0, 32⟩
def SOR_LANEl_CNT_ROLL (l : Nat) : Nat := 0x801054 + 0x100 * l
def SOR_LANEl_CNT_ROLL_ROLL (l : Nat) : Fld := ⟨SOR_LANEl_CNT_ROLL l, 0, 3⟩
def SOR_TRKt_CFG (t : Nat) : Nat := 0x810000 + 0x40 * t
def SOR_TRKt_CFG_EN (t : Nat) : Fld := ⟨SOR_TRKt_CFG t, 31, 1⟩
def SOR_TRKt_CFG_FNOM (t : Nat) : Fld := ⟨SOR_TRKt_CFG t, 30, 1⟩
def SOR_TRKt_CFG_HOLD_EN (t : Nat) : Fld := ⟨SOR_TRKt_CFG t, 29, 1⟩
def SOR_TRKt_CFG_REF_MODE (t : Nat) : Fld := ⟨SOR_TRKt_CFG t, 27, 2⟩
def SOR_TRKt_CFG_AGRP (t : Nat) : Fld := ⟨SOR_TRKt_CFG t, 23, 4⟩
def SOR_TRKt_CFG_KF (t : Nat) : Fld := ⟨SOR_TRKt_CFG t, 19, 4⟩
def SOR_TRKt_CFG_KR (t : Nat) : Fld := ⟨SOR_TRKt_CFG t, 15, 4⟩
def SOR_TRKt_CFG_ROCOF_D (t : Nat) : Fld := ⟨SOR_TRKt_CFG t, 8, 7⟩
def SOR_TRKt_CFG_LOCK_N (t : Nat) : Fld := ⟨SOR_TRKt_CFG t, 0, 8⟩
def SOR_TRKt_REF0 (t : Nat) : Nat := 0x810004 + 0x40 * t
def SOR_TRKt_REF0_A1 (t : Nat) : Fld := ⟨SOR_TRKt_REF0 t, 16, 13⟩
def SOR_TRKt_REF0_A0 (t : Nat) : Fld := ⟨SOR_TRKt_REF0 t, 0, 13⟩
def SOR_TRKt_REF1 (t : Nat) : Nat := 0x810008 + 0x40 * t
def SOR_TRKt_REF1_B0 (t : Nat) : Fld := ⟨SOR_TRKt_REF1 t, 16, 13⟩
def SOR_TRKt_REF1_A2 (t : Nat) : Fld := ⟨SOR_TRKt_REF1 t, 0, 13⟩
def SOR_TRKt_REF2 (t : Nat) : Nat := 0x81000c + 0x40 * t
def SOR_TRKt_REF2_B2 (t : Nat) : Fld := ⟨SOR_TRKt_REF2 t, 16, 13⟩
def SOR_TRKt_REF2_B1 (t : Nat) : Fld := ⟨SOR_TRKt_REF2 t, 0, 13⟩
def SOR_TRKt_MIN_MAG (t : Nat) : Nat := 0x810010 + 0x40 * t
def SOR_TRKt_MIN_MAG_MAG (t : Nat) : Fld := ⟨SOR_TRKt_MIN_MAG t, 0, 32⟩
def SOR_TRKt_LOCK (t : Nat) : Nat := 0x810014 + 0x40 * t
def SOR_TRKt_LOCK_LOCK_MHZ (t : Nat) : Fld := ⟨SOR_TRKt_LOCK t, 0, 16⟩
def SOR_TRKt_STAT (t : Nat) : Nat := 0x810018 + 0x40 * t
def SOR_TRKt_STAT_CLAMP (t : Nat) : Fld := ⟨SOR_TRKt_STAT t, 3, 1⟩
def SOR_TRKt_STAT_REF_B (t : Nat) : Fld := ⟨SOR_TRKt_STAT t, 2, 1⟩
def SOR_TRKt_STAT_STATE (t : Nat) : Fld := ⟨SOR_TRKt_STAT t, 0, 2⟩
def SOR_TRKt_FEST (t : Nat) : Nat := 0x81001c + 0x40 * t
def SOR_TRKt_FEST_F (t : Nat) : Fld := ⟨SOR_TRKt_FEST t, 0, 32⟩
def SOR_TRKt_FROT (t : Nat) : Nat := 0x810020 + 0x40 * t
def SOR_TRKt_FROT_F (t : Nat) : Fld := ⟨SOR_TRKt_FROT t, 0, 32⟩
def SOR_TRKt_ROCOF (t : Nat) : Nat := 0x810024 + 0x40 * t
def SOR_TRKt_ROCOF_R (t : Nat) : Fld := ⟨SOR_TRKt_ROCOF t, 0, 32⟩
def SOR_TRKt_PHASE_LO (t : Nat) : Nat := 0x810028 + 0x40 * t
def SOR_TRKt_PHASE_LO_PHASE (t : Nat) : Fld := ⟨SOR_TRKt_PHASE_LO t, 0, 32⟩
def SOR_TRKt_PHASE_HI (t : Nat) : Nat := 0x81002c + 0x40 * t
def SOR_TRKt_PHASE_HI_PHASE (t : Nat) : Fld := ⟨SOR_TRKt_PHASE_HI t, 0, 16⟩
def SOR_AAs_HDR (s : Nat) : Nat := 0x820000 + 0x200 * s
def SOR_AAs_HDR_TYPE (s : Nat) : Fld := ⟨SOR_AAs_HDR s, 31, 1⟩
def SOR_AAs_HDR_FNOM (s : Nat) : Fld := ⟨SOR_AAs_HDR s, 30, 1⟩
def SOR_AAs_HDR_NTAP (s : Nat) : Fld := ⟨SOR_AAs_HDR s, 0, 7⟩
def SOR_AAs_GD0 (s : Nat) : Nat := 0x820004 + 0x200 * s
def SOR_AAs_GD0_GD (s : Nat) : Fld := ⟨SOR_AAs_GD0 s, 0, 32⟩
def SOR_AAs_SLOPE (s : Nat) : Nat := 0x820008 + 0x200 * s
def SOR_AAs_SLOPE_SLOPE (s : Nat) : Fld := ⟨SOR_AAs_SLOPE s, 0, 32⟩
def SOR_AAs_PDh (s h : Nat) : Nat := 0x820080 + 0x200 * s + 4 * h
def SOR_AAs_PDh_PD (s h : Nat) : Fld := ⟨SOR_AAs_PDh s h, 0, 32⟩
def SOR_AAs_Ci (s i : Nat) : Nat := 0x820100 + 0x200 * s + 4 * i
def SOR_AAs_Ci_C (s i : Nat) : Fld := ⟨SOR_AAs_Ci s i, 0, 18⟩
def SOR_CHc_CFG (c : Nat) : Nat := 0x900000 + 0x40 * c
def SOR_CHc_CFG_EN (c : Nat) : Fld := ⟨SOR_CHc_CFG c, 31, 1⟩
def SOR_CHc_CFG_FP_SRC (c : Nat) : Fld := ⟨SOR_CHc_CFG c, 30, 1⟩
def SOR_CHc_CFG_TRK (c : Nat) : Fld := ⟨SOR_CHc_CFG c, 24, 6⟩
def SOR_CHc_CFG_AA_SET (c : Nat) : Fld := ⟨SOR_CHc_CFG c, 18, 6⟩
def SOR_CHc_CFG_AA_SHIFT (c : Nat) : Fld := ⟨SOR_CHc_CFG c, 13, 5⟩
def SOR_CHc_CFG_LSH (c : Nat) : Fld := ⟨SOR_CHc_CFG c, 10, 3⟩
def SOR_CHc_CFG_NBIN (c : Nat) : Fld := ⟨SOR_CHc_CFG c, 7, 3⟩
def SOR_CHc_CFG_NSTAGE (c : Nat) : Fld := ⟨SOR_CHc_CFG c, 5, 2⟩
def SOR_CHc_OUT (c : Nat) : Nat := 0x900004 + 0x40 * c
def SOR_CHc_OUT_OUT_SHIFT (c : Nat) : Fld := ⟨SOR_CHc_OUT c, 18, 5⟩
def SOR_CHc_OUT_OUT_GAIN (c : Nat) : Fld := ⟨SOR_CHc_OUT c, 0, 18⟩
def SOR_CHc_HARM0 (c : Nat) : Nat := 0x900008 + 0x40 * c
def SOR_CHc_HARM0_H (c : Nat) : Fld := ⟨SOR_CHc_HARM0 c, 0, 32⟩
def SOR_CHc_HARM1 (c : Nat) : Nat := 0x90000c + 0x40 * c
def SOR_CHc_HARM1_H (c : Nat) : Fld := ⟨SOR_CHc_HARM1 c, 0, 32⟩
def SOR_CHc_STGk_A (c k : Nat) : Nat := 0x900010 + 0x40 * c + 8 * k
def SOR_CHc_STGk_A_TRK (c k : Nat) : Fld := ⟨SOR_CHc_STGk_A c k, 31, 1⟩
def SOR_CHc_STGk_A_MDEC (c k : Nat) : Fld := ⟨SOR_CHc_STGk_A c k, 23, 8⟩
def SOR_CHc_STGk_A_SHIFT (c k : Nat) : Fld := ⟨SOR_CHc_STGk_A c k, 18, 5⟩
def SOR_CHc_STGk_A_CYC (c k : Nat) : Fld := ⟨SOR_CHc_STGk_A c k, 8, 8⟩
def SOR_CHc_STGk_B (c k : Nat) : Nat := 0x900014 + 0x40 * c + 8 * k
def SOR_CHc_STGk_B_LEN (c k : Nat) : Fld := ⟨SOR_CHc_STGk_B c k, 16, 9⟩
def SOR_CHc_STGk_B_FRAC (c k : Nat) : Fld := ⟨SOR_CHc_STGk_B c k, 0, 16⟩
def SOR_CHc_STAT (c : Nat) : Nat := 0x980000 + 0x20 * c
def SOR_CHc_STAT_STG_SAT (c : Nat) : Fld := ⟨SOR_CHc_STAT c, 24, 4⟩
def SOR_CHc_STAT_NORM_SAT (c : Nat) : Fld := ⟨SOR_CHc_STAT c, 23, 1⟩
def SOR_CHc_STAT_LEN_CLAMP (c : Nat) : Fld := ⟨SOR_CHc_STAT c, 22, 1⟩
def SOR_CHc_STAT_FP_SINGLE (c : Nat) : Fld := ⟨SOR_CHc_STAT c, 21, 1⟩
def SOR_CHc_STAT_FILLED (c : Nat) : Fld := ⟨SOR_CHc_STAT c, 8, 8⟩
def SOR_CHc_LEN (c : Nat) : Nat := 0x980004 + 0x20 * c
def SOR_CHc_LEN_L (c : Nat) : Fld := ⟨SOR_CHc_LEN c, 16, 9⟩
def SOR_CHc_LEN_F (c : Nat) : Fld := ⟨SOR_CHc_LEN c, 0, 16⟩
def SOR_CHc_GD (c : Nat) : Nat := 0x980008 + 0x20 * c
def SOR_CHc_GD_GD (c : Nat) : Fld := ⟨SOR_CHc_GD c, 0, 32⟩
def SOR_CHc_PD (c : Nat) : Nat := 0x98000c + 0x20 * c
def SOR_CHc_PD_PD (c : Nat) : Fld := ⟨SOR_CHc_PD c, 0, 32⟩
def SOR_CHc_NORM (c : Nat) : Nat := 0x980010 + 0x20 * c
def SOR_CHc_NORM_NORM (c : Nat) : Fld := ⟨SOR_CHc_NORM c, 0, 20⟩
def SOR_CHc_WIN (c : Nat) : Nat := 0x980014 + 0x20 * c
def SOR_CHc_WIN_W (c : Nat) : Fld := ⟨SOR_CHc_WIN c, 0, 17⟩
def THR_CTRL : Nat := 0xc00040
def THR_CTRL_PLANE_BASE : Fld := ⟨THR_CTRL, 16, 9⟩
def THR_STICKYw (w : Nat) : Nat := 0xc01000 + 4 * w
def THR_STICKYw_STICKY (w : Nat) : Fld := ⟨THR_STICKYw w, 0, 32⟩
def THR_LIVEw (w : Nat) : Nat := 0xc02000 + 4 * w
def THR_LIVEw_LIVE (w : Nat) : Fld := ⟨THR_LIVEw w, 0, 32⟩
def THRk_CFG (k : Nat) : Nat := 0xd00000 + 0x20 * k
def THRk_CFG_EN (k : Nat) : Fld := ⟨THRk_CFG k, 31, 1⟩
def THRk_CFG_DIR (k : Nat) : Fld := ⟨THRk_CFG k, 30, 1⟩
def THRk_CFG_SRC (k : Nat) : Fld := ⟨THRk_CFG k, 27, 3⟩
def THRk_CFG_BIN (k : Nat) : Fld := ⟨THRk_CFG k, 24, 3⟩
def THRk_CFG_INV_ACT (k : Nat) : Fld := ⟨THRk_CFG k, 23, 1⟩
def THRk_CFG_QBLOCK (k : Nat) : Fld := ⟨THRk_CFG k, 22, 1⟩
def THRk_CFG_CRZ_EDGE (k : Nat) : Fld := ⟨THRk_CFG k, 20, 2⟩
def THRk_CFG_ACQ_EN (k : Nat) : Fld := ⟨THRk_CFG k, 19, 1⟩
def THRk_CFG_ACQ_MODE (k : Nat) : Fld := ⟨THRk_CFG k, 18, 1⟩
def THRk_CFG_ACQ_IN (k : Nat) : Fld := ⟨THRk_CFG k, 13, 5⟩
def THRk_CFG_EVT (k : Nat) : Fld := ⟨THRk_CFG k, 12, 1⟩
def THRk_LEVEL (k : Nat) : Nat := 0xd00004 + 0x20 * k
def THRk_LEVEL_LEVEL (k : Nat) : Fld := ⟨THRk_LEVEL k, 0, 32⟩
def THRk_HYST (k : Nat) : Nat := 0xd00008 + 0x20 * k
def THRk_HYST_HYST (k : Nat) : Fld := ⟨THRk_HYST k, 0, 32⟩
def THRk_DLY (k : Nat) : Nat := 0xd0000c + 0x20 * k
def THRk_DLY_DO_DLY (k : Nat) : Fld := ⟨THRk_DLY k, 16, 16⟩
def THRk_DLY_PU_DLY (k : Nat) : Fld := ⟨THRk_DLY k, 0, 16⟩
def THRk_STAT (k : Nat) : Nat := 0xe00000 + 0x10 * k
def THRk_STAT_COUNT (k : Nat) : Fld := ⟨THRk_STAT k, 24, 8⟩
def THRk_STAT_RESTARTED (k : Nat) : Fld := ⟨THRk_STAT k, 4, 1⟩
def THRk_STAT_BLK (k : Nat) : Fld := ⟨THRk_STAT k, 3, 1⟩
def THRk_STAT_BEYOND (k : Nat) : Fld := ⟨THRk_STAT k, 2, 1⟩
def THRk_STAT_LIVE (k : Nat) : Fld := ⟨THRk_STAT k, 1, 1⟩
def THRk_STAT_STICKY (k : Nat) : Fld := ⟨THRk_STAT k, 0, 1⟩
def THRk_FIRST_LO (k : Nat) : Nat := 0xe00004 + 0x10 * k
def THRk_FIRST_LO_NS (k : Nat) : Fld := ⟨THRk_FIRST_LO k, 0, 32⟩
def THRk_FIRST_HI (k : Nat) : Nat := 0xe00008 + 0x10 * k
def THRk_FIRST_HI_NS (k : Nat) : Fld := ⟨THRk_FIRST_HI k, 0, 32⟩
def THRk_RUN (k : Nat) : Nat := 0xe0000c + 0x10 * k
def THRk_RUN_RUN (k : Nat) : Fld := ⟨THRk_RUN k, 0, 16⟩
/-! CRZ -/

def CRZ_CTRL : Nat := 0x1000040
def CRZ_CTRL_P_SKIP_LIMIT : Fld := ⟨CRZ_CTRL, 8, 8⟩
def CRZ_CTRL_TBL_EN : Fld := ⟨CRZ_CTRL, 0, 4⟩
def CRZ_STATUS : Nat := 0x1000044
def CRZ_STATUS_TRIG_BANK : Fld := ⟨CRZ_STATUS, 9, 1⟩
def CRZ_STATUS_FAULTED : Fld := ⟨CRZ_STATUS, 8, 1⟩
def CRZ_STATUS_STATE : Fld := ⟨CRZ_STATUS, 0, 8⟩
def CRZ_DESC_BASE_LO : Nat := 0x1000048
def CRZ_DESC_BASE_LO_ADDR : Fld := ⟨CRZ_DESC_BASE_LO, 0, 32⟩
def CRZ_DESC_BASE_HI : Nat := 0x100004c
def CRZ_DESC_BASE_HI_ADDR : Fld := ⟨CRZ_DESC_BASE_HI, 0, 32⟩
def CRZ_ELEM_BASE_LO : Nat := 0x1000050
def CRZ_ELEM_BASE_LO_ADDR : Fld := ⟨CRZ_ELEM_BASE_LO, 0, 32⟩
def CRZ_ELEM_BASE_HI : Nat := 0x1000054
def CRZ_ELEM_BASE_HI_ADDR : Fld := ⟨CRZ_ELEM_BASE_HI, 0, 32⟩
def CRZ_TRIG_LEN : Nat := 0x1000058
def CRZ_TRIG_LEN_LEN_B : Fld := ⟨CRZ_TRIG_LEN, 16, 13⟩
def CRZ_TRIG_LEN_LEN_A : Fld := ⟨CRZ_TRIG_LEN, 0, 13⟩
def CRZ_SNAP_LEN : Nat := 0x100005c
def CRZ_SNAP_LEN_LEN_B : Fld := ⟨CRZ_SNAP_LEN, 16, 9⟩
def CRZ_SNAP_LEN_LEN_A : Fld := ⟨CRZ_SNAP_LEN, 0, 9⟩
def CRZ_SWAP_CTRL : Nat := 0x1000060
def CRZ_SWAP_CTRL_ARM : Fld := ⟨CRZ_SWAP_CTRL, 31, 1⟩
def CRZ_SWAP_CTRL_CANCEL : Fld := ⟨CRZ_SWAP_CTRL, 30, 1⟩
def CRZ_SWAP_CTRL_STATE : Fld := ⟨CRZ_SWAP_CTRL, 27, 3⟩
def CRZ_SWAP_CTRL_RETRY : Fld := ⟨CRZ_SWAP_CTRL, 23, 4⟩
def CRZ_SWAP_CTRL_DEFERRALS : Fld := ⟨CRZ_SWAP_CTRL, 19, 4⟩
def CRZ_SWAP_CTRL_TABLES : Fld := ⟨CRZ_SWAP_CTRL, 15, 4⟩
def CRZ_SWAP_CTRL_TRIG : Fld := ⟨CRZ_SWAP_CTRL, 14, 1⟩
def CRZ_SWAP_CTRL_CARRY_COUNT : Fld := ⟨CRZ_SWAP_CTRL, 0, 13⟩
def CRZ_SWAP_TICK_LO : Nat := 0x1000064
def CRZ_SWAP_TICK_LO_TICK : Fld := ⟨CRZ_SWAP_TICK_LO, 0, 32⟩
def CRZ_SWAP_TICK_HI : Nat := 0x1000068
def CRZ_SWAP_TICK_HI_TICK : Fld := ⟨CRZ_SWAP_TICK_HI, 0, 32⟩
def CRZ_SWAP_DONE_LO : Nat := 0x100006c
def CRZ_SWAP_DONE_LO_TICK : Fld := ⟨CRZ_SWAP_DONE_LO, 0, 32⟩
def CRZ_SWAP_DONE_HI : Nat := 0x1000070
def CRZ_SWAP_DONE_HI_TICK : Fld := ⟨CRZ_SWAP_DONE_HI, 0, 32⟩
def CRZ_SWAP_STAT : Nat := 0x1000074
def CRZ_SWAP_STAT_CARRY_NS : Fld := ⟨CRZ_SWAP_STAT, 0, 16⟩
def CRZ_CNTi (i : Nat) : Nat := 0x1000200 + 4 * i
def CRZ_CNTi_COUNT (i : Nat) : Fld := ⟨CRZ_CNTi i, 0, 32⟩
def CRZ_CNT_ROLL : Nat := 0x1000230
def CRZ_CNT_ROLL_ROLL : Fld := ⟨CRZ_CNT_ROLL, 0, 12⟩
def CRZ_FAULT_INFO : Nat := 0x1000240
def CRZ_FAULT_INFO_CAUSE : Fld := ⟨CRZ_FAULT_INFO, 28, 4⟩
def CRZ_FAULT_INFO_ELEMENT : Fld := ⟨CRZ_FAULT_INFO, 16, 12⟩
def CRZ_FAULT_INFO_TASK : Fld := ⟨CRZ_FAULT_INFO, 0, 16⟩
def CRZ_FAULT_FAR_LO : Nat := 0x1000244
def CRZ_FAULT_FAR_LO_FAR : Fld := ⟨CRZ_FAULT_FAR_LO, 0, 32⟩
def CRZ_FAULT_FAR_HI : Nat := 0x1000248
def CRZ_FAULT_FAR_HI_FAR : Fld := ⟨CRZ_FAULT_FAR_HI, 0, 32⟩
def CRZ_DESC_IDX : Nat := 0x1000300
def CRZ_DESC_IDX_INDEX : Fld := ⟨CRZ_DESC_IDX, 0, 16⟩
def CRZ_DESC_CMD : Nat := 0x1000304
def CRZ_DESC_CMD_BUSY : Fld := ⟨CRZ_DESC_CMD, 31, 1⟩
def CRZ_DESC_CMD_RESULT : Fld := ⟨CRZ_DESC_CMD, 1, 2⟩
def CRZ_DESC_CMD_OP : Fld := ⟨CRZ_DESC_CMD, 0, 1⟩
def CRZ_DESC_DATAw (w : Nat) : Nat := 0x1000320 + 4 * w
def CRZ_DESC_DATAw_DATA (w : Nat) : Fld := ⟨CRZ_DESC_DATAw w, 0, 32⟩
def CRZ_TBLx_CFGA (x : Nat) : Nat := 0x1000080 + 0x40 * x
def CRZ_TBLx_CFGA_PHASE (x : Nat) : Fld := ⟨CRZ_TBLx_CFGA x, 16, 12⟩
def CRZ_TBLx_CFGA_PERIOD (x : Nat) : Fld := ⟨CRZ_TBLx_CFGA x, 0, 13⟩
def CRZ_TBLx_CFGB (x : Nat) : Nat := 0x1000084 + 0x40 * x
def CRZ_TBLx_CFGB_PHASE (x : Nat) : Fld := ⟨CRZ_TBLx_CFGB x, 16, 12⟩
def CRZ_TBLx_CFGB_PERIOD (x : Nat) : Fld := ⟨CRZ_TBLx_CFGB x, 0, 13⟩
def CRZ_TBLx_LEN (x : Nat) : Nat := 0x1000088 + 0x40 * x
def CRZ_TBLx_LEN_LEN_B (x : Nat) : Fld := ⟨CRZ_TBLx_LEN x, 16, 15⟩
def CRZ_TBLx_LEN_LEN_A (x : Nat) : Fld := ⟨CRZ_TBLx_LEN x, 0, 15⟩
def CRZ_TBLx_STAT (x : Nat) : Nat := 0x100008c + 0x40 * x
def CRZ_TBLx_STAT_BANK (x : Nat) : Fld := ⟨CRZ_TBLx_STAT x, 31, 1⟩
def CRZ_TBLx_STAT_STATE (x : Nat) : Fld := ⟨CRZ_TBLx_STAT x, 24, 2⟩
def CRZ_TBLx_STAT_CONSEC (x : Nat) : Fld := ⟨CRZ_TBLx_STAT x, 16, 8⟩
def CRZ_TBLx_STAT_OFFSET (x : Nat) : Fld := ⟨CRZ_TBLx_STAT x, 0, 12⟩
def CRZ_TBLx_HOLD (x : Nat) : Nat := 0x1000090 + 0x40 * x
def CRZ_TBLx_HOLD_HOLD_US (x : Nat) : Fld := ⟨CRZ_TBLx_HOLD x, 0, 16⟩
def CRZ_TBLx_CYCLES_LO (x : Nat) : Nat := 0x1000094 + 0x40 * x
def CRZ_TBLx_CYCLES_LO_COUNT (x : Nat) : Fld := ⟨CRZ_TBLx_CYCLES_LO x, 0, 32⟩
def CRZ_TBLx_CYCLES_HI (x : Nat) : Nat := 0x1000098 + 0x40 * x
def CRZ_TBLx_CYCLES_HI_COUNT (x : Nat) : Fld := ⟨CRZ_TBLx_CYCLES_HI x, 0, 32⟩
def CRZ_TBLx_CNTi (x i : Nat) : Nat := 0x100009c + 0x40 * x + 4 * i
def CRZ_TBLx_CNTi_COUNT (x i : Nat) : Fld := ⟨CRZ_TBLx_CNTi x i, 0, 32⟩
def CRZ_TBLx_DISP_MAX (x : Nat) : Nat := 0x10000b4 + 0x40 * x
def CRZ_TBLx_DISP_MAX_NS (x : Nat) : Fld := ⟨CRZ_TBLx_DISP_MAX x, 0, 16⟩
def CRZ_TBLx_CNT_ROLL (x : Nat) : Nat := 0x10000b8 + 0x40 * x
def CRZ_TBLx_CNT_ROLL_ROLL (x : Nat) : Fld := ⟨CRZ_TBLx_CNT_ROLL x, 0, 6⟩
def CRZ_LCMAPl (l : Nat) : Nat := 0x1001000 + 4 * l
def CRZ_LCMAPl_EN (l : Nat) : Fld := ⟨CRZ_LCMAPl l, 31, 1⟩
def CRZ_LCMAPl_NOCORE (l : Nat) : Fld := ⟨CRZ_LCMAPl l, 30, 1⟩
def CRZ_LCMAPl_SPARE_EN (l : Nat) : Fld := ⟨CRZ_LCMAPl l, 15, 1⟩
def CRZ_LCMAPl_SPARE (l : Nat) : Fld := ⟨CRZ_LCMAPl l, 8, 7⟩
def CRZ_LCMAPl_PHYS (l : Nat) : Fld := ⟨CRZ_LCMAPl l, 0, 7⟩
def CRZ_TUFTMAPt (t : Nat) : Nat := 0x1001200 + 4 * t
def CRZ_TUFTMAPt_EN (t : Nat) : Fld := ⟨CRZ_TUFTMAPt t, 31, 1⟩
def CRZ_TUFTMAPt_NOTUFT (t : Nat) : Fld := ⟨CRZ_TUFTMAPt t, 30, 1⟩
def CRZ_TUFTMAPt_SPARE_EN (t : Nat) : Fld := ⟨CRZ_TUFTMAPt t, 15, 1⟩
def CRZ_TUFTMAPt_SPARE (t : Nat) : Fld := ⟨CRZ_TUFTMAPt t, 8, 4⟩
def CRZ_TUFTMAPt_PHYS (t : Nat) : Fld := ⟨CRZ_TUFTMAPt t, 0, 4⟩
/-! FRD -/

def FRD_TUFTt_CLK (t : Nat) : Nat := 0x2000040 + 0x100000 * t
def FRD_TUFTt_CLK_FMIN_MHZ (t : Nat) : Fld := ⟨FRD_TUFTt_CLK t, 16, 16⟩
def FRD_TUFTt_CLK_FREQ_MHZ (t : Nat) : Fld := ⟨FRD_TUFTt_CLK t, 0, 16⟩
def FRD_TUFTt_STAT (t : Nat) : Nat := 0x2000044 + 0x100000 * t
def FRD_TUFTt_STAT_CUR_MHZ (t : Nat) : Fld := ⟨FRD_TUFTt_STAT t, 16, 16⟩
def FRD_TUFTt_STAT_FREQ_REFUSED (t : Nat) : Fld := ⟨FRD_TUFTt_STAT t, 3, 1⟩
def FRD_TUFTt_STAT_PC_MAPPED (t : Nat) : Fld := ⟨FRD_TUFTt_STAT t, 2, 1⟩
def FRD_TUFTt_STAT_SAFE_CLK (t : Nat) : Fld := ⟨FRD_TUFTt_STAT t, 1, 1⟩
def FRD_TUFTt_STAT_LOCK (t : Nat) : Fld := ⟨FRD_TUFTt_STAT t, 0, 1⟩
def FRD_TUFTt_TCM_CTRL (t : Nat) : Nat := 0x2000048 + 0x100000 * t
def FRD_TUFTt_TCM_CTRL_BUSY (t : Nat) : Fld := ⟨FRD_TUFTt_TCM_CTRL t, 31, 1⟩
def FRD_TUFTt_TCM_CTRL_RESULT (t : Nat) : Fld := ⟨FRD_TUFTt_TCM_CTRL t, 29, 2⟩
def FRD_TUFTt_TCM_CTRL_GO (t : Nat) : Fld := ⟨FRD_TUFTt_TCM_CTRL t, 28, 1⟩
def FRD_TUFTt_TCM_CTRL_WRITE (t : Nat) : Fld := ⟨FRD_TUFTt_TCM_CTRL t, 27, 1⟩
def FRD_TUFTt_TCM_CTRL_CORE (t : Nat) : Fld := ⟨FRD_TUFTt_TCM_CTRL t, 24, 3⟩
def FRD_TUFTt_TCM_CTRL_SPACE (t : Nat) : Fld := ⟨FRD_TUFTt_TCM_CTRL t, 23, 1⟩
def FRD_TUFTt_TCM_CTRL_WORD (t : Nat) : Fld := ⟨FRD_TUFTt_TCM_CTRL t, 2, 14⟩
def FRD_TUFTt_TCM_DATA (t : Nat) : Nat := 0x200004c + 0x100000 * t
def FRD_TUFTt_TCM_DATA_DATA (t : Nat) : Fld := ⟨FRD_TUFTt_TCM_DATA t, 0, 32⟩
def FRD_TUFTt_CNT_ROLL (t : Nat) : Nat := 0x2000050 + 0x100000 * t
def FRD_TUFTt_CNT_ROLL_ROLL (t : Nat) : Fld := ⟨FRD_TUFTt_CNT_ROLL t, 0, 3⟩
def FRD_TUFTt_CNTi (t i : Nat) : Nat := 0x2000060 + 0x100000 * t + 4 * i
def FRD_TUFTt_CNTi_COUNT (t i : Nat) : Fld := ⟨FRD_TUFTt_CNTi t i, 0, 32⟩
def FRDc_STAT (c : Nat) : Nat := 0x2001040 + 0x100000 * (c / 8) + 0x100 * (c % 8)
def FRDc_STAT_STATE (c : Nat) : Fld := ⟨FRDc_STAT c, 24, 4⟩
def FRDc_STAT_GEN (c : Nat) : Fld := ⟨FRDc_STAT c, 16, 8⟩
def FRDc_STAT_TASK (c : Nat) : Fld := ⟨FRDc_STAT c, 0, 16⟩
def FRDc_EXIT (c : Nat) : Nat := 0x2001044 + 0x100000 * (c / 8) + 0x100 * (c % 8)
def FRDc_EXIT_VALID (c : Nat) : Fld := ⟨FRDc_EXIT c, 8, 1⟩
def FRDc_EXIT_STATUS (c : Nat) : Fld := ⟨FRDc_EXIT c, 0, 8⟩
def FRDc_FAULT (c : Nat) : Nat := 0x2001048 + 0x100000 * (c / 8) + 0x100 * (c % 8)
def FRDc_FAULT_VALID (c : Nat) : Fld := ⟨FRDc_FAULT c, 31, 1⟩
def FRDc_FAULT_GSTART (c : Nat) : Fld := ⟨FRDc_FAULT c, 16, 4⟩
def FRDc_FAULT_CAUSE (c : Nat) : Fld := ⟨FRDc_FAULT c, 0, 8⟩
def FRDc_FAULT_PC (c : Nat) : Nat := 0x200104c + 0x100000 * (c / 8) + 0x100 * (c % 8)
def FRDc_FAULT_PC_PC (c : Nat) : Fld := ⟨FRDc_FAULT_PC c, 0, 32⟩
def FRDc_FAULT_TVAL (c : Nat) : Nat := 0x2001050 + 0x100000 * (c / 8) + 0x100 * (c % 8)
def FRDc_FAULT_TVAL_TVAL (c : Nat) : Fld := ⟨FRDc_FAULT_TVAL c, 0, 32⟩
def FRDc_CYC_LAST (c : Nat) : Nat := 0x2001054 + 0x100000 * (c / 8) + 0x100 * (c % 8)
def FRDc_CYC_LAST_CYCLES (c : Nat) : Fld := ⟨FRDc_CYC_LAST c, 0, 32⟩
def FRDc_CYC_MAX (c : Nat) : Nat := 0x2001058 + 0x100000 * (c / 8) + 0x100 * (c % 8)
def FRDc_CYC_MAX_CYCLES (c : Nat) : Fld := ⟨FRDc_CYC_MAX c, 0, 32⟩
def FRDc_CNT_ROLL (c : Nat) : Nat := 0x200105c + 0x100000 * (c / 8) + 0x100 * (c % 8)
def FRDc_CNT_ROLL_ROLL (c : Nat) : Fld := ⟨FRDc_CNT_ROLL c, 0, 2⟩
def FRDc_CNTi (c i : Nat) : Nat := 0x2001060 + 0x100000 * (c / 8) + 0x100 * (c % 8) + 4 * i
def FRDc_CNTi_COUNT (c i : Nat) : Fld := ⟨FRDc_CNTi c i, 0, 32⟩
/-! RHZ -/

def RHZ_GIN_BASE : Nat := 0x400048
def RHZ_GIN_BASE_BASE : Fld := ⟨RHZ_GIN_BASE, 16, 9⟩
def RHZ_GIN_GUARD : Nat := 0x40004c
def RHZ_GIN_GUARD_GUARD_NS : Fld := ⟨RHZ_GIN_GUARD, 0, 16⟩
def RHZ_GIN_POST_CMD : Nat := 0x400050
def RHZ_GIN_POST_CMD_BUSY : Fld := ⟨RHZ_GIN_POST_CMD, 31, 1⟩
def RHZ_GIN_POST_CMD_GO : Fld := ⟨RHZ_GIN_POST_CMD, 30, 1⟩
def RHZ_GIN_POST_CMD_RESULT : Fld := ⟨RHZ_GIN_POST_CMD, 28, 2⟩
def RHZ_GIN_POST_CMD_ENTRY : Fld := ⟨RHZ_GIN_POST_CMD, 0, 12⟩
def RHZ_GIN_POST_TS_LO : Nat := 0x400054
def RHZ_GIN_POST_TS_LO_NS : Fld := ⟨RHZ_GIN_POST_TS_LO, 0, 32⟩
def RHZ_GIN_POST_TS_HI : Nat := 0x400058
def RHZ_GIN_POST_TS_HI_NS : Fld := ⟨RHZ_GIN_POST_TS_HI, 0, 32⟩
def RHZ_GSUB_ATTNk (k : Nat) : Nat := 0x400180 + 4 * k
def RHZ_GSUB_ATTNk_ATTN (k : Nat) : Fld := ⟨RHZ_GSUB_ATTNk k, 0, 32⟩
def RHZ_GIN_CURk (k : Nat) : Nat := 0x400380 + 4 * k
def RHZ_GIN_CURk_CUR (k : Nat) : Fld := ⟨RHZ_GIN_CURk k, 0, 32⟩
def RHZ_GIN_POST_DATAw (w : Nat) : Nat := 0x400800 + 4 * w
def RHZ_GIN_POST_DATAw_DATA (w : Nat) : Fld := ⟨RHZ_GIN_POST_DATAw w, 0, 32⟩
def RHZ_GSUBe_CFG (e : Nat) : Nat := 0x500000 + 0x40 * e
def RHZ_GSUBe_CFG_EN (e : Nat) : Fld := ⟨RHZ_GSUBe_CFG e, 31, 1⟩
def RHZ_GSUBe_CFG_KIND (e : Nat) : Fld := ⟨RHZ_GSUBe_CFG e, 30, 1⟩
def RHZ_GSUBe_CFG_CRZ_EN (e : Nat) : Fld := ⟨RHZ_GSUBe_CFG e, 29, 1⟩
def RHZ_GSUBe_CFG_ROUTABLE (e : Nat) : Fld := ⟨RHZ_GSUBe_CFG e, 28, 1⟩
def RHZ_GSUBe_CFG_ENG_A (e : Nat) : Fld := ⟨RHZ_GSUBe_CFG e, 23, 5⟩
def RHZ_GSUBe_CFG_ENG_B (e : Nat) : Fld := ⟨RHZ_GSUBe_CFG e, 18, 5⟩
def RHZ_GSUBe_CFG_NMEM (e : Nat) : Fld := ⟨RHZ_GSUBe_CFG e, 0, 8⟩
def RHZ_GSUBe_KEY (e : Nat) : Nat := 0x500004 + 0x40 * e
def RHZ_GSUBe_KEY_APPID (e : Nat) : Fld := ⟨RHZ_GSUBe_KEY e, 16, 16⟩
def RHZ_GSUBe_KEY_REFLEN (e : Nat) : Fld := ⟨RHZ_GSUBe_KEY e, 0, 7⟩
def RHZ_GSUBe_ADDR_LO (e : Nat) : Nat := 0x500008 + 0x40 * e
def RHZ_GSUBe_ADDR_LO_ADDR (e : Nat) : Fld := ⟨RHZ_GSUBe_ADDR_LO e, 0, 32⟩
def RHZ_GSUBe_ADDR_HI (e : Nat) : Nat := 0x50000c + 0x40 * e
def RHZ_GSUBe_ADDR_HI_MAC_HI (e : Nat) : Fld := ⟨RHZ_GSUBe_ADDR_HI e, 0, 16⟩
def RHZ_GSUBe_CONFREV (e : Nat) : Nat := 0x500010 + 0x40 * e
def RHZ_GSUBe_CONFREV_CONFREV (e : Nat) : Fld := ⟨RHZ_GSUBe_CONFREV e, 0, 32⟩
def RHZ_GSUBe_IMG (e : Nat) : Nat := 0x500014 + 0x40 * e
def RHZ_GSUBe_IMG_OFFSET (e : Nat) : Fld := ⟨RHZ_GSUBe_IMG e, 3, 17⟩
def RHZ_GSUBe_TMO (e : Nat) : Nat := 0x500018 + 0x40 * e
def RHZ_GSUBe_TMO_TMO_MS (e : Nat) : Fld := ⟨RHZ_GSUBe_TMO e, 0, 16⟩
def RHZ_GSUBe_REFw (e w : Nat) : Nat := 0x540000 + 0x40 * e + 4 * w
def RHZ_GSUBe_REFw_OCTETS (e w : Nat) : Fld := ⟨RHZ_GSUBe_REFw e w, 0, 32⟩
def RHZ_GSUBe_STAT (e : Nat) : Nat := 0x580000 + 0x20 * e
def RHZ_GSUBe_STAT_GEN (e : Nat) : Fld := ⟨RHZ_GSUBe_STAT e, 28, 4⟩
def RHZ_GSUBe_STAT_STATE (e : Nat) : Fld := ⟨RHZ_GSUBe_STAT e, 24, 4⟩
def RHZ_GSUBe_STAT_SIM_SEEN (e : Nat) : Fld := ⟨RHZ_GSUBe_STAT e, 23, 1⟩
def RHZ_GSUBe_STAT_CONFREV_ERR (e : Nat) : Fld := ⟨RHZ_GSUBe_STAT e, 22, 1⟩
def RHZ_GSUBe_STAT_TPL_ERR (e : Nat) : Fld := ⟨RHZ_GSUBe_STAT e, 21, 1⟩
def RHZ_GSUBe_STAT_TRANS (e : Nat) : Fld := ⟨RHZ_GSUBe_STAT e, 0, 16⟩
def RHZ_GSUBe_LAST_ST (e : Nat) : Nat := 0x580004 + 0x20 * e
def RHZ_GSUBe_LAST_ST_ST (e : Nat) : Fld := ⟨RHZ_GSUBe_LAST_ST e, 0, 32⟩
def RHZ_GSUBe_LAST_SQ (e : Nat) : Nat := 0x580008 + 0x20 * e
def RHZ_GSUBe_LAST_SQ_SQ (e : Nat) : Fld := ⟨RHZ_GSUBe_LAST_SQ e, 0, 32⟩
def RHZ_GSUBe_CNT_ROLL (e : Nat) : Nat := 0x58000c + 0x20 * e
def RHZ_GSUBe_CNT_ROLL_ROLL (e : Nat) : Fld := ⟨RHZ_GSUBe_CNT_ROLL e, 0, 4⟩
def RHZ_GSUBe_CNTi (e i : Nat) : Nat := 0x580010 + 0x20 * e + 4 * i
def RHZ_GSUBe_CNTi_COUNT (e i : Nat) : Fld := ⟨RHZ_GSUBe_CNTi e i, 0, 32⟩
def RHZ_GSUBe_TPLw (e w : Nat) : Nat := 0x600000 + 0x100 * e + 4 * w
def RHZ_GSUBe_TPLw_TAG1 (e w : Nat) : Fld := ⟨RHZ_GSUBe_TPLw e w, 24, 8⟩
def RHZ_GSUBe_TPLw_LEN1 (e w : Nat) : Fld := ⟨RHZ_GSUBe_TPLw e w, 16, 8⟩
def RHZ_GSUBe_TPLw_TAG0 (e w : Nat) : Fld := ⟨RHZ_GSUBe_TPLw e w, 8, 8⟩
def RHZ_GSUBe_TPLw_LEN0 (e w : Nat) : Fld := ⟨RHZ_GSUBe_TPLw e w, 0, 8⟩
/-! SWC -/

def SWC_GOUT_BASE : Nat := 0x300070
def SWC_GOUT_BASE_BASE : Fld := ⟨SWC_GOUT_BASE, 16, 9⟩
def SWC_PUB_CTRL : Nat := 0x300074
def SWC_PUB_CTRL_RESEND : Fld := ⟨SWC_PUB_CTRL, 0, 1⟩
def SWC_PUBb_CFG (b : Nat) : Nat := 0x310000 + 0x40 * b
def SWC_PUBb_CFG_EN (b : Nat) : Fld := ⟨SWC_PUBb_CFG b, 31, 1⟩
def SWC_PUBb_CFG_CLASS (b : Nat) : Fld := ⟨SWC_PUBb_CFG b, 29, 2⟩
def SWC_PUBb_CFG_SIM (b : Nat) : Fld := ⟨SWC_PUBb_CFG b, 28, 1⟩
def SWC_PUBb_CFG_PORTS (b : Nat) : Fld := ⟨SWC_PUBb_CFG b, 0, 20⟩
def SWC_PUBb_IMG (b : Nat) : Nat := 0x310004 + 0x40 * b
def SWC_PUBb_IMG_OFFSET (b : Nat) : Fld := ⟨SWC_PUBb_IMG b, 3, 17⟩
def SWC_PUBb_TIME (b : Nat) : Nat := 0x310008 + 0x40 * b
def SWC_PUBb_TIME_T_MAX_MS (b : Nat) : Fld := ⟨SWC_PUBb_TIME b, 16, 16⟩
def SWC_PUBb_TIME_T_FIRST_US (b : Nat) : Fld := ⟨SWC_PUBb_TIME b, 0, 16⟩
def SWC_PUBb_TAL (b : Nat) : Nat := 0x31000c + 0x40 * b
def SWC_PUBb_TAL_TAL_MS (b : Nat) : Fld := ⟨SWC_PUBb_TAL b, 0, 32⟩
def SWC_PUBb_TPL_LO (b : Nat) : Nat := 0x310010 + 0x40 * b
def SWC_PUBb_TPL_LO_ADDR (b : Nat) : Fld := ⟨SWC_PUBb_TPL_LO b, 0, 32⟩
def SWC_PUBb_TPL_HI (b : Nat) : Nat := 0x310014 + 0x40 * b
def SWC_PUBb_TPL_HI_ADDR (b : Nat) : Fld := ⟨SWC_PUBb_TPL_HI b, 0, 32⟩
def SWC_PUBb_TPL_LEN (b : Nat) : Nat := 0x310018 + 0x40 * b
def SWC_PUBb_TPL_LEN_LEN (b : Nat) : Fld := ⟨SWC_PUBb_TPL_LEN b, 16, 11⟩
def SWC_PUBb_TPL_LEN_NMEM (b : Nat) : Fld := ⟨SWC_PUBb_TPL_LEN b, 8, 8⟩
def SWC_PUBb_STNUM (b : Nat) : Nat := 0x310020 + 0x40 * b
def SWC_PUBb_STNUM_ST (b : Nat) : Fld := ⟨SWC_PUBb_STNUM b, 0, 32⟩
def SWC_PUBb_SQNUM (b : Nat) : Nat := 0x310024 + 0x40 * b
def SWC_PUBb_SQNUM_SQ (b : Nat) : Fld := ⟨SWC_PUBb_SQNUM b, 0, 32⟩
def SWC_PUBb_CHANGES (b : Nat) : Nat := 0x310028 + 0x40 * b
def SWC_PUBb_CHANGES_COUNT (b : Nat) : Fld := ⟨SWC_PUBb_CHANGES b, 0, 32⟩
def SWC_PUBb_STAT (b : Nat) : Nat := 0x31002c + 0x40 * b
def SWC_PUBb_STAT_LAUNCH_LATE (b : Nat) : Fld := ⟨SWC_PUBb_STAT b, 1, 1⟩
def SWC_PUBb_STAT_TPL_ERR (b : Nat) : Fld := ⟨SWC_PUBb_STAT b, 0, 1⟩
/-! ACQ -/

def ACQ_CTRL : Nat := 0x3000040
def ACQ_CTRL_XT_SELF_MASK : Fld := ⟨ACQ_CTRL, 0, 4⟩
def ACQ_XT_COMP : Nat := 0x3000044
def ACQ_XT_COMP_COMP_NS : Fld := ⟨ACQ_XT_COMP, 0, 16⟩
def ACQ_CAL : Nat := 0x3000048
def ACQ_CAL_CAL_NOW : Fld := ⟨ACQ_CAL, 31, 1⟩
def ACQ_CAL_CAL_LOG : Fld := ⟨ACQ_CAL, 16, 5⟩
def ACQ_CAL_CAL_DT : Fld := ⟨ACQ_CAL, 8, 8⟩
def ACQ_CAL_PERIOD : Nat := 0x300004c
def ACQ_CAL_PERIOD_MS : Fld := ⟨ACQ_CAL_PERIOD, 0, 16⟩
def ACQ_CNTi (i : Nat) : Nat := 0x3000060 + 4 * i
def ACQ_CNTi_COUNT (i : Nat) : Fld := ⟨ACQ_CNTi i, 0, 32⟩
def ACQ_CNT_ROLL : Nat := 0x3000078
def ACQ_CNT_ROLL_ROLL : Fld := ⟨ACQ_CNT_ROLL, 0, 6⟩
def ACQ_FEIi_CFG (i : Nat) : Nat := 0x3000100 + 0x20 * i
def ACQ_FEIi_CFG_EN (i : Nat) : Fld := ⟨ACQ_FEIi_CFG i, 31, 1⟩
def ACQ_FEIi_CFG_EVT (i : Nat) : Fld := ⟨ACQ_FEIi_CFG i, 2, 1⟩
def ACQ_FEIi_CFG_EDGES (i : Nat) : Fld := ⟨ACQ_FEIi_CFG i, 0, 2⟩
def ACQ_FEIi_DELAY (i : Nat) : Nat := 0x3000104 + 0x20 * i
def ACQ_FEIi_DELAY_DELAY (i : Nat) : Fld := ⟨ACQ_FEIi_DELAY i, 0, 32⟩
def ACQ_FEIi_STAT (i : Nat) : Nat := 0x3000108 + 0x20 * i
def ACQ_FEIi_STAT_SINGLE (i : Nat) : Fld := ⟨ACQ_FEIi_STAT i, 6, 1⟩
def ACQ_FEIi_STAT_COARSE (i : Nat) : Fld := ⟨ACQ_FEIi_STAT i, 5, 1⟩
def ACQ_FEIi_STAT_FAIL_B (i : Nat) : Fld := ⟨ACQ_FEIi_STAT i, 4, 1⟩
def ACQ_FEIi_STAT_FAIL_A (i : Nat) : Fld := ⟨ACQ_FEIi_STAT i, 3, 1⟩
def ACQ_FEIi_STAT_CAL_BUSY (i : Nat) : Fld := ⟨ACQ_FEIi_STAT i, 2, 1⟩
def ACQ_FEIi_STAT_ACTIVE (i : Nat) : Fld := ⟨ACQ_FEIi_STAT i, 1, 1⟩
def ACQ_FEIi_STAT_LEVEL (i : Nat) : Fld := ⟨ACQ_FEIi_STAT i, 0, 1⟩
def ACQ_FEIi_WIDTH (i : Nat) : Nat := 0x300010c + 0x20 * i
def ACQ_FEIi_WIDTH_WMAX (i : Nat) : Fld := ⟨ACQ_FEIi_WIDTH i, 0, 16⟩
def ACQ_FEIi_LAST_FRAC (i : Nat) : Nat := 0x3000110 + 0x20 * i
def ACQ_FEIi_LAST_FRAC_STAMP (i : Nat) : Fld := ⟨ACQ_FEIi_LAST_FRAC i, 0, 32⟩
def ACQ_FEIi_LAST_LO (i : Nat) : Nat := 0x3000114 + 0x20 * i
def ACQ_FEIi_LAST_LO_STAMP (i : Nat) : Fld := ⟨ACQ_FEIi_LAST_LO i, 0, 32⟩
def ACQ_FEIi_LAST_HI (i : Nat) : Nat := 0x3000118 + 0x20 * i
def ACQ_FEIi_LAST_HI_STAMP (i : Nat) : Fld := ⟨ACQ_FEIi_LAST_HI i, 0, 32⟩
def ACQ_TRGu_CFG (u : Nat) : Nat := 0x3000400 + 0x20 * u
def ACQ_TRGu_CFG_EN (u : Nat) : Fld := ⟨ACQ_TRGu_CFG u, 31, 1⟩
def ACQ_TRGu_CFG_KIND (u : Nat) : Fld := ⟨ACQ_TRGu_CFG u, 28, 3⟩
def ACQ_TRGu_CFG_TYPE (u : Nat) : Fld := ⟨ACQ_TRGu_CFG u, 25, 3⟩
def ACQ_TRGu_CFG_POL (u : Nat) : Fld := ⟨ACQ_TRGu_CFG u, 23, 2⟩
def ACQ_TRGu_CFG_COND (u : Nat) : Fld := ⟨ACQ_TRGu_CFG u, 22, 1⟩
def ACQ_TRGu_CFG_SETS (u : Nat) : Fld := ⟨ACQ_TRGu_CFG u, 13, 8⟩
def ACQ_TRGu_CFG_SRC (u : Nat) : Fld := ⟨ACQ_TRGu_CFG u, 0, 13⟩
def ACQ_TRGu_LEVEL (u : Nat) : Nat := 0x3000404 + 0x20 * u
def ACQ_TRGu_LEVEL_LEVEL (u : Nat) : Fld := ⟨ACQ_TRGu_LEVEL u, 0, 32⟩
def ACQ_TRGu_HIGH (u : Nat) : Nat := 0x3000408 + 0x20 * u
def ACQ_TRGu_HIGH_HIGH (u : Nat) : Fld := ⟨ACQ_TRGu_HIGH u, 0, 32⟩
def ACQ_TRGu_HYST (u : Nat) : Nat := 0x300040c + 0x20 * u
def ACQ_TRGu_HYST_HYST (u : Nat) : Fld := ⟨ACQ_TRGu_HYST u, 0, 32⟩
def ACQ_TRGu_T1 (u : Nat) : Nat := 0x3000410 + 0x20 * u
def ACQ_TRGu_T1_NS (u : Nat) : Fld := ⟨ACQ_TRGu_T1 u, 0, 32⟩
def ACQ_TRGu_T2 (u : Nat) : Nat := 0x3000414 + 0x20 * u
def ACQ_TRGu_T2_NS (u : Nat) : Fld := ⟨ACQ_TRGu_T2 u, 0, 32⟩
def ACQ_TRGu_COUNT (u : Nat) : Nat := 0x3000418 + 0x20 * u
def ACQ_TRGu_COUNT_COUNT (u : Nat) : Fld := ⟨ACQ_TRGu_COUNT u, 0, 32⟩
def ACQ_TRGu_STAT (u : Nat) : Nat := 0x300041c + 0x20 * u
def ACQ_TRGu_STAT_PHASE (u : Nat) : Fld := ⟨ACQ_TRGu_STAT u, 0, 2⟩
def ACQ_CSETs_CFG (s : Nat) : Nat := 0x3001000 + 0x80 * s
def ACQ_CSETs_CFG_EN (s : Nat) : Fld := ⟨ACQ_CSETs_CFG s, 31, 1⟩
def ACQ_CSETs_CFG_MODE (s : Nat) : Fld := ⟨ACQ_CSETs_CFG s, 29, 2⟩
def ACQ_CSETs_CFG_POLICY (s : Nat) : Fld := ⟨ACQ_CSETs_CFG s, 28, 1⟩
def ACQ_CSETs_CFG_FMT (s : Nat) : Fld := ⟨ACQ_CSETs_CFG s, 27, 1⟩
def ACQ_CSETs_CFG_AVG_LOG (s : Nat) : Fld := ⟨ACQ_CSETs_CFG s, 24, 3⟩
def ACQ_CSETs_CFG_EXTRA (s : Nat) : Fld := ⟨ACQ_CSETs_CFG s, 21, 3⟩
def ACQ_CSETs_CFG_XT_EN (s : Nat) : Fld := ⟨ACQ_CSETs_CFG s, 20, 1⟩
def ACQ_CSETs_CFG_XT_LINE (s : Nat) : Fld := ⟨ACQ_CSETs_CFG s, 18, 2⟩
def ACQ_CSETs_CFG_EVT_MASK (s : Nat) : Fld := ⟨ACQ_CSETs_CFG s, 0, 16⟩
def ACQ_CSETs_CH (s : Nat) : Nat := 0x3001004 + 0x80 * s
def ACQ_CSETs_CH_NCH (s : Nat) : Fld := ⟨ACQ_CSETs_CH s, 16, 7⟩
def ACQ_CSETs_CH_CH_FIRST (s : Nat) : Fld := ⟨ACQ_CSETs_CH s, 0, 13⟩
def ACQ_CSETs_PRE (s : Nat) : Nat := 0x3001008 + 0x80 * s
def ACQ_CSETs_PRE_ROWS (s : Nat) : Fld := ⟨ACQ_CSETs_PRE s, 0, 16⟩
def ACQ_CSETs_POST (s : Nat) : Nat := 0x300100c + 0x80 * s
def ACQ_CSETs_POST_ROWS (s : Nat) : Fld := ⟨ACQ_CSETs_POST s, 0, 24⟩
def ACQ_CSETs_RING (s : Nat) : Nat := 0x3001010 + 0x80 * s
def ACQ_CSETs_RING_BASE (s : Nat) : Fld := ⟨ACQ_CSETs_RING s, 6, 17⟩
def ACQ_CSETs_RING_ROWS (s : Nat) : Nat := 0x3001014 + 0x80 * s
def ACQ_CSETs_RING_ROWS_ROWS (s : Nat) : Fld := ⟨ACQ_CSETs_RING_ROWS s, 0, 20⟩
def ACQ_CSETs_POOL_LO (s : Nat) : Nat := 0x3001018 + 0x80 * s
def ACQ_CSETs_POOL_LO_ADDR (s : Nat) : Fld := ⟨ACQ_CSETs_POOL_LO s, 0, 32⟩
def ACQ_CSETs_POOL_HI (s : Nat) : Nat := 0x300101c + 0x80 * s
def ACQ_CSETs_POOL_HI_ADDR (s : Nat) : Fld := ⟨ACQ_CSETs_POOL_HI s, 0, 32⟩
def ACQ_CSETs_POOL_SIZE (s : Nat) : Nat := 0x3001020 + 0x80 * s
def ACQ_CSETs_POOL_SIZE_KIB (s : Nat) : Fld := ⟨ACQ_CSETs_POOL_SIZE s, 0, 32⟩
def ACQ_CSETs_DIR_FIRST (s : Nat) : Nat := 0x3001024 + 0x80 * s
def ACQ_CSETs_DIR_FIRST_FIRST (s : Nat) : Fld := ⟨ACQ_CSETs_DIR_FIRST s, 0, 16⟩
def ACQ_CSETs_DIR_COUNT (s : Nat) : Nat := 0x3001028 + 0x80 * s
def ACQ_CSETs_DIR_COUNT_COUNT (s : Nat) : Fld := ⟨ACQ_CSETs_DIR_COUNT s, 0, 17⟩
def ACQ_CSETs_AUTO (s : Nat) : Nat := 0x300102c + 0x80 * s
def ACQ_CSETs_AUTO_US (s : Nat) : Fld := ⟨ACQ_CSETs_AUTO s, 0, 32⟩
def ACQ_CSETs_SETTLE (s : Nat) : Nat := 0x3001030 + 0x80 * s
def ACQ_CSETs_SETTLE_EVT_MAX (s : Nat) : Fld := ⟨ACQ_CSETs_SETTLE s, 16, 11⟩
def ACQ_CSETs_SETTLE_SETTLE_US (s : Nat) : Fld := ⟨ACQ_CSETs_SETTLE s, 0, 16⟩
def ACQ_CSETs_XTW (s : Nat) : Nat := 0x3001034 + 0x80 * s
def ACQ_CSETs_XTW_XT_WIDTH_US (s : Nat) : Fld := ⟨ACQ_CSETs_XTW s, 0, 16⟩
def ACQ_CSETs_CMD (s : Nat) : Nat := 0x3001038 + 0x80 * s
def ACQ_CSETs_CMD_FORCE (s : Nat) : Fld := ⟨ACQ_CSETs_CMD s, 31, 1⟩
def ACQ_CSETs_CMD_REARM (s : Nat) : Fld := ⟨ACQ_CSETs_CMD s, 30, 1⟩
def ACQ_CSETs_STAT (s : Nat) : Nat := 0x300103c + 0x80 * s
def ACQ_CSETs_STAT_STATE (s : Nat) : Fld := ⟨ACQ_CSETs_STAT s, 30, 2⟩
def ACQ_CSETs_STAT_SEG (s : Nat) : Fld := ⟨ACQ_CSETs_STAT s, 0, 16⟩
def ACQ_CSETs_PROD (s : Nat) : Nat := 0x3001040 + 0x80 * s
def ACQ_CSETs_PROD_COUNT (s : Nat) : Fld := ⟨ACQ_CSETs_PROD s, 0, 32⟩
def ACQ_CSETs_CONS (s : Nat) : Nat := 0x3001044 + 0x80 * s
def ACQ_CSETs_CONS_COUNT (s : Nat) : Fld := ⟨ACQ_CSETs_CONS s, 0, 32⟩
def ACQ_CSETs_PIN (s : Nat) : Nat := 0x3001048 + 0x80 * s
def ACQ_CSETs_PIN_PIN_EN (s : Nat) : Fld := ⟨ACQ_CSETs_PIN s, 31, 1⟩
def ACQ_CSETs_PIN_SEG (s : Nat) : Fld := ⟨ACQ_CSETs_PIN s, 0, 16⟩
def ACQ_CSETs_ARM_LO (s : Nat) : Nat := 0x300104c + 0x80 * s
def ACQ_CSETs_ARM_LO_NS (s : Nat) : Fld := ⟨ACQ_CSETs_ARM_LO s, 0, 32⟩
def ACQ_CSETs_ARM_HI (s : Nat) : Nat := 0x3001050 + 0x80 * s
def ACQ_CSETs_ARM_HI_NS (s : Nat) : Fld := ⟨ACQ_CSETs_ARM_HI s, 0, 32⟩
def ACQ_CSETs_CNTi (s i : Nat) : Nat := 0x3001054 + 0x80 * s + 4 * i
def ACQ_CSETs_CNTi_COUNT (s i : Nat) : Fld := ⟨ACQ_CSETs_CNTi s i, 0, 32⟩
def ACQ_CSETs_CNT_ROLL (s : Nat) : Nat := 0x3001064 + 0x80 * s
def ACQ_CSETs_CNT_ROLL_ROLL (s : Nat) : Fld := ⟨ACQ_CSETs_CNT_ROLL s, 0, 4⟩
def ACQ_CSETs_MAXSEG (s : Nat) : Nat := 0x3001068 + 0x80 * s
def ACQ_CSETs_MAXSEG_BYTES (s : Nat) : Fld := ⟨ACQ_CSETs_MAXSEG s, 0, 32⟩
/-! ROPE -/

def ROPE_CFG : Nat := 0x4000040
def ROPE_CFG_KEY_SLOT : Fld := ⟨ROPE_CFG, 9, 9⟩
def ROPE_CFG_LEVEL : Fld := ⟨ROPE_CFG, 1, 8⟩
def ROPE_CFG_PAIRED : Fld := ⟨ROPE_CFG, 0, 1⟩
def ROPE_CFG2 : Nat := 0x4000044
def ROPE_CFG2_SELFTEST : Fld := ⟨ROPE_CFG2, 1, 1⟩
def ROPE_CFG2_AUTH : Fld := ⟨ROPE_CFG2, 0, 1⟩
def ROPE_LEASE : Nat := 0x4000048
def ROPE_LEASE_REMAIN_MS : Fld := ⟨ROPE_LEASE, 16, 7⟩
def ROPE_LEASE_LEASE_MS : Fld := ⟨ROPE_LEASE, 0, 7⟩
def ROPE_ROLE : Nat := 0x400004c
def ROPE_ROLE_EPOCH : Fld := ⟨ROPE_ROLE, 24, 8⟩
def ROPE_ROLE_PROLE : Fld := ⟨ROPE_ROLE, 21, 3⟩
def ROPE_ROLE_PLEVEL : Fld := ⟨ROPE_ROLE, 13, 8⟩
def ROPE_ROLE_BELAY_STUCK : Fld := ⟨ROPE_ROLE, 12, 1⟩
def ROPE_ROLE_LEASE_EXPIRED : Fld := ⟨ROPE_ROLE, 11, 1⟩
def ROPE_ROLE_DOUBLE_FAIL : Fld := ⟨ROPE_ROLE, 10, 1⟩
def ROPE_ROLE_MISMATCH : Fld := ⟨ROPE_ROLE, 9, 1⟩
def ROPE_ROLE_LEVEL_ERR : Fld := ⟨ROPE_ROLE, 8, 1⟩
def ROPE_ROLE_PAIR_ID_CONFLICT : Fld := ⟨ROPE_ROLE, 7, 1⟩
def ROPE_ROLE_ROPE_LOST : Fld := ⟨ROPE_ROLE, 6, 1⟩
def ROPE_ROLE_ROPE_UP : Fld := ⟨ROPE_ROLE, 5, 1⟩
def ROPE_ROLE_BELAY_IN : Fld := ⟨ROPE_ROLE, 4, 1⟩
def ROPE_ROLE_BELAY_OUT : Fld := ⟨ROPE_ROLE, 3, 1⟩
def ROPE_ROLE_ROLE : Fld := ⟨ROPE_ROLE, 0, 3⟩
def ROPE_ID : Nat := 0x4000050
def ROPE_ID_PAIR_ID : Fld := ⟨ROPE_ID, 0, 1⟩
def ROPE_CMD : Nat := 0x4000054
def ROPE_CMD_FORCE : Fld := ⟨ROPE_CMD, 2, 1⟩
def ROPE_CMD_JOIN : Fld := ⟨ROPE_CMD, 1, 1⟩
def ROPE_CMD_DEMOTE : Fld := ⟨ROPE_CMD, 0, 1⟩
def ROPE_TIMING : Nat := 0x4000058
def ROPE_TIMING_ALONE_MS : Fld := ⟨ROPE_TIMING, 20, 12⟩
def ROPE_TIMING_TMO_US : Fld := ⟨ROPE_TIMING, 10, 10⟩
def ROPE_TIMING_FOLLOW_US : Fld := ⟨ROPE_TIMING, 0, 10⟩
def ROPE_JOIN : Nat := 0x400005c
def ROPE_JOIN_JOIN_TICKS : Fld := ⟨ROPE_JOIN, 16, 16⟩
def ROPE_JOIN_HANDOVER_FAIL : Fld := ⟨ROPE_JOIN, 1, 1⟩
def ROPE_JOIN_JOINED : Fld := ⟨ROPE_JOIN, 0, 1⟩
def ROPE_HEALTH : Nat := 0x4000060
def ROPE_HEALTH_CHECKS : Fld := ⟨ROPE_HEALTH, 0, 5⟩
def ROPE_TAKEOVER_TICK_LO : Nat := 0x4000064
def ROPE_TAKEOVER_TICK_LO_TICK : Fld := ⟨ROPE_TAKEOVER_TICK_LO, 0, 32⟩
def ROPE_TAKEOVER_TICK_HI : Nat := 0x4000068
def ROPE_TAKEOVER_TICK_HI_TICK : Fld := ⟨ROPE_TAKEOVER_TICK_HI, 0, 32⟩
def ROPE_JOIN_TICK_LO : Nat := 0x400006c
def ROPE_JOIN_TICK_LO_TICK : Fld := ⟨ROPE_JOIN_TICK_LO, 0, 32⟩
def ROPE_JOIN_TICK_HI : Nat := 0x4000070
def ROPE_JOIN_TICK_HI_TICK : Fld := ⟨ROPE_JOIN_TICK_HI, 0, 32⟩
def ROPE_RESOLVE : Nat := 0x4000074
def ROPE_RESOLVE_STATE : Fld := ⟨ROPE_RESOLVE, 30, 2⟩
def ROPE_RESOLVE_RESULT : Fld := ⟨ROPE_RESOLVE, 28, 2⟩
def ROPE_RESOLVE_TASK : Fld := ⟨ROPE_RESOLVE, 0, 16⟩
def ROPE_CNTi (i : Nat) : Nat := 0x4000080 + 4 * i
def ROPE_CNTi_COUNT (i : Nat) : Fld := ⟨ROPE_CNTi i, 0, 32⟩
def ROPE_CNT_ROLL : Nat := 0x40000c0
def ROPE_CNT_ROLL_ROLL : Fld := ⟨ROPE_CNT_ROLL, 0, 16⟩
def ROPE_LANEk_CFG (k : Nat) : Nat := 0x4000100 + 0x20 * k
def ROPE_LANEk_CFG_TX_POST (k : Nat) : Fld := ⟨ROPE_LANEk_CFG k, 18, 6⟩
def ROPE_LANEk_CFG_TX_MAIN (k : Nat) : Fld := ⟨ROPE_LANEk_CFG k, 12, 6⟩
def ROPE_LANEk_CFG_TX_PRE (k : Nat) : Fld := ⟨ROPE_LANEk_CFG k, 6, 6⟩
def ROPE_LANEk_CFG_RX_ADAPT (k : Nat) : Fld := ⟨ROPE_LANEk_CFG k, 5, 1⟩
def ROPE_LANEk_CFG_PRBS (k : Nat) : Fld := ⟨ROPE_LANEk_CFG k, 4, 1⟩
def ROPE_LANEk_STAT (k : Nat) : Nat := 0x4000104 + 0x20 * k
def ROPE_LANEk_STAT_FEC_LOCK (k : Nat) : Fld := ⟨ROPE_LANEk_STAT k, 1, 1⟩
def ROPE_LANEk_STAT_LINK (k : Nat) : Fld := ⟨ROPE_LANEk_STAT k, 0, 1⟩
def ROPE_PHEALTHw (w : Nat) : Nat := 0x4000200 + 4 * w
def ROPE_PHEALTHw_DATA (w : Nat) : Fld := ⟨ROPE_PHEALTHw w, 0, 32⟩
/-! VIN -/

def VIN_QCTX_BASE_LO : Nat := 0x4100040
def VIN_QCTX_BASE_LO_ADDR : Fld := ⟨VIN_QCTX_BASE_LO, 0, 32⟩
def VIN_QCTX_BASE_HI : Nat := 0x4100044
def VIN_QCTX_BASE_HI_ADDR : Fld := ⟨VIN_QCTX_BASE_HI, 0, 32⟩
def VIN_SHADOW_BASE_LO : Nat := 0x4100048
def VIN_SHADOW_BASE_LO_ADDR : Fld := ⟨VIN_SHADOW_BASE_LO, 0, 32⟩
def VIN_SHADOW_BASE_HI : Nat := 0x410004c
def VIN_SHADOW_BASE_HI_ADDR : Fld := ⟨VIN_SHADOW_BASE_HI, 0, 32⟩
def VIN_CACHE_STAT : Nat := 0x4100050
def VIN_CACHE_STAT_DIRTY : Fld := ⟨VIN_CACHE_STAT, 16, 13⟩
def VIN_CACHE_STAT_VALID : Fld := ⟨VIN_CACHE_STAT, 0, 13⟩
def VIN_FAULT_INFO : Nat := 0x4100054
def VIN_FAULT_INFO_CAUSE : Fld := ⟨VIN_FAULT_INFO, 28, 4⟩
def VIN_FAULT_INFO_INST : Fld := ⟨VIN_FAULT_INFO, 20, 8⟩
def VIN_FAULT_IA_LO : Nat := 0x4100058
def VIN_FAULT_IA_LO_IA : Fld := ⟨VIN_FAULT_IA_LO, 0, 32⟩
def VIN_FAULT_IA_HI : Nat := 0x410005c
def VIN_FAULT_IA_HI_IA : Fld := ⟨VIN_FAULT_IA_HI, 0, 32⟩
def VIN_ATTNk (k : Nat) : Nat := 0x4100080 + 4 * k
def VIN_ATTNk_ATTN (k : Nat) : Fld := ⟨VIN_ATTNk k, 0, 32⟩
def VIN_CNTi (i : Nat) : Nat := 0x4100100 + 4 * i
def VIN_CNTi_COUNT (i : Nat) : Fld := ⟨VIN_CNTi i, 0, 32⟩
def VIN_CNT_ROLL : Nat := 0x4100140
def VIN_CNT_ROLL_ROLL : Fld := ⟨VIN_CNT_ROLL, 0, 10⟩
def VIN_INSTi_STAT (i : Nat) : Nat := 0x4110000 + 0x40 * i
def VIN_INSTi_STAT_GEN (i : Nat) : Fld := ⟨VIN_INSTi_STAT i, 24, 8⟩
def VIN_INSTi_STAT_STATE (i : Nat) : Fld := ⟨VIN_INSTi_STAT i, 21, 3⟩
def VIN_INSTi_STAT_FAULT_PUB (i : Nat) : Fld := ⟨VIN_INSTi_STAT i, 20, 1⟩
def VIN_INSTi_STAT_PASID (i : Nat) : Fld := ⟨VIN_INSTi_STAT i, 0, 20⟩
def VIN_INSTi_QUOTA (i : Nat) : Nat := 0x4110004 + 0x40 * i
def VIN_INSTi_QUOTA_QUSED (i : Nat) : Fld := ⟨VIN_INSTi_QUOTA i, 16, 11⟩
def VIN_INSTi_QUOTA_QUOTA (i : Nat) : Fld := ⟨VIN_INSTi_QUOTA i, 0, 11⟩
def VIN_INSTi_TU (i : Nat) : Nat := 0x4110008 + 0x40 * i
def VIN_INSTi_TU_PAGE (i : Nat) : Fld := ⟨VIN_INSTi_TU i, 30, 2⟩
def VIN_INSTi_TU_COUNT (i : Nat) : Fld := ⟨VIN_INSTi_TU i, 15, 15⟩
def VIN_INSTi_TU_FIRST (i : Nat) : Fld := ⟨VIN_INSTi_TU i, 0, 14⟩
def VIN_INSTi_VEC (i : Nat) : Nat := 0x411000c + 0x40 * i
def VIN_INSTi_VEC_FIRST (i : Nat) : Fld := ⟨VIN_INSTi_VEC i, 16, 11⟩
def VIN_INSTi_VEC_COUNT (i : Nat) : Fld := ⟨VIN_INSTi_VEC i, 0, 12⟩
def VIN_INSTi_FAULT (i : Nat) : Nat := 0x4110010 + 0x40 * i
def VIN_INSTi_FAULT_VALID (i : Nat) : Fld := ⟨VIN_INSTi_FAULT i, 31, 1⟩
def VIN_INSTi_FAULT_KIND (i : Nat) : Fld := ⟨VIN_INSTi_FAULT i, 24, 4⟩
def VIN_INSTi_FAULT_TASK (i : Nat) : Fld := ⟨VIN_INSTi_FAULT i, 0, 16⟩
def VIN_INSTi_TICK_LO (i : Nat) : Nat := 0x4110014 + 0x40 * i
def VIN_INSTi_TICK_LO_TICK (i : Nat) : Fld := ⟨VIN_INSTi_TICK_LO i, 0, 32⟩
def VIN_INSTi_TICK_HI (i : Nat) : Nat := 0x4110018 + 0x40 * i
def VIN_INSTi_TICK_HI_TICK (i : Nat) : Fld := ⟨VIN_INSTi_TICK_HI i, 0, 32⟩
def VIN_INSTi_PEND (i : Nat) : Nat := 0x411001c + 0x40 * i
def VIN_INSTi_PEND_COUNT (i : Nat) : Fld := ⟨VIN_INSTi_PEND i, 30, 2⟩
/-! HIF -/

def HIF_STAT : Nat := 0x70040
def HIF_STAT_PERST : Fld := ⟨HIF_STAT, 16, 1⟩
def HIF_STAT_DSTATE : Fld := ⟨HIF_STAT, 14, 2⟩
def HIF_STAT_LSTATE : Fld := ⟨HIF_STAT, 11, 3⟩
def HIF_STAT_WIDTH : Fld := ⟨HIF_STAT, 7, 4⟩
def HIF_STAT_SPEED : Fld := ⟨HIF_STAT, 4, 3⟩
def HIF_STAT_LINK_UP : Fld := ⟨HIF_STAT, 0, 1⟩
def HIF_CTRL : Nat := 0x70044
def HIF_CTRL_L1_IDLE_US : Fld := ⟨HIF_CTRL, 8, 8⟩
def HIF_CTRL_WAKE_N_EN : Fld := ⟨HIF_CTRL, 0, 1⟩
def HIF_ADMQ_CFG : Nat := 0x70048
def HIF_ADMQ_CFG_EN : Fld := ⟨HIF_ADMQ_CFG, 31, 1⟩
def HIF_ADMQ_CFG_ERR : Fld := ⟨HIF_ADMQ_CFG, 30, 1⟩
def HIF_ADMQ_CFG_VECTOR : Fld := ⟨HIF_ADMQ_CFG, 16, 11⟩
def HIF_ADMQ_CFG_CQ_SIZE_LOG : Fld := ⟨HIF_ADMQ_CFG, 5, 5⟩
def HIF_ADMQ_CFG_SQ_SIZE_LOG : Fld := ⟨HIF_ADMQ_CFG, 0, 5⟩
def HIF_ADMQ_STAT : Nat := 0x7004c
def HIF_ADMQ_STAT_SQ_QGEN : Fld := ⟨HIF_ADMQ_STAT, 24, 8⟩
def HIF_ADMQ_STAT_CQ_QGEN : Fld := ⟨HIF_ADMQ_STAT, 16, 8⟩
def HIF_ADMQ_SQ_BASE_LO : Nat := 0x70050
def HIF_ADMQ_SQ_BASE_LO_ADDR : Fld := ⟨HIF_ADMQ_SQ_BASE_LO, 0, 32⟩
def HIF_ADMQ_SQ_BASE_HI : Nat := 0x70054
def HIF_ADMQ_SQ_BASE_HI_ADDR : Fld := ⟨HIF_ADMQ_SQ_BASE_HI, 0, 32⟩
def HIF_ADMQ_CQ_BASE_LO : Nat := 0x70058
def HIF_ADMQ_CQ_BASE_LO_ADDR : Fld := ⟨HIF_ADMQ_CQ_BASE_LO, 0, 32⟩
def HIF_ADMQ_CQ_BASE_HI : Nat := 0x7005c
def HIF_ADMQ_CQ_BASE_HI_ADDR : Fld := ⟨HIF_ADMQ_CQ_BASE_HI, 0, 32⟩
def HIF_WAKE_EN : Nat := 0x70060
def HIF_WAKE_EN_QUEUE : Fld := ⟨HIF_WAKE_EN, 1, 1⟩
def HIF_WAKE_EN_EVENT : Fld := ⟨HIF_WAKE_EN, 0, 1⟩
def HIF_WAKE_CAUSE : Nat := 0x70064
def HIF_WAKE_CAUSE_VALID : Fld := ⟨HIF_WAKE_CAUSE, 31, 1⟩
def HIF_WAKE_CAUSE_SENT : Fld := ⟨HIF_WAKE_CAUSE, 30, 1⟩
def HIF_WAKE_CAUSE_WITHDRAWN : Fld := ⟨HIF_WAKE_CAUSE, 29, 1⟩
def HIF_WAKE_CAUSE_KIND : Fld := ⟨HIF_WAKE_CAUSE, 26, 2⟩
def HIF_WAKE_CAUSE_COUNT : Fld := ⟨HIF_WAKE_CAUSE, 18, 8⟩
def HIF_WAKE_CAUSE_INSTANCE : Fld := ⟨HIF_WAKE_CAUSE, 10, 8⟩
def HIF_WAKE_CAUSE_SOURCE : Fld := ⟨HIF_WAKE_CAUSE, 0, 10⟩
def HIF_WAKE_TIME_LO : Nat := 0x70068
def HIF_WAKE_TIME_LO_NS : Fld := ⟨HIF_WAKE_TIME_LO, 0, 32⟩
def HIF_WAKE_TIME_HI : Nat := 0x7006c
def HIF_WAKE_TIME_HI_NS : Fld := ⟨HIF_WAKE_TIME_HI, 0, 32⟩
def HIF_SLOT : Nat := 0x70070
def HIF_SLOT_MEMBER : Fld := ⟨HIF_SLOT, 16, 16⟩
def HIF_SLOT_PAIR_ID : Fld := ⟨HIF_SLOT, 6, 1⟩
def HIF_SLOT_SLOT_ID : Fld := ⟨HIF_SLOT, 0, 6⟩
def HIF_CNTi (i : Nat) : Nat := 0x70080 + 4 * i
def HIF_CNTi_COUNT (i : Nat) : Fld := ⟨HIF_CNTi i, 0, 32⟩
def HIF_CNT_ROLL : Nat := 0x700b0
def HIF_CNT_ROLL_ROLL : Fld := ⟨HIF_CNT_ROLL, 0, 10⟩
/-! THL -/

def THL_ERR : Nat := 0x80040
def THL_ERR_NOREGION : Fld := ⟨THL_ERR, 5, 1⟩
def THL_ERR_WIPE_FAIL : Fld := ⟨THL_ERR, 4, 1⟩
def THL_ERR_NO_SPARE : Fld := ⟨THL_ERR, 3, 1⟩
def THL_ERR_REFUSED : Fld := ⟨THL_ERR, 2, 1⟩
def THL_ERR_HOST_TMO : Fld := ⟨THL_ERR, 1, 1⟩
def THL_ERR_CTRL_CRC : Fld := ⟨THL_ERR, 0, 1⟩
def THL_CRC_ADDR_LO : Nat := 0x80044
def THL_CRC_ADDR_LO_ADDR : Fld := ⟨THL_CRC_ADDR_LO, 0, 32⟩
def THL_CRC_ADDR_HI : Nat := 0x80048
def THL_CRC_ADDR_HI_ADDR : Fld := ⟨THL_CRC_ADDR_HI, 0, 32⟩
def THL_HOST_TMO : Nat := 0x8004c
def THL_HOST_TMO_US : Fld := ⟨THL_HOST_TMO, 0, 10⟩
def THL_DWIN_BASE_LO : Nat := 0x80050
def THL_DWIN_BASE_LO_ADDR : Fld := ⟨THL_DWIN_BASE_LO, 0, 32⟩
def THL_DWIN_BASE_HI : Nat := 0x80054
def THL_DWIN_BASE_HI_ADDR : Fld := ⟨THL_DWIN_BASE_HI, 0, 32⟩
def THL_SEC_STAT : Nat := 0x80058
def THL_SEC_STAT_WIPE_PEND : Fld := ⟨THL_SEC_STAT, 16, 1⟩
def THL_SEC_STAT_WIPES : Fld := ⟨THL_SEC_STAT, 8, 8⟩
def THL_SEC_STAT_WIPE_FAIL : Fld := ⟨THL_SEC_STAT, 2, 1⟩
def THL_SEC_STAT_WIPED : Fld := ⟨THL_SEC_STAT, 1, 1⟩
def THL_SEC_STAT_WIPING : Fld := ⟨THL_SEC_STAT, 0, 1⟩
def THL_CNTi (i : Nat) : Nat := 0x80060 + 4 * i
def THL_CNTi_COUNT (i : Nat) : Fld := ⟨THL_CNTi i, 0, 32⟩
def THL_CNT_ROLL : Nat := 0x80078
def THL_CNT_ROLL_ROLL : Fld := ⟨THL_CNT_ROLL, 0, 6⟩
def THL_DDRc_CFG (c : Nat) : Nat := 0x80100 + 0x40 * c
def THL_DDRc_CFG_EN (c : Nat) : Fld := ⟨THL_DDRc_CFG c, 31, 1⟩
def THL_DDRc_CFG_SPEED (c : Nat) : Fld := ⟨THL_DDRc_CFG c, 29, 2⟩
def THL_DDRc_CFG_DENS (c : Nat) : Fld := ⟨THL_DDRc_CFG c, 27, 2⟩
def THL_DDRc_CFG_WIDTH (c : Nat) : Fld := ⟨THL_DDRc_CFG c, 26, 1⟩
def THL_DDRc_CFG_RANKS (c : Nat) : Fld := ⟨THL_DDRc_CFG c, 25, 1⟩
def THL_DDRc_CFG_FAST_TRAIN (c : Nat) : Fld := ⟨THL_DDRc_CFG c, 24, 1⟩
def THL_DDRc_STAT (c : Nat) : Nat := 0x80104 + 0x40 * c
def THL_DDRc_STAT_SR_LOSS (c : Nat) : Fld := ⟨THL_DDRc_STAT c, 7, 1⟩
def THL_DDRc_STAT_TEMP_HIGH (c : Nat) : Fld := ⟨THL_DDRc_STAT c, 6, 1⟩
def THL_DDRc_STAT_REFRESH_2X (c : Nat) : Fld := ⟨THL_DDRc_STAT c, 5, 1⟩
def THL_DDRc_STAT_SELF_REFRESH (c : Nat) : Fld := ⟨THL_DDRc_STAT c, 4, 1⟩
def THL_DDRc_STAT_FAST (c : Nat) : Fld := ⟨THL_DDRc_STAT c, 3, 1⟩
def THL_DDRc_STAT_TRAIN_FAIL (c : Nat) : Fld := ⟨THL_DDRc_STAT c, 2, 1⟩
def THL_DDRc_STAT_TRAINING (c : Nat) : Fld := ⟨THL_DDRc_STAT c, 1, 1⟩
def THL_DDRc_STAT_TRAINED (c : Nat) : Fld := ⟨THL_DDRc_STAT c, 0, 1⟩
def THL_DDRc_SIZE (c : Nat) : Nat := 0x80108 + 0x40 * c
def THL_DDRc_SIZE_MIB (c : Nat) : Fld := ⟨THL_DDRc_SIZE c, 0, 17⟩
def THL_DDRc_TRAIN (c : Nat) : Nat := 0x8010c + 0x40 * c
def THL_DDRc_TRAIN_MS (c : Nat) : Fld := ⟨THL_DDRc_TRAIN c, 0, 16⟩
def THL_DDRc_MARGIN (c : Nat) : Nat := 0x80110 + 0x40 * c
def THL_DDRc_MARGIN_WR_MIN (c : Nat) : Fld := ⟨THL_DDRc_MARGIN c, 8, 8⟩
def THL_DDRc_MARGIN_RD_MIN (c : Nat) : Fld := ⟨THL_DDRc_MARGIN c, 0, 8⟩
def THL_RGNr_BASE (r : Nat) : Nat := 0x80400 + 0x10 * r
def THL_RGNr_BASE_MIB (r : Nat) : Fld := ⟨THL_RGNr_BASE r, 0, 17⟩
def THL_RGNr_SIZE (r : Nat) : Nat := 0x80404 + 0x10 * r
def THL_RGNr_SIZE_MIB (r : Nat) : Fld := ⟨THL_RGNr_SIZE r, 0, 18⟩
def THL_RGNr_CFG (r : Nat) : Nat := 0x80408 + 0x10 * r
def THL_RGNr_CFG_EN (r : Nat) : Fld := ⟨THL_RGNr_CFG r, 31, 1⟩
def THL_RGNr_CFG_KIND (r : Nat) : Fld := ⟨THL_RGNr_CFG r, 30, 1⟩
def THL_RGNr_CFG_ACCESS (r : Nat) : Fld := ⟨THL_RGNr_CFG r, 28, 2⟩
def THL_RGNr_CFG_INST_RO (r : Nat) : Fld := ⟨THL_RGNr_CFG r, 27, 1⟩
def THL_RGNr_CFG_HOST_WR (r : Nat) : Fld := ⟨THL_RGNr_CFG r, 26, 1⟩
def THL_RGNr_CFG_INST_LAST (r : Nat) : Fld := ⟨THL_RGNr_CFG r, 8, 8⟩
def THL_RGNr_CFG_INST_FIRST (r : Nat) : Fld := ⟨THL_RGNr_CFG r, 0, 8⟩
def THL_SPAREb_s (b s : Nat) : Nat := 0x80800 + 0x20 * b + 4 * s
def THL_SPAREb_s_VALID (b s : Nat) : Fld := ⟨THL_SPAREb_s b s, 31, 1⟩
def THL_SPAREb_s_USED (b s : Nat) : Fld := ⟨THL_SPAREb_s b s, 30, 1⟩
def THL_SPAREb_s_RETIRED (b s : Nat) : Fld := ⟨THL_SPAREb_s b s, 16, 9⟩
def THL_SPAREb_s_SEGMENT (b s : Nat) : Fld := ⟨THL_SPAREb_s b s, 0, 9⟩
/-! NRG -/

def NRG_CTRL : Nat := 0x40040
def NRG_CTRL_XTRIG_WAKE : Fld := ⟨NRG_CTRL, 3, 1⟩
def NRG_CTRL_BIV_EXIT : Fld := ⟨NRG_CTRL, 2, 1⟩
def NRG_CTRL_BIV_ENTER : Fld := ⟨NRG_CTRL, 1, 1⟩
def NRG_CTRL_GOV_EN : Fld := ⟨NRG_CTRL, 0, 1⟩
def NRG_STATUS : Nat := 0x40044
def NRG_STATUS_SUPPLY_STATE : Fld := ⟨NRG_STATUS, 24, 8⟩
def NRG_STATUS_BIVOUAC : Fld := ⟨NRG_STATUS, 9, 1⟩
def NRG_STATUS_ENTRY_REFUSED : Fld := ⟨NRG_STATUS, 8, 1⟩
def NRG_STATUS_PL_THERMAL : Fld := ⟨NRG_STATUS, 6, 2⟩
def NRG_STATUS_PL_SUPPLY : Fld := ⟨NRG_STATUS, 4, 2⟩
def NRG_STATUS_PL : Fld := ⟨NRG_STATUS, 0, 2⟩
def NRG_RAMP : Nat := 0x40048
def NRG_RAMP_MA_PER_US : Fld := ⟨NRG_RAMP, 16, 16⟩
def NRG_RAMP_MAX_PER_WIN : Fld := ⟨NRG_RAMP, 0, 4⟩
def NRG_RAMP_STAT : Nat := 0x4004c
def NRG_RAMP_STAT_QUEUED : Fld := ⟨NRG_RAMP_STAT, 16, 8⟩
def NRG_RAMP_STAT_WAIT_MAX : Fld := ⟨NRG_RAMP_STAT, 0, 16⟩
def NRG_GATE : Nat := 0x40050
def NRG_GATE_IDLE_US : Fld := ⟨NRG_GATE, 0, 16⟩
def NRG_THERM : Nat := 0x40054
def NRG_THERM_HYST : Fld := ⟨NRG_THERM, 24, 4⟩
def NRG_THERM_T3 : Fld := ⟨NRG_THERM, 16, 8⟩
def NRG_THERM_T2 : Fld := ⟨NRG_THERM, 8, 8⟩
def NRG_THERM_T1 : Fld := ⟨NRG_THERM, 0, 8⟩
def NRG_THERM_STAT : Nat := 0x40058
def NRG_THERM_STAT_ZMAX : Fld := ⟨NRG_THERM_STAT, 16, 16⟩
def NRG_THERM_STAT_HOT_ZONE : Fld := ⟨NRG_THERM_STAT, 8, 3⟩
def NRG_THERM_STAT_ZONE_FAULT : Fld := ⟨NRG_THERM_STAT, 0, 8⟩
def NRG_BIV_CFG : Nat := 0x4005c
def NRG_BIV_CFG_STN_KEEP : Fld := ⟨NRG_BIV_CFG, 0, 4⟩
def NRG_BIV_STAT : Nat := 0x40060
def NRG_BIV_STAT_VALID : Fld := ⟨NRG_BIV_STAT, 31, 1⟩
def NRG_BIV_STAT_SRC : Fld := ⟨NRG_BIV_STAT, 0, 5⟩
def NRG_CLK_LOCK : Nat := 0x40064
def NRG_CLK_LOCK_MAIN : Fld := ⟨NRG_CLK_LOCK, 16, 4⟩
def NRG_CLK_LOCK_TUFT : Fld := ⟨NRG_CLK_LOCK, 0, 16⟩
def NRG_TUFT_CAP : Nat := 0x40068
def NRG_TUFT_CAP_CAPPED : Fld := ⟨NRG_TUFT_CAP, 0, 16⟩
def NRG_CNTi (i : Nat) : Nat := 0x40080 + 4 * i
def NRG_CNTi_COUNT (i : Nat) : Fld := ⟨NRG_CNTi i, 0, 32⟩
def NRG_CNT_ROLL : Nat := 0x400a0
def NRG_CNT_ROLL_ROLL : Fld := ⟨NRG_CNT_ROLL, 0, 8⟩
def NRG_ZONEz (z : Nat) : Nat := 0x40100 + 4 * z
def NRG_ZONEz_MAX (z : Nat) : Fld := ⟨NRG_ZONEz z, 16, 16⟩
def NRG_ZONEz_TEMP (z : Nat) : Fld := ⟨NRG_ZONEz z, 0, 16⟩
def NRG_SENSs (s : Nat) : Nat := 0x40140 + 4 * s
def NRG_SENSs_FAULT (s : Nat) : Fld := ⟨NRG_SENSs s, 31, 1⟩
def NRG_SENSs_ZONE (s : Nat) : Fld := ⟨NRG_SENSs s, 16, 3⟩
def NRG_SENSs_TEMP (s : Nat) : Fld := ⟨NRG_SENSs s, 0, 16⟩
def NRG_SSM_CFG : Nat := 0x40200
def NRG_SSM_CFG_EN : Fld := ⟨NRG_SSM_CFG, 31, 1⟩
def NRG_SSM_CFG_CHG_EFF : Fld := ⟨NRG_SSM_CFG, 16, 10⟩
def NRG_SSM_CFG_CAP_AH : Fld := ⟨NRG_SSM_CFG, 0, 16⟩
def NRG_SSM_VSCALE : Nat := 0x40204
def NRG_SSM_VSCALE_UV_PER_CODE : Fld := ⟨NRG_SSM_VSCALE, 0, 32⟩
def NRG_SSM_ISCALE : Nat := 0x40208
def NRG_SSM_ISCALE_UA_PER_CODE : Fld := ⟨NRG_SSM_ISCALE, 0, 32⟩
def NRG_SSM_RBATT : Nat := 0x4020c
def NRG_SSM_RBATT_MOHM : Fld := ⟨NRG_SSM_RBATT, 0, 16⟩
def NRG_SSM_UVLO : Nat := 0x40210
def NRG_SSM_UVLO_LEVEL : Fld := ⟨NRG_SSM_UVLO, 16, 16⟩
def NRG_SSM_UVLO_HYST : Fld := ⟨NRG_SSM_UVLO, 8, 8⟩
def NRG_SSM_UVLO_TIME_MS : Fld := ⟨NRG_SSM_UVLO, 0, 8⟩
def NRG_SSM_WARN : Nat := 0x40214
def NRG_SSM_WARN_MARGIN : Fld := ⟨NRG_SSM_WARN, 0, 16⟩
def NRG_SSM_SOCL : Nat := 0x40218
def NRG_SSM_SOCL_HYST : Fld := ⟨NRG_SSM_SOCL, 24, 8⟩
def NRG_SSM_SOCL_L3 : Fld := ⟨NRG_SSM_SOCL, 16, 8⟩
def NRG_SSM_SOCL_L2 : Fld := ⟨NRG_SSM_SOCL, 8, 8⟩
def NRG_SSM_SOCL_L1 : Fld := ⟨NRG_SSM_SOCL, 0, 8⟩
def NRG_SSM_VBAT : Nat := 0x4021c
def NRG_SSM_VBAT_MV : Fld := ⟨NRG_SSM_VBAT, 0, 32⟩
def NRG_SSM_IBAT : Nat := 0x40220
def NRG_SSM_IBAT_MA : Fld := ⟨NRG_SSM_IBAT, 0, 32⟩
def NRG_SSM_SOC : Nat := 0x40224
def NRG_SSM_SOC_SOC_Q : Fld := ⟨NRG_SSM_SOC, 16, 16⟩
def NRG_SSM_SOC_SOC_V : Fld := ⟨NRG_SSM_SOC, 0, 16⟩
def NRG_SSM_STAT : Nat := 0x40228
def NRG_SSM_STAT_QUIET_S : Fld := ⟨NRG_SSM_STAT, 20, 12⟩
def NRG_SSM_STAT_ANCHOR_S : Fld := ⟨NRG_SSM_STAT, 8, 12⟩
def NRG_SSM_STAT_SSM_FAULT : Fld := ⟨NRG_SSM_STAT, 4, 1⟩
def NRG_SSM_STAT_UVLO_WARN : Fld := ⟨NRG_SSM_STAT, 3, 1⟩
def NRG_SSM_STAT_DISAGREE : Fld := ⟨NRG_SSM_STAT, 2, 1⟩
def NRG_SSM_STAT_PROVISIONAL : Fld := ⟨NRG_SSM_STAT, 1, 1⟩
def NRG_SSM_STAT_VALID : Fld := ⟨NRG_SSM_STAT, 0, 1⟩
def NRG_SSM_SOCQ_SET : Nat := 0x4022c
def NRG_SSM_SOCQ_SET_GO : Fld := ⟨NRG_SSM_SOCQ_SET, 31, 1⟩
def NRG_SSM_SOCQ_SET_SOC : Fld := ⟨NRG_SSM_SOCQ_SET, 0, 16⟩
def NRG_SSM_VTBLk (k : Nat) : Nat := 0x40240 + 4 * k
def NRG_SSM_VTBLk_V (k : Nat) : Fld := ⟨NRG_SSM_VTBLk k, 16, 16⟩
def NRG_SSM_VTBLk_SOC (k : Nat) : Fld := ⟨NRG_SSM_VTBLk k, 0, 16⟩
def NRG_DOMd_CFG (d : Nat) : Nat := 0x40400 + 4 * d
def NRG_DOMd_CFG_STATE (d : Nat) : Fld := ⟨NRG_DOMd_CFG d, 18, 2⟩
def NRG_DOMd_CFG_QUEUED (d : Nat) : Fld := ⟨NRG_DOMd_CFG d, 17, 1⟩
def NRG_DOMd_CFG_PIN (d : Nat) : Fld := ⟨NRG_DOMd_CFG d, 16, 1⟩
def NRG_DOMd_CFG_STEP_MA (d : Nat) : Fld := ⟨NRG_DOMd_CFG d, 4, 12⟩
def NRG_DOMd_CFG_CLASS (d : Nat) : Fld := ⟨NRG_DOMd_CFG d, 0, 2⟩
def NRG_INSTi_GOV (i : Nat) : Nat := 0x40800 + 4 * i
def NRG_INSTi_GOV_SHED_M (i : Nat) : Fld := ⟨NRG_INSTi_GOV i, 4, 2⟩
def NRG_INSTi_GOV_SHED_B (i : Nat) : Fld := ⟨NRG_INSTi_GOV i, 0, 2⟩
/-! AUX -/

def AUXs_CFG (s : Nat) : Nat := 0x240040 + 0x10000 * s
def AUXs_CFG_EN (s : Nat) : Fld := ⟨AUXs_CFG s, 31, 1⟩
def AUXs_CFG_MODE (s : Nat) : Fld := ⟨AUXs_CFG s, 30, 1⟩
def AUXs_CFG_PAIR_SHARED (s : Nat) : Fld := ⟨AUXs_CFG s, 29, 1⟩
def AUXs_CFG_FS_MODE (s : Nat) : Fld := ⟨AUXs_CFG s, 27, 2⟩
def AUXs_CFG_AUXEN_SLEEP (s : Nat) : Fld := ⟨AUXs_CFG s, 26, 1⟩
def AUXs_CFG_AUTO_NORMAL (s : Nat) : Fld := ⟨AUXs_CFG s, 25, 1⟩
def AUXs_CFG_WAKE_EN (s : Nat) : Fld := ⟨AUXs_CFG s, 24, 1⟩
def AUXs_CFG_BIV_KEEP (s : Nat) : Fld := ⟨AUXs_CFG s, 23, 1⟩
def AUXs_CFG_P_C_FEED (s : Nat) : Fld := ⟨AUXs_CFG s, 22, 1⟩
def AUXs_CFG_AUXEN_RAMP_MS (s : Nat) : Fld := ⟨AUXs_CFG s, 8, 8⟩
def AUXs_CMD (s : Nat) : Nat := 0x240044 + 0x10000 * s
def AUXs_CMD_STAY (s : Nat) : Fld := ⟨AUXs_CMD s, 4, 1⟩
def AUXs_CMD_WAKE (s : Nat) : Fld := ⟨AUXs_CMD s, 3, 1⟩
def AUXs_CMD_SLEEP (s : Nat) : Fld := ⟨AUXs_CMD s, 2, 1⟩
def AUXs_CMD_GO_LISTEN (s : Nat) : Fld := ⟨AUXs_CMD s, 1, 1⟩
def AUXs_CMD_GO_NORMAL (s : Nat) : Fld := ⟨AUXs_CMD s, 0, 1⟩
def AUXs_STAT (s : Nat) : Nat := 0x240048 + 0x10000 * s
def AUXs_STAT_REFUSED (s : Nat) : Fld := ⟨AUXs_STAT s, 11, 1⟩
def AUXs_STAT_FS_LATCHED (s : Nat) : Fld := ⟨AUXs_STAT s, 10, 1⟩
def AUXs_STAT_WAKE_LOCK (s : Nat) : Fld := ⟨AUXs_STAT s, 9, 1⟩
def AUXs_STAT_PLCA_STATUS (s : Nat) : Fld := ⟨AUXs_STAT s, 8, 1⟩
def AUXs_STAT_AUXEN (s : Nat) : Fld := ⟨AUXs_STAT s, 7, 1⟩
def AUXs_STAT_REASON (s : Nat) : Fld := ⟨AUXs_STAT s, 4, 3⟩
def AUXs_STAT_STATE (s : Nat) : Fld := ⟨AUXs_STAT s, 0, 3⟩
def AUXs_PLCA (s : Nat) : Nat := 0x24004c + 0x10000 * s
def AUXs_PLCA_MAX_BC (s : Nat) : Fld := ⟨AUXs_PLCA s, 24, 8⟩
def AUXs_PLCA_TO_TIMER (s : Nat) : Fld := ⟨AUXs_PLCA s, 16, 8⟩
def AUXs_PLCA_NODE_COUNT (s : Nat) : Fld := ⟨AUXs_PLCA s, 8, 8⟩
def AUXs_PLCA_NODE_ID (s : Nat) : Fld := ⟨AUXs_PLCA s, 0, 4⟩
def AUXs_PLCA2 (s : Nat) : Nat := 0x240050 + 0x10000 * s
def AUXs_PLCA2_BURST_TMR (s : Nat) : Fld := ⟨AUXs_PLCA2 s, 0, 8⟩
def AUXs_WAKE (s : Nat) : Nat := 0x240054 + 0x10000 * s
def AUXs_WAKE_FW_WIN_MS (s : Nat) : Fld := ⟨AUXs_WAKE s, 16, 16⟩
def AUXs_WAKE_WAKE_MIN_US (s : Nat) : Fld := ⟨AUXs_WAKE s, 8, 8⟩
def AUXs_FW (s : Nat) : Nat := 0x240058 + 0x10000 * s
def AUXs_FW_FW_LOCK_S (s : Nat) : Fld := ⟨AUXs_FW s, 16, 16⟩
def AUXs_FW_FW_PERIOD_MIN (s : Nat) : Fld := ⟨AUXs_FW s, 8, 8⟩
def AUXs_FW_FW_LIMIT (s : Nat) : Fld := ⟨AUXs_FW s, 0, 8⟩
def AUXs_SLEEP (s : Nat) : Nat := 0x24005c + 0x10000 * s
def AUXs_SLEEP_AWAKE_MAX_S (s : Nat) : Fld := ⟨AUXs_SLEEP s, 16, 16⟩
def AUXs_SLEEP_AUXEN_HOLD_MS (s : Nat) : Fld := ⟨AUXs_SLEEP s, 8, 8⟩
def AUXs_SLEEP_SLEEP_DLY_MS (s : Nat) : Fld := ⟨AUXs_SLEEP s, 0, 8⟩
def AUXs_FS (s : Nat) : Nat := 0x240060 + 0x10000 * s
def AUXs_FS_KICK (s : Nat) : Fld := ⟨AUXs_FS s, 31, 1⟩
def AUXs_FS_CLEAR (s : Nat) : Fld := ⟨AUXs_FS s, 30, 1⟩
def AUXs_FS_TIMEOUT_MS (s : Nat) : Fld := ⟨AUXs_FS s, 0, 16⟩
def AUXs_AWAKE_LEFT (s : Nat) : Nat := 0x240064 + 0x10000 * s
def AUXs_AWAKE_LEFT_S (s : Nat) : Fld := ⟨AUXs_AWAKE_LEFT s, 0, 16⟩
def AUXs_EVT_CAUSE (s : Nat) : Nat := 0x240068 + 0x10000 * s
def AUXs_EVT_CAUSE_CAUSE (s : Nat) : Fld := ⟨AUXs_EVT_CAUSE s, 0, 10⟩
def AUXs_WAKE_CAUSE (s : Nat) : Nat := 0x24006c + 0x10000 * s
def AUXs_WAKE_CAUSE_VALID (s : Nat) : Fld := ⟨AUXs_WAKE_CAUSE s, 31, 1⟩
def AUXs_WAKE_CAUSE_SRC (s : Nat) : Fld := ⟨AUXs_WAKE_CAUSE s, 0, 2⟩
def AUXs_WAKE_TIME_LO (s : Nat) : Nat := 0x240070 + 0x10000 * s
def AUXs_WAKE_TIME_LO_NS (s : Nat) : Fld := ⟨AUXs_WAKE_TIME_LO s, 0, 32⟩
def AUXs_WAKE_TIME_HI (s : Nat) : Nat := 0x240074 + 0x10000 * s
def AUXs_WAKE_TIME_HI_NS (s : Nat) : Fld := ⟨AUXs_WAKE_TIME_HI s, 0, 32⟩
def AUXs_CNTi (s i : Nat) : Nat := 0x240100 + 0x10000 * s + 4 * i
def AUXs_CNTi_COUNT (s i : Nat) : Fld := ⟨AUXs_CNTi s i, 0, 32⟩
def AUXs_CNT_ROLL (s : Nat) : Nat := 0x240140 + 0x10000 * s
def AUXs_CNT_ROLL_ROLL (s : Nat) : Fld := ⟨AUXs_CNT_ROLL s, 0, 16⟩
/-! RST -/

def RST_CMD : Nat := 0x10040
def RST_CMD_COLD : Fld := ⟨RST_CMD, 31, 1⟩
def RST_CMD_WARM : Fld := ⟨RST_CMD, 30, 1⟩
def RST_CMD_FORCE : Fld := ⟨RST_CMD, 29, 1⟩
def RST_CMD_KEY : Fld := ⟨RST_CMD, 0, 16⟩
def RST_LAST : Nat := 0x10044
def RST_LAST_LEVEL : Fld := ⟨RST_LAST, 8, 2⟩
def RST_LAST_CAUSE : Fld := ⟨RST_LAST, 0, 8⟩
def RST_LAST_ALL : Nat := 0x10048
def RST_LAST_ALL_CAUSES : Fld := ⟨RST_LAST_ALL, 1, 13⟩
def RST_START : Nat := 0x1004c
def RST_START_START_MS : Fld := ⟨RST_START, 8, 16⟩
def RST_START_STORM : Fld := ⟨RST_START, 7, 1⟩
def RST_START_FALLBACK : Fld := ⟨RST_START, 6, 1⟩
def RST_START_POLICY : Fld := ⟨RST_START, 4, 2⟩
def RST_START_STAGE : Fld := ⟨RST_START, 0, 4⟩
def RST_WDOG : Nat := 0x10050
def RST_WDOG_RIDGE_MS : Fld := ⟨RST_WDOG, 16, 16⟩
def RST_WDOG_RIDGE_ACT : Fld := ⟨RST_WDOG, 8, 1⟩
def RST_WDOG_CRZ_MS : Fld := ⟨RST_WDOG, 0, 8⟩
def RST_KICK : Nat := 0x10054
def RST_KICK_KICK : Fld := ⟨RST_KICK, 0, 4⟩
def RST_STORM : Nat := 0x10058
def RST_STORM_STORM_MIN : Fld := ⟨RST_STORM, 8, 8⟩
def RST_STORM_STORM_LIMIT : Fld := ⟨RST_STORM, 0, 8⟩
def RST_CNTc (c : Nat) : Nat := 0x10060 + 4 * c
def RST_CNTc_COUNT (c : Nat) : Fld := ⟨RST_CNTc c, 0, 32⟩
def RST_CNT_ROLL : Nat := 0x100a0
def RST_CNT_ROLL_ROLL : Fld := ⟨RST_CNT_ROLL, 1, 13⟩
def RST_PINFUSEk (k : Nat) : Nat := 0x10100 + 4 * k
def RST_PINFUSEk_MAP (k : Nat) : Fld := ⟨RST_PINFUSEk k, 0, 32⟩
/-! IMG -/

def IMG_CMD : Nat := 0x20040
def IMG_CMD_BUSY : Fld := ⟨IMG_CMD, 31, 1⟩
def IMG_CMD_GO : Fld := ⟨IMG_CMD, 30, 1⟩
def IMG_CMD_RESULT : Fld := ⟨IMG_CMD, 27, 3⟩
def IMG_CMD_SRC_SEL : Fld := ⟨IMG_CMD, 8, 1⟩
def IMG_CMD_SLOT : Fld := ⟨IMG_CMD, 4, 1⟩
def IMG_CMD_OP : Fld := ⟨IMG_CMD, 0, 4⟩
def IMG_STATUS : Nat := 0x20044
def IMG_STATUS_RECOVERY : Fld := ⟨IMG_STATUS, 8, 1⟩
def IMG_STATUS_SCRUB_BUSY : Fld := ⟨IMG_STATUS, 7, 1⟩
def IMG_STATUS_JOURNAL_LOST : Fld := ⟨IMG_STATUS, 6, 1⟩
def IMG_STATUS_JOURNAL_DEGRADED : Fld := ⟨IMG_STATUS, 5, 1⟩
def IMG_STATUS_REPOINTED : Fld := ⟨IMG_STATUS, 4, 1⟩
def IMG_STATUS_STAGED_SLOT : Fld := ⟨IMG_STATUS, 3, 1⟩
def IMG_STATUS_STAGED_VALID : Fld := ⟨IMG_STATUS, 2, 1⟩
def IMG_STATUS_BCR_SLOT : Fld := ⟨IMG_STATUS, 1, 1⟩
def IMG_STATUS_LOADED : Fld := ⟨IMG_STATUS, 0, 1⟩
def IMG_SRC_LO : Nat := 0x20048
def IMG_SRC_LO_ADDR : Fld := ⟨IMG_SRC_LO, 0, 32⟩
def IMG_SRC_HI : Nat := 0x2004c
def IMG_SRC_HI_ADDR : Fld := ⟨IMG_SRC_HI, 0, 32⟩
def IMG_LEN : Nat := 0x20050
def IMG_LEN_BYTES : Fld := ⟨IMG_LEN, 0, 32⟩
def IMG_OFFSET : Nat := 0x20054
def IMG_OFFSET_BYTES : Fld := ⟨IMG_OFFSET, 0, 32⟩
def IMG_RUN_ID_LO : Nat := 0x20058
def IMG_RUN_ID_LO_ID : Fld := ⟨IMG_RUN_ID_LO, 0, 32⟩
def IMG_RUN_ID_HI : Nat := 0x2005c
def IMG_RUN_ID_HI_ID : Fld := ⟨IMG_RUN_ID_HI, 0, 32⟩
def IMG_STAGED_ID_LO : Nat := 0x20060
def IMG_STAGED_ID_LO_ID : Fld := ⟨IMG_STAGED_ID_LO, 0, 32⟩
def IMG_STAGED_ID_HI : Nat := 0x20064
def IMG_STAGED_ID_HI_ID : Fld := ⟨IMG_STAGED_ID_HI, 0, 32⟩
def IMG_JSEQ : Nat := 0x20068
def IMG_JSEQ_SEQ : Fld := ⟨IMG_JSEQ, 0, 32⟩
def IMG_CNTi (i : Nat) : Nat := 0x20080 + 4 * i
def IMG_CNTi_COUNT (i : Nat) : Fld := ⟨IMG_CNTi i, 0, 32⟩
def IMG_CNT_ROLL : Nat := 0x20090
def IMG_CNT_ROLL_ROLL : Fld := ⟨IMG_CNT_ROLL, 0, 4⟩
def IMG_SUSPECTd_w (d w : Nat) : Nat := 0x20400 + 0x200 * d + 4 * w
def IMG_SUSPECTd_w_SUSPECT (d w : Nat) : Fld := ⟨IMG_SUSPECTd_w d w, 0, 32⟩
def IMG_PAGEw (w : Nat) : Nat := 0x20800 + 4 * w
def IMG_PAGEw_DATA (w : Nat) : Fld := ⟨IMG_PAGEw w, 0, 32⟩
/-! KEY -/

def KEY_STATUS : Nat := 0x30040
def KEY_STATUS_RUN_ANCHOR : Fld := ⟨KEY_STATUS, 11, 2⟩
def KEY_STATUS_TEST_IMAGE : Fld := ⟨KEY_STATUS, 10, 1⟩
def KEY_STATUS_ENROL_PEND : Fld := ⟨KEY_STATUS, 9, 1⟩
def KEY_STATUS_DBG_ARMED : Fld := ⟨KEY_STATUS, 8, 1⟩
def KEY_STATUS_TAMPER_SEEN : Fld := ⟨KEY_STATUS, 7, 1⟩
def KEY_STATUS_CLOSED : Fld := ⟨KEY_STATUS, 6, 1⟩
def KEY_STATUS_ROOT_FAIL : Fld := ⟨KEY_STATUS, 5, 1⟩
def KEY_STATUS_ROOT_OK : Fld := ⟨KEY_STATUS, 4, 1⟩
def KEY_STATUS_DEBUG : Fld := ⟨KEY_STATUS, 3, 1⟩
def KEY_STATUS_LC : Fld := ⟨KEY_STATUS, 0, 3⟩
def KEY_CMD : Nat := 0x30044
def KEY_CMD_BUSY : Fld := ⟨KEY_CMD, 31, 1⟩
def KEY_CMD_GO : Fld := ⟨KEY_CMD, 30, 1⟩
def KEY_CMD_RESULT : Fld := ⟨KEY_CMD, 27, 3⟩
def KEY_CMD_OP : Fld := ⟨KEY_CMD, 23, 4⟩
def KEY_CMD_CLR : Fld := ⟨KEY_CMD, 22, 1⟩
def KEY_CMD_ROOT_SRC : Fld := ⟨KEY_CMD, 18, 1⟩
def KEY_CMD_PARENT : Fld := ⟨KEY_CMD, 9, 9⟩
def KEY_CMD_SLOT : Fld := ⟨KEY_CMD, 0, 9⟩
def KEY_ATTR_IN : Nat := 0x30048
def KEY_ATTR_IN_DEST : Fld := ⟨KEY_ATTR_IN, 18, 6⟩
def KEY_ATTR_IN_NOREAD : Fld := ⟨KEY_ATTR_IN, 17, 1⟩
def KEY_ATTR_IN_CTX_LEN : Fld := ⟨KEY_ATTR_IN, 11, 6⟩
def KEY_ATTR_IN_LEN : Fld := ⟨KEY_ATTR_IN, 0, 7⟩
def KEY_KEYID_IN : Nat := 0x3004c
def KEY_KEYID_IN_KEYID : Fld := ⟨KEY_KEYID_IN, 0, 32⟩
def KEY_CONFIRM : Nat := 0x30050
def KEY_CONFIRM_VALUE : Fld := ⟨KEY_CONFIRM, 0, 16⟩
def KEY_FUSE : Nat := 0x30054
def KEY_FUSE_SVN_MIN : Fld := ⟨KEY_FUSE, 4, 7⟩
def KEY_FUSE_REVOKED : Fld := ⟨KEY_FUSE, 0, 4⟩
def KEY_ECC : Nat := 0x30058
def KEY_ECC_VALID : Fld := ⟨KEY_ECC, 9, 1⟩
def KEY_ECC_SLOT : Fld := ⟨KEY_ECC, 0, 9⟩
def KEY_DATAw (w : Nat) : Nat := 0x30080 + 4 * w
def KEY_DATAw_DATA (w : Nat) : Fld := ⟨KEY_DATAw w, 0, 32⟩
def KEY_RDATAw (w : Nat) : Nat := 0x300c0 + 4 * w
def KEY_RDATAw_DATA (w : Nat) : Fld := ⟨KEY_RDATAw w, 0, 32⟩
def KEY_CNTi (i : Nat) : Nat := 0x30100 + 4 * i
def KEY_CNTi_COUNT (i : Nat) : Fld := ⟨KEY_CNTi i, 0, 32⟩
def KEY_CNT_ROLL : Nat := 0x30120
def KEY_CNT_ROLL_ROLL : Fld := ⟨KEY_CNT_ROLL, 0, 8⟩
def KEY_SLOTn_ATTR (n : Nat) : Nat := 0x31000 + 0x10 * n
def KEY_SLOTn_ATTR_VALID (n : Nat) : Fld := ⟨KEY_SLOTn_ATTR n, 31, 1⟩
def KEY_SLOTn_ATTR_USABLE (n : Nat) : Fld := ⟨KEY_SLOTn_ATTR n, 30, 1⟩
def KEY_SLOTn_ATTR_ROOTED (n : Nat) : Fld := ⟨KEY_SLOTn_ATTR n, 29, 1⟩
def KEY_SLOTn_ATTR_PARENT_EN (n : Nat) : Fld := ⟨KEY_SLOTn_ATTR n, 28, 1⟩
def KEY_SLOTn_ATTR_NOREAD (n : Nat) : Fld := ⟨KEY_SLOTn_ATTR n, 27, 1⟩
def KEY_SLOTn_ATTR_DEST (n : Nat) : Fld := ⟨KEY_SLOTn_ATTR n, 21, 6⟩
def KEY_SLOTn_ATTR_LEN (n : Nat) : Fld := ⟨KEY_SLOTn_ATTR n, 9, 7⟩
def KEY_SLOTn_ATTR_PARENT (n : Nat) : Fld := ⟨KEY_SLOTn_ATTR n, 0, 9⟩
def KEY_SLOTn_GEN (n : Nat) : Nat := 0x31004 + 0x10 * n
def KEY_SLOTn_GEN_PGEN (n : Nat) : Fld := ⟨KEY_SLOTn_GEN n, 8, 8⟩
def KEY_SLOTn_GEN_GEN (n : Nat) : Fld := ⟨KEY_SLOTn_GEN n, 0, 8⟩
def KEY_SLOTn_KEYID (n : Nat) : Nat := 0x31008 + 0x10 * n
def KEY_SLOTn_KEYID_KEYID (n : Nat) : Fld := ⟨KEY_SLOTn_KEYID n, 0, 32⟩
def KEY_SVBs (s : Nat) : Nat := 0x34000 + 4 * s
def KEY_SVBs_EN (s : Nat) : Fld := ⟨KEY_SVBs s, 31, 1⟩
def KEY_SVBs_REQUIRE (s : Nat) : Fld := ⟨KEY_SVBs s, 30, 1⟩
def KEY_SVBs_ALG (s : Nat) : Fld := ⟨KEY_SVBs s, 28, 2⟩
def KEY_SVBs_B_EN (s : Nat) : Fld := ⟨KEY_SVBs s, 18, 1⟩
def KEY_SVBs_SLOT_B (s : Nat) : Fld := ⟨KEY_SVBs s, 9, 9⟩
def KEY_SVBs_SLOT_A (s : Nat) : Fld := ⟨KEY_SVBs s, 0, 9⟩
def KEY_GSBe (e : Nat) : Nat := 0x35000 + 4 * e
def KEY_GSBe_EN (e : Nat) : Fld := ⟨KEY_GSBe e, 31, 1⟩
def KEY_GSBe_REQUIRE (e : Nat) : Fld := ⟨KEY_GSBe e, 30, 1⟩
def KEY_GSBe_ALG (e : Nat) : Fld := ⟨KEY_GSBe e, 28, 2⟩
def KEY_GSBe_B_EN (e : Nat) : Fld := ⟨KEY_GSBe e, 18, 1⟩
def KEY_GSBe_SLOT_B (e : Nat) : Fld := ⟨KEY_GSBe e, 9, 9⟩
def KEY_GSBe_SLOT_A (e : Nat) : Fld := ⟨KEY_GSBe e, 0, 9⟩
def KEY_PUBb (b : Nat) : Nat := 0x39000 + 4 * b
def KEY_PUBb_EN (b : Nat) : Fld := ⟨KEY_PUBb b, 31, 1⟩
def KEY_PUBb_SEL (b : Nat) : Fld := ⟨KEY_PUBb b, 30, 1⟩
def KEY_PUBb_ALG (b : Nat) : Fld := ⟨KEY_PUBb b, 28, 2⟩
def KEY_PUBb_SLOT_B (b : Nat) : Fld := ⟨KEY_PUBb b, 9, 9⟩
def KEY_PUBb_SLOT_A (b : Nat) : Fld := ⟨KEY_PUBb b, 0, 9⟩
/-! CRN -/

def CRN_CTRL : Nat := 0x60040
def CRN_CTRL_EN : Fld := ⟨CRN_CTRL, 31, 1⟩
def CRN_CTRL_FREEZE : Fld := ⟨CRN_CTRL, 30, 1⟩
def CRN_CTRL_NOTE : Fld := ⟨CRN_CTRL, 29, 1⟩
def CRN_CTRL_FREEZE_MAX_MS : Fld := ⟨CRN_CTRL, 0, 16⟩
def CRN_STAT : Nat := 0x60044
def CRN_STAT_FIFO_FILL : Fld := ⟨CRN_STAT, 9, 7⟩
def CRN_STAT_WR_FAIL : Fld := ⟨CRN_STAT, 3, 1⟩
def CRN_STAT_MARKER : Fld := ⟨CRN_STAT, 2, 1⟩
def CRN_STAT_STOPPED : Fld := ⟨CRN_STAT, 1, 1⟩
def CRN_STAT_FROZEN : Fld := ⟨CRN_STAT, 0, 1⟩
def CRN_LOG_BASE_LO : Nat := 0x60048
def CRN_LOG_BASE_LO_ADDR : Fld := ⟨CRN_LOG_BASE_LO, 0, 32⟩
def CRN_LOG_BASE_HI : Nat := 0x6004c
def CRN_LOG_BASE_HI_ADDR : Fld := ⟨CRN_LOG_BASE_HI, 0, 32⟩
def CRN_LOG_SIZE : Nat := 0x60050
def CRN_LOG_SIZE_MIB : Fld := ⟨CRN_LOG_SIZE, 0, 12⟩
def CRN_CAP : Nat := 0x60054
def CRN_CAP_RECORDS : Fld := ⟨CRN_CAP, 0, 32⟩
def CRN_PROD : Nat := 0x60058
def CRN_PROD_COUNT : Fld := ⟨CRN_PROD, 0, 32⟩
def CRN_CONS : Nat := 0x6005c
def CRN_CONS_COUNT : Fld := ⟨CRN_CONS, 0, 32⟩
def CRN_WM : Nat := 0x60060
def CRN_WM_RECORDS : Fld := ⟨CRN_WM, 0, 32⟩
def CRN_RST_LOST : Nat := 0x60064
def CRN_RST_LOST_COUNT : Fld := ⟨CRN_RST_LOST, 0, 16⟩
def CRN_RETIRE : Nat := 0x60068
def CRN_RETIRE_BUSY : Fld := ⟨CRN_RETIRE, 31, 1⟩
def CRN_RETIRE_GO : Fld := ⟨CRN_RETIRE, 30, 1⟩
def CRN_RETIRE_RESULT : Fld := ⟨CRN_RETIRE, 28, 2⟩
def CRN_RETIRE_CHANNEL : Fld := ⟨CRN_RETIRE, 0, 12⟩
def CRN_RET_COUNT : Nat := 0x6006c
def CRN_RET_COUNT_COUNT : Fld := ⟨CRN_RET_COUNT, 0, 8⟩
def CRN_UPTIME : Nat := 0x60070
def CRN_UPTIME_MS : Fld := ⟨CRN_UPTIME, 0, 32⟩
def CRN_CNTi (i : Nat) : Nat := 0x60080 + 4 * i
def CRN_CNTi_COUNT (i : Nat) : Fld := ⟨CRN_CNTi i, 0, 32⟩
def CRN_CNT_ROLL : Nat := 0x600a0
def CRN_CNT_ROLL_ROLL : Fld := ⟨CRN_CNT_ROLL, 0, 6⟩
def CRN_SLOTSPAREk (k : Nat) : Nat := 0x60100 + 4 * k
def CRN_SLOTSPAREk_VALID (k : Nat) : Fld := ⟨CRN_SLOTSPAREk k, 31, 1⟩
def CRN_SLOTSPAREk_USED (k : Nat) : Fld := ⟨CRN_SLOTSPAREk k, 30, 1⟩
def CRN_SLOTSPAREk_SLOT (k : Nat) : Fld := ⟨CRN_SLOTSPAREk k, 0, 10⟩
def CRN_RETk (k : Nat) : Nat := 0x60200 + 4 * k
def CRN_RETk_VALID (k : Nat) : Fld := ⟨CRN_RETk k, 31, 1⟩
def CRN_RETk_REASON (k : Nat) : Fld := ⟨CRN_RETk k, 28, 3⟩
def CRN_RETk_SPARE (k : Nat) : Fld := ⟨CRN_RETk k, 16, 12⟩
def CRN_RETk_CHANNEL (k : Nat) : Fld := ⟨CRN_RETk k, 0, 12⟩
def CRN_NOTEw (w : Nat) : Nat := 0x60800 + 4 * w
def CRN_NOTEw_DATA (w : Nat) : Fld := ⟨CRN_NOTEw w, 0, 32⟩
def CRN_LOSTs (s : Nat) : Nat := 0x61000 + 4 * s
def CRN_LOSTs_COUNT (s : Nat) : Fld := ⟨CRN_LOSTs s, 0, 16⟩

def rowsRST0 : List RegRow := [
  ⟨0x10040, [], [⟨31, 31, .wo, 0, false, true⟩, ⟨30, 30, .wo, 0, false, true⟩, ⟨29, 29, .wo, 0, false, true⟩, ⟨15, 0, .wo, 0, false, true⟩]⟩,
  ⟨0x10044, [], [⟨9, 8, .ro, 0, true, false⟩, ⟨7, 0, .ro, 1, true, false⟩]⟩,
  ⟨0x10048, [], [⟨13, 1, .ro, 1, true, false⟩]⟩,
  ⟨0x1004c, [], [⟨23, 8, .ro, 0, false, false⟩, ⟨7, 7, .ro, 0, true, false⟩, ⟨6, 6, .ro, 0, false, false⟩, ⟨5, 4, .ro, 0, false, false⟩, ⟨3, 0, .ro, 1, false, false⟩]⟩,
  ⟨0x10050, [], [⟨31, 16, .rwl, 0x7d0, true, false⟩, ⟨8, 8, .rwl, 0, true, false⟩, ⟨7, 0, .rwl, 0xa, true, false⟩]⟩,
  ⟨0x10054, [], [⟨3, 0, .wo, 0, false, true⟩]⟩,
  ⟨0x10058, [], [⟨15, 8, .rwl, 0xa, true, false⟩, ⟨7, 0, .rwl, 8, true, false⟩]⟩,
  ⟨0x10060, [(4, 14)], [⟨31, 0, .ro, 0, true, false⟩]⟩,
  ⟨0x100a0, [], [⟨13, 1, .w1c, 0, true, false⟩]⟩,
  ⟨0x10100, [(4, 16)], [⟨31, 0, .ro, 0, true, false⟩]⟩]

/-- The register rows of RST. -/
def rowsRST : List RegRow := rowsRST0

def rowsIMG0 : List RegRow := [
  ⟨0x20040, [], [⟨31, 31, .ro, 0, false, false⟩, ⟨30, 30, .wo, 0, false, true⟩, ⟨29, 27, .ro, 0, false, false⟩, ⟨8, 8, .rw, 0, false, false⟩, ⟨4, 4, .rw, 0, false, false⟩, ⟨3, 0, .rw, 0, false, false⟩]⟩,
  ⟨0x20044, [], [⟨8, 8, .ro, 0, false, false⟩, ⟨7, 7, .ro, 0, false, false⟩, ⟨6, 6, .ro, 0, false, false⟩, ⟨5, 5, .ro, 0, false, false⟩, ⟨4, 4, .w1c, 0, false, false⟩, ⟨3, 3, .ro, 0, false, false⟩, ⟨2, 2, .ro, 0, false, false⟩, ⟨1, 1, .ro, 0, false, false⟩, ⟨0, 0, .ro, 0, false, false⟩]⟩,
  ⟨0x20048, [], [⟨31, 6, .rw, 0, false, false⟩]⟩,
  ⟨0x2004c, [], [⟨31, 0, .rw, 0, false, false⟩]⟩,
  ⟨0x20050, [], [⟨31, 0, .rw, 0, false, false⟩]⟩,
  ⟨0x20054, [], [⟨31, 0, .rw, 0, false, false⟩]⟩,
  ⟨0x20058, [], [⟨31, 0, .ro, 0, false, false⟩]⟩,
  ⟨0x2005c, [], [⟨31, 0, .ro, 0, false, false⟩]⟩,
  ⟨0x20060, [], [⟨31, 0, .ro, 0, false, false⟩]⟩,
  ⟨0x20064, [], [⟨31, 0, .ro, 0, false, false⟩]⟩,
  ⟨0x20068, [], [⟨31, 0, .ro, 0, false, false⟩]⟩,
  ⟨0x20080, [(4, 4)], [⟨31, 0, .rw, 0, false, false⟩]⟩,
  ⟨0x20090, [], [⟨3, 0, .w1c, 0, false, false⟩]⟩,
  ⟨0x20400, [(0x200, 2), (4, 128)], [⟨31, 0, .ro, 0, false, false⟩]⟩,
  ⟨0x20800, [(4, 64)], [⟨31, 0, .wo, 0, false, false⟩]⟩]

/-- The register rows of IMG. -/
def rowsIMG : List RegRow := rowsIMG0

def rowsKEY0 : List RegRow := [
  ⟨0x30040, [], [⟨12, 11, .ro, 0, true, false⟩, ⟨10, 10, .ro, 0, true, false⟩, ⟨9, 9, .ro, 0, true, false⟩, ⟨8, 8, .ro, 0, true, false⟩, ⟨7, 7, .w1c, 0, true, false⟩, ⟨6, 6, .ro, 0, true, false⟩, ⟨5, 5, .ro, 0, true, false⟩, ⟨4, 4, .ro, 0, true, false⟩, ⟨3, 3, .ro, 0, true, false⟩, ⟨2, 0, .ro, 0, true, false⟩]⟩,
  ⟨0x30044, [], [⟨31, 31, .ro, 0, false, false⟩, ⟨30, 30, .wo, 0, false, true⟩, ⟨29, 27, .ro, 0, false, false⟩, ⟨26, 23, .rw, 0, false, false⟩, ⟨22, 22, .wo, 0, false, true⟩, ⟨18, 18, .rw, 0, false, false⟩, ⟨17, 9, .rw, 0, false, false⟩, ⟨8, 0, .rw, 0, false, false⟩]⟩,
  ⟨0x30048, [], [⟨23, 18, .rw, 0, false, false⟩, ⟨17, 17, .rw, 1, false, false⟩, ⟨16, 11, .rw, 0, false, false⟩, ⟨6, 0, .rw, 0x20, false, false⟩]⟩,
  ⟨0x3004c, [], [⟨31, 0, .rw, 0, false, false⟩]⟩,
  ⟨0x30050, [], [⟨15, 0, .wo, 0, false, false⟩]⟩,
  ⟨0x30054, [], [⟨10, 4, .ro, 0, true, false⟩, ⟨3, 0, .ro, 0, true, false⟩]⟩,
  ⟨0x30058, [], [⟨9, 9, .w1c, 0, true, false⟩, ⟨8, 0, .ro, 0, true, false⟩]⟩,
  ⟨0x30080, [(4, 16)], [⟨31, 0, .wo, 0, false, false⟩]⟩,
  ⟨0x300c0, [(4, 16)], [⟨31, 0, .ro, 0, false, false⟩]⟩,
  ⟨0x30100, [(4, 8)], [⟨31, 0, .rw, 0, true, false⟩]⟩,
  ⟨0x30120, [], [⟨7, 0, .w1c, 0, true, false⟩]⟩,
  ⟨0x31000, [(0x10, 512)], [⟨31, 31, .ro, 0, false, false⟩, ⟨30, 30, .ro, 0, false, false⟩, ⟨29, 29, .ro, 0, false, false⟩, ⟨28, 28, .ro, 0, false, false⟩, ⟨27, 27, .ro, 0, false, false⟩, ⟨26, 21, .ro, 0, false, false⟩, ⟨15, 9, .ro, 0, false, false⟩, ⟨8, 0, .ro, 0, false, false⟩]⟩,
  ⟨0x31004, [(0x10, 512)], [⟨15, 8, .ro, 0, false, false⟩, ⟨7, 0, .ro, 0, false, false⟩]⟩,
  ⟨0x31008, [(0x10, 512)], [⟨31, 0, .ro, 0, false, false⟩]⟩,
  ⟨0x34000, [(4, 1024)], [⟨31, 31, .rw, 0, false, false⟩, ⟨30, 30, .rw, 1, false, false⟩, ⟨29, 28, .rw, 0, false, false⟩, ⟨18, 18, .rw, 0, false, false⟩, ⟨17, 9, .rw, 0, false, false⟩, ⟨8, 0, .rw, 0, false, false⟩]⟩,
  ⟨0x35000, [(4, 4096)], [⟨31, 31, .rw, 0, false, false⟩, ⟨30, 30, .rw, 1, false, false⟩, ⟨29, 28, .rw, 0, false, false⟩, ⟨18, 18, .rw, 0, false, false⟩, ⟨17, 9, .rw, 0, false, false⟩, ⟨8, 0, .rw, 0, false, false⟩]⟩,
  ⟨0x39000, [(4, 4096)], [⟨31, 31, .rw, 0, false, false⟩, ⟨30, 30, .rw, 0, false, false⟩, ⟨29, 28, .rw, 0, false, false⟩, ⟨17, 9, .rw, 0, false, false⟩, ⟨8, 0, .rw, 0, false, false⟩]⟩]

/-- The register rows of KEY. -/
def rowsKEY : List RegRow := rowsKEY0

def rowsNRG0 : List RegRow := [
  ⟨0x40040, [], [⟨3, 3, .rw, 0, true, false⟩, ⟨2, 2, .wo, 0, false, true⟩, ⟨1, 1, .wo, 0, false, true⟩, ⟨0, 0, .rw, 1, true, false⟩]⟩,
  ⟨0x40044, [], [⟨31, 24, .ro, 0, true, false⟩, ⟨9, 9, .ro, 0, false, false⟩, ⟨8, 8, .w1c, 0, true, false⟩, ⟨7, 6, .ro, 0, true, false⟩, ⟨5, 4, .ro, 0, true, false⟩, ⟨1, 0, .ro, 0, true, false⟩]⟩,
  ⟨0x40048, [], [⟨31, 16, .rwl, 0x258, true, false⟩, ⟨3, 0, .rwl, 4, true, false⟩]⟩,
  ⟨0x4004c, [], [⟨23, 16, .ro, 0, false, false⟩, ⟨15, 0, .rw, 0, true, false⟩]⟩,
  ⟨0x40050, [], [⟨15, 0, .rw, 0x1f4, true, false⟩]⟩,
  ⟨0x40054, [], [⟨27, 24, .rw, 5, true, false⟩, ⟨23, 16, .rw, 0x6e, true, false⟩, ⟨15, 8, .rw, 0x69, true, false⟩, ⟨7, 0, .rw, 0x5f, true, false⟩]⟩,
  ⟨0x40058, [], [⟨31, 16, .ro, 0, true, false⟩, ⟨10, 8, .ro, 0, true, false⟩, ⟨7, 0, .ro, 0, true, false⟩]⟩,
  ⟨0x4005c, [], [⟨3, 0, .rw, 0, true, false⟩]⟩,
  ⟨0x40060, [], [⟨31, 31, .w1c, 0, true, false⟩, ⟨4, 0, .ro, 0, true, false⟩]⟩,
  ⟨0x40064, [], [⟨19, 16, .ro, 0, false, false⟩, ⟨15, 0, .ro, 0, false, false⟩]⟩,
  ⟨0x40068, [], [⟨15, 0, .ro, 0, false, false⟩]⟩,
  ⟨0x40080, [(4, 8)], [⟨31, 0, .rw, 0, true, false⟩]⟩,
  ⟨0x400a0, [], [⟨7, 0, .w1c, 0, true, false⟩]⟩,
  ⟨0x40100, [(4, 8)], [⟨31, 16, .rw, 0x8000, false, false⟩, ⟨15, 0, .ro, 0, false, false⟩]⟩,
  ⟨0x40140, [(4, 48)], [⟨31, 31, .ro, 0, false, false⟩, ⟨18, 16, .ro, 0, false, false⟩, ⟨15, 0, .ro, 0, false, false⟩]⟩,
  ⟨0x40200, [], [⟨31, 31, .rwl, 0, true, false⟩, ⟨25, 16, .rwl, 0x3d4, true, false⟩, ⟨15, 0, .rwl, 0, true, false⟩]⟩,
  ⟨0x40204, [], [⟨31, 0, .rwl, 0, true, false⟩]⟩,
  ⟨0x40208, [], [⟨31, 0, .rwl, 0, true, false⟩]⟩,
  ⟨0x4020c, [], [⟨15, 0, .rwl, 0, true, false⟩]⟩,
  ⟨0x40210, [], [⟨31, 16, .rwl, 0, true, false⟩, ⟨15, 8, .rwl, 0x14, true, false⟩, ⟨7, 0, .rwl, 0x64, true, false⟩]⟩,
  ⟨0x40214, [], [⟨15, 0, .rwl, 0x1f4, true, false⟩]⟩,
  ⟨0x40218, [], [⟨31, 24, .rw, 5, true, false⟩, ⟨23, 16, .rw, 0x14, true, false⟩, ⟨15, 8, .rw, 0x28, true, false⟩, ⟨7, 0, .rw, 0x3c, true, false⟩]⟩,
  ⟨0x4021c, [], [⟨31, 0, .ro, 0, true, false⟩]⟩,
  ⟨0x40220, [], [⟨31, 0, .ro, 0, true, false⟩]⟩,
  ⟨0x40224, [], [⟨31, 16, .ro, 0, true, false⟩, ⟨15, 0, .ro, 0, true, false⟩]⟩]

def rowsNRG1 : List RegRow := [
  ⟨0x40228, [], [⟨31, 20, .ro, 0, true, false⟩, ⟨19, 8, .ro, 0, true, false⟩, ⟨4, 4, .ro, 0, true, false⟩, ⟨3, 3, .ro, 0, true, false⟩, ⟨2, 2, .ro, 0, true, false⟩, ⟨1, 1, .ro, 0, true, false⟩, ⟨0, 0, .ro, 0, true, false⟩]⟩,
  ⟨0x4022c, [], [⟨31, 31, .wo, 0, false, true⟩, ⟨15, 0, .wo, 0, false, true⟩]⟩,
  ⟨0x40240, [(4, 16)], [⟨31, 16, .rwl, 0, true, false⟩, ⟨15, 0, .rwl, 0, true, false⟩]⟩,
  ⟨0x40400, [(4, 212)], [⟨19, 18, .ro, 0, false, false⟩, ⟨17, 17, .ro, 0, false, false⟩, ⟨16, 16, .rwl, 0, false, false⟩, ⟨15, 4, .rwl, 0, false, false⟩, ⟨1, 0, .rwl, 3, false, false⟩]⟩,
  ⟨0x40800, [(4, 256)], [⟨5, 4, .rw, 2, false, false⟩, ⟨1, 0, .rw, 1, false, false⟩]⟩]

/-- The register rows of NRG. -/
def rowsNRG : List RegRow := rowsNRG0 ++ rowsNRG1

def rowsTIM0 : List RegRow := [
  ⟨0x50040, [], [⟨8, 8, .rw, 0, true, false⟩, ⟨7, 7, .wo, 0, false, true⟩, ⟨6, 6, .rw, 1, true, false⟩, ⟨5, 4, .rw, 1, true, false⟩, ⟨3, 2, .rw, 0, true, false⟩, ⟨1, 0, .rw, 0, true, false⟩]⟩,
  ⟨0x50044, [], [⟨31, 24, .ro, 0, true, false⟩, ⟨9, 9, .ro, 0, true, false⟩, ⟨5, 4, .ro, 0, true, false⟩, ⟨2, 0, .ro, 0, true, false⟩]⟩,
  ⟨0x50048, [], [⟨15, 0, .ro, 0, true, false⟩]⟩,
  ⟨0x5004c, [], [⟨31, 0, .ro, 0, true, false⟩]⟩,
  ⟨0x50050, [], [⟨31, 0, .ro, 0, true, false⟩]⟩,
  ⟨0x50054, [], [⟨15, 0, .rw, 0, true, false⟩]⟩,
  ⟨0x50058, [], [⟨31, 0, .rw, 0, true, false⟩]⟩,
  ⟨0x5005c, [], [⟨31, 0, .rw, 0, true, false⟩]⟩,
  ⟨0x50060, [], [⟨31, 0, .rw, 0, true, true⟩]⟩,
  ⟨0x50064, [], [⟨31, 0, .ro, 0, true, false⟩]⟩,
  ⟨0x50068, [], [⟨7, 0, .wo, 0, false, false⟩]⟩,
  ⟨0x5006c, [], [⟨31, 0, .wo, 0, false, true⟩]⟩,
  ⟨0x50070, [], [⟨23, 20, .rw, 1, true, false⟩, ⟨19, 16, .rw, 3, true, false⟩, ⟨15, 12, .rw, 0, true, false⟩, ⟨11, 0, .rw, 0x64, true, false⟩]⟩,
  ⟨0x50074, [], [⟨31, 16, .rw, 0x3e8, true, false⟩, ⟨15, 0, .rw, 0x3e8, true, false⟩]⟩,
  ⟨0x50078, [], [⟨9, 0, .rw, 0x64, true, false⟩]⟩,
  ⟨0x5007c, [], [⟨15, 0, .rw, 0x9c4, true, false⟩]⟩,
  ⟨0x50080, [], [⟨29, 24, .rw, 0, true, false⟩, ⟨19, 16, .rw, 6, true, false⟩, ⟨15, 0, .rw, 0x64, true, false⟩]⟩,
  ⟨0x50084, [], [⟨31, 0, .rw, 0x3e8, true, false⟩]⟩,
  ⟨0x50088, [], [⟨31, 0, .ro, 0xffffffff, true, false⟩]⟩,
  ⟨0x5008c, [], [⟨31, 31, .rw, 0, true, false⟩, ⟨28, 24, .rw, 0x14, true, false⟩, ⟨15, 0, .rw, 0x25, true, false⟩]⟩,
  ⟨0x50090, [], [⟨31, 0, .rw, 0, true, false⟩]⟩,
  ⟨0x50094, [], [⟨31, 0, .rw, 0, true, false⟩]⟩,
  ⟨0x50098, [], [⟨1, 1, .rw, 0, true, false⟩, ⟨0, 0, .rw, 0, true, false⟩]⟩,
  ⟨0x5009c, [], [⟨14, 0, .rwl, 0x12c0, true, true⟩]⟩,
  ⟨0x500a0, [], [⟨31, 0, .ro, 0, true, false⟩]⟩]

def rowsTIM1 : List RegRow := [
  ⟨0x500a4, [], [⟨31, 0, .ro, 0, true, false⟩]⟩,
  ⟨0x500a8, [], [⟨31, 0, .rw, 0, true, false⟩]⟩,
  ⟨0x500ac, [], [⟨15, 0, .rw, 0x3e8, true, false⟩]⟩,
  ⟨0x500b0, [], [⟨31, 0, .ro, 0, true, false⟩]⟩,
  ⟨0x500b4, [], [⟨31, 0, .ro, 0, true, false⟩]⟩,
  ⟨0x500b8, [], [⟨31, 0, .ro, 0, true, false⟩]⟩,
  ⟨0x500bc, [], [⟨31, 16, .rw, 0, true, false⟩, ⟨4, 4, .rw, 0, true, false⟩, ⟨2, 0, .rw, 4, true, false⟩]⟩,
  ⟨0x500c0, [], [⟨31, 0, .ro, 0, true, false⟩]⟩,
  ⟨0x500c4, [], [⟨31, 0, .ro, 0, true, false⟩]⟩,
  ⟨0x500c8, [], [⟨3, 3, .ro, 0, true, false⟩, ⟨2, 2, .w1c, 0, true, false⟩, ⟨1, 1, .w1c, 0, true, false⟩, ⟨0, 0, .ro, 0, true, false⟩]⟩,
  ⟨0x500cc, [], [⟨31, 31, .rw, 0, true, false⟩, ⟨15, 0, .rw, 0x3e8, true, false⟩]⟩,
  ⟨0x500d0, [], [⟨31, 0, .ro, 0, true, false⟩]⟩,
  ⟨0x500d4, [], [⟨31, 0, .ro, 0, true, false⟩]⟩,
  ⟨0x500d8, [], [⟨31, 0, .ro, 0, true, false⟩]⟩,
  ⟨0x500dc, [], [⟨31, 0, .ro, 0, true, false⟩]⟩,
  ⟨0x500e0, [], [⟨23, 16, .rw, 0, true, false⟩, ⟨3, 3, .rw, 0, true, false⟩, ⟨2, 2, .rw, 1, true, false⟩, ⟨1, 0, .rw, 0, true, false⟩]⟩,
  ⟨0x500e4, [], [⟨19, 0, .rw, 0, true, false⟩]⟩,
  ⟨0x50100, [(4, 8)], [⟨31, 24, .rw, 0x80, true, false⟩, ⟨23, 0, .rw, 0, true, false⟩]⟩,
  ⟨0x50400, [(0x10, 20)], [⟨31, 0, .rw, 0, true, false⟩]⟩,
  ⟨0x50404, [(0x10, 20)], [⟨31, 0, .rw, 0, true, false⟩]⟩,
  ⟨0x50408, [(0x10, 20)], [⟨31, 0, .rw, 0, true, false⟩]⟩,
  ⟨0x5040c, [(0x10, 20)], [⟨31, 0, .rw, 0, true, false⟩]⟩,
  ⟨0x50800, [(0x10, 64)], [⟨31, 0, .rw, 0, false, false⟩]⟩,
  ⟨0x50804, [(0x10, 64)], [⟨7, 0, .rw, 0, false, false⟩]⟩,
  ⟨0x50808, [(0x10, 64)], [⟨31, 31, .w1s, 0, false, true⟩, ⟨30, 30, .wo, 0, false, true⟩, ⟨29, 29, .w1c, 0, false, true⟩, ⟨28, 28, .w1c, 0, false, true⟩, ⟨27, 27, .w1c, 0, false, true⟩, ⟨7, 7, .rw, 0, false, true⟩, ⟨6, 4, .rw, 0, false, true⟩, ⟨2, 2, .rw, 0, false, true⟩, ⟨0, 0, .rw, 0, false, true⟩]⟩]

def rowsTIM2 : List RegRow := [
  ⟨0x50c00, [(0x20, 8)], [⟨31, 31, .rw, 0, true, false⟩, ⟨30, 30, .rw, 0, true, false⟩, ⟨29, 29, .rw, 0, true, false⟩, ⟨28, 28, .rw, 0, true, false⟩, ⟨27, 27, .ro, 0, true, false⟩, ⟨3, 0, .rw, 0, true, false⟩]⟩,
  ⟨0x50c04, [(0x20, 8)], [⟨31, 0, .rw, 0, true, false⟩]⟩,
  ⟨0x50c08, [(0x20, 8)], [⟨7, 0, .rw, 0, true, false⟩]⟩,
  ⟨0x50c0c, [(0x20, 8)], [⟨31, 0, .rw, 0, true, false⟩]⟩,
  ⟨0x50c10, [(0x20, 8)], [⟨15, 0, .rw, 0, true, false⟩]⟩,
  ⟨0x50c14, [(0x20, 8)], [⟨31, 0, .rw, 0, true, false⟩]⟩,
  ⟨0x50c18, [(0x20, 8)], [⟨31, 0, .rw, 0, true, false⟩]⟩]

/-- The register rows of TIM. -/
def rowsTIM : List RegRow := rowsTIM0 ++ rowsTIM1 ++ rowsTIM2

def rowsCRN0 : List RegRow := [
  ⟨0x60040, [], [⟨31, 31, .rw, 0, true, false⟩, ⟨30, 30, .rw, 0, false, true⟩, ⟨29, 29, .wo, 0, false, true⟩, ⟨15, 0, .rw, 0x64, true, false⟩]⟩,
  ⟨0x60044, [], [⟨15, 9, .ro, 0, false, false⟩, ⟨3, 3, .w1c, 0, true, false⟩, ⟨2, 2, .ro, 0, false, false⟩, ⟨1, 1, .ro, 0, true, false⟩, ⟨0, 0, .ro, 0, false, false⟩]⟩,
  ⟨0x60048, [], [⟨31, 20, .rwl, 0, true, false⟩]⟩,
  ⟨0x6004c, [], [⟨31, 0, .rwl, 0, true, false⟩]⟩,
  ⟨0x60050, [], [⟨11, 0, .rwl, 0, true, false⟩]⟩,
  ⟨0x60054, [], [⟨31, 0, .ro, 0, true, false⟩]⟩,
  ⟨0x60058, [], [⟨31, 0, .ro, 0, true, false⟩]⟩,
  ⟨0x6005c, [], [⟨31, 0, .rw, 0, true, true⟩]⟩,
  ⟨0x60060, [], [⟨31, 0, .rw, 0, true, false⟩]⟩,
  ⟨0x60064, [], [⟨15, 0, .ro, 0, true, false⟩]⟩,
  ⟨0x60068, [], [⟨31, 31, .ro, 0, false, false⟩, ⟨30, 30, .wo, 0, false, true⟩, ⟨29, 28, .ro, 0, false, false⟩, ⟨11, 0, .rw, 0, false, false⟩]⟩,
  ⟨0x6006c, [], [⟨7, 0, .ro, 0, true, false⟩]⟩,
  ⟨0x60070, [], [⟨31, 0, .ro, 0, true, false⟩]⟩,
  ⟨0x60080, [(4, 6)], [⟨31, 0, .rw, 0, true, false⟩]⟩,
  ⟨0x600a0, [], [⟨5, 0, .w1c, 0, true, false⟩]⟩,
  ⟨0x60100, [(4, 16)], [⟨31, 31, .rwl, 0, true, false⟩, ⟨30, 30, .ro, 0, true, false⟩, ⟨9, 0, .rwl, 0, true, false⟩]⟩,
  ⟨0x60200, [(4, 64)], [⟨31, 31, .ro, 0, true, false⟩, ⟨30, 28, .ro, 0, true, false⟩, ⟨27, 16, .ro, 0xfff, true, false⟩, ⟨11, 0, .ro, 0, true, false⟩]⟩,
  ⟨0x60800, [(4, 8)], [⟨31, 0, .wo, 0, false, false⟩]⟩,
  ⟨0x61000, [(4, 1024)], [⟨15, 0, .ro, 0, false, false⟩]⟩]

/-- The register rows of CRN. -/
def rowsCRN : List RegRow := rowsCRN0

def rowsHIF0 : List RegRow := [
  ⟨0x70040, [], [⟨16, 16, .ro, 0, false, false⟩, ⟨15, 14, .ro, 0, false, false⟩, ⟨13, 11, .ro, 5, false, false⟩, ⟨10, 7, .ro, 0, false, false⟩, ⟨6, 4, .ro, 0, false, false⟩, ⟨0, 0, .ro, 0, false, false⟩]⟩,
  ⟨0x70044, [], [⟨15, 8, .rw, 0x20, false, false⟩, ⟨0, 0, .rw, 1, false, false⟩]⟩,
  ⟨0x70048, [], [⟨31, 31, .rw, 0, false, true⟩, ⟨30, 30, .ro, 0, false, true⟩, ⟨26, 16, .rw, 0, false, true⟩, ⟨9, 5, .rw, 6, false, true⟩, ⟨4, 0, .rw, 6, false, true⟩]⟩,
  ⟨0x7004c, [], [⟨31, 24, .ro, 0, false, false⟩, ⟨23, 16, .ro, 0, false, false⟩]⟩,
  ⟨0x70050, [], [⟨31, 12, .rw, 0, false, false⟩]⟩,
  ⟨0x70054, [], [⟨31, 0, .rw, 0, false, false⟩]⟩,
  ⟨0x70058, [], [⟨31, 12, .rw, 0, false, false⟩]⟩,
  ⟨0x7005c, [], [⟨31, 0, .rw, 0, false, false⟩]⟩,
  ⟨0x70060, [], [⟨1, 1, .rw, 0, false, false⟩, ⟨0, 0, .rw, 0, false, false⟩]⟩,
  ⟨0x70064, [], [⟨31, 31, .w1c, 0, false, false⟩, ⟨30, 30, .ro, 0, false, false⟩, ⟨29, 29, .ro, 0, false, false⟩, ⟨27, 26, .ro, 0, false, false⟩, ⟨25, 18, .ro, 0, false, false⟩, ⟨17, 10, .ro, 0, false, false⟩, ⟨9, 0, .ro, 0, false, false⟩]⟩,
  ⟨0x70068, [], [⟨31, 0, .ro, 0, false, false⟩]⟩,
  ⟨0x7006c, [], [⟨31, 0, .ro, 0, false, false⟩]⟩,
  ⟨0x70070, [], [⟨31, 16, .ro, 0, false, false⟩, ⟨6, 6, .ro, 0, false, false⟩, ⟨5, 0, .ro, 0, false, false⟩]⟩,
  ⟨0x70080, [(4, 10)], [⟨31, 0, .rw, 0, false, false⟩]⟩,
  ⟨0x700b0, [], [⟨9, 0, .w1c, 0, false, false⟩]⟩]

/-- The register rows of HIF. -/
def rowsHIF : List RegRow := rowsHIF0

def rowsTHL0 : List RegRow := [
  ⟨0x80040, [], [⟨5, 5, .w1c, 0, true, false⟩, ⟨4, 4, .w1c, 0, true, false⟩, ⟨3, 3, .w1c, 0, true, false⟩, ⟨2, 2, .w1c, 0, true, false⟩, ⟨1, 1, .w1c, 0, true, false⟩, ⟨0, 0, .w1c, 0, true, false⟩]⟩,
  ⟨0x80044, [], [⟨31, 0, .ro, 0, true, false⟩]⟩,
  ⟨0x80048, [], [⟨31, 0, .ro, 0, true, false⟩]⟩,
  ⟨0x8004c, [], [⟨9, 0, .rw, 0x14, true, false⟩]⟩,
  ⟨0x80050, [], [⟨31, 25, .rw, 0, true, false⟩]⟩,
  ⟨0x80054, [], [⟨31, 0, .rw, 0, true, false⟩]⟩,
  ⟨0x80058, [], [⟨16, 16, .ro, 0, true, false⟩, ⟨15, 8, .ro, 0, true, false⟩, ⟨2, 2, .ro, 0, true, false⟩, ⟨1, 1, .w1c, 0, true, false⟩, ⟨0, 0, .ro, 0, false, false⟩]⟩,
  ⟨0x80060, [(4, 6)], [⟨31, 0, .rw, 0, true, false⟩]⟩,
  ⟨0x80078, [], [⟨5, 0, .w1c, 0, true, false⟩]⟩,
  ⟨0x80100, [(0x40, 2)], [⟨31, 31, .rwl, 0, true, false⟩, ⟨30, 29, .rwl, 2, true, false⟩, ⟨28, 27, .rwl, 0, true, false⟩, ⟨26, 26, .rwl, 0, true, false⟩, ⟨25, 25, .rwl, 0, true, false⟩, ⟨24, 24, .rwl, 0, true, false⟩]⟩,
  ⟨0x80104, [(0x40, 2)], [⟨7, 7, .ro, 0, true, false⟩, ⟨6, 6, .ro, 0, true, false⟩, ⟨5, 5, .ro, 0, true, false⟩, ⟨4, 4, .ro, 0, false, false⟩, ⟨3, 3, .ro, 0, true, false⟩, ⟨2, 2, .ro, 0, true, false⟩, ⟨1, 1, .ro, 0, false, false⟩, ⟨0, 0, .ro, 0, true, false⟩]⟩,
  ⟨0x80108, [(0x40, 2)], [⟨16, 0, .ro, 0, true, false⟩]⟩,
  ⟨0x8010c, [(0x40, 2)], [⟨15, 0, .ro, 0, true, false⟩]⟩,
  ⟨0x80110, [(0x40, 2)], [⟨15, 8, .ro, 0, true, false⟩, ⟨7, 0, .ro, 0, true, false⟩]⟩,
  ⟨0x80400, [(0x10, 64)], [⟨16, 0, .rwl, 0, true, false⟩]⟩,
  ⟨0x80404, [(0x10, 64)], [⟨17, 0, .rwl, 0, true, false⟩]⟩,
  ⟨0x80408, [(0x10, 64)], [⟨31, 31, .rwl, 0, true, false⟩, ⟨30, 30, .rwl, 0, true, false⟩, ⟨29, 28, .rwl, 0, true, false⟩, ⟨27, 27, .rwl, 0, true, false⟩, ⟨26, 26, .rwl, 0, true, false⟩, ⟨15, 8, .rwl, 0, true, false⟩, ⟨7, 0, .rwl, 0, true, false⟩]⟩,
  ⟨0x80800, [(0x20, 17), (4, 4)], [⟨31, 31, .rwl, 0, true, false⟩, ⟨30, 30, .ro, 0, true, false⟩, ⟨24, 16, .ro, 0, true, false⟩, ⟨8, 0, .rwl, 0, true, false⟩]⟩]

/-- The register rows of THL. -/
def rowsTHL : List RegRow := rowsTHL0

def rowsPRT0 : List RegRow := [
  ⟨0x100040, [(0x10000, 16)], [⟨5, 5, .rw, 0, false, false⟩, ⟨4, 4, .rw, 0, false, false⟩, ⟨3, 3, .rw, 1, false, false⟩, ⟨2, 1, .rw, 0, false, false⟩, ⟨0, 0, .rw, 0, false, true⟩]⟩,
  ⟨0x100044, [(0x10000, 16)], [⟨7, 6, .ro, 0, false, false⟩, ⟨4, 4, .ro, 0, false, false⟩, ⟨3, 3, .ro, 0, false, false⟩, ⟨2, 2, .ro, 0, false, false⟩, ⟨1, 1, .ro, 0, false, false⟩, ⟨0, 0, .ro, 0, false, false⟩]⟩,
  ⟨0x100048, [(0x10000, 16)], [⟨23, 18, .rw, 0, false, false⟩, ⟨17, 12, .rw, 0x30, false, false⟩, ⟨11, 6, .rw, 0, false, false⟩, ⟨5, 5, .rw, 1, false, false⟩, ⟨4, 4, .rw, 0, false, false⟩]⟩,
  ⟨0x10004c, [(0x10000, 16)], [⟨31, 0, .ro, 0, false, false⟩]⟩,
  ⟨0x100050, [(0x10000, 16)], [⟨31, 28, .rw, 0, false, false⟩, ⟨27, 24, .rw, 0, false, false⟩, ⟨23, 16, .rw, 0xa, false, false⟩, ⟨15, 8, .rw, 2, false, false⟩, ⟨3, 3, .rw, 0, false, false⟩, ⟨2, 0, .rw, 0, false, false⟩]⟩,
  ⟨0x100054, [(0x10000, 16)], [⟨23, 16, .rw, 0x80, false, false⟩, ⟨15, 0, .rw, 0x190, false, false⟩]⟩,
  ⟨0x100058, [(0x10000, 16)], [⟨31, 0, .rw, 0, false, false⟩]⟩,
  ⟨0x10005c, [(0x10000, 16)], [⟨31, 0, .rw, 0xc350, false, false⟩]⟩,
  ⟨0x100060, [(0x10000, 16)], [⟨10, 0, .ro, 0, false, false⟩]⟩,
  ⟨0x100064, [(0x10000, 16)], [⟨22, 0, .w1c, 0, false, false⟩]⟩,
  ⟨0x100068, [(0x10000, 16)], [⟨15, 8, .rw, 0, false, false⟩, ⟨7, 0, .rw, 0, false, false⟩]⟩,
  ⟨0x10006c, [(0x10000, 16)], [⟨31, 31, .w1c, 0, false, false⟩, ⟨2, 0, .ro, 0, false, false⟩]⟩,
  ⟨0x100070, [(0x10000, 16)], [⟨31, 0, .ro, 0, false, false⟩]⟩,
  ⟨0x100074, [(0x10000, 16)], [⟨31, 0, .ro, 0, false, false⟩]⟩,
  ⟨0x100100, [(0x10000, 16), (4, 23)], [⟨31, 0, .rw, 0, false, false⟩]⟩,
  ⟨0x100200, [(0x10000, 16), (0x20, 8), (4, 4)], [⟨31, 0, .rw, 0, false, false⟩]⟩,
  ⟨0x100210, [(0x10000, 16), (0x20, 8)], [⟨15, 0, .rw, 0, false, false⟩]⟩]

/-- The register rows of PRT. -/
def rowsPRT : List RegRow := rowsPRT0

def rowsSTN0 : List RegRow := [
  ⟨0x200040, [(0x10000, 4)], [⟨6, 6, .rw, 0, false, false⟩, ⟨5, 5, .rw, 0, false, false⟩, ⟨4, 4, .rw, 1, false, false⟩, ⟨3, 1, .rw, 0, false, false⟩, ⟨0, 0, .rw, 0, false, true⟩]⟩,
  ⟨0x200044, [(0x10000, 4)], [⟨7, 6, .ro, 0, false, false⟩, ⟨5, 5, .ro, 0, false, false⟩, ⟨4, 4, .ro, 0, false, false⟩, ⟨3, 3, .ro, 0, false, false⟩, ⟨2, 2, .ro, 0, false, false⟩, ⟨1, 1, .ro, 0, false, false⟩, ⟨0, 0, .ro, 0, false, false⟩]⟩,
  ⟨0x200048, [(0x10000, 4)], [⟨23, 18, .rw, 0, false, false⟩, ⟨17, 12, .rw, 0x30, false, false⟩, ⟨11, 6, .rw, 0, false, false⟩, ⟨5, 5, .rw, 1, false, false⟩, ⟨4, 4, .rw, 0, false, false⟩]⟩,
  ⟨0x20004c, [(0x10000, 4)], [⟨31, 0, .ro, 0, false, false⟩]⟩,
  ⟨0x200050, [(0x10000, 4)], [⟨31, 16, .rw, 0x40, false, false⟩, ⟨1, 1, .ro, 0, false, false⟩, ⟨0, 0, .rw, 0, false, false⟩]⟩,
  ⟨0x200054, [(0x10000, 4)], [⟨31, 16, .rwl, 0x11, false, true⟩, ⟨15, 0, .rw, 0x11, false, true⟩]⟩,
  ⟨0x200060, [(0x10000, 4)], [⟨31, 16, .rw, 0, false, false⟩, ⟨9, 8, .rw, 0, false, false⟩, ⟨7, 7, .rw, 1, false, false⟩, ⟨6, 6, .rw, 1, false, false⟩, ⟨5, 5, .rw, 1, false, false⟩, ⟨4, 4, .rw, 1, false, false⟩, ⟨3, 3, .rw, 1, false, false⟩, ⟨1, 1, .rw, 0, false, false⟩, ⟨0, 0, .rw, 0, false, false⟩]⟩,
  ⟨0x200064, [(0x10000, 4)], [⟨0, 0, .w1c, 0, false, false⟩]⟩,
  ⟨0x200068, [(0x10000, 4)], [⟨31, 0, .rw, 0, false, false⟩]⟩,
  ⟨0x20006c, [(0x10000, 4)], [⟨31, 0, .rw, 0, false, false⟩]⟩,
  ⟨0x200070, [(0x10000, 4)], [⟨31, 0, .rw, 0xc0000000, false, false⟩]⟩,
  ⟨0x200074, [(0x10000, 4)], [⟨31, 0, .rw, 0, false, false⟩]⟩,
  ⟨0x200100, [(0x10000, 4), (4, 23)], [⟨31, 0, .rw, 0, false, false⟩]⟩,
  ⟨0x200160, [(0x10000, 4)], [⟨22, 0, .w1c, 0, false, false⟩]⟩,
  ⟨0x200200, [(0x10000, 4), (0x20, 4)], [⟨31, 31, .rw, 0, false, true⟩, ⟨8, 0, .rw, 0, false, false⟩]⟩,
  ⟨0x200204, [(0x10000, 4), (0x20, 4)], [⟨31, 0, .rw, 1, false, false⟩]⟩,
  ⟨0x200208, [(0x10000, 4), (0x20, 4)], [⟨31, 0, .rw, 0, false, false⟩]⟩,
  ⟨0x20020c, [(0x10000, 4), (0x20, 4)], [⟨31, 0, .rw, 0, false, false⟩]⟩,
  ⟨0x200210, [(0x10000, 4), (0x20, 4)], [⟨31, 0, .wo, 0, false, false⟩]⟩,
  ⟨0x200214, [(0x10000, 4), (0x20, 4)], [⟨31, 0, .wo, 0, false, false⟩]⟩,
  ⟨0x200218, [(0x10000, 4), (0x20, 4)], [⟨31, 0, .wo, 0, false, false⟩]⟩,
  ⟨0x200400, [(0x10000, 4), (8, 16)], [⟨31, 0, .rw, 0, false, false⟩]⟩,
  ⟨0x200404, [(0x10000, 4), (8, 16)], [⟨0, 0, .rw, 0, false, false⟩]⟩,
  ⟨0x200800, [(0x10000, 4), (0x100, 8)], [⟨31, 0, .rw, 0, false, false⟩]⟩,
  ⟨0x200804, [(0x10000, 4), (0x100, 8)], [⟨31, 0, .rw, 0, false, false⟩]⟩]

def rowsSTN1 : List RegRow := [
  ⟨0x200808, [(0x10000, 4), (0x100, 8)], [⟨0, 0, .rw, 0, false, false⟩]⟩,
  ⟨0x200840, [(0x10000, 4), (0x100, 8), (0x20, 4)], [⟨31, 31, .rw, 0, false, true⟩, ⟨8, 0, .rw, 0, false, false⟩]⟩,
  ⟨0x200844, [(0x10000, 4), (0x100, 8), (0x20, 4)], [⟨31, 0, .rw, 1, false, false⟩]⟩,
  ⟨0x200848, [(0x10000, 4), (0x100, 8), (0x20, 4)], [⟨31, 0, .rw, 0, false, false⟩]⟩,
  ⟨0x20084c, [(0x10000, 4), (0x100, 8), (0x20, 4)], [⟨31, 0, .rw, 0, false, false⟩]⟩,
  ⟨0x200850, [(0x10000, 4), (0x100, 8), (0x20, 4)], [⟨31, 0, .wo, 0, false, false⟩]⟩,
  ⟨0x200854, [(0x10000, 4), (0x100, 8), (0x20, 4)], [⟨31, 0, .wo, 0, false, false⟩]⟩,
  ⟨0x200858, [(0x10000, 4), (0x100, 8), (0x20, 4)], [⟨31, 0, .wo, 0, false, false⟩]⟩]

/-- The register rows of STN. -/
def rowsSTN : List RegRow := rowsSTN0 ++ rowsSTN1

def rowsAUX0 : List RegRow := [
  ⟨0x240040, [(0x10000, 8)], [⟨31, 31, .rw, 0, true, true⟩, ⟨30, 30, .rw, 1, true, false⟩, ⟨29, 29, .rwl, 0, true, false⟩, ⟨28, 27, .rw, 0, true, false⟩, ⟨26, 26, .rw, 0, true, false⟩, ⟨25, 25, .rw, 1, true, false⟩, ⟨24, 24, .rw, 1, true, false⟩, ⟨23, 23, .rw, 0, true, false⟩, ⟨22, 22, .rwl, 0, true, false⟩, ⟨15, 8, .rw, 0x14, true, false⟩]⟩,
  ⟨0x240044, [(0x10000, 8)], [⟨4, 4, .wo, 0, false, true⟩, ⟨3, 3, .wo, 0, false, true⟩, ⟨2, 2, .wo, 0, false, true⟩, ⟨1, 1, .wo, 0, false, true⟩, ⟨0, 0, .wo, 0, false, true⟩]⟩,
  ⟨0x240048, [(0x10000, 8)], [⟨11, 11, .w1c, 0, true, false⟩, ⟨10, 10, .ro, 0, true, false⟩, ⟨9, 9, .ro, 0, true, false⟩, ⟨8, 8, .ro, 0, false, false⟩, ⟨7, 7, .ro, 0, true, false⟩, ⟨6, 4, .ro, 0, true, false⟩, ⟨2, 0, .ro, 0, true, false⟩]⟩,
  ⟨0x24004c, [(0x10000, 8)], [⟨31, 24, .rw, 0, true, false⟩, ⟨23, 16, .rw, 0x20, true, false⟩, ⟨15, 8, .rw, 8, true, false⟩, ⟨3, 0, .rw, 0, true, false⟩]⟩,
  ⟨0x240050, [(0x10000, 8)], [⟨7, 0, .rw, 0x80, true, false⟩]⟩,
  ⟨0x240054, [(0x10000, 8)], [⟨31, 16, .rw, 0x32, true, false⟩, ⟨15, 8, .rw, 0x28, true, false⟩]⟩,
  ⟨0x240058, [(0x10000, 8)], [⟨31, 16, .rw, 0xe10, true, false⟩, ⟨15, 8, .rw, 0xa, true, false⟩, ⟨7, 0, .rw, 8, true, false⟩]⟩,
  ⟨0x24005c, [(0x10000, 8)], [⟨31, 16, .rw, 0, true, false⟩, ⟨15, 8, .rw, 0x64, true, false⟩, ⟨7, 0, .rw, 0xa, true, false⟩]⟩,
  ⟨0x240060, [(0x10000, 8)], [⟨31, 31, .wo, 0, false, true⟩, ⟨30, 30, .wo, 0, false, true⟩, ⟨15, 0, .rw, 0x1f4, true, false⟩]⟩,
  ⟨0x240064, [(0x10000, 8)], [⟨15, 0, .ro, 0, false, false⟩]⟩,
  ⟨0x240068, [(0x10000, 8)], [⟨9, 0, .w1c, 0, false, false⟩]⟩,
  ⟨0x24006c, [(0x10000, 8)], [⟨31, 31, .w1c, 0, true, false⟩, ⟨1, 0, .ro, 0, true, false⟩]⟩,
  ⟨0x240070, [(0x10000, 8)], [⟨31, 0, .ro, 0, true, false⟩]⟩,
  ⟨0x240074, [(0x10000, 8)], [⟨31, 0, .ro, 0, true, false⟩]⟩,
  ⟨0x240100, [(0x10000, 8), (4, 16)], [⟨31, 0, .rw, 0, true, false⟩]⟩,
  ⟨0x240140, [(0x10000, 8)], [⟨15, 0, .w1c, 0, true, false⟩]⟩]

/-- The register rows of AUX. -/
def rowsAUX : List RegRow := rowsAUX0

def rowsSWC0 : List RegRow := [
  ⟨0x300040, [], [⟨19, 16, .rw, 2, false, false⟩, ⟨15, 0, .rwl, 0x800, false, false⟩]⟩,
  ⟨0x300044, [], [⟨15, 0, .ro, 0xc000, false, false⟩]⟩,
  ⟨0x300048, [], [⟨15, 0, .rw, 0x1000, false, false⟩]⟩,
  ⟨0x30004c, [], [⟨7, 0, .rw, 0x10, false, false⟩]⟩,
  ⟨0x300050, [], [⟨15, 0, .rw, 0x12c, false, false⟩]⟩,
  ⟨0x300054, [], [⟨5, 0, .rw, 0x3f, false, false⟩]⟩,
  ⟨0x300058, [], [⟨1, 1, .ro, 0, false, true⟩, ⟨0, 0, .rw, 0, false, true⟩]⟩,
  ⟨0x300060, [], [⟨31, 0, .rw, 0, false, false⟩]⟩,
  ⟨0x300064, [], [⟨27, 16, .rw, 0, false, false⟩, ⟨15, 0, .rw, 0, false, false⟩]⟩,
  ⟨0x300068, [], [⟨25, 25, .rw, 0, false, false⟩, ⟨24, 24, .rw, 0, false, false⟩, ⟨23, 0, .rw, 0, false, false⟩]⟩,
  ⟨0x30006c, [], [⟨31, 31, .ro, 0, false, false⟩, ⟨3, 2, .ro, 0, false, false⟩, ⟨1, 0, .wo, 0, false, true⟩]⟩,
  ⟨0x300080, [(4, 23)], [⟨23, 12, .rw, 1, false, false⟩, ⟨11, 9, .rw, 0, false, false⟩, ⟨8, 8, .rw, 0, false, false⟩]⟩,
  ⟨0x300100, [(4, 4)], [⟨31, 31, .rw, 0, false, false⟩, ⟨21, 20, .rw, 0, false, false⟩, ⟨19, 0, .rw, 0, false, false⟩]⟩,
  ⟨0x300110, [], [⟨19, 16, .ro, 0, false, false⟩, ⟨15, 0, .ro, 0, false, false⟩]⟩,
  ⟨0x300400, [(0x40, 4), (4, 16)], [⟨31, 0, .rw, 0, false, true⟩]⟩,
  ⟨0x300800, [(0x40, 4)], [⟨31, 31, .rw, 0, false, false⟩, ⟨30, 30, .rw, 0, false, false⟩, ⟨29, 29, .rw, 0, false, false⟩, ⟨28, 27, .rw, 0, false, false⟩, ⟨26, 22, .rw, 0x10, false, false⟩]⟩,
  ⟨0x300804, [(0x40, 4)], [⟨23, 0, .rw, 0, false, false⟩]⟩,
  ⟨0x300808, [(0x40, 4)], [⟨23, 0, .rw, 0, false, false⟩]⟩,
  ⟨0x30080c, [(0x40, 4)], [⟨31, 16, .rw, 0, false, false⟩, ⟨15, 0, .rw, 0, false, false⟩]⟩,
  ⟨0x300810, [(0x40, 4)], [⟨31, 12, .rw, 0, false, false⟩]⟩,
  ⟨0x300814, [(0x40, 4)], [⟨31, 0, .rw, 0, false, false⟩]⟩,
  ⟨0x300818, [(0x40, 4)], [⟨31, 0, .ro, 0, false, false⟩]⟩,
  ⟨0x30081c, [(0x40, 4)], [⟨31, 0, .rw, 0, false, true⟩]⟩,
  ⟨0x300820, [(0x40, 4)], [⟨31, 0, .rw, 0, false, false⟩]⟩,
  ⟨0x300c00, [(4, 12)], [⟨31, 0, .rw, 0, false, false⟩]⟩]

def rowsSWC1 : List RegRow := [
  ⟨0x300c40, [], [⟨11, 0, .w1c, 0, false, false⟩]⟩,
  ⟨0x301000, [(4, 4096)], [⟨30, 30, .rw, 0, false, false⟩, ⟨23, 0, .rw, 0, false, false⟩]⟩,
  ⟨0x305000, [(0x10, 23), (4, 4)], [⟨31, 16, .ro, 0, false, false⟩, ⟨15, 0, .ro, 0, false, false⟩]⟩,
  ⟨0x300070, [], [⟨24, 16, .rwl, 0, false, false⟩]⟩,
  ⟨0x300074, [], [⟨0, 0, .w1s, 0, false, true⟩]⟩,
  ⟨0x310000, [(0x40, 4096)], [⟨31, 31, .rw, 0, false, true⟩, ⟨30, 29, .rw, 0, false, false⟩, ⟨28, 28, .rw, 0, false, false⟩, ⟨19, 0, .rw, 0, false, false⟩]⟩,
  ⟨0x310004, [(0x40, 4096)], [⟨19, 3, .rw, 0, false, false⟩]⟩,
  ⟨0x310008, [(0x40, 4096)], [⟨31, 16, .rw, 0x3e8, false, false⟩, ⟨15, 0, .rw, 0x3e8, false, false⟩]⟩,
  ⟨0x31000c, [(0x40, 4096)], [⟨31, 0, .rw, 0x7d0, false, false⟩]⟩,
  ⟨0x310010, [(0x40, 4096)], [⟨31, 6, .rw, 0, false, false⟩]⟩,
  ⟨0x310014, [(0x40, 4096)], [⟨31, 0, .rw, 0, false, false⟩]⟩,
  ⟨0x310018, [(0x40, 4096)], [⟨26, 16, .rw, 0, false, false⟩, ⟨15, 8, .rw, 0, false, false⟩]⟩,
  ⟨0x310020, [(0x40, 4096)], [⟨31, 0, .ro, 0, false, false⟩]⟩,
  ⟨0x310024, [(0x40, 4096)], [⟨31, 0, .ro, 0, false, false⟩]⟩,
  ⟨0x310028, [(0x40, 4096)], [⟨31, 0, .rw, 0, false, false⟩]⟩,
  ⟨0x31002c, [(0x40, 4096)], [⟨1, 1, .w1c, 0, false, false⟩, ⟨0, 0, .w1c, 0, false, false⟩]⟩]

/-- The register rows of SWC. -/
def rowsSWC : List RegRow := rowsSWC0 ++ rowsSWC1

def rowsRHZ0 : List RegRow := [
  ⟨0x400040, [], [⟨0, 0, .rw, 0, false, true⟩]⟩,
  ⟨0x400044, [], [⟨31, 30, .ro, 0, false, false⟩, ⟨9, 0, .ro, 0, false, false⟩]⟩,
  ⟨0x400080, [(4, 32)], [⟨31, 0, .w1c, 0, false, false⟩]⟩,
  ⟨0x400100, [(4, 32)], [⟨31, 0, .ro, 0, false, false⟩]⟩,
  ⟨0x401040, [(0x100, 17)], [⟨14, 8, .rw, 0, false, false⟩, ⟨6, 0, .ro, 0, false, false⟩]⟩,
  ⟨0x401080, [(0x100, 17), (4, 12)], [⟨31, 0, .rw, 0, false, false⟩]⟩,
  ⟨0x4010c0, [(0x100, 17)], [⟨11, 0, .w1c, 0, false, false⟩]⟩,
  ⟨0x404000, [(0x40, 16)], [⟨31, 31, .rw, 0, false, true⟩, ⟨8, 8, .rw, 0, false, false⟩, ⟨7, 4, .rw, 5, false, false⟩, ⟨2, 0, .rw, 1, false, false⟩]⟩,
  ⟨0x404004, [(0x40, 16)], [⟨19, 0, .rw, 0x249f0, false, false⟩]⟩,
  ⟨0x404008, [(0x40, 16)], [⟨15, 0, .rw, 0x3e8, false, false⟩]⟩,
  ⟨0x40400c, [(0x40, 16)], [⟨31, 16, .ro, 0, false, false⟩, ⟨15, 0, .rw, 0x7d0, false, false⟩]⟩,
  ⟨0x404010, [(0x40, 16)], [⟨24, 6, .rw, 0, false, false⟩]⟩,
  ⟨0x404014, [(0x40, 16)], [⟨29, 16, .rw, 0, false, false⟩, ⟨12, 0, .rw, 0, false, false⟩]⟩,
  ⟨0x404018, [(0x40, 16)], [⟨31, 0, .ro, 0, false, false⟩]⟩,
  ⟨0x40401c, [(0x40, 16)], [⟨31, 0, .ro, 0, false, false⟩]⟩,
  ⟨0x404020, [(0x40, 16)], [⟨31, 0, .rw, 0, false, false⟩]⟩,
  ⟨0x404024, [(0x40, 16)], [⟨31, 0, .rw, 0, false, false⟩]⟩,
  ⟨0x404028, [(0x40, 16)], [⟨26, 16, .ro, 0, false, false⟩, ⟨10, 0, .ro, 0, false, false⟩]⟩,
  ⟨0x40402c, [(0x40, 16)], [⟨1, 0, .w1c, 0, false, false⟩]⟩,
  ⟨0x410000, [(0x40, 1024)], [⟨31, 31, .rw, 0, false, true⟩, ⟨30, 30, .rw, 1, false, false⟩, ⟨29, 29, .rw, 0, false, false⟩, ⟨28, 27, .rw, 2, false, false⟩, ⟨26, 25, .rw, 0, false, false⟩, ⟨23, 20, .rw, 0, false, false⟩, ⟨19, 16, .rw, 1, false, false⟩, ⟨9, 5, .rw, 0x1f, false, false⟩, ⟨4, 0, .rw, 0, false, false⟩]⟩,
  ⟨0x410004, [(0x40, 1024)], [⟨31, 16, .rw, 0, false, false⟩, ⟨4, 0, .rw, 8, false, false⟩]⟩,
  ⟨0x410008, [(0x40, 1024)], [⟨31, 0, .rw, 0, false, false⟩]⟩,
  ⟨0x41000c, [(0x40, 1024)], [⟨15, 0, .rw, 0, false, false⟩]⟩,
  ⟨0x410010, [(0x40, 1024)], [⟨31, 0, .rw, 1, false, false⟩]⟩,
  ⟨0x410014, [(0x40, 1024)], [⟨12, 0, .rw, 0, false, false⟩]⟩]

def rowsRHZ1 : List RegRow := [
  ⟨0x410018, [(0x40, 1024)], [⟨23, 0, .rw, 0xc350, false, false⟩]⟩,
  ⟨0x41001c, [(0x40, 1024)], [⟨6, 0, .rw, 0, false, false⟩]⟩,
  ⟨0x430000, [(0x40, 1024), (4, 16)], [⟨31, 0, .rw, 0, false, false⟩]⟩,
  ⟨0x420000, [(0x40, 1024)], [⟨31, 28, .ro, 0, false, false⟩, ⟨27, 25, .ro, 0, false, false⟩, ⟨24, 24, .ro, 0, false, false⟩, ⟨23, 22, .ro, 0, false, false⟩, ⟨21, 17, .ro, 0, false, false⟩, ⟨16, 16, .ro, 0, false, false⟩, ⟨15, 15, .ro, 0, false, false⟩, ⟨14, 14, .ro, 0, false, false⟩, ⟨13, 13, .w1c, 0, false, false⟩]⟩,
  ⟨0x420004, [(0x40, 1024)], [⟨31, 24, .ro, 0, false, false⟩, ⟨16, 0, .ro, 0, false, false⟩]⟩,
  ⟨0x420008, [(0x40, 1024)], [⟨31, 0, .ro, 0, false, false⟩]⟩,
  ⟨0x42000c, [(0x40, 1024)], [⟨31, 0, .ro, 0, false, false⟩]⟩,
  ⟨0x420010, [(0x40, 1024)], [⟨31, 0, .ro, 0, false, false⟩]⟩,
  ⟨0x420014, [(0x40, 1024)], [⟨13, 0, .ro, 0, false, false⟩]⟩,
  ⟨0x420018, [(0x40, 1024)], [⟨31, 0, .ro, 0, false, false⟩]⟩,
  ⟨0x42001c, [(0x40, 1024)], [⟨7, 0, .w1c, 0, false, false⟩]⟩,
  ⟨0x420020, [(0x40, 1024), (4, 8)], [⟨31, 0, .rw, 0, false, false⟩]⟩,
  ⟨0x400048, [], [⟨24, 16, .rwl, 0, false, false⟩]⟩,
  ⟨0x40004c, [], [⟨15, 0, .rw, 0x43b8, false, false⟩]⟩,
  ⟨0x400050, [], [⟨31, 31, .ro, 0, false, true⟩, ⟨30, 30, .wo, 0, false, true⟩, ⟨29, 28, .ro, 0, false, true⟩, ⟨11, 0, .rw, 0, false, true⟩]⟩,
  ⟨0x400054, [], [⟨31, 0, .rw, 0, false, false⟩]⟩,
  ⟨0x400058, [], [⟨31, 0, .rw, 0, false, false⟩]⟩,
  ⟨0x400180, [(4, 128)], [⟨31, 0, .w1c, 0, false, false⟩]⟩,
  ⟨0x400380, [(4, 128)], [⟨31, 0, .ro, 0, false, false⟩]⟩,
  ⟨0x400800, [(4, 256)], [⟨31, 0, .rw, 0, false, false⟩]⟩,
  ⟨0x500000, [(0x40, 4096)], [⟨31, 31, .rw, 0, false, true⟩, ⟨30, 30, .rw, 0, false, false⟩, ⟨29, 29, .rw, 0, false, false⟩, ⟨28, 28, .rw, 0, false, false⟩, ⟨27, 23, .rw, 0, false, false⟩, ⟨22, 18, .rw, 0x1f, false, false⟩, ⟨7, 0, .rw, 0, false, false⟩]⟩,
  ⟨0x500004, [(0x40, 4096)], [⟨31, 16, .rw, 0, false, false⟩, ⟨6, 0, .rw, 0, false, false⟩]⟩,
  ⟨0x500008, [(0x40, 4096)], [⟨31, 0, .rw, 0, false, false⟩]⟩,
  ⟨0x50000c, [(0x40, 4096)], [⟨15, 0, .rw, 0, false, false⟩]⟩,
  ⟨0x500010, [(0x40, 4096)], [⟨31, 0, .rw, 1, false, false⟩]⟩]

def rowsRHZ2 : List RegRow := [
  ⟨0x500014, [(0x40, 4096)], [⟨19, 3, .rw, 0, false, false⟩]⟩,
  ⟨0x500018, [(0x40, 4096)], [⟨15, 0, .rw, 0, false, false⟩]⟩,
  ⟨0x540000, [(0x40, 4096), (4, 16)], [⟨31, 0, .rw, 0, false, false⟩]⟩,
  ⟨0x580000, [(0x20, 4096)], [⟨31, 28, .ro, 0, false, false⟩, ⟨27, 24, .ro, 0, false, false⟩, ⟨23, 23, .ro, 0, false, false⟩, ⟨22, 22, .w1c, 0, false, false⟩, ⟨21, 21, .w1c, 0, false, false⟩, ⟨15, 0, .ro, 0, false, false⟩]⟩,
  ⟨0x580004, [(0x20, 4096)], [⟨31, 0, .ro, 0, false, false⟩]⟩,
  ⟨0x580008, [(0x20, 4096)], [⟨31, 0, .ro, 0, false, false⟩]⟩,
  ⟨0x58000c, [(0x20, 4096)], [⟨3, 0, .w1c, 0, false, false⟩]⟩,
  ⟨0x580010, [(0x20, 4096), (4, 4)], [⟨31, 0, .rw, 0, false, false⟩]⟩,
  ⟨0x600000, [(0x100, 4096), (4, 64)], [⟨31, 24, .rw, 0, false, false⟩, ⟨23, 16, .rw, 0, false, false⟩, ⟨15, 8, .rw, 0, false, false⟩, ⟨7, 0, .rw, 0, false, false⟩]⟩]

/-- The register rows of RHZ. -/
def rowsRHZ : List RegRow := rowsRHZ0 ++ rowsRHZ1 ++ rowsRHZ2

def rowsSOR0 : List RegRow := [
  ⟨0x800040, [], [⟨24, 16, .rwl, 0x80, false, false⟩, ⟨0, 0, .rw, 1, false, false⟩]⟩,
  ⟨0x800044, [], [⟨31, 0, .rwl, 0x76543210, false, false⟩]⟩,
  ⟨0x800048, [], [⟨31, 0, .rwl, 0xfedcba98, false, false⟩]⟩,
  ⟨0x80004c, [], [⟨15, 0, .rwl, 0, false, false⟩]⟩,
  ⟨0x800050, [], [⟨31, 0, .w1c, 0, false, false⟩]⟩,
  ⟨0x800054, [], [⟨31, 0, .w1c, 0, false, false⟩]⟩,
  ⟨0x800058, [], [⟨3, 0, .w1c, 0, false, false⟩]⟩,
  ⟨0x800060, [(4, 16)], [⟨5, 0, .rwl, 1, false, false⟩]⟩,
  ⟨0x8000a0, [(4, 4)], [⟨31, 0, .rw, 0, false, false⟩]⟩,
  ⟨0x800100, [(4, 256)], [⟨31, 0, .w1c, 0, false, false⟩]⟩,
  ⟨0x801040, [(0x100, 16)], [⟨19, 16, .ro, 0, false, false⟩, ⟨15, 0, .rw, 0, false, false⟩]⟩,
  ⟨0x801044, [(0x100, 16)], [⟨15, 0, .ro, 0, false, false⟩]⟩,
  ⟨0x801048, [(0x100, 16), (4, 3)], [⟨31, 0, .rw, 0, false, false⟩]⟩,
  ⟨0x801054, [(0x100, 16)], [⟨2, 0, .w1c, 0, false, false⟩]⟩,
  ⟨0x810000, [(0x40, 64)], [⟨31, 31, .rw, 0, false, true⟩, ⟨30, 30, .rw, 0, false, false⟩, ⟨29, 29, .rw, 1, false, false⟩, ⟨28, 27, .rw, 0, false, false⟩, ⟨26, 23, .rw, 0, false, false⟩, ⟨22, 19, .rw, 3, false, false⟩, ⟨18, 15, .rw, 5, false, false⟩, ⟨14, 8, .rw, 0x18, false, false⟩, ⟨7, 0, .rw, 8, false, false⟩]⟩,
  ⟨0x810004, [(0x40, 64)], [⟨28, 16, .rw, 0, false, false⟩, ⟨12, 0, .rw, 0, false, false⟩]⟩,
  ⟨0x810008, [(0x40, 64)], [⟨28, 16, .rw, 0, false, false⟩, ⟨12, 0, .rw, 0, false, false⟩]⟩,
  ⟨0x81000c, [(0x40, 64)], [⟨28, 16, .rw, 0, false, false⟩, ⟨12, 0, .rw, 0, false, false⟩]⟩,
  ⟨0x810010, [(0x40, 64)], [⟨31, 0, .rw, 0, false, false⟩]⟩,
  ⟨0x810014, [(0x40, 64)], [⟨15, 0, .rw, 0x14, false, false⟩]⟩,
  ⟨0x810018, [(0x40, 64)], [⟨3, 3, .ro, 0, false, false⟩, ⟨2, 2, .ro, 0, false, false⟩, ⟨1, 0, .ro, 0, false, false⟩]⟩,
  ⟨0x81001c, [(0x40, 64)], [⟨31, 0, .ro, 0x32000000, false, false⟩]⟩,
  ⟨0x810020, [(0x40, 64)], [⟨31, 0, .ro, 0x32000000, false, false⟩]⟩,
  ⟨0x810024, [(0x40, 64)], [⟨31, 0, .ro, 0, false, false⟩]⟩,
  ⟨0x810028, [(0x40, 64)], [⟨31, 0, .ro, 0, false, false⟩]⟩]

def rowsSOR1 : List RegRow := [
  ⟨0x81002c, [(0x40, 64)], [⟨15, 0, .ro, 0, false, false⟩]⟩,
  ⟨0x820000, [(0x200, 64)], [⟨31, 31, .rwl, 0, false, false⟩, ⟨30, 30, .rwl, 0, false, false⟩, ⟨6, 0, .rwl, 0, false, false⟩]⟩,
  ⟨0x820004, [(0x200, 64)], [⟨31, 0, .rwl, 0, false, false⟩]⟩,
  ⟨0x820008, [(0x200, 64)], [⟨31, 0, .rwl, 0, false, false⟩]⟩,
  ⟨0x820080, [(0x200, 64), (4, 32)], [⟨31, 0, .rwl, 0, false, false⟩]⟩,
  ⟨0x820100, [(0x200, 64), (4, 64)], [⟨17, 0, .rwl, 0, false, false⟩]⟩,
  ⟨0x900000, [(0x40, 8192)], [⟨31, 31, .rw, 0, false, true⟩, ⟨30, 30, .rw, 0, false, false⟩, ⟨29, 24, .rw, 0, false, false⟩, ⟨23, 18, .rw, 0, false, false⟩, ⟨17, 13, .rw, 0x11, false, false⟩, ⟨12, 10, .rw, 0, false, false⟩, ⟨9, 7, .rw, 0, false, false⟩, ⟨6, 5, .rw, 0, false, false⟩]⟩,
  ⟨0x900004, [(0x40, 8192)], [⟨22, 18, .rw, 0, false, false⟩, ⟨17, 0, .rw, 0x20000, false, false⟩]⟩,
  ⟨0x900008, [(0x40, 8192)], [⟨31, 0, .rw, 0x4030201, false, false⟩]⟩,
  ⟨0x90000c, [(0x40, 8192)], [⟨31, 0, .rw, 0x8070605, false, false⟩]⟩,
  ⟨0x900010, [(0x40, 8192), (8, 4)], [⟨31, 31, .rw, 0, false, false⟩, ⟨30, 23, .rw, 0, false, false⟩, ⟨22, 18, .rw, 0, false, false⟩, ⟨15, 8, .rw, 0x10, false, false⟩]⟩,
  ⟨0x900014, [(0x40, 8192), (8, 4)], [⟨24, 16, .rw, 1, false, false⟩, ⟨15, 0, .rw, 0, false, false⟩]⟩,
  ⟨0x980000, [(0x20, 8192)], [⟨27, 24, .ro, 0, false, false⟩, ⟨23, 23, .ro, 0, false, false⟩, ⟨22, 22, .ro, 0, false, false⟩, ⟨21, 21, .ro, 0, false, false⟩, ⟨15, 8, .ro, 0, false, false⟩]⟩,
  ⟨0x980004, [(0x20, 8192)], [⟨24, 16, .ro, 1, false, false⟩, ⟨15, 0, .ro, 0, false, false⟩]⟩,
  ⟨0x980008, [(0x20, 8192)], [⟨31, 0, .ro, 0, false, false⟩]⟩,
  ⟨0x98000c, [(0x20, 8192)], [⟨31, 0, .ro, 0, false, false⟩]⟩,
  ⟨0x980010, [(0x20, 8192)], [⟨19, 0, .ro, 0, false, false⟩]⟩,
  ⟨0x980014, [(0x20, 8192)], [⟨16, 0, .ro, 0, false, false⟩]⟩,
  ⟨0xc00040, [], [⟨24, 16, .rwl, 0, false, false⟩]⟩,
  ⟨0xc01000, [(4, 1024)], [⟨31, 0, .w1c, 0, false, true⟩]⟩,
  ⟨0xc02000, [(4, 1024)], [⟨31, 0, .ro, 0, false, false⟩]⟩,
  ⟨0xd00000, [(0x20, 32768)], [⟨31, 31, .rw, 0, false, true⟩, ⟨30, 30, .rw, 0, false, false⟩, ⟨29, 27, .rw, 0, false, false⟩, ⟨26, 24, .rw, 0, false, false⟩, ⟨23, 23, .rw, 0, false, false⟩, ⟨22, 22, .rw, 0, false, false⟩, ⟨21, 20, .rw, 0, false, false⟩, ⟨19, 19, .rw, 0, false, false⟩, ⟨18, 18, .rw, 0, false, false⟩, ⟨17, 13, .rw, 0, false, false⟩, ⟨12, 12, .rw, 0, false, false⟩]⟩,
  ⟨0xd00004, [(0x20, 32768)], [⟨31, 0, .rw, 0, false, false⟩]⟩,
  ⟨0xd00008, [(0x20, 32768)], [⟨31, 0, .rw, 0, false, false⟩]⟩,
  ⟨0xd0000c, [(0x20, 32768)], [⟨31, 16, .rw, 0, false, false⟩, ⟨15, 0, .rw, 0, false, false⟩]⟩]

def rowsSOR2 : List RegRow := [
  ⟨0xe00000, [(0x10, 32768)], [⟨31, 24, .ro, 0, false, false⟩, ⟨4, 4, .w1c, 0, false, false⟩, ⟨3, 3, .ro, 0, false, false⟩, ⟨2, 2, .ro, 0, false, false⟩, ⟨1, 1, .ro, 0, false, false⟩, ⟨0, 0, .w1c, 0, false, true⟩]⟩,
  ⟨0xe00004, [(0x10, 32768)], [⟨31, 0, .ro, 0, false, false⟩]⟩,
  ⟨0xe00008, [(0x10, 32768)], [⟨31, 0, .ro, 0, false, false⟩]⟩,
  ⟨0xe0000c, [(0x10, 32768)], [⟨15, 0, .ro, 0, false, false⟩]⟩]

/-- The register rows of SOR. -/
def rowsSOR : List RegRow := rowsSOR0 ++ rowsSOR1 ++ rowsSOR2

def rowsCRZ0 : List RegRow := [
  ⟨0x1000040, [], [⟨15, 8, .rwl, 2, false, false⟩, ⟨3, 0, .rw, 0, false, true⟩]⟩,
  ⟨0x1000044, [], [⟨9, 9, .ro, 0, false, false⟩, ⟨8, 8, .ro, 0, false, false⟩, ⟨7, 0, .ro, 0, false, false⟩]⟩,
  ⟨0x1000048, [], [⟨31, 12, .rwl, 0, false, false⟩]⟩,
  ⟨0x100004c, [], [⟨31, 0, .rwl, 0, false, false⟩]⟩,
  ⟨0x1000050, [], [⟨31, 12, .rwl, 0, false, false⟩]⟩,
  ⟨0x1000054, [], [⟨31, 0, .rwl, 0, false, false⟩]⟩,
  ⟨0x1000058, [], [⟨28, 16, .rw, 0, false, false⟩, ⟨12, 0, .rw, 0, false, false⟩]⟩,
  ⟨0x100005c, [], [⟨24, 16, .rw, 0, false, false⟩, ⟨8, 0, .rw, 0, false, false⟩]⟩,
  ⟨0x1000060, [], [⟨31, 31, .w1s, 0, false, true⟩, ⟨30, 30, .wo, 0, false, true⟩, ⟨29, 27, .ro, 0, false, true⟩, ⟨26, 23, .rw, 3, false, true⟩, ⟨22, 19, .ro, 0, false, true⟩, ⟨18, 15, .rw, 0, false, true⟩, ⟨14, 14, .rw, 0, false, true⟩, ⟨12, 0, .rw, 0, false, true⟩]⟩,
  ⟨0x1000064, [], [⟨31, 0, .rw, 0, false, false⟩]⟩,
  ⟨0x1000068, [], [⟨31, 0, .rw, 0, false, false⟩]⟩,
  ⟨0x100006c, [], [⟨31, 0, .ro, 0, false, false⟩]⟩,
  ⟨0x1000070, [], [⟨31, 0, .ro, 0, false, false⟩]⟩,
  ⟨0x1000074, [], [⟨15, 0, .ro, 0, false, false⟩]⟩,
  ⟨0x1000200, [(4, 12)], [⟨31, 0, .rw, 0, false, false⟩]⟩,
  ⟨0x1000230, [], [⟨11, 0, .w1c, 0, false, false⟩]⟩,
  ⟨0x1000240, [], [⟨31, 28, .ro, 0, false, false⟩, ⟨27, 16, .ro, 0, false, false⟩, ⟨15, 0, .ro, 0, false, false⟩]⟩,
  ⟨0x1000244, [], [⟨31, 0, .ro, 0, false, false⟩]⟩,
  ⟨0x1000248, [], [⟨31, 0, .ro, 0, false, false⟩]⟩,
  ⟨0x1000300, [], [⟨15, 0, .rw, 0, false, false⟩]⟩,
  ⟨0x1000304, [], [⟨31, 31, .ro, 0, false, false⟩, ⟨2, 1, .ro, 0, false, false⟩, ⟨0, 0, .wo, 0, false, true⟩]⟩,
  ⟨0x1000320, [(4, 8)], [⟨31, 0, .rw, 0, false, false⟩]⟩,
  ⟨0x1000080, [(0x40, 4)], [⟨27, 16, .rw, 0, false, false⟩, ⟨12, 0, .rw, 1, false, false⟩]⟩,
  ⟨0x1000084, [(0x40, 4)], [⟨27, 16, .rw, 0, false, false⟩, ⟨12, 0, .rw, 1, false, false⟩]⟩,
  ⟨0x1000088, [(0x40, 4)], [⟨30, 16, .rw, 0, false, false⟩, ⟨14, 0, .rw, 0, false, false⟩]⟩]

def rowsCRZ1 : List RegRow := [
  ⟨0x100008c, [(0x40, 4)], [⟨31, 31, .ro, 0, false, false⟩, ⟨25, 24, .ro, 0, false, false⟩, ⟨23, 16, .ro, 0, false, false⟩, ⟨11, 0, .ro, 0, false, false⟩]⟩,
  ⟨0x1000090, [(0x40, 4)], [⟨15, 0, .rw, 0x3e8, false, false⟩]⟩,
  ⟨0x1000094, [(0x40, 4)], [⟨31, 0, .ro, 0, false, false⟩]⟩,
  ⟨0x1000098, [(0x40, 4)], [⟨31, 0, .ro, 0, false, false⟩]⟩,
  ⟨0x100009c, [(0x40, 4), (4, 6)], [⟨31, 0, .rw, 0, false, false⟩]⟩,
  ⟨0x10000b4, [(0x40, 4)], [⟨15, 0, .rw, 0, false, false⟩]⟩,
  ⟨0x10000b8, [(0x40, 4)], [⟨5, 0, .w1c, 0, false, false⟩]⟩,
  ⟨0x1001000, [(4, 128)], [⟨31, 31, .rwl, 0, false, false⟩, ⟨30, 30, .ro, 0, false, false⟩, ⟨15, 15, .rwl, 0, false, false⟩, ⟨14, 8, .rwl, 0, false, false⟩, ⟨6, 0, .rwl, 0, false, false⟩]⟩,
  ⟨0x1001200, [(4, 16)], [⟨31, 31, .rwl, 0, false, false⟩, ⟨30, 30, .ro, 0, false, false⟩, ⟨15, 15, .rwl, 0, false, false⟩, ⟨11, 8, .rwl, 0, false, false⟩, ⟨3, 0, .rwl, 0, false, false⟩]⟩]

/-- The register rows of CRZ. -/
def rowsCRZ : List RegRow := rowsCRZ0 ++ rowsCRZ1

def rowsFRD0 : List RegRow := [
  ⟨0x2000040, [(0x100000, 16)], [⟨31, 16, .rwl, 0x3e8, false, false⟩, ⟨15, 0, .rw, 0x3e8, false, true⟩]⟩,
  ⟨0x2000044, [(0x100000, 16)], [⟨31, 16, .ro, 0x3e8, false, false⟩, ⟨3, 3, .w1c, 0, false, false⟩, ⟨2, 2, .ro, 0, false, false⟩, ⟨1, 1, .ro, 0, false, false⟩, ⟨0, 0, .ro, 0, false, false⟩]⟩,
  ⟨0x2000048, [(0x100000, 16)], [⟨31, 31, .ro, 0, false, true⟩, ⟨30, 29, .ro, 0, false, true⟩, ⟨28, 28, .wo, 0, false, true⟩, ⟨27, 27, .rw, 0, false, true⟩, ⟨26, 24, .rw, 0, false, true⟩, ⟨23, 23, .rw, 0, false, true⟩, ⟨15, 2, .rw, 0, false, true⟩]⟩,
  ⟨0x200004c, [(0x100000, 16)], [⟨31, 0, .rw, 0, false, false⟩]⟩,
  ⟨0x2000050, [(0x100000, 16)], [⟨2, 0, .w1c, 0, false, false⟩]⟩,
  ⟨0x2000060, [(0x100000, 16), (4, 3)], [⟨31, 0, .rw, 0, false, false⟩]⟩,
  ⟨0x2001040, [(0x100000, 16), (0x100, 8)], [⟨27, 24, .ro, 0, false, false⟩, ⟨23, 16, .ro, 0, false, false⟩, ⟨15, 0, .ro, 0, false, false⟩]⟩,
  ⟨0x2001044, [(0x100000, 16), (0x100, 8)], [⟨8, 8, .ro, 0, false, false⟩, ⟨7, 0, .ro, 0, false, false⟩]⟩,
  ⟨0x2001048, [(0x100000, 16), (0x100, 8)], [⟨31, 31, .w1c, 0, false, false⟩, ⟨19, 16, .ro, 0, false, false⟩, ⟨7, 0, .ro, 0, false, false⟩]⟩,
  ⟨0x200104c, [(0x100000, 16), (0x100, 8)], [⟨31, 0, .ro, 0, false, false⟩]⟩,
  ⟨0x2001050, [(0x100000, 16), (0x100, 8)], [⟨31, 0, .ro, 0, false, false⟩]⟩,
  ⟨0x2001054, [(0x100000, 16), (0x100, 8)], [⟨31, 0, .ro, 0, false, false⟩]⟩,
  ⟨0x2001058, [(0x100000, 16), (0x100, 8)], [⟨31, 0, .rw, 0, false, false⟩]⟩,
  ⟨0x200105c, [(0x100000, 16), (0x100, 8)], [⟨1, 0, .w1c, 0, false, false⟩]⟩,
  ⟨0x2001060, [(0x100000, 16), (0x100, 8), (4, 2)], [⟨31, 0, .rw, 0, false, false⟩]⟩]

/-- The register rows of FRD. -/
def rowsFRD : List RegRow := rowsFRD0

def rowsACQ0 : List RegRow := [
  ⟨0x3000040, [], [⟨3, 0, .rw, 0xf, false, false⟩]⟩,
  ⟨0x3000044, [], [⟨15, 0, .rw, 0, false, false⟩]⟩,
  ⟨0x3000048, [], [⟨31, 31, .w1s, 0, false, false⟩, ⟨20, 16, .rw, 0x11, false, false⟩, ⟨15, 8, .rw, 5, false, false⟩]⟩,
  ⟨0x300004c, [], [⟨15, 0, .rw, 0x3e8, false, false⟩]⟩,
  ⟨0x3000060, [(4, 6)], [⟨31, 0, .rw, 0, false, false⟩]⟩,
  ⟨0x3000078, [], [⟨5, 0, .w1c, 0, false, false⟩]⟩,
  ⟨0x3000100, [(0x20, 16)], [⟨31, 31, .rw, 0, false, false⟩, ⟨2, 2, .rw, 0, false, false⟩, ⟨1, 0, .rw, 3, false, false⟩]⟩,
  ⟨0x3000104, [(0x20, 16)], [⟨31, 0, .rw, 0, false, false⟩]⟩,
  ⟨0x3000108, [(0x20, 16)], [⟨6, 6, .ro, 0, false, false⟩, ⟨5, 5, .ro, 0, false, false⟩, ⟨4, 4, .w1c, 0, false, false⟩, ⟨3, 3, .w1c, 0, false, false⟩, ⟨2, 2, .ro, 0, false, false⟩, ⟨1, 1, .ro, 0, false, false⟩, ⟨0, 0, .ro, 0, false, false⟩]⟩,
  ⟨0x300010c, [(0x20, 16)], [⟨15, 0, .ro, 0, false, false⟩]⟩,
  ⟨0x3000110, [(0x20, 16)], [⟨31, 0, .ro, 0, false, false⟩]⟩,
  ⟨0x3000114, [(0x20, 16)], [⟨31, 0, .ro, 0, false, false⟩]⟩,
  ⟨0x3000118, [(0x20, 16)], [⟨31, 0, .ro, 0, false, false⟩]⟩,
  ⟨0x3000400, [(0x20, 32)], [⟨31, 31, .rw, 0, false, false⟩, ⟨30, 28, .rw, 0, false, false⟩, ⟨27, 25, .rw, 0, false, false⟩, ⟨24, 23, .rw, 1, false, false⟩, ⟨22, 22, .rw, 0, false, false⟩, ⟨20, 13, .rw, 0, false, false⟩, ⟨12, 0, .rw, 0, false, false⟩]⟩,
  ⟨0x3000404, [(0x20, 32)], [⟨31, 0, .rw, 0, false, false⟩]⟩,
  ⟨0x3000408, [(0x20, 32)], [⟨31, 0, .rw, 0, false, false⟩]⟩,
  ⟨0x300040c, [(0x20, 32)], [⟨31, 0, .rw, 0, false, false⟩]⟩,
  ⟨0x3000410, [(0x20, 32)], [⟨31, 0, .rw, 0, false, false⟩]⟩,
  ⟨0x3000414, [(0x20, 32)], [⟨31, 0, .rw, 0xffffffff, false, false⟩]⟩,
  ⟨0x3000418, [(0x20, 32)], [⟨31, 0, .rw, 0, false, false⟩]⟩,
  ⟨0x300041c, [(0x20, 32)], [⟨1, 0, .ro, 0, false, false⟩]⟩,
  ⟨0x3001000, [(0x80, 8)], [⟨31, 31, .rw, 0, false, true⟩, ⟨30, 29, .rw, 0, true, false⟩, ⟨28, 28, .rw, 0, true, false⟩, ⟨27, 27, .rw, 0, true, false⟩, ⟨26, 24, .rw, 0, true, false⟩, ⟨23, 21, .rw, 0, true, false⟩, ⟨20, 20, .rw, 0, true, false⟩, ⟨19, 18, .rw, 0, true, false⟩, ⟨15, 0, .rw, 0, true, false⟩]⟩,
  ⟨0x3001004, [(0x80, 8)], [⟨22, 16, .rw, 1, true, false⟩, ⟨12, 0, .rw, 0, true, false⟩]⟩,
  ⟨0x3001008, [(0x80, 8)], [⟨15, 0, .rw, 0, true, false⟩]⟩,
  ⟨0x300100c, [(0x80, 8)], [⟨23, 0, .rw, 1, true, false⟩]⟩]

def rowsACQ1 : List RegRow := [
  ⟨0x3001010, [(0x80, 8)], [⟨22, 6, .rw, 0x4000, true, false⟩]⟩,
  ⟨0x3001014, [(0x80, 8)], [⟨19, 0, .rw, 0, true, false⟩]⟩,
  ⟨0x3001018, [(0x80, 8)], [⟨31, 12, .rw, 0, true, false⟩]⟩,
  ⟨0x300101c, [(0x80, 8)], [⟨31, 0, .rw, 0, true, false⟩]⟩,
  ⟨0x3001020, [(0x80, 8)], [⟨31, 0, .rw, 0, true, false⟩]⟩,
  ⟨0x3001024, [(0x80, 8)], [⟨15, 0, .rw, 0, true, false⟩]⟩,
  ⟨0x3001028, [(0x80, 8)], [⟨16, 0, .rw, 0, true, false⟩]⟩,
  ⟨0x300102c, [(0x80, 8)], [⟨31, 0, .rw, 0xf4240, true, false⟩]⟩,
  ⟨0x3001030, [(0x80, 8)], [⟨26, 16, .rw, 0x40, true, false⟩, ⟨15, 0, .rw, 0xfa, true, false⟩]⟩,
  ⟨0x3001034, [(0x80, 8)], [⟨15, 0, .rw, 0xa, true, false⟩]⟩,
  ⟨0x3001038, [(0x80, 8)], [⟨31, 31, .w1s, 0, false, true⟩, ⟨30, 30, .w1s, 0, false, true⟩]⟩,
  ⟨0x300103c, [(0x80, 8)], [⟨31, 30, .ro, 0, false, false⟩, ⟨15, 0, .ro, 0, true, false⟩]⟩,
  ⟨0x3001040, [(0x80, 8)], [⟨31, 0, .ro, 0, true, false⟩]⟩,
  ⟨0x3001044, [(0x80, 8)], [⟨31, 0, .rw, 0, true, true⟩]⟩,
  ⟨0x3001048, [(0x80, 8)], [⟨31, 31, .rw, 0, true, false⟩, ⟨15, 0, .rw, 0, true, false⟩]⟩,
  ⟨0x300104c, [(0x80, 8)], [⟨31, 0, .ro, 0, true, false⟩]⟩,
  ⟨0x3001050, [(0x80, 8)], [⟨31, 0, .ro, 0, true, false⟩]⟩,
  ⟨0x3001054, [(0x80, 8), (4, 4)], [⟨31, 0, .rw, 0, true, false⟩]⟩,
  ⟨0x3001064, [(0x80, 8)], [⟨3, 0, .w1c, 0, true, false⟩]⟩,
  ⟨0x3001068, [(0x80, 8)], [⟨31, 0, .ro, 0, true, false⟩]⟩]

/-- The register rows of ACQ. -/
def rowsACQ : List RegRow := rowsACQ0 ++ rowsACQ1

def rowsROPE0 : List RegRow := [
  ⟨0x4000040, [], [⟨17, 9, .rwl, 0, true, false⟩, ⟨8, 1, .rwl, 1, true, false⟩, ⟨0, 0, .rwl, 0, true, false⟩]⟩,
  ⟨0x4000044, [], [⟨1, 1, .rw, 1, true, false⟩, ⟨0, 0, .rwl, 1, true, false⟩]⟩,
  ⟨0x4000048, [], [⟨22, 16, .ro, 0, false, false⟩, ⟨6, 0, .rwl, 8, true, false⟩]⟩,
  ⟨0x400004c, [], [⟨31, 24, .ro, 0, true, false⟩, ⟨23, 21, .ro, 0, false, false⟩, ⟨20, 13, .ro, 0, false, false⟩, ⟨12, 12, .w1c, 0, false, false⟩, ⟨11, 11, .w1c, 0, true, false⟩, ⟨10, 10, .w1c, 0, true, false⟩, ⟨9, 9, .ro, 0, false, false⟩, ⟨8, 8, .ro, 0, false, false⟩, ⟨7, 7, .ro, 0, false, false⟩, ⟨6, 6, .ro, 0, false, false⟩, ⟨5, 5, .ro, 0, false, false⟩, ⟨4, 4, .ro, 0, false, false⟩, ⟨3, 3, .ro, 0, false, false⟩, ⟨2, 0, .ro, 1, false, false⟩]⟩,
  ⟨0x4000050, [], [⟨0, 0, .ro, 0, true, false⟩]⟩,
  ⟨0x4000054, [], [⟨2, 2, .wo, 0, false, true⟩, ⟨1, 1, .wo, 0, false, true⟩, ⟨0, 0, .wo, 0, false, true⟩]⟩,
  ⟨0x4000058, [], [⟨31, 20, .rw, 0x3e8, true, false⟩, ⟨19, 10, .rw, 0x1f4, true, false⟩, ⟨9, 0, .rw, 0x32, true, false⟩]⟩,
  ⟨0x400005c, [], [⟨31, 16, .rwl, 0x960, true, false⟩, ⟨1, 1, .w1c, 0, false, false⟩, ⟨0, 0, .ro, 0, false, false⟩]⟩,
  ⟨0x4000060, [], [⟨4, 0, .ro, 0, false, false⟩]⟩,
  ⟨0x4000064, [], [⟨31, 0, .ro, 0, true, false⟩]⟩,
  ⟨0x4000068, [], [⟨31, 0, .ro, 0, true, false⟩]⟩,
  ⟨0x400006c, [], [⟨31, 0, .ro, 0, false, false⟩]⟩,
  ⟨0x4000070, [], [⟨31, 0, .ro, 0, false, false⟩]⟩,
  ⟨0x4000074, [], [⟨31, 30, .ro, 0, false, false⟩, ⟨29, 28, .ro, 0, false, false⟩, ⟨15, 0, .ro, 0, false, false⟩]⟩,
  ⟨0x4000080, [(4, 16)], [⟨31, 0, .rw, 0, true, false⟩]⟩,
  ⟨0x40000c0, [], [⟨15, 0, .w1c, 0, true, false⟩]⟩,
  ⟨0x4000100, [(0x20, 2)], [⟨23, 18, .rw, 0, true, false⟩, ⟨17, 12, .rw, 0x30, true, false⟩, ⟨11, 6, .rw, 0, true, false⟩, ⟨5, 5, .rw, 1, true, false⟩, ⟨4, 4, .rw, 0, true, false⟩]⟩,
  ⟨0x4000104, [(0x20, 2)], [⟨1, 1, .ro, 0, false, false⟩, ⟨0, 0, .ro, 0, false, false⟩]⟩,
  ⟨0x4000200, [(4, 8)], [⟨31, 0, .ro, 0, false, false⟩]⟩]

/-- The register rows of ROPE. -/
def rowsROPE : List RegRow := rowsROPE0

def rowsVIN0 : List RegRow := [
  ⟨0x4100040, [], [⟨31, 12, .rwl, 0, false, false⟩]⟩,
  ⟨0x4100044, [], [⟨31, 0, .rwl, 0, false, false⟩]⟩,
  ⟨0x4100048, [], [⟨31, 12, .rwl, 0, false, false⟩]⟩,
  ⟨0x410004c, [], [⟨31, 0, .rwl, 0, false, false⟩]⟩,
  ⟨0x4100050, [], [⟨28, 16, .ro, 0, false, false⟩, ⟨12, 0, .ro, 0, false, false⟩]⟩,
  ⟨0x4100054, [], [⟨31, 28, .ro, 0, false, false⟩, ⟨27, 20, .ro, 0, false, false⟩]⟩,
  ⟨0x4100058, [], [⟨31, 0, .ro, 0, false, false⟩]⟩,
  ⟨0x410005c, [], [⟨31, 0, .ro, 0, false, false⟩]⟩,
  ⟨0x4100080, [(4, 8)], [⟨31, 0, .w1c, 0, false, false⟩]⟩,
  ⟨0x4100100, [(4, 10)], [⟨31, 0, .rw, 0, false, false⟩]⟩,
  ⟨0x4100140, [], [⟨9, 0, .w1c, 0, false, false⟩]⟩,
  ⟨0x4110000, [(0x40, 256)], [⟨31, 24, .ro, 0, false, false⟩, ⟨23, 21, .ro, 0, false, false⟩, ⟨20, 20, .ro, 0, false, false⟩, ⟨19, 0, .ro, 0, false, false⟩]⟩,
  ⟨0x4110004, [(0x40, 256)], [⟨26, 16, .ro, 0, false, false⟩, ⟨10, 0, .ro, 0, false, false⟩]⟩,
  ⟨0x4110008, [(0x40, 256)], [⟨31, 30, .ro, 0, false, false⟩, ⟨29, 15, .ro, 0, false, false⟩, ⟨13, 0, .ro, 0, false, false⟩]⟩,
  ⟨0x411000c, [(0x40, 256)], [⟨26, 16, .ro, 0, false, false⟩, ⟨11, 0, .ro, 0, false, false⟩]⟩,
  ⟨0x4110010, [(0x40, 256)], [⟨31, 31, .w1c, 0, false, false⟩, ⟨27, 24, .ro, 0, false, false⟩, ⟨15, 0, .ro, 0, false, false⟩]⟩,
  ⟨0x4110014, [(0x40, 256)], [⟨31, 0, .ro, 0, false, false⟩]⟩,
  ⟨0x4110018, [(0x40, 256)], [⟨31, 0, .ro, 0, false, false⟩]⟩,
  ⟨0x411001c, [(0x40, 256)], [⟨31, 30, .ro, 0, false, false⟩]⟩]

/-- The register rows of VIN. -/
def rowsVIN : List RegRow := rowsVIN0

def rowsROOT0 : List RegRow := [
  ⟨0x40, [], [⟨3, 3, .w1c, 0, false, false⟩, ⟨2, 2, .w1c, 0, false, false⟩, ⟨1, 1, .w1c, 0, false, false⟩]⟩,
  ⟨0x44, [], [⟨31, 30, .ro, 0, false, false⟩, ⟨27, 0, .ro, 0, false, false⟩]⟩,
  ⟨0x1000, [(4, 1024)], [⟨31, 31, .rw, 0, false, false⟩, ⟨26, 16, .rw, 0, false, false⟩, ⟨15, 12, .rw, 0, false, false⟩, ⟨8, 8, .rw, 0, false, false⟩]⟩,
  ⟨0x2000, [(4, 32)], [⟨31, 0, .w1c, 0, false, true⟩]⟩,
  ⟨0x3000, [], [⟨31, 12, .rwl, 0, false, false⟩]⟩,
  ⟨0x3004, [], [⟨31, 0, .rwl, 0, false, false⟩]⟩,
  ⟨0x3008, [], [⟨3, 0, .ro, 0, false, false⟩]⟩,
  ⟨0x3100, [(0x20, 9)], [⟨31, 12, .rw, 0, false, false⟩]⟩,
  ⟨0x3104, [(0x20, 9)], [⟨31, 0, .rw, 0, false, false⟩]⟩,
  ⟨0x3108, [(0x20, 9)], [⟨31, 31, .rw, 0, false, true⟩, ⟨3, 0, .rw, 6, false, true⟩]⟩,
  ⟨0x310c, [(0x20, 9)], [⟨31, 0, .ro, 0, false, false⟩]⟩,
  ⟨0x3110, [(0x20, 9)], [⟨31, 0, .rw, 0, false, true⟩]⟩,
  ⟨0x3114, [(0x20, 9)], [⟨31, 0, .rw, 0, false, false⟩]⟩,
  ⟨0x3400, [(0x20, 9)], [⟨31, 12, .rw, 0, false, false⟩]⟩,
  ⟨0x3404, [(0x20, 9)], [⟨31, 0, .rw, 0, false, false⟩]⟩,
  ⟨0x3408, [(0x20, 9)], [⟨31, 31, .rw, 0, false, true⟩, ⟨30, 30, .rw, 0, false, true⟩, ⟨3, 0, .rw, 6, false, true⟩]⟩,
  ⟨0x340c, [(0x20, 9)], [⟨31, 0, .rw, 0, false, true⟩]⟩,
  ⟨0x3410, [(0x20, 9)], [⟨31, 0, .ro, 0, false, false⟩]⟩,
  ⟨0x3800, [], [⟨31, 31, .ro, 0, false, false⟩, ⟨24, 20, .ro, 0, false, false⟩, ⟨19, 16, .ro, 0, false, false⟩, ⟨15, 0, .ro, 0, false, false⟩]⟩,
  ⟨0x3804, [], [⟨15, 0, .ro, 0, false, false⟩]⟩,
  ⟨0x3808, [], [⟨31, 0, .ro, 0, false, false⟩]⟩,
  ⟨0x380c, [], [⟨31, 0, .ro, 0, false, false⟩]⟩,
  ⟨0x3810, [], [⟨8, 0, .ro, 0, false, false⟩]⟩]

/-- The register rows of ROOT. -/
def rowsROOT : List RegRow := rowsROOT0

/-- The rows of the window that holds an offset (R59). -/
def rowsAt (a : Nat) : List RegRow :=
  if a < 0x10000 then rowsROOT else if a < 0x20000 then rowsRST else if a < 0x30000 then rowsIMG
  else if a < 0x40000 then rowsKEY else if a < 0x50000 then rowsNRG else if a < 0x60000 then rowsTIM
  else if a < 0x70000 then rowsCRN else if a < 0x80000 then rowsHIF else if a < 0x100000 then rowsTHL
  else if a < 0x200000 then rowsPRT else if a < 0x240000 then rowsSTN else if a < 0x2C0000 then rowsAUX
  else if a < 0x300000 then [] else if a < 0x400000 then rowsSWC else if a < 0x800000 then rowsRHZ
  else if a < 0x1000000 then rowsSOR else if a < 0x2000000 then rowsCRZ else if a < 0x3000000 then rowsFRD
  else if a < 0x4000000 then rowsACQ else if a < 0x4100000 then rowsROPE else if a < 0x5100000 then rowsVIN
  else []

/-- What is left of an offset after its indices are taken out, largest stride first. -/
def residue : List (Nat × Nat) → Nat → Nat
  | [], x => x
  | (s, n) :: t, x => residue t (if x / s < n then x - x / s * s else x)

/-- Does the register group hold the register at offset a? -/
def RegRow.holds (r : RegRow) (a : Nat) : Bool := decide (r.base ≤ a) && decide (residue r.dims (a - r.base) = 0)

/-- The register table's row for the register at offset a, where a table lists one. -/
def rowOf (a : Nat) : Option RegRow := (rowsAt a).find? (fun r => RegRow.holds r a)

/-- The word the fields' cold reset values make. -/
def coldWord (fs : List FieldRow) : Nat := fs.foldl (fun acc f => acc + f.cold * 2 ^ f.lo) 0

end Sys2Proof.Reg
end

