-- ==== Sys2Proof/Machine/State.lean ====
section
/-! DEFINITION. The state of the module as plain data: the register file, the memories, the state of each unit
that no register shows, the queue of waiting commands, the reasons a step can stop, and the state after reset. -/

namespace Sys2Proof.Machine

open Sys2Proof

/-- Why a command stops with a fault. No command of this model faults: every effect of the spec is a next state. -/
inductive Fault
  /-- Raised by nothing: the spec stops the module at no command; safe. -/
  | none
  deriving DecidableEq, Repr

/-- Why a command is refused. -/
inductive Refusal
  /-- Raised by exec's arms alone, for a command without a meaning; safe. -/
  | notModelled (mnemonic : String)
  deriving DecidableEq, Repr

/-- The memories (R22, R518, R519, R530, R622): one space each, with byte addresses of its own. -/
inductive Space
  | dram | host | intake | acq | secure | seq | timer
  | tuft (t : Nat) | itcm (c : Nat) | dtcm (c : Nat) | flash (d : Nat)
  deriving DecidableEq, Repr

/-- What leaves the module. A pulse leaves through OUT of its generator at an instant in 2⁻¹⁶ ns for a width in ns. A frame is bad where it ends with an invalid check sequence (R122, R137). -/
inductive Output
  | msix (vector : Nat)
  | frame (port : Nat) (bytes : List Byte) (bad : Bool)
  | rope (typ : Nat) (bytes : List Byte)
  | aux (seg : Nat) (bytes : List Byte)
  | wakeBurst (seg : Nat)
  | pme
  | pmeToAck
  | xtrig (line : Nat) (low : Bool)
  | pulse (out begins width : Nat) (high : Bool)
  | cfgRetry
  | hostWrite (pasid : Nat) (addr : Nat) (bytes : List Byte)
  | hostRead (pasid : Nat) (addr count : Nat)
  | ltr (us : Nat)
  deriving DecidableEq, Repr

/-- A report on its way to the Cairn log (R669): its record TYPE, FLAGS, SOURCE, UNIT_ID, up to 32 bytes of DATA, and
the time of the moment it was made. -/
structure Report where
  typ : Nat
  flags : Nat
  source : Nat
  unitId : Nat
  data : List Nat
  ns : Nat
  frac : Nat
  timeState : Nat
  stepGen : Nat
  uptime : Nat
  deriving DecidableEq, Repr
/-- A Ridge core at its start (R70): the address at which it started whether in machine mode, and the last access
fault that a window access of it took: 5 a load's, 7 a store's (R524). What its program then does is
outside the module's registers. -/
structure RidgeCore where
  pc : Nat := 0
  machine : Bool := true
  fault : Option Nat := none
  deriving DecidableEq, Repr

/-- The Ridge cores: each core's start, and by event source the cores whose interrupts its last change to pending asserted, bit m
for core m (R70, R75). -/
structure Ridge where
  core : Sparse RidgeCore := []
  irq : Sparse Nat := []
  deriving DecidableEq, Repr


/-- One entry of the egress time-stamp FIFO (R97). -/
structure TsEntry where
  port : Nat
  msgType : Nat
  seqId : Nat
  stamp : Nat
  deriving DecidableEq, Repr

/-- The time base (R82 to R117): what its registers do not show. Instants are TIM_NOW values. -/
structure Tim where
  /-- TIM_NOW in units of 2⁻³² ns (R82). -/
  now : Nat := 0
  /-- Time advanced by cycles alone, no step in it, 2⁻³² ns (R140). -/
  elapsed : Nat := 0
  /-- The servo's integrator, 2⁻¹⁰ ppb (R86). -/
  integ : Int := 0
  /-- Consecutive measurements within LOCK_THRESH while LOCKING, and beyond UNLOCK_THRESH while LOCKED (R102). -/
  lockRun : Nat := 0
  unlockRun : Nat := 0
  /-- The last |offset| in whole ns (R104, R720). -/
  lastOff : Nat := 0
  /-- EST_ERR at entry to holdover, the entry's TIM_NOW in ns, the sensor temperature then in 1/8 °C (R103, R104). -/
  holdErr : Nat := 0
  holdAt : Nat := 0
  holdTemp : Int := 0
  /-- Live watchdogs of the sources, and elapsed ns at the event that last served each (R91). -/
  ptpAlive : Bool := false
  ppsAlive : Bool := false
  irigAlive : Bool := false
  ptpAt : Nat := 0
  ppsAt : Nat := 0
  irigAt : Nat := 0
  /-- Elapsed time at the last step: the cycle in which it was made (R117). -/
  stepAt : Option Nat := none
  /-- PPS_IN: the last accepted edge in ns, consecutive rejects under the window rule, the last event 52 (R99). -/
  ppsAccept : Option Nat := none
  ppsRejects : Nat := 0
  ppsEvtAt : Option Nat := none
  /-- IRIG-B: the last frame's TAI seconds, its marker edge (2⁻¹⁶ ns), and validity (R100). -/
  irigSec : Option Nat := none
  irigEdge : Nat := 0
  irigValid : Bool := false
  /-- The target that the generator named by each comparator took when that comparator was armed (R114). -/
  pgTaken : Sparse Nat := []
  /-- T0 of each running train in 2⁻¹⁶ ns, and the index of its next pulse (R114). -/
  pgT0 : Sparse Nat := []
  pgNext : Sparse Nat := []
  /-- Trains that wait for the next whole TAI second (R114, R117). -/
  pgWait : Sparse Bool := []
  /-- When the last pulse of a generator ends, in 2⁻¹⁶ ns (R114). -/
  pgEnd : Sparse Nat := []
  /-- The egress time-stamp FIFO, oldest first (R97). -/
  tsf : List TsEntry := []
  deriving DecidableEq, Repr

/-- One node-table entry (R140): the source, the highest sequence number accepted, the 128-bit record of accepted
numbers (bit k: hi − k), the elapsed-time count of the last frame in ns, the stamps of accepted numbers (R142), and
for a proxied source of a RedBox its own sequence number (R138). -/
structure Node where
  mac : Nat
  hi : Nat
  seen : Nat
  last : Nat
  stamps : List (Nat × Nat) := []
  proxy : Option Nat := none
  deriving DecidableEq, Repr

/-- A process or station port: what its registers do not show (R122, R132 to R143). -/
structure Port where
  /-- The values of CFG, RED and DD that the port last read on EN 0→1. -/
  cfg : Word := 0
  red : Word := 0
  dd : Word := 0
  /-- Is the port enabled, as it last acted on EN? -/
  en : Bool := false
  /-- The node table, and the records of frames forwarded along the ring (R133, R136, R140). -/
  nodes : List Node := []
  ring : List Node := []
  /-- The pair's sequence counters for frames and for supervision frames (R135). -/
  seq : Nat := 0
  supSeq : Nat := 0
  /-- When the pair formed or last sent a supervision frame (R135), as a value of Tim.elapsed. -/
  supAt : Nat := 0
  /-- Of R143: when the timer started, when the last frame came, and whether event 9 was raised since. The two instants
  are values of Tim.elapsed. -/
  timer : Nat := 0
  lastRx : Option Nat := none
  silent : Bool := false
  /-- Has low-power idle been received since RX_LPI was last written (R131)? -/
  lpi : Bool := false
  /-- Since when the port's elapsed-time count runs, 2⁻³² ns of Tim.elapsed (R140). -/
  epoch : Nat := 0
  deriving DecidableEq, Repr

/-- A frame that waits for its Rhizoid engine (R130, R182): its bytes, its ingress stamp in 2⁻¹⁶ ns, the process port
of arrival, and for a routable frame the source IPv4 address, the SPDU number, the key identifier and the payload's
offset. -/
structure EngFrame where
  bytes : List Byte
  stamp : Nat
  port : Nat
  routable : Bool := false
  srcIp : Nat := 0
  spdu : Nat := 0
  keyId : Nat := 0
  offset : Nat := 0
  deriving DecidableEq, Repr

/-- A frame on its way through the switch core: its ingress port, bytes, ingress stamp, VLAN ID, whether tagged, its
queue, the control block it belongs to, whether a time stamp was requested, its launch time (40 bits), the sequence
number it takes on each redundancy pair (by the pair's lower port), and its mask of asked egress ports. -/
structure SwFrame where
  id : Nat
  src : Nat
  bytes : List Byte
  stamp : Nat := 0
  vid : Nat := 0
  tagged : Bool := false
  queue : Nat := 0
  blk : Option Nat := none
  tsReq : Bool := false
  launch : Option Nat := none
  seqs : List (Nat × Nat) := []
  ports : Nat := 0
  refs : Nat := 0
  deriving DecidableEq, Repr

/-- One entry of the forwarding database (R155). -/
structure FdbEntry where
  vid : Nat
  mac : Nat
  static : Bool
  mask : Nat
  lastNs : Nat
  deriving DecidableEq, Repr

/-- The switch core (R151 to R170): what its registers do not show. -/
structure Swc where
  /-- Frames delivered to the forwarding engine, oldest first (R154). -/
  ingress : List SwFrame := []
  /-- Frames that hold cells of the shared buffer, oldest first (R160). -/
  store : List SwFrame := []
  nextId : Nat := 0
  /-- Ids queued by egress port × 8 + queue, ids of port-20 frames by egress port, launches by egress port (R156). -/
  queues : Sparse (List Nat) := []
  pubQ : Sparse (List Nat) := []
  launch : Sparse (List Nat) := []
  /-- The frame each port now transmits, and its bytes as that port sends them (R156, R161). -/
  sending : Sparse (Option Nat) := []
  wire : Sparse (List Byte) := []
  /-- The forwarding database (R155). -/
  fdb : List FdbEntry := []
  /-- Has a gated frame been discarded since the gate last closed (R169)? -/
  discarded : Bool := false
  /-- Records lost since the last record written, by mirror session (R166, R167). -/
  mirLost : Sparse Nat := []
  /-- Generations of key slots recorded by SA_EN, by station × 64 + SA (R179). -/
  saGen : Sparse Nat := []
  /-- Station ports that left low-power idle: the instant of the next start, ns; and since when, ns, a station port has
  had nothing to send (R173, R175). -/
  wakeAt : Sparse Nat := []
  idleAt : Sparse Nat := []
  /-- Descriptors of transmit queue 0 that were taken and are not complete, oldest first: the frame's id, the STATUS so far,
  whether the frame is gone (R72). -/
  txRing : List (Nat × Nat × Bool) := []
  /-- Frames forwarded past the switch core that wait for their port, oldest first, each with whether its check sequence is bad (R137,
  R138). -/
  direct : Sparse (List (List Byte × Bool)) := []
  deriving DecidableEq, Repr
/-- A publication block (R375 to R379): what its registers do not show. -/
structure Pub where
  /-- Is the block enabled, and the words CFG, IMG, TIME, TAL, TPL_LO, TPL_HI, TPL_LEN that it read on EN 0→1? -/
  en : Bool := false
  cfg : List Word := []
  /-- The interval in µs, and the time of the last send in ns (R376). -/
  iv : Nat := 0
  last : Nat := 0
  /-- The first frame of the current state, by its id in the switch core (R379). -/
  first : Option Nat := none
  deriving DecidableEq, Repr

/-- An ASDU written for an instant of a group (R209, R212): its slot and generation, its ingress stamp in ns, its
smpSynch, the channels' values and status words, the OR of their quality bits,
the engine, its octets as received (R435), and whether it no longer counts for its slot: replaced, or of a sequence before a restart
(R208); its stamp still does for the row (R212). -/
structure RowAsdu where
  slot : Nat
  gen : Nat
  stamp : Nat
  synch : Nat
  synced : Bool
  vals : List (Nat × Nat)
  qual : Nat
  eng : Nat
  raw : List Byte := []
  dead : Bool := false
  deriving DecidableEq, Repr

/-- A stream slot: what its registers do not show (R190, R207, R214). -/
structure Slot where
  /-- Is the slot enabled; the configuration words it read on EN 0→1: CFG, KEY, ADDR_LO, ADDR_HI, CONFREV, CH, TRANSIT,
  SVLEN and the sixteen words of svID. -/
  en : Bool := false
  cfg : List Word := []
  haveLast : Bool := false
  restartTs : Nat := 0
  /-- Was a payload accepted since the enable (R199)? Does the slot restart at its next accepted ASDU (R204)? -/
  haveSpdu : Bool := false
  simRestart : Bool := false
  /-- The last good values of the channels, those before them, and the last good status words (R214). -/
  x1 : List Nat := []
  x0 : List Nat := []
  st : List Nat := []
  /-- Instants still to be marked STREAM_INV after the slot was disabled (R214). -/
  offRows : Nat := 0
  deriving DecidableEq, Repr

/-- An alignment group: what its registers do not show (R211, R212, R220). -/
structure Grp where
  /-- Is the group enabled; the words CFG, WAIT, DMAX, PLAUS, RING, CH it read on EN 0→1. -/
  en : Bool := false
  cfg : List Word := []
  /-- The ASDUs written for unreleased instants, by instant. -/
  rows : List (Nat × RowAsdu) := []
  /-- The slots awaited for NEXT. -/
  awaited : List Nat := []
  /-- GUARD values with the TIM_NOW ns of the write that set each, newest first. -/
  guards : List (Nat × Nat) := []
  /-- NEXT at the enable, one more than the last input instant the lanes took, and the instants released since with their
  TIM_NOW ns (R229, R255). -/
  start : Nat := 0
  done : Nat := 0
  rel : List (Nat × Nat) := []
  /-- The decimated instant whose channels the lanes have run while a tracking group it needs has not been updated (R253). -/
  part : Option Nat := none
  /-- The instant whose marker has not yet reached Crozier (R297). -/
  mark : Option Nat := none
  /-- On the active module of a pair, the ASDUs included in the last D releases (R439). -/
  old : List (Nat × RowAsdu) := []
  deriving DecidableEq, Repr

/-- A release record (R213, R438): the group, the instant, and one word for each enabled slot of the group in the layout
of R438. -/
structure RelRec where
  group : Nat
  instant : Nat
  entries : List Nat
  deriving DecidableEq, Repr

/-- The Rhizoid engines and the alignment groups (R188 to R222): what their registers do not show. -/
structure Rhz where
  /-- Frames that wait for each engine, oldest first (R130, R182). -/
  queue : Sparse (List EngFrame) := []
  slot : Sparse Slot := []
  grp : Sparse Grp := []
  /-- Release records that the input ledger has not yet taken, oldest first (R213). -/
  recs : List RelRec := []
  deriving DecidableEq, Repr


/-- A filter channel (R225 to R250): whether enabled and the twelve words CFG to STG3_B it read on EN 0→1; the first input
instant after its last channel switch; the newest raw samples and AA outputs, newest first; for status bits 0–15, for
VALIDITY 0b01 and for 0b11 one more than the last instant that showed it; the inputs of stages 2 to 4 by bin, newest first;
the last fast-path sample with its status; f_rot and decimated rate for which L, F and NORM were computed, these, and
whether they were clamped; the bins' last outputs (RE, IM, MAG, ANG) and SAT flags with GD and the instant of that output;
and of the last decimated instant its number, STATUS, whether the span has passed, whether an output was emitted, and its fast-path samples (instant, F, FSTAT, whether F
saturated). -/
structure Chan where
  en : Bool := false
  cfg : List Word := []
  start : Option Nat := none
  xs : List Int := []
  aa : List Int := []
  seen : List Nat := []
  hist : List (List (List (Int × Int))) := []
  fp : Option (Int × Nat) := none
  key : Option (Nat × Nat) := none
  lens : List (Nat × Nat) := []
  norm : Nat := 0
  lenClamp : Bool := false
  normSat : Bool := false
  out : List (Int × Int × Nat × Nat) := []
  sat : List Bool := []
  gd : Nat := 0
  lastOut : Nat := 0
  n : Option Nat := none
  status : Nat := 0
  filled : Bool := false
  emitted : Bool := false
  fps : List (Nat × Nat × Nat × Bool) := []
  deriving DecidableEq, Repr

/-- A tracking group at one decimated instant (R237, R243): the instant, θ and f_rot in use at it, and f_est, ROCOF, STATE, REF_B
and CLAMP as they stand after its update. -/
structure TrkAt where
  n : Nat
  theta : Nat
  fRot : Nat
  fEst : Nat
  rocof : Int
  state : Nat
  refB : Nat
  clamp : Nat
  deriving DecidableEq, Repr

/-- A tracking group (R241 to R245): whether enabled and the words CFG, REF0–2, MIN_MAG, LOCK it read on EN 0→1; f_est and
f_rot in Q8.24 Hz, ROCOF; what each of the last instants had, newest first: the kept phases and the f_est history; the
reference angles of A and of B at the last instant where usable; updates counted towards a change of STATE; and the instants
still without an update after a change of reference. -/
structure Trk where
  en : Bool := false
  cfg : List Word := []
  fEst : Nat := 0x32000000
  fRot : Nat := 0x32000000
  rocof : Int := 0
  log : List TrkAt := []
  prevA : Option Nat := none
  prevB : Option Nat := none
  lockRun : Nat := 0
  skip : Nat := 0
  deriving DecidableEq, Repr

/-- A threshold comparator (R268 to R278): whether enabled and the words CFG, LEVEL, HYST, DLY it read on EN 0→1; FIRST,
run, TRANS; and the value and time of the last evaluation where it was not blocked. -/
structure Thr where
  en : Bool := false
  cfg : List Word := []
  first : Nat := 0
  run : Nat := 0
  trans : Nat := 0
  prev : Option (Int × Nat) := none
  deriving DecidableEq, Repr

/-- A notice of a comparator to Crozier (R275): the comparator, whether a pickup, its tag and the time of the tag in ns. -/
structure ThrNotice where
  k : Nat
  pickup : Bool
  tag : Nat
  time : Nat
  deriving DecidableEq, Repr

/-- The Sorus lanes: what their registers do not show; moves are pending as (retired lane, spare lane) (R224). -/
structure Sor where
  chan : Sparse Chan := []
  trk : Sparse Trk := []
  thr : Sparse Thr := []
  moves : List (Nat × Nat) := []
  notices : List ThrNotice := []
  deriving DecidableEq, Repr
/-- Crozier's copy of an instance's descriptor (R464): STATE, generation and the 16 windows as (FIRST, LAST). -/
structure CInst where
  state : Nat := 0
  gen : Nat := 0
  windows : List (Nat × Nat) := []
  deriving DecidableEq, Repr

/-- How far a task in hand has come (R307). Staging ends in the command that begins it. -/
inductive RunSt
  | pending | running | over | commit
  deriving DecidableEq, Repr

/-- A readiness: its tick, the SOURCE of its first ready entry, the group and decision instant of its notices (R304 to R306). -/
structure Ready where
  tick : Nat
  cause : Nat
  dec : Option (Nat × Nat)
  deriving DecidableEq, Repr

/-- A stage-list element (R293). -/
structure Elem where
  far : Nat
  near : Nat
  len : Nat
  flags : Nat
  rest : Nat
  deriving DecidableEq, Repr

/-- A copy in the dispatch store (R289): a task, the words of its descriptor and the elements of its two lists. -/
structure TaskCopy where
  task : Nat
  desc : List Nat
  ins : List Elem := []
  outs : List Elem := []
  deriving DecidableEq, Repr

/-- A lookahead copy (R289): the table, its bank and the entry's index, task and KIND; and its task's copy, none for a move. -/
structure LookEntry where
  tick : Nat
  tbl : Nat
  bank : Nat
  idx : Nat
  task : Nat
  kind : Nat
  copy : Option TaskCopy
  deriving DecidableEq, Repr

/-- A task outstanding (R301, R307): its descriptor index and GEN, its table, whether event-driven, its entry index, its
readiness, whether merged, the number of the cycle that started it, the words of its descriptor with its elements, where it stands, its
physical core, elapsed time at its start in ns, whether its hold limit passed, whether it counted in WAKE_LATE, FIRST_RUN, whether it
runs within SETTLE of a first run, MISMATCH, and a queued rerun as readiness and whether merged. -/
structure TaskRun where
  task : Nat
  gen : Nat
  cls : Nat
  ev : Bool
  ord : Nat
  ready : Ready
  merged : Bool := false
  cycle : Nat := 0
  desc : List Nat
  ins : List Elem := []
  outs : List Elem := []
  st : RunSt := .pending
  core : Nat := 0
  start : Nat := 0
  late : Bool := false
  woken : Bool := false
  first : Bool := false
  settle : Bool := false
  mism : Nat := 0
  rerun : Option (Ready × Bool) := none
  deriving DecidableEq, Repr

/-- An output digest record (R443): task, STATUS, NC, the header's TICK, DIGEST, SIG of its descriptor (not of a partner's record),
and the tick last issued when it was formed or arrived. -/
structure Digest where
  task : Nat
  status : Nat
  nc : Nat
  tick : Nat
  value : Nat
  sig : Nat
  at_ : Nat := 0
  deriving DecidableEq, Repr

/-- Settings of a comparator that a swap handed over (R315): comparator, LEVEL, HYST, DLY, and the time in ns from which they
hold. -/
structure ThrLoad where
  k : Nat
  level : Nat
  hyst : Nat
  dly : Nat
  at_ : Nat
  deriving DecidableEq, Repr

/-- Crozier (R283 to R324): what its registers do not show. Ticks issued and not yet acted on; the last tick; tasks in hand;
tasks run since the start, the move or the swap that makes FIRST_RUN; dispatches left in which a digest is not comparable;
the tick of a deferred swap; settings on their way to
comparators; digests of this module not yet compared, and those not yet sent,
oldest first; the active bank of the snapshot list; elapsed ns of the next lease renewal; of the dispatch store the pinned copies, the ticks with
table and bank whose lookahead is complete, and its copies (R289). -/
structure Crz where
  inst : Sparse CInst := []
  ticks : List Nat := []
  last : Option Nat := none
  runs : List TaskRun := []
  ran : List Nat := []
  settle : Sparse Nat := []
  swapAt : Nat := 0
  loads : List ThrLoad := []
  digests : List Digest := []
  unsent : List Digest := []
  snapBank : Nat := 0
  renewAt : Nat := 0
  pinned : List TaskCopy := []
  looked : List (Nat × Nat × Nat) := []
  look : List LookEntry := []
  deriving DecidableEq, Repr
/-- The registers of a Frond core (R325 to R342): x0–x31, f0–f31, pc, fcsr, xfgstart, xfsat, the accumulator, the LR
reservation, mstatus.FS, mepc, mcause, mtval, the PMP entries, TIME of the header; core cycles since the start and the cycle
at which each result is ready (x at 0–31, f at 32–63, the accumulator at 64); and whether a debug halt holds it. -/
structure Core where
  x : Sparse (BitVec 64) := []
  f : Sparse (BitVec 64) := []
  pc : BitVec 64 := 0
  fcsr : Nat := 0
  gstart : Nat := 0
  sat : Nat := 0
  accRe : Int := 0
  accIm : Int := 0
  resv : Option Nat := none
  fs : Nat := 1
  mepc : BitVec 64 := 0
  mcause : Nat := 0
  mtval : BitVec 64 := 0
  pmpcfg : List Nat := []
  pmpaddr : List Nat := []
  time : Nat := 0
  cycles : Nat := 0
  readyAt : Sparse Nat := []
  halted : Bool := false
  haltReq : Bool := false
  deriving DecidableEq, Repr

/-- The cores, and for each tuft the frequency change that waits or runs, in MHz (R348). -/
structure Frd where
  core : Sparse Core := []
  freq : Sparse (Option Nat) := []
  /-- Crystal time in ns at which each core last went idle (R550). -/
  idleAt : Sparse Nat := []
  changing : Sparse Bool := []
  deriving DecidableEq, Repr
/-- A change of an input-image entry (R356, R357): its time stamp, its tick, whether it is late, the STATE it gives, for a
new state the fields of the frame or post, and the frame itself; head says that the fields of the frame enter the header though the
members stay. -/
structure GChange where
  ts : Nat
  tick : Nat
  late : Bool
  state : Nat
  new : Bool := false
  head : Bool := false
  t : List Byte := []
  st : Nat := 0
  sq : Nat := 0
  tal : Nat := 0
  flags : Nat := 0
  slots : List Byte := []
  frame : Option EngFrame := none
  deriving DecidableEq, Repr

/-- An input-image entry: what its registers do not show (R361 to R366). -/
structure GSub where
  /-- Is the entry enabled; the words CFG, KEY, ADDR_LO, ADDR_HI, CONFREV, IMG, TMO, the sixteen of gocbRef and the 64 of the
  template that it read on EN 0→1. -/
  en : Bool := false
  cfg : List Word := []
  /-- Of R363: was a frame accepted, the stamp of the last one in ns, and its time to live in ns. -/
  have_ : Bool := false
  lastTs : Nat := 0
  talNs : Nat := 0
  haveSpdu : Bool := false
  spdu : Nat := 0
  /-- The stamp of the last post (R366). -/
  lastPost : Nat := 0
  /-- The tick to which the non-current copy's changes are assigned, whether one of them is late, and the changes that wait
  for later ticks (R357, R358); and the member slots after each of those changes, oldest first (R369). -/
  pend : Option Nat := none
  vers : List (List Byte) := []
  pendLate : Bool := false
  wait : List GChange := []
  deriving DecidableEq, Repr

/-- The input image (R355 to R372): what its registers do not show. -/
structure Gin where
  sub : Sparse GSub := []
  /-- Notices for Crozier as (entry, ready tick), oldest first (R367). -/
  notices : List (Nat × Nat) := []
  /-- The entries whose current copy changed at the last flip (R440). -/
  flipped : List Nat := []
  deriving DecidableEq, Repr


/-- An edge of a fast event input: its stamp in 2⁻¹⁶ ns, the input, its polarity, whether stamped coarse (R388, R404). -/
structure FeiEdge where
  stamp : Nat
  input : Nat
  rising : Bool
  coarse : Bool
  deriving DecidableEq, Repr

/-- A fast event input: the CFG and DELAY read on EN 0→1, the clock time of the last edge taken in 2⁻¹⁶ ns, and of TDC A
and of TDC B the table, consecutive failures, whether retired or calibrating, and sensor 47's reading in 1/8 °C at its last calibration
(R387 to R390). -/
structure Fei where
  en : Bool := false
  cfg : Word := 0
  delay : Word := 0
  last : Option Nat := none
  tblA : List Nat := []
  tblB : List Nat := []
  failsA : Nat := 0
  failsB : Nat := 0
  retA : Bool := false
  retB : Bool := false
  busyA : Bool := false
  busyB : Bool := false
  heatA : Option Int := none
  heatB : Option Int := none
  deriving DecidableEq, Repr

/-- How far a trigger unit has followed its source in one polarity (R393, R394): the arming sides seen of LEVEL upwards and
downwards and of HIGH upwards, the first crossing in 2⁻¹⁶ ns, and whether HIGH was passed since. -/
structure Watch where
  up : Bool := false
  down : Bool := false
  upHigh : Bool := false
  t0 : Option Nat := none
  high : Bool := false
  deriving DecidableEq, Repr

/-- A trigger unit: the words CFG, LEVEL, HIGH, HYST, T1, T2 read on EN 0→1, its two polarities, and the last good sample
with its instant (R392 to R395). -/
structure Trg where
  en : Bool := false
  cfg : List Word := []
  pos : Watch := {}
  neg : Watch := {}
  prev : Option (Nat × Int) := none
  deriving DecidableEq, Repr

/-- A trigger: its time in 2⁻¹⁶ ns, its KIND, its unit (255: forced), whether interpolated, whether of AUTO or FORCE, and the
TIM_NOW ns of its receipt (R386, R401). -/
structure AcqTrig where
  time : Nat
  kind : Nat
  unit : Nat
  interp : Bool
  auto : Bool
  forced : Bool
  recv : Nat
  deriving DecidableEq, Repr

/-- A segment being filled: its DRAM address, the number of its first row, of its trigger row and of the row after its last,
the rows in DRAM, and what its header holds besides (R403, R406). -/
structure Seg where
  addr : Nat
  first : Nat
  trigRow : Nat
  stop : Nat
  written : Nat
  trig : AcqTrig
  merged : Nat
  overlap : Bool
  preShort : Bool
  timeState : Nat
  stepGen : Nat
  arm : Nat
  deriving DecidableEq, Repr

/-- A gap episode (R409, R410). -/
structure Gap where
  cause : Nat
  firstNs : Nat
  lastNs : Nat
  trigLost : Nat
  rowsLost : Nat
  truncSeg : Option Nat
  deriving DecidableEq, Repr

/-- A capture set (R397 to R411): the words CFG to XTW read on EN 0→1; the rows now in its ring; the row being averaged as
sums and statuses with the instants taken; the end of the settling window; the trigger queue; the segment being filled;
where the last segment ended; the next place in the pool; the records not yet consumed as (number, pool offset, bytes);
the open gap episode; and the end of its XTRIG drive. -/
structure Cset where
  en : Bool := false
  cfg : List Word := []
  lo : Nat := 0
  hi : Nat := 0
  sums : List (Int × Nat) := []
  taken : Nat := 0
  settle : Option Nat := none
  queue : List AcqTrig := []
  cur : Option Seg := none
  prevEnd : Nat := 0
  pos : Nat := 0
  recs : List (Nat × Nat × Nat) := []
  gap : Option Gap := none
  xtEnd : Option Nat := none
  deriving DecidableEq, Repr

/-- The acquisition engine: what its registers do not show, the edges that segments may still need, oldest first, and the TIM_NOW ns and
the input of the last calibration by period (R390). -/
structure Acq where
  fei : Sparse Fei := []
  trg : Sparse Trg := []
  cset : Sparse Cset := []
  edges : List FeiEdge := []
  calAt : Nat := 0
  calTurn : Nat := 15
  deriving DecidableEq, Repr
/-- The release record of an instant (R438): its group, the instant, and its entries. -/
structure RelRecord where
  g : Nat
  i : Nat
  entries : List Nat
  deriving DecidableEq, Repr

/-- A resolution under way (R446, R447): the task, the tick, its deadline in crystal ns, and the results of this module and
of the partner (1 pass, 2 fail). -/
structure Resolve where
  task : Nat
  tick : Nat
  due : Nat
  own : Option Nat := none
  partner : Option Nat := none
  deriving DecidableEq, Repr

/-- The pair (R419 to R455): what the registers of ROPE do not show. -/
structure Rope where
  /-- Is the lease held, and the crystal time in ns at which it expires (R420, R425)? -/
  lease : Bool := false
  leaseEnd : Nat := 0
  /-- SESSION and SEQ of what this module last sent; of the partner its SESSION, the last SEQ accepted, its MAC address, its
  LEVEL_MIN, MEMBER, TICK_RATE and IMAGE_ID, its last known epoch, whether it says its line is asserted, and whether one of
  its HELLOs was accepted (R434 to R437). -/
  session : Nat := 0
  seqTx : Nat := 0
  pSession : Nat := 0
  seqRx : Option Nat := none
  pMac : Nat := 0xFFFFFFFFFFFF
  pMember : Nat := 0
  pLevelMin : Nat := 0
  pRate : Nat := 0
  pImage : Nat := 0
  pEpoch : Option Nat := none
  pAsserted : Bool := false
  pHello : Bool := false
  /-- AUTH_OK: cleared while the key store refuses the Rope key (R436). -/
  authOk : Bool := true
  /-- Crystal times in ns of the last valid frame, of the last frame sent, and since when the partner's line has been inactive
  in SYNCING (R421, R433). -/
  lastRx : Nat := 0
  lastTx : Nat := 0
  aloneFrom : Nat := 0
  /-- Is a double claim pending, and does one that was won last (R431)? -/
  claim : Bool := false
  won : Bool := false
  /-- The join: its tick J as a joiner and as the active module, the crystal time in ns of the request, the blocks applied, and
  the comparison tick (R450). -/
  joinTick : Option Nat := none
  joinFor : Option Nat := none
  joinReq : Option Nat := none
  joinGot : List Nat := []
  /-- Octets of state blocks that have arrived in part, and the blocks captured as the active module, by kind × 16 + group. -/
  joinBuf : Sparse (List Byte) := []
  joinCap : List Nat := []
  cmpTick : Nat := 0
  /-- Records of the active module not yet followed: releases and flips (R439, R440); releases that wait since a crystal time;
  the records this module applied in each instant, one more than the last tick flipped, and the bodies of flips it applied by tick (R442). -/
  rels : List RelRecord := []
  flips : List (Nat × List Byte) := []
  waits : List (Nat × Nat × Nat) := []
  applied : List RelRecord := []
  flipDone : Nat := 0
  ledgerGin : List (Nat × List Byte) := []
  /-- Ledger digests by tick: this module's and the partner's, and the ticks at which they differed (R442, R444). -/
  ledgers : List (Nat × Nat) := []
  pLedgers : List (Nat × Nat) := []
  ledgerBad : List Nat := []
  /-- The partner's digest records not yet compared, as (TASK, STATUS, NC, TICK, DIGEST) (R445). -/
  pDigests : List Digest := []
  resolves : List Resolve := []
  /-- The handover tick of a DEMOTE, and whether it was acknowledged (R452). -/
  handover : Option Nat := none
  acked : Bool := false
  /-- HEALTH: the period, self-test runs and failures since the last report, values of the counters at the last report, the crystal
  time of the partner's last report and whether it showed failures (R449). -/
  period : Nat := 0
  runs : Nat := 0
  fails : Nat := 0
  base : List Nat := []
  pHealthAt : Nat := 0
  pFails : Bool := false
  deriving DecidableEq, Repr

/-- A pending tick action (R458, R473): 0 start, 1 freeze, 2 restart, 3 migrate out; its command's CID and queue, and the generations of
that queue and of its completion queue when it was accepted, as 256 × the one + the other (R38). -/
structure TickAct where
  inst : Nat
  kind : Nat
  tick : Nat
  cid : Nat
  sq : Nat
  qgen : Nat := 0
  deriving DecidableEq, Repr

/-- A pending WRITE_AT_TICK (R472): its instance and generation, queue, CID, tick, its target as a BAR0 offset or DRAM
address, its data, and its queues' generations as TickAct has them. -/
structure PendWrite where
  inst : Nat
  gen : Nat
  sq : Nat
  cid : Nat
  tick : Nat
  dram : Bool
  addr : Nat
  data : List Byte
  qgen : Nat := 0
  deriving DecidableEq, Repr

/-- The instances: pending tick actions and writes; the restored PUB data of an instance; blocks that FAULT_PUB stopped; and
the tick of the last freeze (R458, R460, R472, R476, R481). -/
structure Vin where
  acts : List TickAct := []
  writes : List PendWrite := []
  pub : Sparse (List Byte) := []
  stopped : Sparse (List Nat) := []
  freezeTick : Sparse Nat := []
  deriving DecidableEq, Repr
/-- A cached queue context (R469): its index, its 64 bytes, whether written since it was read. -/
structure CtxLine where
  idx : Nat
  bytes : List Byte
  dirty : Bool
  deriving DecidableEq, Repr

/-- An entry that waits for its ring (R496, R497, R506): the context index of its queue, the queue's QGEN, the instance's
generation, its 16 bytes without PHASE, whether a notification. -/
structure DueEntry where
  idx : Nat
  qgen : Nat
  igen : Nat
  bytes : List Byte
  notif : Bool
  deriving DecidableEq, Repr

/-- The host interface: what its registers do not show (R469, R498 to R513). -/
structure Hif where
  /-- PME_En and PME_Status of the power-management capability, and a PME requested but not sent (R511, R512). -/
  pmeEn : Bool := false
  pmeStatus : Bool := false
  pmeReq : Bool := false
  /-- ASPM L1 as Link Control has it, PASID Enable, WAKE_N asserted, a PM_PME owed once the link is up (R466, R508, R512). -/
  aspm : Bool := false
  pasidEn : Bool := false
  wakeN : Bool := false
  pmeOwed : Bool := false
  /-- The context cache, most recently used first; submission queues with entries to fetch, in turn; entries that wait for
  their rings, oldest first. -/
  cache : List CtxLine := []
  turns : List Nat := []
  due : List DueEntry := []
  /-- Memory Space Enable, the enables of L1.1 (bit 0) and L1.2 (bit 1) (R493, R508); vectors whose pending message a queue
  owes (R39); has the host gone since a cold start, and the queues set up since (R38, R506)? -/
  mse : Bool := false
  l1ss : Nat := 0
  qpend : List Nat := []
  cut : Bool := false
  fresh : List Nat := []
  /-- The address parts of BAR0 and BAR2 as the host set them (R59, R61). -/
  bar0 : Nat := 0
  bar2 : Nat := 0
  /-- The crystal time in ns of the last use of the link, and whether the last Latency Tolerance message said that a queue holds work
  (R489, R508). -/
  lastUse : Nat := 0
  busy : Bool := false
  deriving DecidableEq, Repr
/-- A request at the ramp governor (R552, R553): its domain, the STATE it asks for, the crystal time in ns at which it joined. -/
structure PowerReq where
  dom : Nat
  want : Nat
  since : Nat
  deriving DecidableEq, Repr

/-- Power and energy (R548 to R573): what the registers of NRG do not show. -/
structure Nrg where
  /-- Waiting power-up and power-down requests, oldest first; admissions of the last window as (crystal ns, mA); admitted
  transitions that are not complete (R552, R553). -/
  up : List PowerReq := []
  down : List PowerReq := []
  window : List (Nat × Nat) := []
  moving : List PowerReq := []
  /-- Is the exit from Bivouac under way (R572)? -/
  exiting : Bool := false
  /-- Were the requests of the exit made (R572)? Was a temperature sample taken since the cold start (R559)? -/
  asked : Bool := false
  sampled : Bool := false
  /-- The supply monitor: Q in µAs, whether SOC_Q was set since the cold start, good samples still needed after a fault, ms of
  quiet current, consecutive samples below the lockout level, and at or above its release (R561 to R566). -/
  q : Nat := 0
  qSet : Bool := false
  /-- Does SOC_Q still rest on a SOC_V that was provisional (R562)? -/
  qProv : Bool := false
  need : Nat := 0
  quietMs : Nat := 0
  under : Nat := 0
  above : Nat := 0
  /-- The frequency of the system PLL in MHz (R554). -/
  sysMhz : Nat := 1000
  /-- PLLs whose commanded relock was retried (R556). -/
  retried : Sparse Bool := []
  deriving DecidableEq, Repr
/-- An auxiliary segment: what its registers do not show (R585 to R597). Instants are crystal times in ns. -/
structure AuxSeg where
  /-- AUXs_CFG, AUXs_PLCA and AUXs_PLCA2 as read on EN 0→1 (R593). -/
  cfg : Word := 0
  plca : Word := 0
  plca2 : Word := 0
  /-- Ends of the ramp timer, of the awake timer, of the confirmation window, of WAKE_LOCK, of the AUXEN hold and of the
  fail-safe timer (R586, R590, R591, R595). -/
  ramp : Nat := 0
  awake : Option Nat := none
  window : Nat := 0
  lockEnd : Nat := 0
  hold : Option Nat := none
  fsEnd : Option Nat := none
  /-- Instants of the false wakes of the period (R590). -/
  falseWakes : List Nat := []
  /-- The sleep sequence: frames sent, whether it is the fail-safe one, when its next part is due (R591, R596). -/
  sent : Nat := 0
  failSafe : Bool := false
  next : Nat := 0
  /-- Does the segment enter DRAINING once confirmed, because of Bivouac (R598)? -/
  drainOnWake : Bool := false
  deriving DecidableEq, Repr
/-- The reset controller (R601 to R618): what its registers do not show. -/
structure Rst where
  /-- Is a module reset asserted or held, its level (0 power-on, 1 cold, 2 warm), and the held causes, bit c (R602,
  R603)? -/
  asserted : Bool := false
  level : Nat := 0
  held : Nat := 0
  /-- Has VDD_AON been lost (R422)? -/
  off : Bool := false
  /-- Is the start now running, or the last one, a warm start on the image cache (R617)? -/
  warm : Bool := false
  /-- Are the units of steps 7 and 8 of R608 released? -/
  rel : Bool := false
  /-- Crystal time in ns of power good or of the release of the warm reset (R613). -/
  startAt : Nat := 0
  /-- Crystal times in ns of the module resets in the storm window, and whether the start runs under HOST (R607). -/
  storms : List Nat := []
  forceHost : Bool := false
  /-- When the Crozier watchdog is due, crystal ns, once it is armed (R605). -/
  crzDue : Option Nat := none
  /-- When each armed Ridge watchdog was last reloaded, crystal ns, and whether its half-time event was raised (R606). -/
  ridgeAt : Sparse (Option Nat) := []
  ridgeHalf : Sparse Bool := []
  /-- The latched digest of the cached image (R617). -/
  digest : Option (List Byte) := none
  /-- What the RESET record holds besides: the failing address of cause 0x0B, the PLL of cause 0x0C (R673). -/
  info : Nat := 0
  /-- THERMTRIP_N is asserted (R560). -/
  thermtrip : Bool := false
  /-- The causes, bit c, of the resets that follow the running wipe (R642, R658). -/
  afterWipe : Nat := 0
  /-- Are steps 4 and 5 of R608 done, in a start that has come back to stage 4 (R616, R617)? -/
  hif : Bool := false
  /-- The requester of each unit reset in progress, by header offset (R675): 0 module, 1 host, 2 Ridge, 3 JTAG. -/
  who : Sparse Nat := []
  /-- The crystal time in ns at which each unit reset in progress began, and the header of the group whose reset it is part of
  (R53, R79). -/
  since : Sparse Nat := []
  /-- Key slots whose double-bit error the warm start has still to handle (R656). -/
  ecc : List Nat := []
  group : Sparse Nat := []
  /-- Was P first begun since the start (R612, R613)? -/
  ran : Bool := false
  /-- The slot that the start tries now, slots that failed, and a stream error already retried (R616). -/
  slot : Nat := 0
  failed : Nat := 0
  retried : Bool := false
  /-- The levels of SLOT_ID[5:0] and PAIR_ID at their latching (R40). -/
  slotId : Nat := 0
  pairId : Nat := 0
  /-- Crystal time at which START_WAIT_MS ends, and whether TBL_EN waits for the time base (R618). -/
  waitEnd : Nat := 0
  waiting : Bool := false
  deriving DecidableEq, Repr

/-- An erase under way (R630): the device, the first sector, how many, the SEQ of its intent, and whether a device error was
retried. -/
structure Erase where
  dev : Nat
  first : Nat
  count : Nat
  seq : Nat
  retried : Bool
  deriving DecidableEq, Repr

/-- The image loader and the flash manager (R613 to R638): what their registers do not show. -/
structure Img where
  /-- The erase of a command, the erase of the scrub, and ranges the scrub still has to erase as (device, first, count) (R634). -/
  erase : Option Erase := none
  scrub : Option Erase := none
  scrubs : List (Nat × Nat × Nat) := []
  /-- Of the image being loaded or running: its bytes, its start policy, its START_WAIT_MS, TBL_EN as its REG sections give it,
  its INST records (R613, R618). -/
  bytes : Nat := 0
  policy : Nat := 0
  waitMs : Nat := 0
  tblEn : Nat := 0
  insts : List (List Byte) := []
  /-- The slot it was loaded from (IMG_STATUS.LOADED). -/
  slot : Nat := 0
  /-- Subsystem IDs (R488). -/
  subsys : Nat := 0
  /-- KIND of the staged slot is FULL (R635). -/
  stagedFull : Bool := false
  deriving DecidableEq, Repr
/-- The key store (R641 to R668): what its registers do not show. -/
structure Key where
  /-- The root register: 0 empty, 1 the device root, 2 the test root (R644, R647). -/
  root : Nat := 0
  /-- How often the device root was enrolled anew, and ROOT_EPOCH (R646, R649). -/
  enrolled : Nat := 0
  rootEpoch : Nat := 0
  /-- REPOCH of each slot derived from the root (R649). -/
  repoch : Sparse Nat := []
  /-- Does KEY_RDATA hold a result, and the crystal time in ns at which it is cleared (R650)? -/
  rdata : Bool := false
  rdataEnd : Nat := 0
  /-- The running image's security version (R657). -/
  runSvn : Nat := 0
  deriving DecidableEq, Repr

/-- Cairn: what its registers do not show (R671, R677, R679). -/
structure Crn where
  /-- The crystal time in ns at which FREEZE clears itself (R677). -/
  freezeEnd : Nat := 0
  /-- Is a failed record write being retried (R679)? -/
  failing : Bool := false
  /-- Does the next record follow a coalesced group (R673)? -/
  prior : Bool := false
  /-- The crystal time in ns at the last cold start, from which CRN_UPTIME counts (R669). -/
  upBase : Nat := 0
  deriving DecidableEq, Repr


/-- Everything the spec gives the module but the queue of waiting commands. -/
structure Block where
  /-- The family member (R2, R3). -/
  member : Member := .ny9640
  /-- Every register of BAR0 by offset; an unlisted one holds its cold reset value (R59, R62). -/
  regs : Sparse Word := []
  /-- Every memory: the key is the space's base plus the byte address. -/
  mem : List Host.Cell := []
  /-- What has left the module, newest first (the model's own field). -/
  outs : List Output := []
  /-- How many values the spec leaves open have been drawn (the model's own field, see Config.free). -/
  freeCtr : Nat := 0
  /-- What the last read command returned (the model's own field). -/
  readData : Nat := 0
  /-- High words latched by reads of _LO, by requester and offset (R64). -/
  shadow : Sparse Word := []
  /-- Staging values written to _HI words, by the offset of _LO (R66). -/
  staging : Sparse Word := []
  /-- The image lock: RWL fields are read-only while it is set (R10, R613). -/
  imgLock : Bool := false
  /-- Crystal time since power-on in ns (R669, CRN_UPTIME). -/
  xtal : Nat := 0
  /-- Units whose last event of a once-per-interval kind: key, TIM_NOW ms or s of the last one. -/
  gates : Sparse Nat := []
  /-- MSI-X Enable and Function Mask of the capability (R505). -/
  msixEn : Bool := false
  msixMask : Bool := false
  /-- Event inputs of Crozier now active for the next dispatch decision, oldest first (R75). -/
  crzEvt : List Nat := []
  /-- Cairn's staging FIFO, oldest first, and how many of its reports stand before the marker (R670, R671). -/
  fifo : List Report := []
  marker : Option Nat := none
  /-- The first-lost time of each source, ns (R671). -/
  firstLost : Sparse Nat := []
  /-- The Ridge cores. -/
  ridge : Ridge := {}
  /-- The time base. -/
  tim : Tim := {}
  /-- Process ports 0–15 and station ports 16–19. -/
  port : Sparse Port := []
  /-- The switch core. -/
  swc : Swc := {}
  /-- The publication blocks. -/
  pub : Sparse Pub := []
  /-- The stream intake. -/
  rhz : Rhz := {}
  /-- The Sorus lanes and the threshold comparators. -/
  sor : Sor := {}
  /-- Crozier. -/
  crz : Crz := {}
  /-- The Frond cores and tufts. -/
  frd : Frd := {}
  /-- The input image. -/
  gin : Gin := {}
  /-- The acquisition engine. -/
  acq : Acq := {}
  /-- The pair. -/
  rope : Rope := {}
  /-- The instances. -/
  vin : Vin := {}
  /-- The host interface. -/
  hif : Hif := {}
  /-- Segments of the tuft and intake banks by channel number less 1238: 1 a spare in use, 2 without backing (R529). -/
  seg : Sparse Nat := []
  /-- Window accesses that wait for a channel of DRAM, oldest first: the requester's code, for a Ridge core its number, the bytes, whether
  a write, and the crystal time in ns of its arrival (R524). -/
  hostWait : List (Nat × Nat × Nat × Bool × Nat) := []
  /-- Power and energy. -/
  nrg : Nrg := {}
  /-- The auxiliary segments. -/
  aux : Sparse AuxSeg := []
  /-- The reset controller. -/
  rst : Rst := {}
  /-- The image loader and the flash manager. -/
  img : Img := {}
  /-- The key store. -/
  key : Key := {}
  /-- The recorder. -/
  crn : Crn := {}
  deriving DecidableEq, Repr

/-- The state: the block, and the commands that wait, first in first out. -/
structure State where
  block : Block
  pending : List Instr
  deriving DecidableEq, Repr

/-- The state right after reset: every field at its reset value, no command waiting. -/
def State.reset : State := ⟨{}, []⟩

end Sys2Proof.Machine
end

