-- ==== Sys2Proof/Machine/Units.lean ====
section
/-! DEFINITION. The unit tree of BAR0 (R48 to R59, R714 to R717): the units, their headers, windows, classes, event
ranges and children, and which of them each member of the family has. -/

namespace Sys2Proof.Machine

open Sys2Proof

/-- The unit classes of R54. -/
inductive Cls
  | root | rst | img | key | nrg | tim | crn | hif | thl
  | prtGroup | prt | stnGroup | stn | auxGroup | aux | swc | rhzGroup | rhz | sorGroup | sor
  | crz | frdGroup | tuft | frond | acq | rope | vin | ridge | ddr
  deriving DecidableEq, Repr

/-- One unit: its class and its INSTANCE. -/
structure UnitRef where
  cls : Cls
  inst : Nat
  deriving DecidableEq, Repr

/-- CLASS of UNIT_ID (R54). -/
def Cls.code : Cls → Nat
  | .root => 1 | .rst => 2 | .img => 3 | .key => 4 | .nrg => 5 | .tim => 6 | .crn => 7 | .hif => 8 | .thl => 9
  | .prtGroup => 0x10 | .prt => 0x11 | .stnGroup => 0x12 | .stn => 0x13 | .auxGroup => 0x14 | .aux => 0x15
  | .swc => 0x16 | .rhzGroup => 0x17 | .rhz => 0x18 | .sorGroup => 0x19 | .sor => 0x1A | .crz => 0x1B
  | .frdGroup => 0x1C | .tuft => 0x1D | .frond => 0x1E | .acq => 0x1F | .rope => 0x20 | .vin => 0x21
  | .ridge => 0x22 | .ddr => 0x23

/-- How many units of a class the NY9640 has (R714). -/
def Cls.count : Cls → Nat
  | .prt => 16 | .stn => 4 | .aux => 8 | .rhz => 17 | .sor => 16 | .tuft => 16 | .frond => 128 | .ridge => 4 | .ddr => 2
  | _ => 1

/-- Is a class one of groups (R50, R718)? -/
def Cls.isGroup : Cls → Bool
  | .prtGroup | .stnGroup | .auxGroup | .rhzGroup | .sorGroup | .frdGroup => true
  | _ => false

/-- RESETTABLE is clear for ROOT, RST and NRG (R50). -/
def Cls.resettable : Cls → Bool
  | .root | .rst | .nrg => false
  | _ => true

/-- The units that R683 retires. -/
def Cls.retirable : Cls → Bool
  | .prt | .stn | .sor | .tuft | .frond | .rope => true
  | _ => false

/-- The window of a unit: where its registers begin and how many bytes they span (R57, R59, R716). -/
def UnitRef.window (u : UnitRef) : Nat × Nat :=
  match u.cls with
  | .root => (0, 0x10000) | .rst => (0x10000, 0x10000) | .img => (0x20000, 0x10000) | .key => (0x30000, 0x10000)
  | .nrg => (0x40000, 0x10000) | .tim => (0x50000, 0x10000) | .crn => (0x60000, 0x10000) | .hif => (0x70000, 0x10000)
  | .thl => (0x80000, 0x80000)
  | .prtGroup => (0x800, 0x40) | .stnGroup => (0x840, 0x40) | .auxGroup => (0x880, 0x40) | .frdGroup => (0x8C0, 0x40)
  | .ddr => (0x900 + 0x40 * u.inst, 0x40) | .ridge => (0x980 + 0x40 * u.inst, 0x40)
  | .prt => (0x100000 + 0x10000 * u.inst, 0x10000) | .stn => (0x200000 + 0x10000 * u.inst, 0x10000)
  | .aux => (0x240000 + 0x10000 * u.inst, 0x10000) | .swc => (0x300000, 0x100000)
  | .rhzGroup => (0x400000, 0x400000) | .rhz => (0x401000 + 0x100 * u.inst, 0x100)
  | .sorGroup => (0x800000, 0x800000) | .sor => (0x801000 + 0x100 * u.inst, 0x100)
  | .crz => (0x1000000, 0x1000000)
  | .tuft => (0x2000000 + 0x100000 * u.inst, 0x100000)
  | .frond => (0x2000000 + 0x100000 * (u.inst / 8) + 0x1000 + 0x100 * (u.inst % 8), 0x100)
  | .acq => (0x3000000, 0x1000000) | .rope => (0x4000000, 0x100000) | .vin => (0x4100000, 0x1000000)

/-- The header's offset (R57). -/
def UnitRef.hdr (u : UnitRef) : Nat := u.window.1

/-- The first event source and the count of UNIT_EVT. -/
def UnitRef.evt (u : UnitRef) : Nat × Nat :=
  match u.cls with
  | .root => (12, 4) | .rst => (0, 8) | .img => (8, 4) | .key => (960, 32) | .nrg => (16, 24) | .tim => (48, 16)
  | .crn => (992, 32) | .hif => (64, 32) | .thl => (40, 8)
  | .prtGroup => (128, 256) | .prt => (128 + 16 * u.inst, 16) | .stnGroup => (384, 64) | .stn => (384 + 16 * u.inst, 16)
  | .auxGroup => (928, 32) | .aux => (928 + 4 * u.inst, 4) | .swc => (448, 64)
  | .rhzGroup => (512, 64) | .rhz => (512 + u.inst, 1) | .sorGroup => (576, 128) | .sor => (576 + 2 * u.inst, 2)
  | .crz => (704, 64) | .frdGroup => (768, 64) | .tuft => (768 + 4 * u.inst, 4) | .frond => (768 + 4 * (u.inst / 8), 0)
  | .acq => (832, 64) | .rope => (896, 32) | .vin => (96, 32) | .ridge => (12, 0) | .ddr => (0, 0)

/-- Units of a class with instances lo .. lo+n-1. -/
def unitsOf (c : Cls) (lo n : Nat) : List UnitRef := (List.range n).map (fun i => ⟨c, lo + i⟩)

/-- The children of a unit, in the order of its directory (R55, R717). -/
def UnitRef.children (u : UnitRef) : List UnitRef :=
  match u.cls with
  | .root => ([Cls.rst, .img, .key, .nrg, .tim, .crn, .hif, .thl, .prtGroup, .stnGroup, .auxGroup, .swc, .rhzGroup,
      .sorGroup, .crz, .frdGroup, .acq, .rope, .vin].map (fun c => ⟨c, 0⟩)) ++ unitsOf .ridge 0 4
  | .thl => unitsOf .ddr 0 2
  | .prtGroup => unitsOf .prt 0 16
  | .stnGroup => unitsOf .stn 0 4
  | .auxGroup => unitsOf .aux 0 8
  | .rhzGroup => unitsOf .rhz 0 17
  | .sorGroup => unitsOf .sor 0 16
  | .frdGroup => unitsOf .tuft 0 16
  | .tuft => unitsOf .frond (8 * u.inst) 8
  | _ => []

/-- Where a unit's child directory lies; 0 for a unit without children (R717). -/
def UnitRef.dirAt (u : UnitRef) : Nat :=
  match u.cls with
  | .root => 0xC00 | .thl => 0xC60 | .prtGroup => 0xC6C | .stnGroup => 0xCB0 | .auxGroup => 0xCC4 | .rhzGroup => 0xCE8
  | .sorGroup => 0xD30 | .frdGroup => 0xD74 | .tuft => 0xDB8 + 0x24 * u.inst
  | _ => 0

/-- The units whose windows hold no other unit's registers but their own header's, by window (R59). -/
def topUnit (a : Nat) : Option UnitRef :=
  if a < 0x10000 then some ⟨.root, 0⟩
  else if a < 0x20000 then some ⟨.rst, 0⟩
  else if a < 0x30000 then some ⟨.img, 0⟩
  else if a < 0x40000 then some ⟨.key, 0⟩
  else if a < 0x50000 then some ⟨.nrg, 0⟩
  else if a < 0x60000 then some ⟨.tim, 0⟩
  else if a < 0x70000 then some ⟨.crn, 0⟩
  else if a < 0x80000 then some ⟨.hif, 0⟩
  else if a < 0x100000 then some ⟨.thl, 0⟩
  else if a < 0x200000 then some ⟨.prt, (a - 0x100000) / 0x10000⟩
  else if a < 0x240000 then some ⟨.stn, (a - 0x200000) / 0x10000⟩
  else if a < 0x2C0000 then some ⟨.aux, (a - 0x240000) / 0x10000⟩
  else if a < 0x300000 then none
  else if a < 0x400000 then some ⟨.swc, 0⟩
  else if a < 0x800000 then some ⟨.rhzGroup, 0⟩
  else if a < 0x1000000 then some ⟨.sorGroup, 0⟩
  else if a < 0x2000000 then some ⟨.crz, 0⟩
  else if a < 0x3000000 then some ⟨.tuft, (a - 0x2000000) / 0x100000⟩
  else if a < 0x4000000 then some ⟨.acq, 0⟩
  else if a < 0x4100000 then some ⟨.rope, 0⟩
  else if a < 0x5100000 then some ⟨.vin, 0⟩
  else none

/-- The unit of the ROOT group area whose header holds an offset (R716). -/
def groupAreaUnit (a : Nat) : UnitRef :=
  match (a - 0x800) / 0x40 with
  | 0 => ⟨.prtGroup, 0⟩ | 1 => ⟨.stnGroup, 0⟩ | 2 => ⟨.auxGroup, 0⟩ | 3 => ⟨.frdGroup, 0⟩
  | 4 => ⟨.ddr, 0⟩ | 5 => ⟨.ddr, 1⟩ | n => ⟨.ridge, n - 6⟩

/-- The innermost unit whose registers hold an offset. -/
def unitOf (a : Nat) : Option UnitRef :=
  match topUnit a with
  | some ⟨.root, _⟩ => some (if 0x800 ≤ a ∧ a < 0xA80 then groupAreaUnit a else ⟨.root, 0⟩)
  | some ⟨.rhzGroup, _⟩ => some (if 0x401000 ≤ a ∧ a < 0x401000 + 0x1100 then ⟨.rhz, (a - 0x401000) / 0x100⟩ else ⟨.rhzGroup, 0⟩)
  | some ⟨.sorGroup, _⟩ => some (if 0x801000 ≤ a ∧ a < 0x802000 then ⟨.sor, (a - 0x801000) / 0x100⟩ else ⟨.sorGroup, 0⟩)
  | some ⟨.tuft, t⟩ =>
    let o := a % 0x100000
    some (if 0x1000 ≤ o ∧ o < 0x1800 then ⟨.frond, 8 * t + (o - 0x1000) / 0x100⟩ else ⟨.tuft, t⟩)
  | u => u

/-- The unit whose header lies at an offset. -/
def unitAt (h : Nat) : Option UnitRef :=
  match unitOf h with
  | some u => if u.hdr = h then some u else none
  | none => none

/-- Each header's words (R48 to R52); QTMO's default 100 µs. -/
def UnitRef.headerWord (u : UnitRef) (w : Nat) : Nat :=
  match w with
  | 0 => u.cls.code * 65536 + 256 + u.inst
  | 1 => (if u.cls.isGroup then 2 ^ 31 else 0) + (if u.cls.resettable then 2 ^ 30 else 0) +
      (if u.cls.retirable then 2 ^ 29 else 0) + (if u.cls = .acq then 7 else 0)
  | 2 => 1
  | 4 => u.dirAt
  | 5 => u.evt.2 * 65536 + u.evt.1
  | 6 => 0x64
  | _ => 0

/-- The word of a child directory (R55, R717); none outside the directories. -/
def directoryWord (a : Nat) : Option Nat :=
  let w := fun (u : UnitRef) =>
    let i := (a - u.dirAt) / 4
    if i = 0 then u.children.length else match u.children[i - 1]? with | some c => c.hdr | none => 0
  if a < 0xC00 then none
  else if a < 0xC60 then some (w ⟨.root, 0⟩)
  else if a < 0xC6C then some (w ⟨.thl, 0⟩)
  else if a < 0xCB0 then some (w ⟨.prtGroup, 0⟩)
  else if a < 0xCC4 then some (w ⟨.stnGroup, 0⟩)
  else if a < 0xCE8 then some (w ⟨.auxGroup, 0⟩)
  else if a < 0xD30 then some (w ⟨.rhzGroup, 0⟩)
  else if a < 0xD74 then some (w ⟨.sorGroup, 0⟩)
  else if a < 0xDB8 then some (w ⟨.frdGroup, 0⟩)
  else if a < 0xDB8 + 0x24 * 16 then some (w ⟨.tuft, (a - 0xDB8) / 0x24⟩)
  else none

/-- The reset value of a header or directory word; none for any other offset. -/
def treeWord (a : Nat) : Option Nat :=
  match unitOf a with
  | none => none
  | some u =>
    if u.hdr ≤ a ∧ a < u.hdr + 0x40 then some (u.headerWord ((a - u.hdr) / 4))
    else if u.cls = .root then directoryWord a else none

/-- UNIT_ID of a unit as records carry it. -/
def UnitRef.id (u : UnitRef) : Nat := u.headerWord 0

/-! The header's fields (R51, R52) -/

def stForced (h : Nat) : Fld := ⟨h + 8, 4, 1⟩
def stFault (h : Nat) : Fld := ⟨h + 8, 3, 1⟩
def stRetired (h : Nat) : Fld := ⟨h + 8, 2, 1⟩
def stIdle (h : Nat) : Fld := ⟨h + 8, 1, 1⟩
def stQuiescing (h : Nat) : Fld := ⟨h + 8, 6, 1⟩
def stResetBusy (h : Nat) : Fld := ⟨h + 8, 7, 1⟩
def ctlQuiesce (h : Nat) : Fld := ⟨h + 0xC, 0, 1⟩
def ctlReset (h : Nat) : Fld := ⟨h + 0xC, 1, 1⟩
def qtmo (h : Nat) : Fld := ⟨h + 0x18, 0, 16⟩
def cntStat (h : Nat) : Nat := h + 0x1C

end Sys2Proof.Machine

/-! The members (R3, R714) -/

namespace Sys2Proof

open Sys2Proof.Machine

/-- How many units of a class a member has; engine 16 counts apart. -/
def Member.units (m : Member) (c : Cls) : Nat :=
  match m, c with
  | .ny9640, c => c.count
  | .ny9620, .prt => 8 | .ny9620, .stn => 2 | .ny9620, .aux => 4 | .ny9620, .sor => 8 | .ny9620, .rhz => 8
  | .ny9620, .tuft => 8 | .ny9620, .frond => 64 | .ny9620, .ddr => 1
  | .ny9610, .prt => 4 | .ny9610, .stn => 2 | .ny9610, .aux => 2 | .ny9610, .sor => 2 | .ny9610, .rhz => 4
  | .ny9610, .tuft => 2 | .ny9610, .frond => 16 | .ny9610, .ddr => 1 | .ny9610, .rope => 0
  | .ny9602, .prt => 2 | .ny9602, .stn => 1 | .ny9602, .aux => 1 | .ny9602, .sor => 1 | .ny9602, .rhz => 2
  | .ny9602, .tuft => 1 | .ny9602, .frond => 4 | .ny9602, .ddr => 1 | .ny9602, .rope => 0 | .ny9602, .acq => 0
  | _, c => c.count

/-- Does a member have a unit (R4, R714)? -/
def Member.has (m : Member) (u : UnitRef) : Bool :=
  decide (u.inst < m.units u.cls) || (u.cls == .rhz && u.inst == 16)

/-- The counts of R3 for stream slots, filter channels and instances. -/
def Member.slots : Member → Nat
  | .ny9640 => 1024 | .ny9620 => 512 | .ny9610 => 128 | .ny9602 => 16
def Member.channels : Member → Nat
  | .ny9640 => 8192 | .ny9620 => 4096 | .ny9610 => 1024 | .ny9602 => 128
def Member.instances : Member → Nat
  | .ny9640 => 256 | .ny9620 => 128 | .ny9610 => 32 | .ny9602 => 4
/-- Does a member have power domain d (R548, R714)? -/
def Member.hasDomain (m : Member) (d : Nat) : Bool :=
  if d < 128 then decide (d < m.units .frond)
  else if d < 144 then decide (d - 128 < m.units .tuft)
  else if d < 176 then decide ((d - 144) / 2 < m.units .sor)
  else if d < 192 then decide (d - 176 < m.units .prt)
  else if d < 196 then decide (d - 192 < m.units .stn)
  else if d < 198 then decide (0 < m.units .rope)
  else if d = 199 ∨ d = 200 then decide (d - 199 < m.units .ddr)
  else if 203 ≤ d ∧ d < 211 then decide (d - 203 < m.units .aux)
  else if d = 211 then decide (0 < m.units .acq)
  else decide (d < 212)

/-- CLASS_CAPS of the acquisition engine, and the fast event inputs that it has (R385). -/
def Member.acqCaps : Member → Nat
  | .ny9640 => 7 | .ny9620 => 6 | _ => 0
def Member.feis (m : Member) : Nat := if m.acqCaps % 2 = 1 then 16 else 0

/-- The bits of a register that a member has (R715): all of them; none where its index lies at or above the member's count of what it
is for; in a bitmap those of the member's share. Slots, channels, comparators, instances, Frond cores, tufts, lanes, ports, power domains and DDR
channels count as R3 and R714 say. -/
def Member.regMask (m : Member) (a : Nat) : Nat :=
  let word := fun (base stride n : Nat) => if (a - base) / stride < n then 2 ^ 32 - 1 else 0
  let map := fun (base n : Nat) => 2 ^ (if n < 32 * ((a - base) / 4) then 0 else if 32 ≤ n - 32 * ((a - base) / 4) then 32 else n - 32 * ((a - base) / 4)) - 1
  let ports := 2 ^ m.units .prt - 1 + (2 ^ m.units .stn - 1) * 2 ^ 16
  if a < 0x40000 then
    (if 0x34000 ≤ a ∧ a < 0x35000 then word 0x34000 4 m.slots else 2 ^ 32 - 1)
  else if a < 0x300000 then
    (if 0x40800 ≤ a ∧ a < 0x40C00 then word 0x40800 4 m.instances
     else if 0x40400 ≤ a ∧ a < 0x40750 then (if m.hasDomain ((a - 0x40400) / 4) then 2 ^ 32 - 1 else 0)
     else if a = 0x500E4 then ports
     else if 0x80100 ≤ a ∧ a < 0x80180 then word 0x80100 0x40 (m.units .ddr)
     else 2 ^ 32 - 1)
  else if a < 0x400000 then
    (if 0x301000 ≤ a ∧ a < 0x305000 then 0x40F00000 + ports
     else if 0x300100 ≤ a ∧ a < 0x300110 then 0xC0300000 + ports
     else 2 ^ 32 - 1)
  else if a < 0x800000 then
    (if 0x400080 ≤ a ∧ a < 0x400100 then map 0x400080 m.slots
     else if 0x400100 ≤ a ∧ a < 0x400180 then map 0x400100 m.slots
     else if 0x410000 ≤ a ∧ a < 0x420000 then word 0x410000 0x40 m.slots
     else if 0x420000 ≤ a ∧ a < 0x430000 then word 0x420000 0x40 m.slots
     else if 0x430000 ≤ a ∧ a < 0x440000 then word 0x430000 0x40 m.slots
     else 2 ^ 32 - 1)
  else if a < 0x1000000 then
    (if a = 0x80004C then 2 ^ m.units .sor - 1
     else if 0x800044 ≤ a ∧ a < 0x80004C then
       2 ^ (if 8 * ((a - 0x800044) / 4) ≤ m.units .sor then (if 8 ≤ m.units .sor - 8 * ((a - 0x800044) / 4) then 32 else 4 * (m.units .sor - 8 * ((a - 0x800044) / 4))) else 0) - 1
     else if 0x800100 ≤ a ∧ a < 0x800500 then map 0x800100 m.channels
     else if 0x900000 ≤ a ∧ a < 0x980000 then word 0x900000 0x40 m.channels
     else if 0x980000 ≤ a ∧ a < 0x9C0000 then word 0x980000 0x20 m.channels
     else if 0xC01000 ≤ a ∧ a < 0xC02000 then map 0xC01000 (4 * m.channels)
     else if 0xC02000 ≤ a ∧ a < 0xC03000 then map 0xC02000 (4 * m.channels)
     else if 0xD00000 ≤ a ∧ a < 0xE00000 then word 0xD00000 0x20 (4 * m.channels)
     else if 0xE00000 ≤ a ∧ a < 0xE80000 then word 0xE00000 0x10 (4 * m.channels)
     else 2 ^ 32 - 1)
  else if a < 0x2000000 then
    (if 0x1001000 ≤ a ∧ a < 0x1001200 then word 0x1001000 4 (m.units .frond)
     else if 0x1001200 ≤ a ∧ a < 0x1001240 then word 0x1001200 4 (m.units .tuft)
     else 2 ^ 32 - 1)
  else if 0x4100080 ≤ a ∧ a < 0x41000A0 then map 0x4100080 m.instances
  else if 0x4110000 ≤ a ∧ a < 0x4114000 then word 0x4110000 0x40 m.instances
  else if 0x4120000 ≤ a ∧ a < 0x4130000 then word 0x4120000 0x100 m.instances
  else if 0x3000100 ≤ a ∧ a < 0x3000300 then word 0x3000100 0x20 m.feis
  else 2 ^ 32 - 1
/-- Which members have MACsec, 25G process ports and 25G station ports (R3). -/
def Member.hasMacsec : Member → Bool
  | .ny9640 | .ny9620 => true | _ => false
def Member.fast (m : Member) (p : Nat) : Bool :=
  match m with
  | .ny9640 | .ny9620 => true | .ny9610 => decide (p < 16) | .ny9602 => false


end Sys2Proof
end

