-- ==== Sys2Proof/Machine/Ops.lean ====
section
/-! DEFINITION. The named operations over registers, memories, events, counters and reports that every family of
commands uses. -/

namespace Sys2Proof.Machine

open Sys2Proof Sys2Proof.Reg

/-! Numbers -/

/-- Bits lo .. lo+width-1 of n. -/
def bits (n lo width : Nat) : Nat := n / 2 ^ lo % 2 ^ width

/-- Bit i of n. -/
def bit (n i : Nat) : Bool := n / 2 ^ i % 2 == 1

/-- n with bits lo .. lo+width-1 replaced by those of v. -/
def putBits (n lo width v : Nat) : Nat := n - n / 2 ^ lo % 2 ^ width * 2 ^ lo + v % 2 ^ width * 2 ^ lo

/-- The signed value of the low w bits of n. -/
def sgn (w n : Nat) : Int := if n % 2 ^ w < 2 ^ (w - 1) then ((n % 2 ^ w : Nat) : Int) else ((n % 2 ^ w : Nat) : Int) - (2 ^ w : Nat)

/-- The low w bits of a signed value. -/
def uns (w : Nat) (i : Int) : Nat := (i % ((2 ^ w : Nat) : Int)).toNat

/-- A value held between two bounds. -/
def clampI (lo hi x : Int) : Int := if x < lo then lo else if hi < x then hi else x

/-- A natural number held between two bounds. -/
def clampN (lo hi x : Nat) : Nat := if x < lo then lo else if hi < x then hi else x

/-- Arithmetic right shift of an integer: division by 2ⁿ towards minus infinity. -/
def asr (x : Int) (n : Nat) : Int := Int.fdiv x ((2 ^ n : Nat) : Int)

/-- A count that stops at its top. -/
def satAdd (top a n : Nat) : Nat := if a + n ≤ top then a + n else top

/-- The little-endian number of a byte list. -/
def leNat : List Byte → Nat
  | [] => 0
  | x :: t => x.toNat + 256 * leNat t

/-- The big-endian number of a byte list. -/
def beNat (l : List Byte) : Nat := l.foldl (fun acc x => acc * 256 + x.toNat) 0

/-- n bytes of a number, least significant first. -/
def leBytes : Nat → Nat → List Byte
  | 0, _ => []
  | n + 1, v => BitVec.ofNat 8 v :: leBytes n (v / 256)

/-- n bytes of a number, most significant first. -/
def beBytes (n v : Nat) : List Byte := (leBytes n v).reverse

/-- Bytes i .. i+n-1 of a list. -/
def slice (l : List Byte) (i n : Nat) : List Byte := (l.drop i).take n

/-- The big-endian number in bytes i .. i+n-1. -/
def beAt (l : List Byte) (i n : Nat) : Nat := beNat (slice l i n)

/-- The little-endian number in bytes i .. i+n-1. -/
def leAt (l : List Byte) (i n : Nat) : Nat := leNat (slice l i n)

/-- A byte list cut or filled with zeros to n bytes. -/
def fit (n : Nat) (l : List Byte) : List Byte := (l ++ List.replicate (n - l.length) 0).take n

/-! Registers -/

/-- The default load step of a power domain in mA (R548). -/
def stepMa (d : Nat) : Nat :=
  if d < 128 then 160 else if d < 144 then 520 else if d < 176 then (if d % 2 = 0 then 220 else 140) else if d < 198 then 300
  else if d = 198 then 600 else if d < 201 then 700 else if d < 203 then 250 else if d < 211 then 40 else 300

/-- The cold reset value of a register: what its table's fields make, and the values that depend on the index
(R115, R118: generator 0; R73: SIZE_LOG of transmit queues 1–8; R517: the mask of an MSI-X vector; R260, R324: a lane's block, a map's own index; R576: a sensor's zone; R52: UNIT_QTMO; R548: a domain's
load step), and the power-on reset as the last one (R603). -/
def resetOf (a : Nat) : Word :=
  if a = TIM_PGg_CTRL 0 then BitVec.ofNat 32 (2 ^ 31 + 2 ^ 30 + 2 ^ 29 + 2 ^ 27 + 1)
  else if a = TIM_PGg_PERIOD 0 then 0x3B9ACA00
  else if a = TIM_PGg_WIDTH 0 then 0x05F5E100
  else if RIDGE_TQq_CFG 1 ≤ a ∧ a ≤ RIDGE_TQq_CFG 8 ∧ (a - RIDGE_TQq_CFG 0) % 0x20 = 0 then 5
  else if 0x78000 ≤ a ∧ a < 0x80000 ∧ a % 16 = 12 then 1
  else if a = RST_LAST then 1
  else if a = RST_LAST_ALL then 2
  else
    match rowOf a with
    | none => match treeWord a with | some w => BitVec.ofNat 32 w | none => 0
    | some r =>
      if r.base = SOR_LANEl_STAT 0 then BitVec.ofNat 32 ((a - r.base) / 0x100 * 2 ^ 16)
      else if r.base = CRZ_LCMAPl 0 ∨ r.base = CRZ_TUFTMAPt 0 then BitVec.ofNat 32 ((a - r.base) / 4)
      else if r.base = NRG_SENSs 0 then BitVec.ofNat 32 ((a - r.base) / 4 / 6 * 2 ^ 16)
      else if r.base = NRG_DOMd_CFG 0 then BitVec.ofNat 32 (coldWord r.fields + 16 * stepMa ((a - r.base) / 4))
      else BitVec.ofNat 32 (coldWord r.fields)

/-- The word a register holds. -/
def Block.rd (b : Block) (a : Nat) : Word := b.regs.get resetOf a

/-- A register loaded with a word. -/
def Block.wr (b : Block) (a : Nat) (v : Word) : Block := { b with regs := (a, v) :: b.regs }

/-- A field's value. -/
def Block.get (b : Block) (f : Fld) : Nat := bits (b.rd f.addr).toNat f.lo f.width

/-- Is a field other than zero? -/
def Block.on (b : Block) (f : Fld) : Bool := b.get f != 0

/-- A field loaded with a value, the register's other bits kept. -/
def Block.set (b : Block) (f : Fld) (v : Nat) : Block :=
  b.wr f.addr (BitVec.ofNat 32 (putBits (b.rd f.addr).toNat f.lo f.width v))

/-- A field set where a condition holds. -/
def Block.setIf (b : Block) (c : Bool) (f : Fld) (v : Nat) : Block := if c then b.set f v else b

/-- Bit i of a register, as a field. -/
def bitOf (a i : Nat) : Fld := ⟨a, i, 1⟩

/-- The 64-bit value of a _LO, _HI pair. -/
def Block.rd64 (b : Block) (a : Nat) : Nat := (b.rd a).toNat + 2 ^ 32 * (b.rd (a + 4)).toNat

/-- A _LO, _HI pair loaded with a 64-bit value. -/
def Block.wr64 (b : Block) (a v : Nat) : Block :=
  (b.wr a (BitVec.ofNat 32 v)).wr (a + 4) (BitVec.ofNat 32 (v / 2 ^ 32))

/-- A fold over the indices 0 .. n-1. -/
def Block.each (b : Block) (n : Nat) (f : Nat → Block → Block) : Block := (List.range n).foldl (fun b i => f i b) b

/-- A change made only where a condition holds. -/
def Block.doIf (b : Block) (c : Bool) (f : Block → Block) : Block := if c then f b else b

/-! Memories -/

/-- The number of a memory space. -/
def Space.index : Space → Nat
  | .dram => 0 | .host => 1 | .intake => 2 | .acq => 3 | .secure => 4 | .seq => 5 | .timer => 6
  | .tuft t => 16 + t % 16 | .itcm c => 32 + c % 128 | .dtcm c => 160 + c % 128 | .flash d => 288 + d % 2

/-- The key of byte a of a space. -/
def Space.key (sp : Space) (a : Nat) : Nat := sp.index * 2 ^ 64 + a % 2 ^ 64

/-- What a byte that nothing has written reads as: erased flash reads 0xFF, every other memory 0. -/
def memDefault (k : Nat) : Byte := if 288 * 2 ^ 64 ≤ k then 0xFF else 0

/-- One byte of a memory. -/
def Block.byte (b : Block) (sp : Space) (a : Nat) : Byte := Sparse.get memDefault b.mem (sp.key a)

/-- The segment of a tuft or intake bank that holds a byte, less 1238 (R529, R680). -/
def segOf (sp : Space) (a : Nat) : Option Nat :=
  match sp with
  | .tuft t => some (64 * (t % 16) + a / 65536)
  | .intake => some (1024 + a / 65536)
  | _ => none

/-- Does a byte lie neither in the own range of a spare in use nor in a segment without backing (R529)? -/
def segOpen (seg : Sparse Nat) (sp : Space) (a : Nat) : Bool :=
  match segOf sp a with
  | some k => seg.get (fun _ => 0) k == 0
  | none => true

/-- One byte stored. -/
def Block.store (b : Block) (sp : Space) (a : Nat) (v : Byte) : Block :=
  if segOpen b.seg sp a then { b with mem := (sp.key a, v) :: b.mem } else b

/-- n bytes from address a on. -/
def Block.load (b : Block) (sp : Space) (a : Nat) : Nat → List Byte
  | 0 => []
  | n + 1 => b.byte sp a :: b.load sp (a + 1) n

/-- The cells of bytes stored from address a on, put in front of the memory. -/
def cells (seg : Sparse Nat) (sp : Space) : Nat → List Byte → List Host.Cell → List Host.Cell
  | _, [], m => m
  | a, v :: t, m => cells seg sp (a + 1) t (if segOpen seg sp a then (sp.key a, v) :: m else m)

/-- Bytes stored from address a on. -/
def Block.stores (b : Block) (sp : Space) (a : Nat) (l : List Byte) : Block := { b with mem := cells b.seg sp a l b.mem }

/-- A little-endian number of n bytes. -/
def Block.loadNat (b : Block) (sp : Space) (a n : Nat) : Nat := leNat (b.load sp a n)

/-- A little-endian number stored in n bytes. -/
def Block.storeNat (b : Block) (sp : Space) (a n v : Nat) : Block := b.stores sp a (leBytes n v)

/-! Time -/

/-- TIM_NOW's integer nanoseconds (R82). -/
def Block.ns (b : Block) : Nat := b.tim.now / 2 ^ 32 % 2 ^ 64

/-- TIM_NOW as a time stamp in 2⁻¹⁶ ns (R17). -/
def Block.stamp (b : Block) : Nat := b.tim.now / 2 ^ 16 % 2 ^ 80

/-- TIM_NOW reaches an instant of ns, and the crystal counts the same time; an instant already past changes nothing. -/
def Block.advanceTo (b : Block) (ns : Nat) : Block :=
  if b.tim.now < ns * 2 ^ 32 then
    { b with tim := { b.tim with now := ns * 2 ^ 32, elapsed := b.tim.elapsed + (ns * 2 ^ 32 - b.tim.now) }, xtal := b.xtal + (ns - b.tim.now / 2 ^ 32) }
  else b

/-- Elapsed time, in 2⁻³² ns of Tim.elapsed, reaches an instant; one already past changes nothing. -/
def Block.advanceRun (b : Block) (due : Nat) : Block :=
  if b.tim.elapsed < due then b.advanceTo (b.ns + (due - b.tim.elapsed + (2 ^ 32 - 1)) / 2 ^ 32) else b

/-- The next value that the spec leaves open, below m, and the count of values drawn. -/
def Block.draw (b : Block) (m : Nat) : Nat × Block := (Config.free b.freeCtr % m, { b with freeCtr := b.freeCtr + 1 })

/-- A 64-bit counter of unit u counts on; a wrap sets OVF and, where it was clear, loads WRAP_INDEX (R65), whose numbering of the
counters the spec does not give: a free value. -/
def Block.count64 (b : Block) (u : UnitRef) (a : Nat) : Block :=
  let n := b.rd64 a + 1
  let c := b.wr64 a n
  if n < 2 ^ 64 ∨ b.on ⟨cntStat u.hdr, 0, 1⟩ = true then c.setIf (decide (2 ^ 64 ≤ n)) ⟨cntStat u.hdr, 0, 1⟩ 1
  else
    let r := c.draw 4096
    (r.2.set ⟨cntStat u.hdr, 0, 1⟩ 1).set ⟨cntStat u.hdr, 4, 12⟩ r.1

/-! Outputs -/

/-- Something leaves the module. -/
def Block.emit (b : Block) (o : Output) : Block := { b with outs := o :: b.outs }

/-! Events (R75), MSI-X (R505), wake causes (R511) -/

/-- The offset of word w of MSI-X table entry v, and of the PBA word of vector v (R517). -/
def msixWord (v w : Nat) : Nat := 0x78000 + 16 * v + 4 * w
def pbaWord (v : Nat) : Nat := 0x77F00 + 4 * (v / 32)

/-- Does an occurrence count as a wake cause: the function in D3hot or D3cold, and PME_En (R511, R513)? -/
def Block.wakeArmed (b : Block) : Bool :=
  b.hif.pmeEn && (b.get HIF_STAT_DSTATE == 3 || b.get HIF_STAT_DSTATE == 2)

/-- Increment of a 32-bit statistics counter by n: the new word, and whether it crossed bit 31 or wrapped (R68). -/
def bumped (old n : Nat) : Nat × Bool :=
  ((old + n) % 2 ^ 32, (decide (old < 2 ^ 31) && decide (2 ^ 31 ≤ old + n)) || decide (2 ^ 32 ≤ old + n))

/-- May the module send requests to the host now: the link up, the function in D0 (R506, R509, R510)? -/
def Block.hostOpen (b : Block) : Bool :=
  b.on HIF_STAT_LINK_UP && !b.on HIF_STAT_PERST && b.get HIF_STAT_DSTATE == 0 && decide (b.get HIF_STAT_LSTATE < 4)

/-- A message on a vector: sent, or left pending where it is masked, MSI-X is not enabled or the host cannot be reached
(R505, R506, R509); with a count, whose rollover is event 75 (R516). The list names the events now due. -/
def Block.msix (b : Block) (v : Nat) : Block × List Nat :=
  if b.hostOpen && b.msixEn && !b.msixMask && !bit (b.rd (msixWord v 3)).toNat 0 then
    let c := bumped (b.rd (HIF_CNTi 6)).toNat 1
    let b := (b.emit (.msix v)).wr (HIF_CNTi 6) (BitVec.ofNat 32 c.1)
    if c.2 then (b.set (bitOf HIF_CNT_ROLL 6) 1, [75]) else (b, [])
  else (b.set (bitOf (pbaWord v) (v % 32)) 1, [])

/-- The first wake cause is latched, a later one counted; the PME it asks for is withdrawn at once where the host already
trains the link (R511, R513). The list names the events now due. -/
def Block.wakeCause (b : Block) (kind inst source : Nat) : Block × List Nat :=
  if !b.wakeArmed then (b, [])
  else if b.on HIF_WAKE_CAUSE_VALID then
    (b.set HIF_WAKE_CAUSE_COUNT (satAdd 255 (b.get HIF_WAKE_CAUSE_COUNT) 1), [])
  else
    let b := ((((b.wr HIF_WAKE_CAUSE 0).set HIF_WAKE_CAUSE_VALID 1).set HIF_WAKE_CAUSE_KIND kind).set
      HIF_WAKE_CAUSE_INSTANCE inst).set HIF_WAKE_CAUSE_SOURCE source
    let b := b.wr64 HIF_WAKE_TIME_LO b.ns
    if b.hif.pmeStatus then (b, [67])
    else if b.get HIF_STAT_DSTATE == 2 && b.get HIF_STAT_LSTATE == 5 then
      let c := bumped (b.rd (HIF_CNTi 5)).toNat 1
      let b := (b.set HIF_WAKE_CAUSE_WITHDRAWN 1).wr (HIF_CNTi 5) (BitVec.ofNat 32 c.1)
      if c.2 then (b.set (bitOf HIF_CNT_ROLL 5) 1, [67, 68, 75]) else (b, [67, 68])
    else ({ b with hif := { b.hif with pmeReq := true } }, [67])

/-- The Ridge cores that event n's route names (R75). -/
def Block.irqNote (b : Block) (n : Nat) : Block := { b with ridge := { b.ridge with irq := (n, b.get (EVT_ROUTE_n_RIDGE n)) :: b.ridge.irq } }

/-- The message that event n's route asks for (R75, R505), and the events that sending it reports. -/
def Block.msixFor (b : Block) (n : Nat) : Block × List Nat :=
  if b.on (EVT_ROUTE_n_MSIX_EN n) then b.msix (b.get (EVT_ROUTE_n_VECTOR n)) else (b, [])

/-- Event n is an input of Crozier where its route says so (R75). -/
def Block.crzNote (b : Block) (n : Nat) : Block :=
  if b.on (EVT_ROUTE_n_CRZ_EN n) then { b with crzEvt := if n ∈ b.crzEvt then b.crzEvt else b.crzEvt ++ [n] } else b

/-- Event n as a wake cause (R511), and the events that it reports. -/
def Block.wakeFor (b : Block) (n : Nat) : Block × List Nat :=
  if b.on (EVT_ROUTE_n_MSIX_EN n) && b.on HIF_WAKE_EN_EVENT then b.wakeCause 1 0 n else (b, [])

/-- One report of event source n (R75): its pending bit sets, and a change from 0 to 1 acts on every destination its
route enables. The list names the events now due. -/
def Block.raise1 (b : Block) (n : Nat) : Block × List Nat :=
  if bit (b.rd (EVT_PEND_k (n / 32 % 32))).toNat (n % 32) then (b, [])
  else
    let m := ((b.set (bitOf (EVT_PEND_k (n / 32 % 32)) (n % 32)) 1).irqNote n).msixFor n
    let w := (m.1.crzNote n).wakeFor n
    (w.1, m.2 ++ w.2)

/-- Events reported in turn, with those that each one's message or wake cause makes due; the chain ends within the depth: an
event's message may roll its counter over (75), its wake cause may report 67 and 68, and each bit rises once. -/
def Block.raiseAll : Nat → List Nat → Block → Block
  | 0, _, b => b
  | k + 1, l, b => l.foldl (fun b n => let r := b.raise1 n; Block.raiseAll k r.2 r.1) b

/-- A unit reports event source n (R75); a wake cause or a message of it reports its own events in turn (R511, R516). -/
def Block.raise (b : Block) (n : Nat) : Block := Block.raiseAll 4 [n] b

/-- A message on a vector outside the report of an event: an armed queue's, or a pending one that can be sent (R504, R505). -/
def Block.send (b : Block) (v : Nat) : Block :=
  let r := b.msix v
  Block.raiseAll 4 r.2 r.1

/-- An event reported where a condition holds. -/
def Block.raiseIf (b : Block) (c : Bool) (n : Nat) : Block := if c then b.raise n else b

/-- An event reported at most once in each interval of ms milliseconds of TIM_NOW; key names the gate. -/
def Block.raiseEvery (b : Block) (ms n : Nat) : Block :=
  let k := b.ns / 1000000 / ms + 1
  if b.gates.get (fun _ => 0) n = k then b
  else { b with gates := (n, k) :: b.gates }.raise n

/-- A statistics counter is incremented by n; a rollover sets its CNT_ROLL bit and raises its unit's event (R68). -/
def Block.count (b : Block) (a n : Nat) (roll : Fld) (ev : Nat) : Block :=
  let c := bumped (b.rd a).toNat n
  let b := b.wr a (BitVec.ofNat 32 c.1)
  if c.2 then (b.set roll 1).raise ev else b

/-- ROOT_ERR bits are set by an access, the first error's requester and offset are recorded, event 12 is raised (R69). -/
def Block.rootErr (b : Block) (who : Requester) (addr : Nat) (f : Fld) : Block :=
  let port := match who with | .host => 0 | .ridge _ => 1 | .jtag => 2
  let b := b.doIf ((b.rd ROOT_ERR).toNat == 0) (fun b =>
    (b.set ROOT_ERR_ADDR_PORT port).set ROOT_ERR_ADDR_ADDR addr)
  (b.set f 1).raise 12

/-! Reports to Cairn (R669 to R671) -/

/-- The word shared by time stamps in records: byte 6 of R406. -/
def Block.timeState (b : Block) : Nat := b.get TIM_STATUS_STATE + 128 * b.get TIM_STATUS_PLL_LOST

/-- A report enters the staging FIFO, or is lost and counted behind a marker (R671). -/
def Block.report (b : Block) (typ source unitId flags : Nat) (data : List Nat) : Block :=
  let r : Report := ⟨typ, flags, source, unitId, data, b.ns, b.stamp % 2 ^ 16, b.timeState,
    b.get TIM_STATUS_STEP_GEN, (b.xtal - b.crn.upBase) / 1000000⟩
  if b.fifo.length < 64 then
    { b with fifo := b.fifo ++ [r] }.set CRN_STAT_FIFO_FILL (b.fifo.length + 1)
  else
    let s := if source = 0xFFFF then 992 else source % 1024
    let old := b.get (CRN_LOSTs_COUNT s)
    let b := b.doIf (old == 0) (fun b => { b with firstLost := (s, b.ns) :: b.firstLost })
    let b := b.set (CRN_LOSTs_COUNT s) (satAdd 0xFFFF old 1)
    let b := b.count (CRN_CNTi 1) 1 (bitOf CRN_CNT_ROLL 1) 1002
    match b.marker with
    | some _ => b
    | none => ({ b with marker := some b.fifo.length }.set CRN_STAT_MARKER 1).raise 995

/-! Unit resets (R79) and releases (R608) -/

/-- The Belay gate closes, with event 465 where it was open (R169). -/
def Block.gateClose (b : Block) : Block :=
  if b.on SWC_GATE_OPEN then (let c := b.set SWC_GATE_OPEN 0; { c with swc := { c.swc with discarded := false } }).raise 465 else b

/-- The first three steps of a unit reset asked for by a requester: QUIESCE, RESET, QUIESCING and RESET_BUSY set; one
already in progress goes on (R79). The switch core's gate closes as its reset starts (R183). -/
def Block.resetMark (b : Block) (u : UnitRef) (who : Nat) : Block :=
  if b.on (stResetBusy u.hdr) then b
  else
    let b := ((b.set (ctlQuiesce u.hdr) 1).set (ctlReset u.hdr) 1).set (stResetBusy u.hdr) 1
    let b := if b.on (stIdle u.hdr) then b else b.set (stQuiescing u.hdr) 1
    let b := { b with rst := { b.rst with who := (u.hdr, who) :: b.rst.who, since := (u.hdr, b.xtal) :: b.rst.since } }
    b.doIf (u.cls == .swc) Block.gateClose

/-- A unit has detected an error in its control state: UNIT_STATUS.FAULT sets (R51) and the module resets the unit (R44). -/
def Block.controlFault (b : Block) (u : UnitRef) : Block := (b.set (stFault u.hdr) 1).resetMark u 3

/-- Does a unit take new work: its QUIESCE is clear (R78)? -/
def Block.takes (b : Block) (u : UnitRef) : Bool := !b.on (ctlQuiesce u.hdr)

/-- The requester code of R675 and ROOT_ERR_ADDR.PORT. -/
def Requester.code : Requester → Nat
  | .host => 0 | .ridge _ => 1 | .jtag => 2

/-- The number of a Ridge core as a requester. -/
def Requester.core : Requester → Nat
  | .ridge m => m | _ => 0

/-- Where the shadow of the register at offset a is held: one for the host link, one for the Ridge cores, one for JTAG
(R64). -/
def shadowKey (r : Requester) (a : Nat) : Nat := Requester.code r * 2 ^ 32 + a

/-- A read answers with a value (the model's own field readData). -/
def Block.answer (b : Block) (v : Nat) : Block := { b with readData := v }

/-- Is the unit class released: in the order of R608, and in the recovery state only what R616 names? -/
def Block.released (b : Block) (c : Cls) : Bool :=
  let st := b.get RST_START_STAGE
  let rec' := st == 0xD || st == 0xE
  if b.rst.off then false
  else match c with
    | .rst | .nrg => true
    | .root | .img | .crn => !b.rst.asserted && decide (3 ≤ st)
    | .key => !b.rst.asserted && decide (3 ≤ st) && !rec'
    | .tim => (b.rst.level == 2 || decide (3 ≤ st)) && !rec' && !(b.rst.asserted && decide (b.rst.level < 2))
    | .hif | .thl | .ddr => !b.rst.asserted && (decide (5 ≤ st) || b.rst.hif)
    | _ => !b.rst.asserted && b.rst.rel

/-! The end of a command -/

/-- The sparse tables folded into their canonical form. -/
def Block.commit (b : Block) : Block :=
  { b with regs := b.regs.norm resetOf, mem := Sparse.norm memDefault b.mem }

/-- The outcome of a command whose effect on the block is f: a next state with the queue untouched. -/
def run (f : Block → Block) (s : State) : Host.Outcome State Fault Refusal :=
  .next ⟨(f s.block).commit, s.pending⟩

/-- The outcome of a command that acts in a unit of class c: nothing happens while the class is not released (R608), nor on a
member that has no unit of the class (R4). -/
def runAt (c : Cls) (f : Block → Block) (s : State) : Host.Outcome State Fault Refusal :=
  if s.block.released c && decide (0 < s.block.member.units c) then run f s else .next s

/-- The outcome of a command that acts in unit u: nothing happens while it is not released (R608) or absent (R4, R714). -/
def runUnit (u : UnitRef) (f : Block → Block) (s : State) : Host.Outcome State Fault Refusal :=
  if s.block.released u.cls && s.block.member.has u then run f s else .next s

end Sys2Proof.Machine
end

