-- ==== Sys2Proof/Machine/Operands.lean ====
section
/-! DEFINITION. The operand forms of the commands: how the bytes of a frame, of an APDU and of a record are read, and
the check codes over them. -/

namespace Sys2Proof.Machine

open Sys2Proof Sys2Proof.Reg

/-! Check codes -/

/-- One bit of the CRC-16 of R144. -/
def crc16Bit (c : Nat) : Nat := if bit c 15 then (c * 2 % 65536) ^^^ 0x1021 else c * 2 % 65536

/-- One byte of the CRC-16 of R144: most significant bit first. -/
def crc16Byte (c : Nat) (x : Byte) : Nat :=
  (List.range 8).foldl (fun c _ => crc16Bit c) (c ^^^ (x.toNat * 256))

/-- The CRC-16 of R144: polynomial 0x1021, initial value 0xFFFF, no final inversion. -/
def crc16 (l : List Byte) : Nat := l.foldl crc16Byte 0xFFFF

/-- One byte of the CRC-32 of IEEE 802.3. -/
def crc32Byte (c : Nat) (x : Byte) : Nat :=
  (List.range 8).foldl (fun c _ => if c % 2 = 1 then (c / 2) ^^^ 0xEDB88320 else c / 2) (c ^^^ x.toNat)

/-- The CRC-32 of IEEE 802.3 (R623, R673). -/
def crc32 (l : List Byte) : Nat := l.foldl crc32Byte 0xFFFFFFFF ^^^ 0xFFFFFFFF

/-! Ethernet frames (R127, R129) -/

def frameDst (f : List Byte) : Nat := beAt f 0 6
def frameSrc (f : List Byte) : Nat := beAt f 6 6
def frameTagged (f : List Byte) : Bool := beAt f 12 2 == 0x8100
def frameTci (f : List Byte) : Nat := if frameTagged f then beAt f 14 2 else 0

/-- Where the EtherType that follows any VLAN tag stands. -/
def afterVlan (f : List Byte) : Nat := if frameTagged f then 16 else 12

/-- Does the frame carry an HSR tag (R136)? -/
def hsrTagged (f : List Byte) : Bool := beAt f (afterVlan f) 2 == 0x892F

/-- Where the EtherType that follows any VLAN and HSR tag stands (R129). -/
def etherAt (f : List Byte) : Nat := if hsrTagged f then afterVlan f + 6 else afterVlan f

/-- The EtherType after any VLAN and HSR tag. -/
def etherType (f : List Byte) : Nat := beAt f (etherAt f) 2

/-- The bytes after the EtherType. -/
def payload (f : List Byte) : List Byte := f.drop (etherAt f + 2)

/-- Is an address a multicast or broadcast address? -/
def isGroup (mac : Nat) : Bool := bit mac 40

/-- The PRP trailer of a frame, as (sequence number, LanId, LSDUsize) where R134 finds one valid. -/
def prpTrailer (f : List Byte) : Option (Nat × Nat × Nat) :=
  let t := f.drop (f.length - 6)
  if 20 ≤ f.length ∧ beAt t 4 2 = 0x88FB ∧ beAt t 2 2 % 4096 = f.length - (afterVlan f + 2) ∧ hsrTagged f = false then
    some (beAt t 0 2, beAt t 2 2 / 4096, beAt t 2 2 % 4096)
  else none

/-! IPv4 and UDP (R163, R168, R181) -/

/-- Where the IPv4 header of a frame stands. -/
def ipAt (f : List Byte) : Nat := etherAt f + 2
def isIpv4 (f : List Byte) : Bool := etherType f == 0x0800
def ipIhl (f : List Byte) : Nat := beAt f (ipAt f) 1 % 16
def ipProto (f : List Byte) : Nat := beAt f (ipAt f + 9) 1
def ipSrc (f : List Byte) : Nat := beAt f (ipAt f + 12) 4
def ipDst (f : List Byte) : Nat := beAt f (ipAt f + 16) 4
def l4At (f : List Byte) : Nat := ipAt f + 4 * ipIhl f
def udpDst (f : List Byte) : Nat := beAt f (l4At f + 2) 2
def udpLen (f : List Byte) : Nat := beAt f (l4At f + 4) 2

/-- The ones' complement sum of 16-bit words. -/
def onesSum : List Byte → Nat → Nat
  | a :: c :: t, acc => onesSum t ((acc + a.toNat * 256 + c.toNat) % 65536 + (acc + a.toNat * 256 + c.toNat) / 65536)
  | [a], acc => (acc + a.toNat * 256) % 65536 + (acc + a.toNat * 256) / 65536
  | [], acc => acc

/-- Is the IPv4 header checksum correct? -/
def ipSumOk (f : List Byte) : Bool := onesSum (slice f (ipAt f) (4 * ipIhl f)) 0 == 0xFFFF

/-- Is the UDP checksum zero or correct? -/
def udpSumOk (f : List Byte) : Bool :=
  beAt f (l4At f + 6) 2 == 0 ||
    onesSum (slice f (ipAt f + 12) 8 ++ [0, 17] ++ slice f (l4At f + 4) 2 ++ slice f (l4At f) (udpLen f)) 0 == 0xFFFF

/-- Is the frame IPv4 UDP to destination port 102 (R168, R172)? -/
def isUdp102 (f : List Byte) : Bool := isIpv4 f && ipProto f == 17 && udpDst f == 102

/-! BER (R195, R361) -/

/-- The head of a BER element: its tag octet, its value's length, and how many octets tag and length take. Lengths of
one to three octets, tags of one octet. -/
def berHead : List Byte → Option (Nat × Nat × Nat)
  | t :: l :: r =>
    if l.toNat < 128 then some (t.toNat, l.toNat, 2)
    else match l.toNat, r with
      | 0x81, a :: _ => some (t.toNat, a.toNat, 3)
      | 0x82, a :: c :: _ => some (t.toNat, a.toNat * 256 + c.toNat, 4)
      | _, _ => none
  | _ => none

/-- The elements of a BER sequence as (tag, value), or none where one does not fit. The fuel is the octet count. -/
def berSeq : Nat → List Byte → Option (List (Nat × List Byte))
  | _, [] => some []
  | 0, _ => none
  | n + 1, l =>
    match berHead l with
    | none => none
    | some (t, len, h) =>
      if h + len ≤ l.length then
        match berSeq n (l.drop (h + len)) with
        | none => none
        | some rest => some ((t, slice l h len) :: rest)
      else none

/-- The elements of a BER sequence. -/
def ber (l : List Byte) : Option (List (Nat × List Byte)) := berSeq l.length l

/-- The value of the first element with a tag. -/
def berGet (es : List (Nat × List Byte)) (tag : Nat) : Option (List Byte) :=
  match es.find? (fun e => e.1 == tag) with
  | some e => some e.2
  | none => none

/-! DRAM regions (R534, R535) -/

/-- The enabled region that holds a DRAM address, outside the CRC area of a CONTROL region (R536). -/
def Block.regionOf (b : Block) (a : Nat) : Option Nat :=
  (List.range 64).find? (fun r =>
    let base := b.get (THL_RGNr_BASE_MIB r) * 2 ^ 20
    let size := b.get (THL_RGNr_SIZE_MIB r) * 2 ^ 20
    let use := if b.on (THL_RGNr_CFG_KIND r) then size / 32 * 31 else size
    b.on (THL_RGNr_CFG_EN r) && decide (base ≤ a) && decide (a < base + use))

/-- Do n bytes from an address lie in one enabled region, and in which? -/
def Block.regionOfRange (b : Block) (a n : Nat) : Option Nat :=
  match b.regionOf a with
  | none => none
  | some r => if n = 0 ∨ b.regionOf (a + n - 1) = some r then some r else none

/-- Do n bytes lie in one enabled DATA region? -/
def Block.inData (b : Block) (a n : Nat) : Bool :=
  match b.regionOfRange a n with
  | none => false
  | some r => !b.on (THL_RGNr_CFG_KIND r)

/-- Do n bytes lie in one enabled CONTROL region? -/
def Block.inControl (b : Block) (a n : Nat) : Bool :=
  match b.regionOfRange a n with
  | none => false
  | some r => b.on (THL_RGNr_CFG_KIND r)

/-- An access outside every region: NOREGION sets and counts (R534). -/
def Block.noRegion (b : Block) : Block :=
  (b.set THL_ERR_NOREGION 1).count (THL_CNTi 5) 1 (bitOf THL_CNT_ROLL 5) 47

/-- An access of n bytes that was refused counts where it lies in no region (R534). -/
def Block.refusedAt (b : Block) (a n : Nat) : Block := b.doIf (b.regionOfRange a n).isNone Block.noRegion

/-- The DRAM channel that serves a byte (R530). -/
def Block.ddrOf (b : Block) (a : Nat) : Nat :=
  if b.on (THL_DDRc_CFG_EN 0) && b.on (THL_DDRc_CFG_EN 1) then a / 256 % 2 else if b.on (THL_DDRc_CFG_EN 0) then 0 else 1

/-- Does a channel that n bytes of DRAM lie on hold its requests back: in self-refresh or training (R522, R524)? -/
def Block.ddrHeld (b : Block) (a n : Nat) : Bool :=
  (List.range ((a % 256 + n + 255) / 256)).any (fun k =>
    let c := b.ddrOf (a + 256 * k)
    b.on (THL_DDRc_STAT_SELF_REFRESH c) || b.on (THL_DDRc_STAT_TRAINING c))

/-- Where the CRC of the line of a CONTROL region lies that holds an address (R536). -/
def Block.lineCrcAt (b : Block) (a : Nat) : Option Nat :=
  match b.regionOf a with
  | none => none
  | some r =>
    if b.on (THL_RGNr_CFG_KIND r) then
      let base := b.get (THL_RGNr_BASE_MIB r) * 2 ^ 20
      let size := b.get (THL_RGNr_SIZE_MIB r) * 2 ^ 20
      some (base + size / 32 * 31 + 2 * ((a - base) / 64))
    else none

/-- The CRC-16 of a line: its address in eight bytes and its 64 bytes (R536). -/
def Block.lineCrc (b : Block) (a : Nat) : Nat := crc16 (leBytes 8 (a / 64 * 64) ++ b.load .dram (a / 64 * 64) 64)

/-- Does the line that holds an address pass its check? A line in no CONTROL region has none (R536, R537). -/
def Block.lineOk (b : Block) (a : Nat) : Bool :=
  match b.lineCrcAt a with
  | none => true
  | some c => b.loadNat .dram c 2 == b.lineCrc a

/-- Bytes stored in DRAM by an engine; a line of a CONTROL region takes its new CRC with them (R536). -/
def Block.dramStore (b : Block) (a : Nat) (l : List Byte) : Block :=
  let b := b.stores .dram a l
  let lines := (a % 64 + l.length + 63) / 64
  b.each lines (fun i b =>
    match b.lineCrcAt (a + 64 * i) with
    | none => b
    | some c => b.storeNat .dram c 2 (b.lineCrc (a + 64 * i)))

end Sys2Proof.Machine
end

