-- ==== Sys2Proof/Machine/Ridge.lean ====
section
/-! DEFINITION. The frame queues of the Ridge cores in DRAM (R70 to R73) and the egress time-stamp FIFO (R97). -/

namespace Sys2Proof.Machine

open Sys2Proof Sys2Proof.Reg

/-- SIZE_LOG of receive queue q: 6 to 12 for queue 0, 6 for queues 1–8 (R71, R73). -/
def Block.rqLog (b : Block) (q : Nat) : Nat := if q = 0 then clampN 6 12 (b.get (RIDGE_RQq_CFG_SIZE_LOG 0)) else 6

/-- SIZE_LOG of transmit queue q: 6 to 12 for queue 0, 5 for queues 1–8 (R72, R73). -/
def Block.tqLog (b : Block) (q : Nat) : Nat := if q = 0 then clampN 6 12 (b.get (RIDGE_TQq_CFG_SIZE_LOG 0)) else 5

/-- a − c modulo 2³². -/
def sub32 (a c : Nat) : Nat := (a + 2 ^ 32 - c % 2 ^ 32) % 2 ^ 32

/-- A frame of a receive queue is discarded and counted (R71); for an auxiliary segment in its own counter too, with the
segment's causes RXQ_DROP and, on a rollover, ROLL (R581, R600). -/
def Block.rqDrop (b : Block) (q : Nat) : Block :=
  let b := b.count (RIDGE_RQq_DROP q) 1 (bitOf (RIDGE_RQq_DROP q) 32) 13
  let b := b.doIf (q != 0) (fun b =>
    let c := bumped (b.rd (AUXs_CNTi (q - 1) 5)).toNat 1
    let b := b.wr (AUXs_CNTi (q - 1) 5) (BitVec.ofNat 32 c.1)
    let b := b.doIf c.2 (fun b => ((b.set (bitOf (AUXs_CNT_ROLL (q - 1)) 5) 1).set (bitOf (AUXs_EVT_CAUSE (q - 1)) 9) 1).raise (931 + 4 * (q - 1)))
    (b.set (bitOf (AUXs_EVT_CAUSE (q - 1)) 8) 1).raiseEvery 1 (931 + 4 * (q - 1)))
  b.raiseEvery 1 13

/-- A frame enters receive queue q: the buffer, then the descriptor, then PROD (R71). SEQ of a descriptor is PROD before it advances: the
count of the frames written before this one, as the module writes the descriptor before it counts it (DEDUCED,
notes/assumptions/154.md). -/
def Block.ridgeRx (b : Block) (q source : Nat) (f : List Byte) (stamp : Nat) (ptp : Bool) : Block :=
  let prod := (b.rd (RIDGE_RQq_PROD q)).toNat
  let d := b.rd64 (RIDGE_RQq_BASE_LO q) + 32 * (prod % 2 ^ b.rqLog q)
  let buf := b.loadNat .dram d 8
  if b.on (RIDGE_RQq_CFG_EN q) && decide (sub32 prod (b.rd (RIDGE_RQq_CONS q)).toNat < 2 ^ b.rqLog q)
      && b.inData d 32 && b.inData buf 2048 then
    let b := b.dramStore buf f
    let b := b.dramStore (d + 8) (leBytes 2 f.length ++ leBytes 1 source ++
      leBytes 1 ((if frameTagged f then 1 else 0) + (if ptp then 2 else 0)) ++ leBytes 4 prod ++
      leBytes 8 (stamp / 65536) ++ leBytes 2 stamp ++ leBytes 6 0)
    b.wr (RIDGE_RQq_PROD q) (BitVec.ofNat 32 (prod + 1))
  else b.rqDrop q

/-- RIDGE_TSF0 to RIDGE_TSF_FILL show the head of the egress time-stamp FIFO (R73). -/
def Block.showTsf (b : Block) : Block :=
  let b := b.set RIDGE_TSF_FILL_FILL b.tim.tsf.length
  match b.tim.tsf with
  | [] => (((b.wr RIDGE_TSF0 0).wr RIDGE_TSF1 0).wr RIDGE_TSF2 0).wr RIDGE_TSF3 0
  | e :: _ =>
    let b := b.wr RIDGE_TSF0 (BitVec.ofNat 32 (2 ^ 31 + e.port * 2 ^ 20 + e.msgType * 2 ^ 16 + e.seqId))
    ((b.wr RIDGE_TSF1 (BitVec.ofNat 32 (e.stamp % 65536))).wr RIDGE_TSF2 (BitVec.ofNat 32 (e.stamp / 65536))).wr
      RIDGE_TSF3 (BitVec.ofNat 32 (e.stamp / 2 ^ 48))

/-- An egress time stamp enters the FIFO, or is dropped, counted and reported when the FIFO is full (R97). -/
def Block.pushTsf (b : Block) (e : TsEntry) : Block :=
  if b.tim.tsf.length < 256 then
    { b with tim := { b.tim with tsf := b.tim.tsf ++ [e] } }.showTsf
  else (b.count TIM_TSFIFO_DROP 1 (bitOf TIM_TSFIFO_DROP 32) 62).raise 62

/-! Descriptors of a transmit queue (R72) -/

/-- The descriptor that queue q completes next. -/
def Block.txDesc (b : Block) (q : Nat) : Nat :=
  b.rd64 (RIDGE_TQq_BASE_LO q) / 4096 * 4096 + 32 * ((b.rd (RIDGE_TQq_CONS q)).toNat % 2 ^ b.tqLog q)

/-- A descriptor completes: STATUS, then DONE, then CONS; CEVT raises event 14. -/
def Block.txDone (b : Block) (q status : Nat) : Block :=
  let d := b.txDesc q
  let flags := b.loadNat .dram (d + 10) 1
  let b := (b.dramStore (d + 11) (leBytes 1 status)).dramStore (d + 10) (leBytes 1 (putBits flags 7 1 1))
  let b := b.wr (RIDGE_TQq_CONS q) (BitVec.ofNat 32 ((b.rd (RIDGE_TQq_CONS q)).toNat + 1))
  b.raiseIf (b.on (RIDGE_TQq_CFG_CEVT q)) 14

/-- How many descriptors wait in queue q. -/
def Block.txWaiting (b : Block) (q : Nat) : Nat := sub32 (b.rd (RIDGE_TQq_PROD q)).toNat (b.rd (RIDGE_TQq_CONS q)).toNat

/-- R71: firmware writes CONS; a write beyond PROD is discarded. -/
def execRidgeRqConsWrite (q : Nat) (v : Word) (s : State) : Host.Outcome State Fault Refusal :=
  runAt .ridge (fun b =>
    if q < 9 ∧ sub32 v.toNat (b.rd (RIDGE_RQq_CONS q)).toNat ≤
        sub32 (b.rd (RIDGE_RQq_PROD q)).toNat (b.rd (RIDGE_RQq_CONS q)).toNat then b.wr (RIDGE_RQq_CONS q) v
    else b) s

/-- R73: a write of a queue's CFG with EN; EN going from 0 to 1 clears PROD and CONS. SIZE_LOG of queues 1–8 is fixed. -/
def execRidgeQueueEnable (tx : Bool) (q : Nat) (v : Word) (s : State) : Host.Outcome State Fault Refusal :=
  runAt .ridge (fun b =>
    if 9 ≤ q then b
    else if tx then
      let b := b.doIf (bit v.toNat 31 && !b.on (RIDGE_TQq_CFG_EN q)) (fun b =>
        (b.wr (RIDGE_TQq_PROD q) 0).wr (RIDGE_TQq_CONS q) 0)
      b.wr (RIDGE_TQq_CFG q) (BitVec.ofNat 32 (bits v.toNat 30 2 * 2 ^ 30 + (if q = 0 then bits v.toNat 0 4 else 5)))
    else
      let b := b.doIf (bit v.toNat 31 && !b.on (RIDGE_RQq_CFG_EN q)) (fun b =>
        (b.wr (RIDGE_RQq_PROD q) 0).wr (RIDGE_RQq_CONS q) 0)
      b.wr (RIDGE_RQq_CFG q) (BitVec.ofNat 32 (bits v.toNat 31 1 * 2 ^ 31 + (if q = 0 then bits v.toNat 0 4 else 6)))) s

/-- R72: firmware advances PROD of a transmit queue. -/
def execRidgeTqProdWrite (q : Nat) (v : Word) (s : State) : Host.Outcome State Fault Refusal :=
  runAt .ridge (fun b => if q < 9 then b.wr (RIDGE_TQq_PROD q) v else b) s

/-- The head entry of the egress time-stamp FIFO is removed (R73). -/
def Block.tsfPop (b : Block) : Block := Block.showTsf { b with tim := { b.tim with tsf := b.tim.tsf.drop 1 } }

/-- R73: a read of RIDGE_TSF3 returns the stamp's high word and removes the head entry. -/
def execRidgeTsfPop (s : State) : Host.Outcome State Fault Refusal :=
  runAt .ridge (fun b => b.tsfPop.answer (b.rd RIDGE_TSF3).toNat) s

end Sys2Proof.Machine
end

