-- ==== Sys2Proof/Machine/Cairn.lean ====
section
/-! DEFINITION. Cairn (chapter "Cairn recorder, error reporting and channel retirement"): the log, freezing, and the
classification of the events of a channel. -/

namespace Sys2Proof.Machine

open Sys2Proof Sys2Proof.Reg

/-- The crystal reaches an instant of ns, and TIM_NOW runs on by the same time; one already past changes nothing. -/
def Block.advanceXtal (b : Block) (ns : Nat) : Block :=
  if b.xtal < ns then b.advanceTo (b.ns + (ns - b.xtal)) else b

/-- Crystal uptime in ms (R669). -/
def Block.uptimeMs (b : Block) : Nat := (b.xtal - b.crn.upBase) / 1000000

def Block.crnCnt (b : Block) (i : Nat) : Block := b.count (CRN_CNTi i) 1 (bitOf CRN_CNT_ROLL i) 1002

/-- LOG_BASE (R672). -/
def Block.logBase (b : Block) : Nat := b.rd64 CRN_LOG_BASE_LO

/-- CAP of R672. -/
def Block.logCap (b : Block) : Nat := b.get CRN_LOG_SIZE_MIB * 16384 - 1024

/-- The bytes of a record (R673). -/
def recordBytes (seq flags : Nat) (r : Report) : List Byte :=
  let body := leBytes 4 seq ++ leBytes 1 r.typ ++ leBytes 1 flags ++ leBytes 2 r.source ++ leBytes 8 r.ns ++
    leBytes 2 r.frac ++ leBytes 1 r.timeState ++ leBytes 1 r.stepGen ++ leBytes 4 r.unitId ++
    fit 32 (r.data.map (fun n => BitVec.ofNat 8 n)) ++ leBytes 4 r.uptime
  body ++ leBytes 4 (crc32 body)

/-- Can a record be written at its place (R679)? -/
def Block.logWritable (b : Block) (a : Nat) : Bool :=
  b.inData a 64 && !b.ddrHeld a 64

/-- One record into the log: was it written? A full log stops (R674), a failed write is retried (R679). -/
def Block.logWrite (b : Block) (r : Report) : Bool × Block :=
  let prod := (b.rd CRN_PROD).toNat
  let used := sub32 prod (b.rd CRN_CONS).toNat
  if b.logCap ≤ used then (false, (b.set CRN_STAT_STOPPED 1).raiseIf (!b.on CRN_STAT_STOPPED) 994)
  else
    let a := b.logBase + 65536 + 64 * (prod % b.logCap)
    if !b.logWritable a then
      let first := !b.crn.failing
      (false, (({ b with crn := { b.crn with failing := true } }.set CRN_STAT_WR_FAIL 1).raiseIf first 1001).refusedAt a 64)
    else
      let b := b.dramStore a (recordBytes prod (r.flags + (if b.crn.prior then 2 else 0)) r)
      let b := { b with crn := { b.crn with failing := false, prior := false } }.wr CRN_PROD (BitVec.ofNat 32 (prod + 1))
      let b := ((b.crnCnt 0).raiseEvery 1000 992).raiseIf (b.on CRN_WM_RECORDS && (b.rd CRN_WM).toNat == used + 1) 993
      (true, if b.logCap ≤ used + 1 then (b.set CRN_STAT_STOPPED 1).raiseIf (!b.on CRN_STAT_STOPPED) 994 else b)

/-- The COALESCED records of the sources with lost reports, in ascending order, until one cannot be written; the flag
says that all were (R671). -/
def Block.coalesce (b : Block) : List Nat → Bool × Block
  | [] => (true, b)
  | s :: t =>
    if b.get (CRN_LOSTs_COUNT s) = 0 then b.coalesce t
    else
      let data := leBytes 2 (b.get (CRN_LOSTs_COUNT s)) ++ leBytes 6 0 ++ leBytes 8 (b.firstLost.get (fun _ => 0) s)
      let r : Report := ⟨0x07, 0, s, (⟨.crn, 0⟩ : UnitRef).id, data.map (fun x => x.toNat), b.ns, b.stamp % 65536,
        b.timeState, b.get TIM_STATUS_STEP_GEN, b.uptimeMs % 2 ^ 32⟩
      match b.logWrite r with
      | (false, b) => (false, b)
      | (true, b) =>
        ({ b with firstLost := (s, 0) :: b.firstLost }.set (CRN_LOSTs_COUNT s) 0 |>.crnCnt 2).coalesce t

/-- Cairn writes the FIFO head, or the coalesced group of a marker that stands there (R670, R671). -/
def Block.logStep (b : Block) : Block :=
  if !b.on CRN_CTRL_EN || b.on CRN_CTRL_FREEZE then b
  else if b.marker = some 0 then
    match b.coalesce (List.range 1024) with
    | (false, b) => b
    | (true, b) => ({ b with marker := none, crn := { b.crn with prior := true } }.set CRN_STAT_MARKER 0).raise 996
  else
    match b.fifo with
    | [] => b
    | r :: rest =>
      match b.logWrite r with
      | (false, b) => b
      | (true, b) =>
        { b with fifo := rest, marker := b.marker.map (fun n => n - 1) }.set CRN_STAT_FIFO_FILL rest.length

/-! Classification (R680 to R683, R685) -/

/-- The history entry of channel c (R682). -/
def Block.histAt (b : Block) (c : Nat) : Nat := b.logBase + 16 * c

/-- Bytes stored in the history area, which lies in a DATA region (R535, R672). -/
def Block.histStore (b : Block) (a : Nat) (l : List Byte) : Block :=
  if b.inData a l.length then b.dramStore a l else b.refusedAt a l.length

/-- Is a channel retired, as its history entry or CRN_RETk says? -/
def Block.isRetired (b : Block) (c : Nat) : Bool :=
  (b.on CRN_CTRL_EN && b.loadNat .dram (b.histAt c + 13) 1 == 1) ||
    (List.range 64).any (fun k => b.on (CRN_RETk_VALID k) && b.get (CRN_RETk_CHANNEL k) == c)

/-- What retiring a channel did: its spare, whether it lacked one, whether the module faulted, and the block after. -/
structure Retired where
  spare : Option Nat
  noSpare : Bool
  faulted : Bool
  block : Block

/-- A channel is retired: its own effect (RETIRED and the move to a spare), the entry in CRN_RETk, the record, the
counter and the events (R683, R685). -/
def Block.retireWith (b : Block) (c reason unitId : Nat) (act : Block → Retired) : Block :=
  let r := act b
  let b := r.block
  let b := b.doIf (b.on CRN_CTRL_EN) (fun b => b.histStore (b.histAt c + 13) [1])
  let k := b.get CRN_RET_COUNT_COUNT
  let sp := match r.spare with | some s => s | none => 0xFFF
  let b := b.doIf (decide (k < 64)) (fun b =>
    b.wr (CRN_RETk k) (BitVec.ofNat 32 (2 ^ 31 + reason * 2 ^ 28 + sp * 2 ^ 16 + c)))
  let b := b.set CRN_RET_COUNT_COUNT (satAdd 255 k 1)
  let sp16 := match r.spare with | some s => s | none => 0xFFFF
  let b := b.report 0x06 999 unitId 0
    [c % 256, c / 256, reason, 0, sp16 % 256, sp16 / 256, if r.faulted then 1 else 0]
  ((b.crnCnt 4).raise 999).raiseIf r.noSpare 1000

/-- An event of a channel is recorded as transient (R681, R682). -/
def Block.transient (b : Block) (c kind n unitId : Nat) : Block :=
  ((b.report 0x05 998 unitId 0 [c % 256, c / 256, kind, n]).crnCnt 3).raise 998

/-- The classification of R682: an event of channel c of a kind, permanent at once or not; a TDC is
retired under R390 alone, never by its history. -/
def Block.classify (b : Block) (c kind unitId : Nat) (perm : Bool) (reason : Nat) (act : Block → Retired)
    (byHistory : Bool := true) : Block :=
  if b.isRetired c then b
  else if !b.on CRN_CTRL_EN then
    if perm then b.retireWith c reason unitId act else b.transient c kind 1 unitId
  else
    let a := b.histAt c
    let now := b.uptimeMs
    let t1 := b.loadNat .dram a 6
    let t2 := b.loadNat .dram (a + 6) 6
    let n := b.loadNat .dram (a + 12) 1
    if perm then b.retireWith c reason unitId act
    else if n = 2 ∧ now - t1 ≤ 600000 ∧ byHistory = true then b.retireWith c 1 unitId act
    else if n < 2 then
      let b := b.histStore (if n = 0 then a else a + 6) (leBytes 6 now)
      (b.histStore (a + 12) [BitVec.ofNat 8 (n + 1)]).transient c kind (n + 1) unitId
    else
      let b := b.histStore a (leBytes 6 t2)
      (b.histStore (a + 6) (leBytes 6 now)).transient c kind 2 unitId

/-! The commands -/

/-- R670, R671, R674: Cairn writes what stands at the FIFO's head. -/
def execLogRecordWrite (s : State) : Host.Outcome State Fault Refusal :=
  runAt .crn (fun b => if b.crn.failing then b else b.logStep) s

/-- R679: a failed write is tried again. -/
def execRecordWriteRetry (s : State) : Host.Outcome State Fault Refusal :=
  runAt .crn (fun b => if b.crn.failing then b.logStep else b) s

/-- R674: software writes the count of records it has consumed; one beyond PROD is discarded. -/
def execCrnConsWrite (v : Word) (s : State) : Host.Outcome State Fault Refusal :=
  runAt .crn (fun b =>
    let cons := (b.rd CRN_CONS).toNat
    if sub32 v.toNat cons ≤ sub32 (b.rd CRN_PROD).toNat cons then
      let b := b.wr CRN_CONS v
      if sub32 (b.rd CRN_PROD).toNat v.toNat < b.logCap then b.set CRN_STAT_STOPPED 0 else b
    else b) s

/-- R677: FREEZE is set, with the time at which it clears itself, or cleared. -/
def execFreeze (v : Bool) (s : State) : Host.Outcome State Fault Refusal :=
  runAt .crn (fun b =>
    if v then
      let ms := clampN 1 65535 (b.get CRN_CTRL_FREEZE_MAX_MS)
      let b := b.doIf (!b.on CRN_CTRL_FREEZE) (fun b =>
        { b with crn := { b.crn with freezeEnd := b.xtal + ms * 1000000 } })
      (b.set CRN_CTRL_FREEZE 1).set CRN_STAT_FROZEN 1
    else (b.set CRN_CTRL_FREEZE 0).set CRN_STAT_FROZEN 0) s

/-- R677: FREEZE_MAX_MS after it was set, FREEZE clears itself. -/
def execFreezeTimeout (s : State) : Host.Outcome State Fault Refusal :=
  runAt .crn (fun b =>
    if b.on CRN_CTRL_FREEZE then
      let b := b.advanceXtal b.crn.freezeEnd
      (((b.set CRN_CTRL_FREEZE 0).set CRN_STAT_FROZEN 0).crnCnt 5).raise 997
    else b) s

/-- R676: a NOTE report of the 32 bytes of CRN_NOTE0–7. -/
def execNote (s : State) : Host.Outcome State Fault Refusal :=
  runAt .crn (fun b =>
    let data := (List.range 8).foldl (fun l w => l ++ leBytes 4 (b.rd (CRN_NOTEw w)).toNat) []
    b.report 0x08 0xFFFF (⟨.crn, 0⟩ : UnitRef).id 0 (data.map (fun x => x.toNat))) s

/-- The CONTROL_ERROR record (R675): the check, the action and the address or register offset. -/
def Block.controlRecord (b : Block) (source unit check action a : Nat) : Block :=
  b.report 0x02 source unit 0 ([check, action, 0, 0, 0, 0, 0, 0] ++ (leBytes 8 a).map (fun x => x.toNat))

/-- A line-CRC error shows in THL: the latch, the counter, event 40 (R537). -/
def Block.crcLatch (b : Block) (a : Nat) : Block :=
  (((b.wr64 THL_CRC_ADDR_LO (a / 64 * 64)).set THL_ERR_CTRL_CRC 1).count (THL_CNTi 0) 1 (bitOf THL_CNT_ROLL 0) 47).raise 40

/-- A line-CRC error in a line of a CONTROL region that a unit other than CRZ and KEY read: the latch, the counter, event 40,
a record of the action, here the unit reset of R44 (R537). -/
def Block.crcError (b : Block) (a action : Nat) : Block :=
  (b.crcLatch a).controlRecord 40 (⟨.thl, 0⟩ : UnitRef).id 4 action (a / 64 * 64)

end Sys2Proof.Machine
end

