-- ==== Sys2Proof/Machine/Numeric.lean ====
section
/-! DEFINITION. Fixed-point arithmetic: the roundings of R228, square roots, the trigonometric functions of R232, R239,
R240 and R728 to the exact nearest integer. -/

namespace Sys2Proof.Machine

/-- v / 2ˢ to the nearest integer, ties to even (rne of R228). -/
def rne (v : Int) (s : Nat) : Int :=
  if s = 0 then v
  else
    let q := asr v s
    let r := v - q * ((2 ^ s : Nat) : Int)
    let h : Int := ((2 ^ (s - 1) : Nat) : Int)
    if h < r ∨ (r = h ∧ q % 2 = 1) then q + 1 else q

/-- a / d to the nearest integer, ties to even, for d > 0 (rne_div of R228). -/
def rneDiv (a : Int) (d : Nat) : Int :=
  let q := Int.fdiv a ((d : Nat) : Int)
  let r := a - q * ((d : Nat) : Int)
  if (d : Int) < 2 * r ∨ (2 * r = (d : Int) ∧ q % 2 = 1) then q + 1 else q

/-- A value clamped to w signed bits, and whether that changed it (R228). -/
def satS (w : Nat) (v : Int) : Int × Bool :=
  let c := clampI (-((2 ^ (w - 1) : Nat) : Int)) (((2 ^ (w - 1) : Nat) : Int) - 1) v
  (c, c != v)

/-- The integer square root, for n below 2¹²⁸. -/
def isqrt (n : Nat) : Nat :=
  (List.range 64).foldl (fun r k => if (r + 2 ^ (63 - k)) * (r + 2 ^ (63 - k)) ≤ n then r + 2 ^ (63 - k) else r) 0

/-- The integer nearest to √n; no tie arises. -/
def nearestSqrt (n : Nat) : Nat := (isqrt (4 * n) + 1) / 2

/-- The integer nearest to √(n / 2); no tie arises. -/
def nearestSqrtHalf (n : Nat) : Nat := (isqrt (2 * n) + 1) / 2

/-- 2π in units of 2⁻¹⁹². -/
def twoPi : Nat := 39440193395453077124792266728456537782926901730380179465120

/-- The Taylor series of the cosine and the sine of x, in units of 2⁻¹⁹². -/
def cosFix (x : Int) : Int :=
  ((List.range 64).foldl (fun (p : Int × Int) k =>
    let t := -(asr (asr (p.2 * x) 192 * x) 192) / (((2 * k + 1) * (2 * k + 2) : Nat) : Int)
    (p.1 + t, t)) (((2 ^ 192 : Nat) : Int), ((2 ^ 192 : Nat) : Int))).1
def sinFix (x : Int) : Int :=
  ((List.range 64).foldl (fun (p : Int × Int) k =>
    let t := -(asr (asr (p.2 * x) 192 * x) 192) / (((2 * k + 2) * (2 * k + 3) : Nat) : Int)
    (p.1 + t, t)) (x, x)).1

/-- The angle of num / den turns, in units of 2⁻¹⁹². -/
def angleFix (num den : Nat) : Int := ((twoPi * num / den : Nat) : Int)

/-- √2 in units of 2⁻¹²⁰. -/
def sqrt2 : Nat := 1879812259125035246445576347481445757

/-- The bits of the angle of x + jy in turns, from the half turn down: the angle's top bit is its sign, and squaring
doubles the angle. -/
def turnBits : Nat → Int → Int → Nat
  | 0, _, _ => 0
  | n + 1, x, y =>
    let x' := x * x - y * y
    let y' := 2 * x * y
    let s := Nat.log2 (x'.natAbs + y'.natAbs) - 255
    (if y < 0 ∨ (y = 0 ∧ x < 0) then 2 ^ n else 0) + turnBits n (asr x' s) (asr y' s)

/-- atan2(y, x) × 2³¹/π to the nearest integer, as 32 bits (R240). -/
def angle32 (y x : Int) : Nat :=
  if x = 0 ∧ y = 0 then 0
  else (turnBits 33 (x * ((2 ^ 200 : Nat) : Int)) (y * ((2 ^ 200 : Nat) : Int)) + 1) / 2 % 2 ^ 32

end Sys2Proof.Machine
end

