-- ==== Sys2Proof/Machine/Switch.lean ====
section
/-! DEFINITION. The switch core (chapter "Switch core and station bus ports"): redundancy pairs as egress sees them,
buffer admission, forwarding, the forwarding database, link groups, mirror capture and the Belay gate. -/

namespace Sys2Proof.Machine

open Sys2Proof Sys2Proof.Reg

def Block.modSwc (b : Block) (f : Swc → Swc) : Block := { b with swc := f b.swc }

/-- The state of port p: process ports 0–15, station ports 16–19. -/
def Block.prt (b : Block) (p : Nat) : Port := b.port.get (fun _ => {}) p
def Block.setPrt (b : Block) (p : Nat) (x : Port) : Block := { b with port := (p, x) :: b.port }

/-- Is an index in a mask of 24 ports? -/
def inMask (m i : Nat) : Bool := bit m i

/-- The link of switch port p; the internal ports 20–22 are always up. -/
def Block.linkUp (b : Block) (p : Nat) : Bool :=
  if p < 16 then b.on (PRTp_STAT_LINK p) else if p < 20 then b.on (STNs_STAT_LINK (p - 16)) else true

/-! Counters and events of the ports and of the switch (R148, R184, R185) -/

def Block.prtCnt (b : Block) (p i n : Nat) : Block :=
  b.count (PRTp_CNTi p i) n (bitOf (PRTp_CNT_ROLL p) i) (132 + 16 * p)
def Block.stnCnt (b : Block) (s i n : Nat) : Block :=
  b.count (STNs_CNTi s i) n (bitOf (STNs_CNT_ROLL s) i) (388 + 16 * s)
def Block.swcCnt (b : Block) (i n : Nat) : Block := b.count (SWC_CNTi i) n (bitOf SWC_CNT_ROLL i) 454

/-! Redundancy pairs (R132) -/

/-- The role a port's last read values give it: its MODE and its partner, where the two form a pair. -/
def Block.pairOf (b : Block) (p : Nat) : Option (Nat × Nat) :=
  let x := b.prt p
  let r := x.red.toNat
  let m := bits r 0 3
  let q := bits r 28 4
  let y := b.prt q
  let t := y.red.toNat
  if p < 16 ∧ x.en = true ∧ y.en = true ∧ m ≠ 0 ∧ m < 6 ∧ q ≠ p ∧ bits t 28 4 = p ∧ bits t 0 3 = m ∧
      (if m = 1 then bit r 3 ≠ bit t 3 else bits x.cfg.toNat 1 2 = bits y.cfg.toNat 1 2) then some (m, q)
  else none

/-- The lower-numbered port of a pair, which keeps its node table, counter and parameters (R133). -/
def Block.pairLow (b : Block) (p : Nat) : Nat := match b.pairOf p with | some (_, q) => if q < p then q else p | none => p

/-- An egress mask with both ports of each pair it names, less the pair of the ingress port (R135); a PTP frame goes to the named ports
alone (R96). -/
def Block.expandPairs (b : Block) (src : Nat) (f : List Byte) (mask : Nat) : Nat :=
  (List.range 24).foldl (fun acc e =>
    let asked := match b.pairOf e with
      | some (_, q) => (inMask mask e || (inMask mask q && etherType f != 0x88F7)) && e != src && q != src
      | none => inMask mask e
    if asked then acc + 2 ^ e else acc) 0

/-- The sequence number each pair with a port in a mask gives a frame, and the counters advanced by one (R135, R136). -/
def Block.takeSeqs (b : Block) (mask : Nat) : List (Nat × Nat) × Block :=
  (List.range 16).foldl (fun r p =>
    match r.2.pairOf p with
    | some (_, q) =>
      if (inMask mask p || inMask mask q) && decide (p < q) then
        let x := r.2.prt p
        ((p, x.seq) :: r.1, r.2.setPrt p { x with seq := (x.seq + 1) % 65536 })
      else r
    | none => r) ([], b)

/-! Cells (R157, R158) -/

def cellsOf (f : List Byte) : Nat := (f.length + 4 + 255) / 256

/-- The field of SWC_QOCC that holds the cells of queue q of port e. -/
def qocc (e q : Nat) : Fld := ⟨SWC_QOCCn_w e (q / 2), 16 * (q % 2), 16⟩

/-- Cells now held by frames from port 20. -/
def Block.pubUsed (b : Block) : Nat :=
  (b.swc.store.filter (fun f => f.src == 20)).foldl (fun n f => n + cellsOf f.bytes) 0

/-- Cells still owed to queues below their minimum. -/
def Block.cellsOwed (b : Block) : Nat :=
  (List.range 184).foldl (fun n i => n + (b.get SWC_BUF_MIN_MIN_CELLS - b.get (qocc (i / 8) (i % 8)))) 0

/-- shared_free of R158. -/
def Block.sharedFree (b : Block) : Nat :=
  b.get SWC_BUF_STAT_FREE - (b.get SWC_BUF_CFG_PUB_CELLS - b.pubUsed) - b.cellsOwed

/-- The free cells change; falling below the watermark raises event 449. -/
def Block.setFree (b : Block) (n : Nat) : Block :=
  let wm := b.get SWC_BUF_WM_LOW
  let old := b.get SWC_BUF_STAT_FREE
  (b.set SWC_BUF_STAT_FREE n).raiseIf (decide (wm ≤ old) && decide (n < wm)) 449

/-! Launch times (R112) -/

/-- tdiff40 of R112: now minus a 40-bit target, signed. -/
def tdiff40 (now target : Nat) : Int := sgn 40 ((now + 2 ^ 40 - target % 2 ^ 40) % 2 ^ 40)

/-- The full time nearest to now whose low 40 bits are a target (R112). -/
def Block.extend40 (b : Block) (target : Nat) : Nat := (((b.ns : Nat) : Int) - tdiff40 b.ns target).toNat

/-! What lookup reads of a frame (R154, R156) -/

/-- The VLAN ID used for lookup (R154 step 1). -/
def Block.lookupVid (b : Block) (port : Nat) (f : List Byte) : Nat :=
  if frameTci f % 4096 = 0 then b.get (SWC_PORTn_CFG_PVID port) else frameTci f % 4096

/-- The egress queue of a frame (R156). -/
def Block.queueOf (b : Block) (port : Nat) (f : List Byte) : Nat :=
  if frameTagged f then frameTci f / 8192 else b.get (SWC_PORTn_CFG_PCP port)

/-! Mirror capture (R165 to R167) -/

/-- The bytes of a mirror record for SNAP. -/
def mirSize (snap : Nat) : Nat := if snap = 0 then 64 else if snap = 1 then 128 else 256

/-- A record of session m is lost: counted, with event 457 + m at most once a second (R167). -/
def Block.mirLose (b : Block) (m : Nat) : Block :=
  let b := b.modSwc (fun w => { w with mirLost := (m, satAdd 0xFFFF (w.mirLost.get (fun _ => 0) m) 1) :: w.mirLost })
  (b.count (SWC_MIRm_LOST m) 1 (bitOf (SWC_MIRm_LOST m) 32) 454).raiseEvery 1000 (457 + m)

/-- Session m writes one record (R166), or loses it. A discard for which R166 has no REASON (none) writes a free value there. -/
def Block.mirWrite (b : Block) (m port : Nat) (f : List Byte) (dropped egress : Bool) (reason : Option Nat) (stamp vid queue : Nat) :
    Block :=
  let size := mirSize (b.get (SWC_MIRm_CTRL_SNAP m))
  let cap := 2 ^ clampN 16 30 (b.get (SWC_MIRm_CTRL_RING_LOG m)) / size
  let prod := (b.rd (SWC_MIRm_PROD m)).toNat
  let cons := (b.rd (SWC_MIRm_CONS m)).toNat
  let full := decide (cap ≤ sub32 prod cons)
  let at' := b.rd64 (SWC_MIRm_BASE_LO m) + prod % cap * size
  if (full && !b.on (SWC_MIRm_CTRL_POLICY m)) || !b.inData at' size then (b.mirLose m).doIf (!b.inData at' size) (fun b => b.refusedAt at' size)
  else
    let b := b.doIf full (fun b => b.wr (SWC_MIRm_CONS m) (BitVec.ofNat 32 (cons + 1)))
    let r := match reason with | some r => (r, b) | none => b.draw 256
    let b := r.2
    let lost := b.swc.mirLost.get (fun _ => 0) m
    let flags := (if egress then 1 else 0) + (if dropped then 2 else 0) +
      (if f.length < size - 32 then 4 else 0) + (if lost = 0 then 0 else 8)
    let pcp := frameTci f / 8192
    let rec' := leBytes 2 prod ++ leBytes 1 m ++ leBytes 1 flags ++ leBytes 2 (f.length + 4) ++ leBytes 1 port ++
      leBytes 1 r.1 ++ leBytes 8 (stamp / 65536) ++ leBytes 2 stamp ++ leBytes 2 lost ++
      leBytes 2 (vid % 4096 + pcp * 4096 + (if frameTagged f then 32768 else 0)) ++ leBytes 1 queue ++
      leBytes 9 0 ++ fit (size - 32) f
    let b := b.dramStore at' rec'
    let b := (b.wr (SWC_MIRm_PROD m) (BitVec.ofNat 32 (prod + 1))).modSwc (fun w => { w with mirLost := (m, 0) :: w.mirLost })
    let half := decide (cap < 2 * sub32 (prod + 1) (b.rd (SWC_MIRm_CONS m)).toNat) && decide (2 * sub32 prod cons ≤ cap)
    (b.swcCnt 11 1).raiseIf half (461 + m)

/-- Every session that captures this frame at this port does so (R165). -/
def Block.mirror (b : Block) (port : Nat) (f : List Byte) (dropped egress : Bool) (reason : Option Nat) (stamp vid queue : Nat) : Block :=
  b.each 4 (fun m b =>
    let ing := inMask (b.get (SWC_MIRm_ING_MASK m)) port
    let egr := inMask (b.get (SWC_MIRm_EGR_MASK m)) port
    let asked := if dropped then b.on (SWC_MIRm_CTRL_DROPS m) && (ing || egr) else if egress then egr else ing
    let ety := beAt f (afterVlan f) 2
    if b.on (SWC_MIRm_CTRL_EN m) && asked &&
        (ety &&& b.get (SWC_MIRm_ETYPE_MASK m)) == b.get (SWC_MIRm_ETYPE_VALUE m) then
      b.mirWrite m port f dropped egress reason stamp vid queue
    else b)

/-- A frame is discarded at egress port e for a reason of R166, at TIM_NOW; its record carries both the egress and the dropped flag
(DEDUCED, notes/assumptions/158.md). -/
def Block.mirDrop (b : Block) (e : Nat) (f : SwFrame) (reason : Option Nat) : Block :=
  b.mirror e f.bytes true true reason b.stamp f.vid f.queue

/-- A frame that arrived on port p is captured (R165). -/
def Block.rxMirror (b : Block) (p : Nat) (f : List Byte) (stamp : Nat) : Block :=
  b.mirror p f false false (some 0) stamp (b.lookupVid p f) 0xFF

/-- A frame that arrived on port p is discarded there, for a reason of R166 or none that it lists. -/
def Block.rxDrop (b : Block) (p : Nat) (f : List Byte) (reason : Option Nat) : Block :=
  b.mirror p f true false reason b.stamp (b.lookupVid p f) 0xFF

/-! Admission (R158, R160, R724) -/

/-- The ports of E whose links are down take no reference of a frame; each counts once in LINK_FLUSH (R724). -/
def Block.liveMask (b : Block) (f : SwFrame) (E : Nat) : Nat × Block :=
  (List.range 23).foldl (fun r e =>
    if inMask E e then
      if r.2.linkUp e then (r.1 + 2 ^ e, r.2) else (r.1, (r.2.swcCnt 8 1).mirDrop e f (some 5))
    else r) (0, b)

/-- Does queue q of port e accept c cells (R158)? -/
def Block.queueTakes (b : Block) (c e q shared : Nat) : Bool :=
  let use := b.get (qocc e q)
  let min := b.get SWC_BUF_MIN_MIN_CELLS
  decide (use + c ≤ min) ||
    (decide (c ≤ shared) && decide (use + c ≤ min + shared / 2 ^ b.get SWC_BUF_CFG_DYN_SHIFT))

/-- Put a frame's id at the end of a queue. -/
def enqueue (m : Sparse (List Nat)) (k id : Nat) : Sparse (List Nat) := (k, m.get (fun _ => []) k ++ [id]) :: m

/-- The admission of R158 for a frame not from port 20: the mask of the queues that accepted it, the frame stored
once with that many references, and the drops counted. -/
def Block.takeIn (b : Block) (f : SwFrame) (E : Nat) : Nat × Block :=
  let c := cellsOf f.bytes
  let shared := b.sharedFree
  let live := b.liveMask f E
  let r := (List.range 23).foldl (fun (r : Nat × Block) e =>
    if inMask live.1 e then
      if b.queueTakes c e f.queue shared then (r.1 + 2 ^ e, r.2)
      else (r.1, ((r.2.swcCnt 2 1).raiseEvery 1 448).mirDrop e f (some 1))
    else r) (0, live.2)
  let ok := r.1
  let n := (List.range 23).foldl (fun n e => if inMask ok e then n + 1 else n) 0
  if n = 0 then (0, r.2)
  else
    let sq := if etherType f.bytes = 0x88F7 then ([], r.2) else r.2.takeSeqs ok
    let b := sq.2
    let g := { f with id := b.swc.nextId, refs := n, seqs := sq.1, ports := ok }
    let b := b.modSwc (fun w => { w with store := w.store ++ [g], nextId := w.nextId + 1 })
    let b := b.setFree (b.get SWC_BUF_STAT_FREE - c)
    let b := b.each 23 (fun e b => b.doIf (inMask ok e) (fun b =>
      (b.set (qocc e f.queue) (b.get (qocc e f.queue) + c)).modSwc (fun w =>
        match f.launch with
        | some _ => { w with launch := enqueue w.launch e g.id }
        | none => { w with queues := enqueue w.queues (8 * e + f.queue) g.id })))
    (ok, b)

/-- A stored frame by its id. -/
def Block.stored (b : Block) (id : Nat) : Option SwFrame := b.swc.store.find? (fun f => f.id == id)

/-- The descriptor of a frame from the Ridge port takes the STATUS of the first discard (R72). -/
def Block.txMark (b : Block) (id status : Nat) : Block :=
  b.modSwc (fun w => { w with txRing := w.txRing.map (fun e => if e.1 = id && e.2.1 == 0 then (id, status, e.2.2) else e) })

/-- The descriptors at the front whose frames are gone complete, in ring order (R72). -/
def Block.txComplete (b : Block) : List (Nat × Nat × Bool) → Block
  | [] => b.modSwc (fun w => { w with txRing := [] })
  | e :: t => if e.2.2 then (b.txDone 0 e.2.1).txComplete t else b.modSwc (fun w => { w with txRing := e :: t })

/-- A frame from the Ridge port is gone. -/
def Block.txEnd (b : Block) (id : Nat) : Block :=
  b.txComplete (b.swc.txRing.map (fun e => if e.1 = id then (id, e.2.1, true) else e))

/-- A station port has just lost a frame it had to send: it is empty from now on, if no other waits (R173). -/
def Block.idleNow (b : Block) (e : Nat) : Block :=
  b.doIf (decide (16 ≤ e) && decide (e < 20)) (fun b => b.modSwc (fun w => { w with idleAt := (e - 16, b.ns) :: w.idleAt }))

/-- One reference of a frame at port e is released; the last one frees its cells (R160). -/
def Block.release (b : Block) (e id : Nat) : Block :=
  match b.stored id with
  | none => b
  | some f =>
    let b := b.idleNow e
    let b := b.doIf (f.src != 20) (fun b => b.set (qocc e f.queue) (b.get (qocc e f.queue) - cellsOf f.bytes))
    if f.refs ≤ 1 then
      let b := (b.modSwc (fun w => { w with store := w.store.filter (fun g => g.id != id) })).setFree
        (b.get SWC_BUF_STAT_FREE + cellsOf f.bytes)
      b.doIf (f.src == 21) (fun b => b.txEnd id)
    else b.modSwc (fun w => { w with store := w.store.map (fun g => if g.id = id then { g with refs := g.refs - 1 } else g) })

/-! The forwarding database (R155) -/

def fdbBucket (vid mac : Nat) : Nat := crc16 (beBytes 2 vid ++ beBytes 6 mac) % 2048

def Block.fdbFind (b : Block) (vid mac : Nat) : Option FdbEntry := b.swc.fdb.find? (fun e => e.vid == vid && e.mac == mac)

/-- Is a bucket's every way taken? -/
def Block.fdbFull (b : Block) (vid mac : Nat) : Bool :=
  decide (4 ≤ (b.swc.fdb.filter (fun e => fdbBucket e.vid e.mac == fdbBucket vid mac)).length)

/-- An entry written over any entry of the same key. -/
def Block.fdbPut (b : Block) (x : FdbEntry) : Block :=
  b.modSwc (fun w => { w with fdb := x :: w.fdb.filter (fun e => !(e.vid == x.vid && e.mac == x.mac)) })

/-- The source of a frame is learned into a free way, or the learn is refused (R155). -/
def Block.fdbLearn (b : Block) (port vid mac : Nat) : Block :=
  if b.on (SWC_PORTn_CFG_LEARN port) && !isGroup mac then
    match b.fdbFind vid mac with
    | some e => if e.static then b else b.fdbPut { e with mask := 2 ^ port, lastNs := b.ns }
    | none =>
      if b.fdbFull vid mac then (b.swcCnt 9 1).raise 451
      else b.fdbPut ⟨vid, mac, false, 2 ^ port, b.ns⟩
  else b

/-! Link groups (R162 to R164) -/

/-- Members of group k, in member order. -/
def Block.lagMembers (b : Block) (k : Nat) : List Nat :=
  (List.range (b.get (SWC_LAGk_NMEM k) + 1)).map (fun m => bits (b.get (SWC_LAGk_MEMBERS k)) (5 * m) 5)

/-- The line rate of a switch port in Mbit/s, from the values it last read (R120, R171). -/
def Block.rateOf (b : Block) (p : Nat) : Nat :=
  let c := (b.prt p).cfg.toNat
  let sp := fun s => if s = 0 then 10 else if s = 1 then 100 else 1000
  if p < 16 then
    match bits c 1 2 with
    | 0 => 25000 | 1 => 10000 | 2 => 1000 | _ => sp (b.get (PRTp_STAT_SPEED p))
  else if p < 20 then
    match bits c 1 3 with
    | 0 => 25000 | 1 => 10000 | 2 => 10000 | 3 => 1000 | 4 => 1000 | _ => sp (b.get (STNs_STAT_SPEED (p - 16)))
  else 25000

/-- Does group k break a condition of R162? -/
def Block.lagBad (b : Block) (k : Nat) : Bool :=
  let ms := b.lagMembers k
  b.get (SWC_LAGk_NMEM k) == 0 || ms.any (fun p => decide (20 ≤ p) || (b.pairOf p).isSome) ||
    !ms.all (fun p => b.rateOf p == b.rateOf (ms.headD 0)) || !decide ms.Nodup

/-- Is group k in force? -/
def Block.lagOn (b : Block) (k : Nat) : Bool := b.on (SWC_LAGk_EN k) && !b.lagBad k

/-- The field of bucket i of group k. -/
def lagBucket (k i : Nat) : Fld := ⟨SWC_LAGk_BUCKETw k (i / 16), 2 * (i % 16), 2⟩

/-- What SWC_LAG_STAT reads: the ignored groups and the live members (R186). -/
def Block.lagStat (b : Block) : Nat :=
  (List.range 4).foldl (fun n k =>
    let n := if b.on (SWC_LAGk_EN k) && b.lagBad k then n + 2 ^ (16 + k) else n
    (List.range 4).foldl (fun n m =>
      if b.on (SWC_LAGk_EN k) && decide (m < (b.lagMembers k).length) && b.linkUp ((b.lagMembers k).getD m 0)
      then n + 2 ^ (4 * k + m) else n) n) 0

/-- The hash of R163 over the fields that SWC_HASH_CFG selects. -/
def Block.flowHash (b : Block) (f : List Byte) (vid : Nat) : Nat :=
  let sel := fun i => bit (b.get SWC_HASH_CFG_FIELDS) i
  let l4 := isIpv4 f && (ipProto f == 17 || ipProto f == 6)
  let app := etherType f == 0x88B8 || etherType f == 0x88BA
  crc16 ((if sel 0 then slice f 0 12 else []) ++ (if sel 1 then beBytes 2 vid else []) ++
    (if sel 2 then beBytes 2 (etherType f) else []) ++
    (if sel 3 && isIpv4 f then slice f (ipAt f + 12) 8 ++ slice f (ipAt f + 9) 1 else []) ++
    (if sel 4 && l4 then slice f (l4At f) 4 else []) ++
    (if sel 5 && app then slice f (etherAt f + 2) 2 else []))

/-- Link groups of a destination set: each group's members are replaced by the one its bucket names (R163). -/
def Block.resolveLag (b : Block) (f : List Byte) (vid E : Nat) : Nat :=
  (List.range 4).foldl (fun E k =>
    let ms := b.lagMembers k
    if b.lagOn k && ms.any (fun p => inMask E p) then
      let rest := (List.range 24).foldl (fun n e => if inMask E e && !(e ∈ ms) then n + 2 ^ e else n) 0
      if ms.any (fun p => b.linkUp p) then
        rest + 2 ^ ms.getD (b.get (lagBucket k (b.flowHash f vid % 256))) 0
      else rest
    else E) E

/-! Forwarding (R154) -/

/-- A frame of the forwarding engine: learning, the destination set of R154, and admission under R158. -/
def Block.forward (b : Block) (f0 : SwFrame) : Nat × Block :=
  let vid := b.lookupVid f0.src f0.bytes
  let f := { f0 with vid := vid, tagged := frameTagged f0.bytes, queue := b.queueOf f0.src f0.bytes }
  let members := b.get (SWC_VLANv_MEMBERS vid)
  if !inMask members f.src then (0, ((b.swcCnt 3 1).raiseEvery 1 453).rxDrop f.src f.bytes (some 3))
  else
    let b := b.fdbLearn f.src vid (frameSrc f.bytes)
    let E := match b.fdbFind vid (frameDst f.bytes) with
      | some e => e.mask &&& members
      | none => if b.on (SWC_VLANv_FLOOD vid) then members else 0
    let E := (List.range 23).foldl (fun n e => if inMask E e && e != f.src then n + 2 ^ e else n) 0
    let E := b.resolveLag f.bytes vid (b.expandPairs f.src f.bytes E)
    if E = 0 then (0, ((b.swcCnt 4 1).raiseEvery 1 452).rxDrop f.src f.bytes (some 4))
    else
      let r := b.takeIn f E
      if r.1 = 0 then r else (r.1, (r.2.swcCnt 0 1).swcCnt 1 (f.bytes.length + 4))

/-! Link loss (R160, R164) -/

/-- The frame in transmission at port e, if any, is ended with an invalid check sequence and its reference released
(R122, R160). -/
def Block.endBad (b : Block) (e : Nat) : Block :=
  match b.swc.sending.get (fun _ => none) e with
  | none => b
  | some id =>
    (((b.emit (.frame e (b.swc.wire.get (fun _ => []) e) true)).txMark id 4).release e id).modSwc (fun w =>
      { w with sending := (e, none) :: w.sending, wire := (e, []) :: w.wire })

/-- Every frame queued for port e is flushed and counted, for a reason of R166; one in transmission is cut. -/
def Block.flushPort (b : Block) (e : Nat) (reason : Option Nat) : Block :=
  let ids := (List.range 8).foldl (fun l q => l ++ b.swc.queues.get (fun _ => []) (8 * e + q)) []
    ++ b.swc.pubQ.get (fun _ => []) e ++ b.swc.launch.get (fun _ => []) e
  let b := ids.foldl (fun b id =>
    match b.stored id with
    | none => b
    | some f => (((b.swcCnt 8 1).mirDrop e f reason).txMark id 4).release e id) b
  (b.modSwc (fun w => { w with
    queues := (List.range 8).foldl (fun m q => (8 * e + q, []) :: m) w.queues
    pubQ := (e, []) :: w.pubQ
    launch := (e, []) :: w.launch })).endBad e

/-- A frame waiting for its launch at port e is discarded. -/
def Block.launchDrop (b : Block) (e id : Nat) : Block :=
  match b.stored id with
  | none => b
  | some f => ((b.mirDrop e f none).txMark id 5).release e id

/-- Every queued launch is discarded, its reference released, and counted late (R117, R160). -/
def Block.dropLaunches (b : Block) : Block :=
  b.each 20 (fun p b =>
    let q := b.swc.launch.get (fun _ => []) p
    if q.isEmpty then b
    else
      let b := q.foldl (fun b id => b.launchDrop p id) (b.modSwc (fun w => { w with launch := (p, []) :: w.launch }))
      (b.count TIM_LAUNCH_LATE q.length (bitOf TIM_LAUNCH_LATE 32) 62).raise 60)

/-- The live members of group k in member order, starting after member m. -/
def Block.lagAfter (b : Block) (k m : Nat) : List Nat :=
  let n := (b.lagMembers k).length
  ((List.range n).map (fun i => (m + 1 + i) % n)).filter (fun i => i != m && b.linkUp ((b.lagMembers k).getD i 0))

/-- A member of a group has lost its link: event 455 and the station port's event 14; its buckets go to the live members in turn, or,
where none is live, event 456 (R164, R185). -/
def Block.lagLose (b : Block) (p : Nat) : Block :=
  b.each 4 (fun k b =>
    if b.lagOn k && p ∈ b.lagMembers k then
      let m := (b.lagMembers k).idxOf p
      let live := b.lagAfter k m
      let b := (b.raise 455).raiseIf (decide (16 ≤ p)) (398 + 16 * (p - 16))
      if live.isEmpty then b.raise 456
      else
        ((List.range 256).foldl (fun (r : Nat × Block) i =>
          if r.2.get (lagBucket k i) = m then (r.1 + 1, r.2.set (lagBucket k i) (live.getD (r.1 % live.length) 0)) else r) (0, b)).2
    else b)

/-! The Belay gate (R168 to R170) -/

/-- Does the gate act on a frame (R168)? -/
def gated (f : SwFrame) : Bool :=
  f.src == 20 || f.launch.isSome ||
    ((f.src == 21 || f.src == 22) && (beAt f.bytes (afterVlan f.bytes) 2 == 0x88B8 ||
      beAt f.bytes (afterVlan f.bytes) 2 == 0x88BA || isUdp102 f.bytes))

/-- A gated frame is discarded at port e: counted at the port and in the switch, with event 467 for the first one after
a closing, and logged with reason 2 (R169). -/
def Block.gateDiscard (b : Block) (e : Nat) (f : SwFrame) : Block :=
  let b := if e < 16 then b.prtCnt e 17 1 else if e < 20 then b.stnCnt (e - 16) 14 1 else b
  let b := b.swcCnt 7 1
  let first := !b.swc.discarded
  (((b.modSwc (fun w => { w with discarded := true })).raiseIf first 467).mirDrop e f (some 2)).txMark f.id 2

/-! When a port can send (R116, R156, R174) -/

/-- How long a frame occupies port e, ns, with preamble, check sequence and gap. -/
def Block.wireNs (b : Block) (e : Nat) (f : List Byte) : Nat := (f.length + 30) * 8 * 1000 / b.rateOf e

/-- When a frame with launch time l starts at port e, ns: its time-stamp point, ELAT later, is crossed at l (R93, R116). -/
def Block.launchStart (b : Block) (e l : Nat) : Nat := b.extend40 l - b.get (TIM_PORTp_ELAT_LAT e) / 16

/-- The egress time stamp now, before ASYM and with it (R93, R94), 2⁻¹⁶ ns. -/
def Block.egressRaw (b : Block) (e : Nat) : Nat := b.stamp + b.get (TIM_PORTp_ELAT_LAT e) * 4096
def Block.portAsym (b : Block) (e : Nat) : Int := sgn 32 (b.rd (TIM_PORTp_ASYM e)).toNat * 4096
def Block.egressStamp (b : Block) (e : Nat) : Nat := (((b.egressRaw e : Nat) : Int) - b.portAsym e).toNat

/-- May a frame start at port e now without occupying it at the head launch time (R116)? -/
def Block.clearOfLaunch (b : Block) (e : Nat) (f : List Byte) : Bool :=
  match b.swc.launch.get (fun _ => []) e with
  | [] => true
  | id :: _ => match b.stored id with
    | some g => match g.launch with
      | some l => decide (b.ns + b.wireNs e f ≤ b.launchStart e l)
      | none => true
    | none => true

/-- Port e can start a frame: its link is up and nothing is in transmission. -/
def Block.portFree (b : Block) (e : Nat) : Bool := b.linkUp e && (b.swc.sending.get (fun _ => none) e).isNone

/-- Does an enabled block of class P or C name station port t as an egress (R174)? -/
def Block.eeeBlocked (b : Block) (t : Nat) : Bool :=
  (List.range 4096).any (fun k =>
    b.on (SWC_PUBb_CFG_EN k) && decide (b.get (SWC_PUBb_CFG_CLASS k) < 2) && bit (b.get (SWC_PUBb_CFG_PORTS k)) (16 + t))

/-- Does MACsec take port e out of the transparent clock and of one-step Sync (R177)? -/
def Block.secNoPtp (b : Block) (e : Nat) : Bool :=
  decide (16 ≤ e) && b.member.hasMacsec && b.on (STNs_SEC_EN (e - 16)) && !b.on (STNs_SEC_PTP_BYPASS (e - 16))

/-! The commands -/

/-- R154: the forwarding engine takes the oldest frame delivered to it. -/
def execSwitchForward (s : State) : Host.Outcome State Fault Refusal :=
  runAt .swc (fun b =>
    match (if b.takes ⟨.swc, 0⟩ then b.swc.ingress else []) with
    | [] => b
    | f :: rest => ((b.modSwc (fun w => { w with ingress := rest })).forward f).2) s

/-- R155: a learned entry ages out AGE_S seconds after its source's last frame. -/
def execFdbEntryAge (vid mac : Nat) (s : State) : Host.Outcome State Fault Refusal :=
  runAt .swc (fun b =>
    match b.fdbFind vid mac with
    | some e =>
      if e.static then b
      else (b.advanceTo (e.lastNs + b.get SWC_LEARN_AGE_AGE_S * 1000000000)).modSwc (fun w =>
        { w with fdb := w.fdb.filter (fun x => !(x.vid == vid && x.mac == mac)) })
    | none => b) s

/-- The key in SWC_FDB_KEY. -/
def Block.fdbKey (b : Block) : Nat × Nat :=
  (b.get SWC_FDB_KEY_HI_VID, (b.rd SWC_FDB_KEY_LO).toNat + 2 ^ 32 * b.get SWC_FDB_KEY_HI_MAC_HI)

/-- R186: the entry of the key into SWC_FDB_RES; RESULT 0b01 where there is none. -/
def execFdbRead (s : State) : Host.Outcome State Fault Refusal :=
  runAt .swc (fun b =>
    match b.fdbFind b.fdbKey.1 b.fdbKey.2 with
    | some e => (b.wr SWC_FDB_RES (BitVec.ofNat 32 (2 ^ 25 + (if e.static then 2 ^ 24 else 0) + e.mask))).set SWC_FDB_CMD_RESULT 0
    | none => (b.wr SWC_FDB_RES 0).set SWC_FDB_CMD_RESULT 1) s

/-- The entry of SWC_FDB_RES is written under the key; RESULT 0b10 where the bucket is full. An entry written with VALID clear removes
the key's entry. -/
def Block.fdbWrite (b : Block) : Block :=
  let k := b.fdbKey
  let drop := fun (b : Block) => b.modSwc (fun w => { w with fdb := w.fdb.filter (fun e => !(e.vid == k.1 && e.mac == k.2)) })
  if !b.on SWC_FDB_RES_VALID then (drop b).set SWC_FDB_CMD_RESULT 0
  else if (b.fdbFind k.1 k.2).isNone && b.fdbFull k.1 k.2 then b.set SWC_FDB_CMD_RESULT 2
  else (b.fdbPut ⟨k.1, k.2, b.on SWC_FDB_RES_STATIC, b.get SWC_FDB_RES_MASK, b.ns⟩).set SWC_FDB_CMD_RESULT 0

/-- R155, R186: the FDB write command. -/
def execFdbWrite (s : State) : Host.Outcome State Fault Refusal := runAt .swc Block.fdbWrite s

/-- R186: the entry of the key is removed; RESULT 0b01 where there is none. -/
def execFdbDelete (s : State) : Host.Outcome State Fault Refusal :=
  runAt .swc (fun b =>
    let k := b.fdbKey
    match b.fdbFind k.1 k.2 with
    | some _ => (b.modSwc (fun w => { w with fdb := w.fdb.filter (fun e => !(e.vid == k.1 && e.mac == k.2)) })).set SWC_FDB_CMD_RESULT 0
    | none => b.set SWC_FDB_CMD_RESULT 1) s

/-- R186: every learned entry is removed. -/
def execFdbFlushLearned (s : State) : Host.Outcome State Fault Refusal :=
  runAt .swc (fun b => (b.modSwc (fun w => { w with fdb := w.fdb.filter (fun e => e.static) })).set SWC_FDB_CMD_RESULT 0) s

/-- R164: a word of a group's bucket map; it takes effect between two frames. -/
def execLagBucketWrite (k w : Nat) (v : Word) (s : State) : Host.Outcome State Fault Refusal :=
  runAt .swc (fun b => if k < 4 ∧ w < 16 then b.wr (SWC_LAGk_BUCKETw k w) v else b) s

/-- R167: software writes the count of records it has consumed. -/
def execMirrorConsWrite (m : Nat) (v : Word) (s : State) : Host.Outcome State Fault Refusal :=
  runAt .swc (fun b => if m < 4 then b.wr (SWC_MIRm_CONS m) v else b) s

end Sys2Proof.Machine
end

