-- ==== Sys2Proof/Machine/Key.lean ====
section
/-! DEFINITION. The lease as other units see it, the secure bank's wipe (R526 to R528), and the key store (chapter
"Keys, life cycle and protected traffic"). -/

namespace Sys2Proof.Machine

open Sys2Proof Sys2Proof.Reg

/-! The lease (R420, R423) -/

/-- Does the module hold its lease? -/
def Block.leased (b : Block) : Bool := b.rope.lease

/-- The lease ends: the line drops and the gate closes in the same cycle (R169, R425). -/
def Block.leaseDrop (b : Block) : Block :=
  if b.rope.lease then
    ((({ b with rope := { b.rope with lease := false } }).set ROPE_ROLE_BELAY_OUT 0).set ROPE_LEASE_REMAIN_MS 0).gateClose
  else b

/-- Do the P and C tables stand in IDLE (R570, R642)? -/
def Block.tablesIdle (b : Block) : Bool := b.get CRZ_STATUS_STATE % 16 == 0

/-! Slots (R648, R649) -/

def Block.keyCnt (b : Block) (i : Nat) : Block := b.count (KEY_CNTi i) 1 (bitOf KEY_CNT_ROLL i) 970

/-- Where the material of slot n lies in the secure bank. -/
def keyAt (n : Nat) : Nat := 64 * n

/-- The material of slot n. -/
def Block.keyMaterial (b : Block) (n : Nat) : List Byte := b.load .secure (keyAt n) (b.get (KEY_SLOTn_ATTR_LEN n))

/-- usable() of R649; the first fuel is 9 levels, depth 0 to 8. -/
def Block.usable (b : Block) (n : Nat) : Nat → Bool
  | 0 => false
  | fuel + 1 =>
    if b.on KEY_STATUS_CLOSED || !b.on (KEY_SLOTn_ATTR_VALID n) then false
    else if b.on (KEY_SLOTn_ATTR_ROOTED n) &&
        (b.on KEY_STATUS_ROOT_FAIL || b.key.rootEpoch != b.key.repoch.get (fun _ => 0) n) then false
    else if !b.on (KEY_SLOTn_ATTR_PARENT_EN n) then true
    else
      let p := b.get (KEY_SLOTn_ATTR_PARENT n)
      b.get (KEY_SLOTn_GEN_GEN p) == b.get (KEY_SLOTn_GEN_PGEN n) && b.usable p fuel

/-- Is the chain of slot n broken by a generation mismatch (R649)? -/
def Block.orphan (b : Block) (n : Nat) : Nat → Bool
  | 0 => false
  | fuel + 1 =>
    if !b.on (KEY_SLOTn_ATTR_VALID n) || !b.on (KEY_SLOTn_ATTR_PARENT_EN n) then false
    else
      let p := b.get (KEY_SLOTn_ATTR_PARENT n)
      b.get (KEY_SLOTn_GEN_GEN p) != b.get (KEY_SLOTn_GEN_PGEN n) || b.orphan p fuel

/-- Is slot n usable for destination d (R649)? -/
def Block.keyOk (b : Block) (n d : Nat) : Bool := b.usable n 9 && bit (b.get (KEY_SLOTn_ATTR_DEST n)) d

/-- A use of slot n for destination d: allowed, or refused and counted with event 964 (R649). -/
def Block.keyUse (b : Block) (n d : Nat) : Bool × Block :=
  if b.keyOk n d then (true, b)
  else (false, (b.keyCnt (if !b.on KEY_STATUS_CLOSED && b.orphan n 9 then 4 else 5)).raiseEvery 1000 964)

/-- The generation of slot n (R648). -/
def Block.keyGen (b : Block) (n : Nat) : Nat := b.get (KEY_SLOTn_GEN_GEN n)

/-! The wipe (R527, R528) -/

/-- The store closes or opens; a change raises event 967 (R655). -/
def Block.setClosed (b : Block) (v : Bool) : Block :=
  if b.on KEY_STATUS_CLOSED = v then b else (b.set KEY_STATUS_CLOSED (if v then 1 else 0)).raise 967

/-- Every slot, its material and the root are zeroed (R527, R644, R667). -/
def Block.zeroSlots (b : Block) : Block :=
  let b := b.each 512 (fun n b =>
    b.doIf (b.rd (KEY_SLOTn_ATTR n) != 0 || b.rd (KEY_SLOTn_GEN n) != 0 || b.rd (KEY_SLOTn_KEYID n) != 0) (fun b =>
      (((b.wr (KEY_SLOTn_ATTR n) 0).wr (KEY_SLOTn_GEN n) 0).wr (KEY_SLOTn_KEYID n) 0).stores .secure (keyAt n) (List.replicate 64 0)))
  { b with key := { b.key with root := 0, repoch := [] } }.set KEY_STATUS_ROOT_OK 0

/-- A wipe trigger; one during a wipe is absorbed. -/
def Block.wipeStart (b : Block) : Block :=
  if b.on THL_SEC_STAT_WIPING then b
  else ((b.set THL_SEC_STAT_WIPE_PEND 1).set THL_SEC_STAT_WIPING 1).zeroSlots

/-- The wipe ends, verified or with a word that reads back other than zero. -/
def Block.wipeEnd (b : Block) (ok : Bool) : Block :=
  if !b.on THL_SEC_STAT_WIPING then b
  else
    let b := b.set THL_SEC_STAT_WIPING 0
    if ok then
      let b := ((b.set THL_SEC_STAT_WIPED 1).set THL_SEC_STAT_WIPES (satAdd 255 (b.get THL_SEC_STAT_WIPES) 1)).set
        THL_SEC_STAT_WIPE_PEND 0
      ((b.set THL_SEC_STAT_WIPE_FAIL 0).raise 46).setClosed (b.get KEY_STATUS_LC == 4)
    else (((b.set THL_SEC_STAT_WIPE_FAIL 1).set THL_ERR_WIPE_FAIL 1).raise 46).setClosed true

/-! The command port (R650) -/

/-- The RESULT codes of R650. -/
abbrev kDone : Nat := 0
abbrev kRefused : Nat := 1
abbrev kInvalid : Nat := 2
abbrev kUnmet : Nat := 3
abbrev kNoRoot : Nat := 4
abbrev kClosed : Nat := 5

/-- KEY_RDATA cleared. -/
def Block.clearRdata (b : Block) : Block :=
  { b.each 16 (fun w b => b.wr (KEY_RDATAw w) 0) with key := { b.key with rdata := false } }

/-- Does KEY_CONFIRM hold 0x5A3C? -/
def Block.confirmed (b : Block) : Bool := b.get KEY_CONFIRM_VALUE == 0x5A3C

/-- A command written to KEY_CMD with its other fields from v: f answers its RESULT (R650). -/
def Block.keyCmd (b : Block) (op : Nat) (v : Word) (f : Block → Nat × Block) : Block :=
  if b.takes ⟨.key, 0⟩ = false then b else
  let b := b.wr KEY_CMD (BitVec.ofNat 32 (op * 2 ^ 23 + (v.toNat &&& 0x7FFFF)))
  let b := b.clearRdata
  let r := if b.on KEY_STATUS_CLOSED ∧ op ≠ 6 then (kClosed, b) else f b
  let b := r.2.set KEY_CMD_RESULT r.1
  (((b.each 16 (fun w b => b.wr (KEY_DATAw w) 0)).wr KEY_CONFIRM 0)).raise 960

/-- The 64 bytes of KEY_DATA. -/
def Block.keyData (b : Block) : List Byte := (List.range 16).foldl (fun l w => l ++ leBytes 4 (b.rd (KEY_DATAw w)).toNat) []

/-- New material in slot n with the attributes of the input registers (R651, R653). -/
def Block.loadSlot (b : Block) (n : Nat) (m : List Byte) (rooted parentEn : Bool) (parent pgen : Nat) : Block :=
  let len := b.get KEY_ATTR_IN_LEN
  let b := b.stores .secure (keyAt n) (fit 64 (fit len m))
  let b := b.wr (KEY_SLOTn_ATTR n) (BitVec.ofNat 32 (2 ^ 31 + (if rooted then 2 ^ 29 else 0) + (if parentEn then 2 ^ 28 else 0) +
    b.get KEY_ATTR_IN_NOREAD * 2 ^ 27 + b.get KEY_ATTR_IN_DEST * 2 ^ 21 + len * 2 ^ 9 + parent))
  let b := b.wr (KEY_SLOTn_GEN n) (BitVec.ofNat 32 (pgen * 256 + (b.keyGen n + 1) % 256))
  b.wr (KEY_SLOTn_KEYID n) (b.rd KEY_KEYID_IN)

/-- The KDF of R652: len bytes from parent material k. -/
def kdf (k label ctx : List Byte) (len : Nat) : List Byte :=
  let blocks := (List.range ((len + 47) / 48)).map (fun i =>
    Config.hmacSha384 k (beBytes 4 (i + 1) ++ label ++ [0] ++ ctx ++ beBytes 4 (len * 8)))
  fit len blocks.flatten

/-- Slot, parent and ROOT_SRC as KEY_CMD holds them. -/
def cmdSlot (v : Word) : Nat := bits v.toNat 0 9
def cmdParent (v : Word) : Nat := bits v.toNat 9 9
def cmdRoot (v : Word) : Bool := bit v.toNat 18

/-! The commands -/

/-- R650, R651: WRITE loads material and attributes into a slot. -/
def execKeyWrite (v : Word) (s : State) : Host.Outcome State Fault Refusal :=
  runAt .key (fun b => b.keyCmd 1 v (fun b =>
    let len := b.get KEY_ATTR_IN_LEN
    if len < 16 ∨ 64 < len then (kInvalid, b)
    else (kDone, b.loadSlot (cmdSlot v) b.keyData false false 0 0))) s

/-- R652: DERIVE computes a key into a slot from a parent or from the root. -/
def execDerive (v : Word) (s : State) : Host.Outcome State Fault Refusal :=
  runAt .key (fun b => b.keyCmd 2 v (fun b =>
    let len := b.get KEY_ATTR_IN_LEN
    let ctxLen := b.get KEY_ATTR_IN_CTX_LEN
    let label := b.keyData.take 16
    let ctx := (b.keyData.drop 16).take ctxLen
    if len < 16 ∨ 64 < len ∨ 48 < ctxLen then (kInvalid, b)
    else if cmdRoot v then
      if b.on KEY_STATUS_ROOT_FAIL ∨ b.key.root = 0 then (kNoRoot, b)
      else
        let k := if b.key.root = 2 then Config.testRoot else Config.deviceRoot b.key.enrolled
        let b := b.loadSlot (cmdSlot v) (kdf k label ctx len) true false 0 0
        (kDone, { b with key := { b.key with repoch := (cmdSlot v, b.key.rootEpoch) :: b.key.repoch } })
    else
      let p := cmdParent v
      match b.keyUse p 5 with
      | (false, b) => (kUnmet, b)
      | (true, b) => (kDone, b.loadSlot (cmdSlot v) (kdf (b.keyMaterial p) label ctx len) false true p (b.keyGen p)))) s

/-- A slot invalidated: its material zeroed, VALID clear, its generation one more (R653). -/
def Block.slotInvalidate (b : Block) (n : Nat) : Block :=
  ((b.stores .secure (keyAt n) (List.replicate 64 0)).set (KEY_SLOTn_ATTR_VALID n) 0).set (KEY_SLOTn_GEN_GEN n) (b.keyGen n + 1)

/-- A slot with a double-bit error, at the warm start that its reset leads to: invalidated, recorded in KEY_ECC, event 969 (R656). -/
def Block.slotEcc (b : Block) (n : Nat) : Block :=
  (((b.slotInvalidate n).set KEY_ECC_VALID 1).set KEY_ECC_SLOT n).raise 969

/-- R653: INVALIDATE zeroes a slot's material, clears VALID and increments its generation. -/
def execInvalidate (v : Word) (s : State) : Host.Outcome State Fault Refusal :=
  runAt .key (fun b => b.keyCmd 3 v (fun b => (kDone, b.slotInvalidate (cmdSlot v)))) s

/-- R650, R651: READ copies a readable slot to KEY_RDATA. -/
def execKeyRead (v : Word) (s : State) : Host.Outcome State Fault Refusal :=
  runAt .key (fun b => b.keyCmd 4 v (fun b =>
    let n := cmdSlot v
    if !b.on (KEY_SLOTn_ATTR_VALID n) || b.on (KEY_SLOTn_ATTR_NOREAD n) then (kInvalid, b)
    else
      let m := fit 64 (b.keyMaterial n)
      let b := b.each 16 (fun w b => b.wr (KEY_RDATAw w) (BitVec.ofNat 32 (leAt m (4 * w) 4)))
      (kDone, { b with key := { b.key with rdata := true, rdataEnd := b.xtal + 1000000 } }))) s

/-- R650: KEY_RDATA is cleared 1 ms after the READ ends. -/
def execRdataTimeout (s : State) : Host.Outcome State Fault Refusal :=
  runAt .key (fun b => if b.key.rdata then (b.advanceXtal b.key.rdataEnd).clearRdata else b) s

/-- R650: a write of CLR clears KEY_RDATA. -/
def execKeyClr (s : State) : Host.Outcome State Fault Refusal := runAt .key Block.clearRdata s

/-- R650: the WIPE command, with KEY_CONFIRM. -/
def execWipe (v : Word) (s : State) : Host.Outcome State Fault Refusal :=
  runAt .key (fun b => b.keyCmd 6 v (fun b => if b.confirmed then (kDone, b.wipeStart) else (kRefused, b))) s

/-- R646: ENROL, in MANUFACTURE and PROVISION, with KEY_CONFIRM. -/
def execEnrol (v : Word) (s : State) : Host.Outcome State Fault Refusal :=
  runAt .key (fun b => b.keyCmd 7 v (fun b =>
    if b.confirmed && decide (b.get KEY_STATUS_LC < 2) then (kDone, b.set KEY_STATUS_ENROL_PEND 1) else (kRefused, b))) s

/-- R657: SVN_RAISE raises the fused minimum by one, not above the running image's version. -/
def execSvnRaise (v : Word) (s : State) : Host.Outcome State Fault Refusal :=
  runAt .key (fun b => b.keyCmd 9 v (fun b =>
    if !b.confirmed then (kRefused, b)
    else if b.key.runSvn ≤ b.get KEY_FUSE_SVN_MIN ∨ 64 ≤ b.get KEY_FUSE_SVN_MIN then (kUnmet, b)
    else (kDone, b.set KEY_FUSE_SVN_MIN (b.get KEY_FUSE_SVN_MIN + 1)))) s

/-- R657: ANCHOR_REVOKE of a fused anchor other than the running image's. -/
def execAnchorRevoke (v : Word) (s : State) : Host.Outcome State Fault Refusal :=
  runAt .key (fun b => b.keyCmd 10 v (fun b =>
    let a := bits v.toNat 0 2
    if !b.confirmed then (kRefused, b)
    else if a = b.get KEY_STATUS_RUN_ANCHOR ∧ b.on KEY_STATUS_TEST_IMAGE = false ∧ b.imgLock = true then (kUnmet, b)
    else (kDone, b.set (bitOf KEY_FUSE a) 1))) s

/-- May debug be armed or disarmed now (R647)? -/
def Block.dbgAllowed (b : Block) : Bool :=
  b.confirmed && (b.get KEY_STATUS_LC == 1 || (b.get KEY_STATUS_LC == 2 && !b.leased))

/-- R647: DBG_ARM arms debug for the next cold start. -/
def execDbgArm (v : Word) (s : State) : Host.Outcome State Fault Refusal :=
  runAt .key (fun b => b.keyCmd 11 v (fun b =>
    if b.dbgAllowed then (kDone, b.set KEY_STATUS_DBG_ARMED 1) else (kRefused, b))) s

/-- R647: DBG_DISARM. -/
def execDbgDisarm (v : Word) (s : State) : Host.Outcome State Fault Refusal :=
  runAt .key (fun b => b.keyCmd 12 v (fun b =>
    if b.dbgAllowed then (kDone, b.set KEY_STATUS_DBG_ARMED 0) else (kRefused, b))) s

/-! Authentication of GOOSE and SV (R659, R660) -/

/-- The security extension of a frame: its algorithm, key identifier, the bytes under the tag, the tag. -/
structure SecExt where
  alg : Nat
  keyId : Nat
  covered : List Byte
  iv : List Byte
  tag : List Byte

/-- The tag of bytes under a key by ALG of R659: HMAC-SHA256 cut to 16 bytes or whole, AES-GMAC. -/
def authTag (alg : Nat) (k iv covered : List Byte) : List Byte :=
  if alg = 0 then (Config.hmacSha256 k covered).take 16
  else if alg = 1 then Config.hmacSha256 k covered
  else Config.gcmSeal k iv covered []

/-- The first of two slots whose key identifier matches and which is usable for a destination. -/
def Block.authSlot (b : Block) (bind keyId d : Nat) : Option Nat :=
  let a := bits bind 0 9
  let c := bits bind 9 9
  if b.keyOk a d && (b.rd (KEY_SLOTn_KEYID a)).toNat == keyId then some a
  else if bit bind 18 && b.keyOk c d && (b.rd (KEY_SLOTn_KEYID c)).toNat == keyId then some c
  else none

/-- The check of R660 on a frame under a binding's word: does it pass? -/
def Block.authCheck (b : Block) (bind d : Nat) (ext : Option SecExt) : Bool × Block :=
  if !bit bind 31 then (true, b)
  else match ext with
    | none => if bit bind 30 then (false, (b.keyCnt 3).raiseEvery 1 963) else (true, b)
    | some e =>
      if e.alg ≠ bits bind 28 2 then (false, (b.keyCnt 1).raiseEvery 1 961)
      else match b.authSlot bind e.keyId d with
        | none => (false, (b.keyCnt 2).raiseEvery 1 962)
        | some n =>
          if authTag e.alg (b.keyMaterial n) e.iv e.covered = e.tag then (true, b.keyCnt 0)
          else (false, (b.keyCnt 1).raiseEvery 1 961)

end Sys2Proof.Machine
end

