-- ==== Sys2Proof/Machine/Align.lean ====
section
/-! DEFINITION. Stream slots and alignment groups as other units see them: the settings they read, instants and their
times, and GUARD (R190, R194, R209, R212, R220). -/

namespace Sys2Proof.Machine

open Sys2Proof Sys2Proof.Reg

def Block.slotOf (b : Block) (s : Nat) : Slot := b.rhz.slot.get (fun _ => {}) s
def Block.setSlot (b : Block) (s : Nat) (x : Slot) : Block := { b with rhz := { b.rhz with slot := (s, x) :: b.rhz.slot } }
def Block.grpOf (b : Block) (g : Nat) : Grp := b.rhz.grp.get (fun _ => {}) g
def Block.setGrp (b : Block) (g : Nat) (x : Grp) : Block := { b with rhz := { b.rhz with grp := (g, x) :: b.rhz.grp } }

/-! The settings of a slot (R221) -/

def Slot.word (x : Slot) (w : Nat) : Nat := (x.cfg.getD w 0).toNat
def Slot.awaitEn (x : Slot) : Bool := bit (x.word 0) 30
def Slot.allowUnsync (x : Slot) : Bool := bit (x.word 0) 29
def Slot.syncReq (x : Slot) : Nat := bits (x.word 0) 27 2
def Slot.profile (x : Slot) : Nat := bits (x.word 0) 25 2
def Slot.group (x : Slot) : Nat := bits (x.word 0) 20 4
def Slot.nasdu (x : Slot) : Nat := bits (x.word 0) 16 4
def Slot.engB (x : Slot) : Nat := bits (x.word 0) 5 5
def Slot.engA (x : Slot) : Nat := bits (x.word 0) 0 5
def Slot.appid (x : Slot) : Nat := bits (x.word 1) 16 16
def Slot.nch (x : Slot) : Nat := clampN 1 24 (bits (x.word 1) 0 5)
/-- ADDR: a destination MAC address, or for PROFILE 0b10 a source IPv4 address in its low word (R192, R221). -/
def Slot.addr (x : Slot) : Nat := if x.profile = 2 then x.word 2 else x.word 2 + 2 ^ 32 * bits (x.word 3) 0 16
def Slot.confRev (x : Slot) : Nat := x.word 4
def Slot.chBase (x : Slot) : Nat := bits (x.word 5) 0 13
def Slot.transit (x : Slot) : Nat := bits (x.word 6) 0 24
def Slot.svLen (x : Slot) : Nat := bits (x.word 7) 0 7
def Slot.svId (x : Slot) : List Byte := ((List.range 16).foldl (fun l w => l ++ leBytes 4 (x.word (8 + w))) []).take x.svLen
def Slot.names (x : Slot) (e : Nat) : Bool := x.engA == e || x.engB == e

/-- The settings of slot s in its registers. -/
def Block.slotWords (b : Block) (s : Nat) : List Word :=
  (List.range 8).map (fun w => b.rd (RHZ_SLOTs_CFG s + 4 * w)) ++ (List.range 16).map (fun w => b.rd (RHZ_SLOTs_SVIDw s w))

/-- Does the module follow its partner's decisions: a standby with the Rope up, or a joiner from tick J on (R439, R440, R450)? -/
def Block.following (b : Block) : Bool :=
  b.on ROPE_ROLE_ROPE_UP && (b.get ROPE_ROLE_ROLE == 2 || (b.get ROPE_ROLE_ROLE == 1 &&
    (match b.rope.joinTick with | some j => decide (j ≤ b.rd64 TIM_TICKNUM_LO) | none => false)))

/-! The settings of a group (R220) -/

def Grp.word (x : Grp) (w : Nat) : Nat := (x.cfg.getD w 0).toNat
/-- R of R194. -/
def Grp.rate (x : Grp) : Nat :=
  match bits (x.word 0) 0 3 with
  | 0 => 4000 | 1 => 4800 | 2 => 12800 | 3 => 14400 | _ => 96000
def Grp.depthLog (x : Grp) : Nat := clampN 4 8 (bits (x.word 0) 4 4)
def Grp.depth (x : Grp) : Nat := 2 ^ x.depthLog
def Grp.waitNs (x : Grp) : Nat := bits (x.word 1) 0 20
def Grp.dmaxNs (x : Grp) : Nat := clampN 1 65535 (bits (x.word 2) 0 16) * 1000
def Grp.plausNs (x : Grp) : Nat := bits (x.word 3) 0 16 * 1000
def Grp.ringBase (x : Grp) : Nat := bits (x.word 4) 6 19 * 64
def Grp.chFirst (x : Grp) : Nat := bits (x.word 5) 0 13
def Grp.chCount (x : Grp) : Nat := bits (x.word 5) 16 14
def Grp.stride (x : Grp) : Nat := (x.chCount * 8 + 63) / 64 * 64

/-- Where the entry of channel c for an instant lies in the intake bank (R209). -/
def Grp.entryAt (x : Grp) (c i : Nat) : Nat := x.ringBase + i % x.depth * x.stride + (c - x.chFirst) * 8

/-- t_inst of an instant, ns; R109's formula with the group's rate. -/
def Grp.tInst (x : Grp) (i : Nat) : Nat := i / x.rate * 1000000000 + i % x.rate * 1000000000 / x.rate

/-- The first instant whose time is at or after t. -/
def Grp.firstFrom (x : Grp) (t : Nat) : Nat :=
  t / 1000000000 * x.rate + (t % 1000000000 * x.rate + 999999999) / 1000000000

/-- NEXT of a group. -/
def Block.grpNext (b : Block) (g : Nat) : Nat := b.rd64 (RHZ_GRPg_NEXT_LO g)

/-! GUARD (R212) -/

/-- The time of a 1,522-byte frame with preamble and gap at a rate in Mbit/s, ns, to the nearest. -/
def frameNs (rate : Nat) : Nat := (12336000 + rate / 2) / rate

/-- The frame term over the enabled ports of a set of engines; engine 16 stands for the enabled station ports. -/
def Block.frameTerm (b : Block) (names : Nat → Bool) : Nat :=
  (List.range 20).foldl (fun n p =>
    if (b.prt p).en && names (if p < 16 then p else 16) then (if n < frameNs (b.rateOf p) then frameNs (b.rateOf p) else n) else n) 0

/-- GUARD of group g as the slots and ports now stand. -/
def Block.guardNow (b : Block) (g : Nat) : Nat :=
  5000 + b.frameTerm (fun e => (List.range 1024).any (fun s => (b.slotOf s).en && (b.slotOf s).group == g && (b.slotOf s).names e))

/-- GUARD that holds for an instant of group g. -/
def Block.guardFor (b : Block) (g i : Nat) : Nat :=
  let x := b.grpOf g
  match x.guards.find? (fun e => decide (e.1 < x.tInst i)) with
  | some e => e.2
  | none => match x.guards.getLast? with
    | some e => e.2
    | none => b.guardNow g

/-- A slot or a port was enabled or disabled: a changed GUARD holds for the instants whose time follows now. -/
def Block.guardRefresh (b : Block) : Block :=
  b.each 16 (fun g b =>
    let x := b.grpOf g
    let n := b.guardNow g
    if x.en && (match x.guards with | e :: _ => e.2 != n | [] => true) then
      (b.setGrp g { x with guards := (b.ns, n) :: x.guards }).set (RHZ_GRPg_PLAUS_GUARD_NS g) (if n < 65536 then n else 65535)
    else b)

end Sys2Proof.Machine
end

