-- ==== Sys2Proof/Machine/Ports.lean ====
section
/-! DEFINITION. The process bus ports (chapter "Process bus ports, PRP/HSR and frame filters"), and the line side that
the station ports share with them. -/

namespace Sys2Proof.Machine

open Sys2Proof Sys2Proof.Reg

/-! The line side: process ports 0–15, station ports 16–19 -/

/-- The event source e of port p (R149, R185). -/
def portEvt (p e : Nat) : Nat := if p < 16 then 128 + 16 * p + e else 384 + 16 * (p - 16) + e

/-- The unit of port p. -/
def portUnit (p : Nat) : UnitRef := if p < 16 then ⟨.prt, p⟩ else ⟨.stn, p - 16⟩

/-- The status and control registers of port p. -/
def portStat (p : Nat) : Nat := if p < 16 then PRTp_STAT p else STNs_STAT (p - 16)
def portCfg (p : Nat) : Nat := if p < 16 then PRTp_CFG p else STNs_CFG (p - 16)
def linkBit (p : Nat) : Fld := ⟨portStat p, 0, 1⟩
def localFault (p : Nat) : Fld := ⟨portStat p, 1, 1⟩
def remoteFault (p : Nat) : Fld := ⟨portStat p, 2, 1⟩
def fecLock (p : Nat) : Fld := ⟨portStat p, 3, 1⟩
def speedBits (p : Nat) : Fld := ⟨portStat p, 6, 2⟩
def prbsBit (p : Nat) : Fld := if p < 16 then PRTp_SERDES_PRBS p else ⟨STNs_SERDES (p - 16), 4, 1⟩

/-- MODE and FEC that port p last read (R120, R171). -/
def Block.lineMode (b : Block) (p : Nat) : Nat := if p < 16 then bits (b.prt p).cfg.toNat 1 2 else bits (b.prt p).cfg.toNat 1 3
def Block.lineFec (b : Block) (p : Nat) : Bool := bit (b.prt p).cfg.toNat (if p < 16 then 4 else 5) && b.lineMode p == 0

/-- Is port p one of SGMII (R120, R171)? Is its MODE reserved (R725), or the 25G mode of a port that the member gives 10G (R3), so that
its link never comes up? -/
def Block.isSgmii (b : Block) (p : Nat) : Bool := b.lineMode p == (if p < 16 then 3 else 5)
def Block.deadMode (b : Block) (p : Nat) : Bool :=
  (decide (16 ≤ p) && decide (6 ≤ b.lineMode p)) || (b.lineMode p == 0 && !b.member.fast p)

/-- Counters that both kinds of port keep: the number in R148 and in R184. -/
def Block.portCnt (b : Block) (p prtI stnI n : Nat) : Block :=
  if p < 16 then b.prtCnt p prtI n else b.stnCnt (p - 16) stnI n

/-- The fault flags of the line take their values; a change of either raises event 1 (R149, R185). -/
def Block.setFaults (b : Block) (p own remote : Nat) : Block :=
  if b.get (localFault p) = own ∧ b.get (remoteFault p) = remote then b
  else ((b.set (localFault p) own).set (remoteFault p) remote).raise (portEvt p 1)

/-- The link of port p drops: LINK, FEC lock and EEE clear, LINK_DOWN counts, event 0, the port's frames are flushed and
its buckets of link groups reassigned (R122, R164). -/
def Block.linkDrop (b : Block) (p : Nat) : Block :=
  if b.on (linkBit p) then
    let b := (b.set (linkBit p) 0).set (fecLock p) 0
    let b := b.doIf (decide (16 ≤ p)) (fun b => (b.set (STNs_STAT_EEE_ACTIVE (p - 16)) 0).set (STNs_STAT_TX_LPI (p - 16)) 0)
    let b := (b.portCnt p 20 22 1).raise (portEvt p 0)
    let inGroup := (List.range 4).any (fun k => b.lagOn k && decide (p ∈ b.lagMembers k))
    ((b.flushPort p (some (if inGroup then 9 else 5))).lagLose p).modSwc (fun w => { w with direct := (p, []) :: w.direct })
  else b

/-- The lane of port p is retired (R124, R683, R685): RETIRED, the link drops, event 13; no spare port exists. -/
def Block.retireLane (p : Nat) (b : Block) : Retired :=
  ⟨none, true, false, ((b.set (stRetired (portUnit p).hdr) 1).linkDrop p).raise (portEvt p 13)⟩

/-! Redundancy pairs (R132) -/

/-- The judgement of R132 for enabled port x. RED_CFG_ERR is set on both ports, event 6 raised on the judged port alone (DEDUCED,
notes/assumptions/159.md). -/
def Block.judgePair (b : Block) (x : Nat) : Block :=
  let r := (b.prt x).red.toNat
  let m := bits r 0 3
  let q := bits r 28 4
  if m = 0 then b.set (PRTp_STAT_RED_CFG_ERR x) 0
  else if m < 6 ∧ (b.prt q).en = false then b.set (PRTp_STAT_RED_CFG_ERR x) 0
  else if (b.pairOf x).isSome then (b.set (PRTp_STAT_RED_CFG_ERR x) 0).set (PRTp_STAT_RED_CFG_ERR q) 0
  else ((b.set (PRTp_STAT_RED_CFG_ERR x) 1).set (PRTp_STAT_RED_CFG_ERR q) 1).raise (portEvt x 6)

/-- The judgements that a read of its redundancy settings by port p makes. -/
def Block.judgePairs (b : Block) (p : Nat) : Block :=
  let mine := fun (b : Block) (q : Nat) => bits (b.prt p).red.toNat 0 3 != 0 && bits (b.prt p).red.toNat 28 4 == q
  (b.judgePair p).each 16 (fun q b =>
    let r := (b.prt q).red.toNat
    b.doIf (q != p && (b.prt q).en && bits r 0 3 != 0 && bits r 28 4 == p && !mine b q) (fun b => b.judgePair q))

/-! Duplicate discard (R140 to R142) -/

/-- The elapsed-time count of port p, ns (R140). -/
def Block.portNs (b : Block) (p : Nat) : Nat := (b.tim.elapsed - (b.prt p).epoch) / 2 ^ 32

/-- WINDOW and FORGET in ns, from the settings of the pair's lower port (R133, R140). -/
def Block.ddWindow (b : Block) (low : Nat) : Nat := clampN 16 128 (bits (b.prt low).dd.toNat 16 8)
def Block.ddForget (b : Block) (low : Nat) : Nat := clampN 1 65535 (bits (b.prt low).dd.toNat 0 16) * 1000000

/-- What R140 decides on a frame. -/
inductive Verdict
  | accept | duplicate | restart
  deriving DecidableEq, Repr

/-- The stamps kept with an entry: those of the numbers in its record, hi and the 127 before it (R140, R142). -/
def keepStamps (hi seq stamp : Nat) (l : List (Nat × Nat)) : List (Nat × Nat) :=
  (seq, stamp) :: l.filter (fun x => x.1 != seq && decide ((hi + 65536 - x.1) % 65536 < 128))

/-- An entry made fresh (R140). -/
def freshNode (old : Option Node) (mac seq now stamp : Nat) : Node :=
  { mac := mac, hi := seq, seen := 1, last := now, stamps := [(seq, stamp)],
    proxy := match old with | some e => e.proxy | none => none }

/-- accept() of R140: the verdict and the entry after it. -/
def nodeAccept (win forget now : Nat) (old : Option Node) (mac seq stamp : Nat) : Verdict × Node :=
  match old with
  | none => (.accept, freshNode none mac seq now stamp)
  | some e =>
    if forget < now - e.last then (.accept, freshNode old mac seq now stamp)
    else
      let e := { e with last := now }
      let d := sgn 16 (seq + 65536 - e.hi)
      if 0 < d then
        let seen := if 128 ≤ d then 1 else (e.seen * 2 ^ d.toNat) % 2 ^ 128 + 1
        (.accept, { e with seen := seen, hi := seq, stamps := keepStamps seq seq stamp e.stamps })
      else if -d < win then
        if bit e.seen (-d).toNat then (.duplicate, e)
        else (.accept, { e with seen := e.seen + 2 ^ (-d).toNat,
                                stamps := keepStamps e.hi seq stamp e.stamps })
      else (.restart, freshNode old mac seq now stamp)

/-- An entry put into a node table in place of any of its source. -/
def putNode (l : List Node) (e : Node) : List Node := e :: l.filter (fun x => x.mac != e.mac)

/-- The node table of a pair's lower port takes a value; PRTp_NODES shows its size. -/
def Block.setNodes (b : Block) (low : Nat) (l : List Node) : Block :=
  (b.setPrt low { b.prt low with nodes := l }).set (PRTp_NODES_USED low) l.length

/-- The skew of a duplicate (R142): the largest is kept, one above the limit raises event 14 on the later port. -/
def Block.skew (b : Block) (low p other stamp first : Nat) : Block :=
  let d := (if stamp < first then first - stamp else stamp - first) / 65536
  let d := if 2 ^ 32 ≤ d then 2 ^ 32 - 1 else d
  let b := b.doIf (decide ((b.rd (PRTp_SKEW_MAX low)).toNat < d)) (fun b => b.wr (PRTp_SKEW_MAX low) (BitVec.ofNat 32 d))
  if (b.rd (PRTp_SKEW_LIMIT low)).toNat < d then b.raiseEvery 1000 (portEvt (if stamp < first then other else p) 14) else b

/-- A copy is discarded as a duplicate: counted at port p, with its skew to the accepted copy (R140, R142). -/
def Block.dupDrop (b : Block) (low p q seq stamp : Nat) (e : Node) : Block :=
  let b := b.prtCnt p 8 1
  match e.stamps.find? (fun x => x.1 == seq) with
  | some x => b.skew low p q stamp x.2
  | none => b

/-- Duplicate discard of a frame with a sequence number that port p of a pair received: is it accepted (R140, R141)? Where the copy on
the lower-numbered port arrives in the same cycle (twin: its stamp), that one is judged first. RX_OUT_OF_WINDOW and event 7 are those of
the port of arrival (DEDUCED, notes/assumptions/160.md). -/
def Block.dupDiscard (b : Block) (p q mac seq stamp : Nat) (twin : Option Nat) : Bool × Block :=
  let low := if q < p then q else p
  let nodes := (b.prt low).nodes
  let old := nodes.find? (fun e => e.mac == mac)
  if old.isNone && decide (1024 ≤ nodes.length) then
    (true, (b.prtCnt p 9 1).raiseEvery 1000 (portEvt p 7))
  else
    let judge := nodeAccept (b.ddWindow low) (b.ddForget low) (b.portNs low) old mac seq
    match (if low < p then twin else none) with
    | some t => (false, b.dupDrop low p q seq stamp (judge t).2)
    | none =>
      let r := judge stamp
      let b := b.setNodes low (putNode nodes r.2)
      match r.1 with
      | .accept => (true, b)
      | .restart => (true, b.prtCnt p 9 1)
      | .duplicate => (false, b.dupDrop low p q seq stamp r.2)

/-! Tags and trailers (R134 to R138) -/

/-- A frame with the redundancy control trailer of a LAN, padded before it (R126, R134). -/
def withRct (f : List Byte) (seq lan : Nat) : List Byte :=
  let g := fit (if f.length < 54 then 54 else f.length) f
  g ++ beBytes 2 seq ++ beBytes 2 (lan * 4096 + (g.length + 6 - (afterVlan f + 2)) % 4096) ++ beBytes 2 0x88FB

/-- A frame with an HSR tag after any VLAN tag. -/
def withHsr (f : List Byte) (path seq : Nat) : List Byte :=
  let i := afterVlan f
  f.take i ++ beBytes 2 0x892F ++ beBytes 2 (path * 4096 + (f.length - i + 4) % 4096) ++ beBytes 2 seq ++ f.drop i

/-- A frame without its HSR tag. -/
def withoutHsr (f : List Byte) : List Byte := if hsrTagged f then f.take (afterVlan f) ++ f.drop (afterVlan f + 6) else f

/-- A frame without its redundancy control trailer. -/
def withoutRct (f : List Byte) : List Byte := if (prpTrailer f).isSome then f.take (f.length - 6) else f

/-- The sequence number and the path identifier of an HSR tag. -/
def hsrSeq (f : List Byte) : Nat := beAt f (afterVlan f + 4) 2
def hsrPath (f : List Byte) : Nat := beAt f (afterVlan f + 2) 2 / 4096

/-- The path identifier of a ring port: 0 for the lower-numbered one, 1 for the other. -/
def pathOf (p q : Nat) : Nat := if p < q then 0 else 1

/-- Padding of the MAC to 64 bytes with the check sequence (R126). -/
def padded (f : List Byte) : List Byte := if f.length < 60 then fit 60 f else f

/-- A frame forwarded past the switch core goes out on port p, with its check sequence inverted where bad (R137). -/
def Block.directOut (b : Block) (p : Nat) (g : List Byte) (bad : Bool) : Block :=
  let b := (b.emit (.frame p g bad)).mirror p g false true (some 0) (b.egressStamp p) (b.lookupVid p g) 0xFF
  (b.prtCnt p 15 1).prtCnt p 16 (g.length + 4)

/-- A frame leaves by port p without passing the switch core, on the ring or at the interlink (R137, R138, R153): at once where the port
is idle and no launch would find it occupied, else in its turn (R116, R137). -/
def Block.sendDirect (b : Block) (p : Nat) (f : List Byte) (bad : Bool) : Block :=
  let g := padded f
  let l := b.swc.direct.get (fun _ => []) p
  if !b.linkUp p then b
  else if 1518 < f.length then (b.prtCnt p 22 1).mirror p f true true (some 8) b.stamp (b.lookupVid p f) 0xFF
  else if l.isEmpty && b.portFree p && b.clearOfLaunch p g then b.directOut p g bad
  else b.modSwc (fun w => { w with direct := (p, l ++ [(g, bad)]) :: w.direct })

/-! Local delivery (R129, R130, R97) -/

/-- Is a PTP frame an event message? -/
def ptpEvent (f : List Byte) : Bool := decide (beAt f (etherAt f + 2) 1 % 16 < 4)

/-- Can Rhizoid engine e take a frame (R130)? -/
def Block.rhzTakes (b : Block) (e : Nat) : Bool :=
  let h := (⟨.rhz, e⟩ : UnitRef).hdr
  !b.on (ctlQuiesce h) && !b.on (stResetBusy h) && !b.on (stRetired h) &&
    decide ((b.rhz.queue.get (fun _ => []) e).length < 64)

/-- A frame joins engine e's queue, or is refused and counted at port p with event 5 (R130). -/
def Block.toEngine (b : Block) (p e : Nat) (f : EngFrame) : Block :=
  if b.rhzTakes e then
    let n := (b.rhz.queue.get (fun _ => []) e).length + 1
    let b := { b with rhz := { b.rhz with queue := (e, b.rhz.queue.get (fun _ => []) e ++ [f]) :: b.rhz.queue } }
    let b := b.set (RHZe_STAT_QFILL e) n
    if b.get (RHZe_STAT_QMAX e) < n then b.set (RHZe_STAT_QMAX e) n else b
  else
    let b := (b.portCnt p 7 7 1).rxDrop p f.bytes none
    if p < 16 then b.raiseEvery 1 (portEvt p 5) else b

/-- A frame joins the switch core's ingress (R154). -/
def Block.toSwitch (b : Block) (p : Nat) (f : List Byte) (stamp : Nat) : Block :=
  b.modSwc (fun w => { w with ingress := w.ingress ++ [{ id := 0, src := p, bytes := f, stamp := stamp }] })

/-- A PTP message is delivered to the Ridge queue, and as a transparent clock (R95, ROLE 0b10 and 0b11) a copy of one
that is no Pdelay message goes to the switch core as well. -/
def Block.ptpDeliver (b : Block) (p : Nat) (f : List Byte) (stamp : Nat) : Block :=
  let b := b.ridgeRx 0 p f stamp (ptpEvent f)
  let m := beAt f (etherAt f + 2) 1 % 16
  b.doIf (decide (2 ≤ b.get TIM_PTP_MODE_ROLE) && bit (b.get TIM_TC_PORTS_MASK) p && !b.secNoPtp p && m != 2 && m != 3 && m != 10)
    (fun b => b.toSwitch p f stamp)

/-- The one destination of a frame of process port p (R129). -/
def Block.deliver (b : Block) (p : Nat) (f : List Byte) (stamp : Nat) : Block :=
  let e := etherType f
  if e = 0x88F7 then b.ptpDeliver p f stamp
  else if e = 0x88FB then b.ridgeRx 0 p f stamp false
  else if e = 0x88BA ∨ e = 0x88B8 then b.toEngine p p { bytes := f, stamp := stamp, port := p }
  else if b.on (PRTp_CFG_FWD p) then b.toSwitch p f stamp
  else (b.prtCnt p 6 1).rxDrop p f none

/-! Redundancy handling of a received frame (R134, R136, R138) -/

/-- Is a frame for the module or for a group? -/
def forMe (f : List Byte) : Bool := frameDst f == Config.ownMac || isGroup (frameDst f)

/-- A frame of a PRP pair: is it passed on (R134)? -/
def Block.prpReceive (b : Block) (p q : Nat) (f : List Byte) (stamp : Nat) (twin : Option Nat) : Bool × Block :=
  if etherType f = 0x88F7 then (true, b)
  else match prpTrailer f with
    | none => (true, b.prtCnt p 11 1)
    | some (seq, lan, _) =>
      let b := b.doIf (lan != (if bit (b.prt p).red.toNat 3 then 0xB else 0xA)) (fun b => b.prtCnt p 10 1)
      let r := b.dupDiscard p q (frameSrc f) seq stamp twin
      (r.1, r.2.doIf (!r.1) (fun b => b.rxDrop p f none))

/-- Has a ring frame been forwarded in this direction already? If not it is recorded (R136). The records are a table of their own for each
ring port, of the size and by the rule of R140's, outside PRTp_NODES (DESIGN CHOICE, notes/assumptions/161.md). -/
def Block.ringFirst (b : Block) (p low mac seq stamp : Nat) : Bool × Block :=
  let x := b.prt p
  let old := x.ring.find? (fun e => e.mac == mac)
  if old.isNone && decide (1024 ≤ x.ring.length) then (true, b)
  else
    let r := nodeAccept (b.ddWindow low) (b.ddForget low) (b.portNs low) old mac seq stamp
    (r.1 != .duplicate, b.setPrt p { x with ring := putNode x.ring r.2 })

/-- The interlink of a RedBox pair, and the LAN of its PRP side (R138). -/
def Block.interlink (b : Block) (low : Nat) : Option (Nat × Option Nat) :=
  let r := (b.prt low).red.toNat
  let m := bits r 0 3
  let i := bits r 24 4
  if (m = 3 ∨ m = 4 ∨ m = 5) ∧ bits (b.prt i).red.toNat 0 3 = 0 ∧ (b.prt i).en = true then
    some (i, if m = 3 then none else some (if m = 4 then 0xA else 0xB))
  else none

/-- Is a source proxied by the pair (R138)? -/
def Block.proxied (b : Block) (low mac : Nat) : Bool :=
  ((b.prt low).nodes.find? (fun e => e.mac == mac)).any (fun e => e.proxy.isSome)

/-- A ring frame leaves through the interlink with its HSR tag removed, or turned into the trailer of the LAN (R138). -/
def Block.toInterlink (b : Block) (low : Nat) (f : List Byte) : Block :=
  match b.interlink low with
  | none => b
  | some (i, lan) =>
    if isGroup (frameDst f) || b.proxied low (frameDst f) then
      match lan with
      | none => b.sendDirect i (withoutHsr f) false
      | some l => b.sendDirect i (withRct (withoutHsr f) (hsrSeq f) l) false
    else b

/-- A frame of ring port p, whose other ring port is q: forwarding along the ring, the interlink, and whether it is kept
for local delivery (R136 to R138). bad: its check sequence failed; it is forwarded cut-through and nothing else (R125, R137). A frame
without an HSR tag is delivered here and not forwarded; a frame from a source that the RedBox proxies ends here (DESIGN CHOICE,
notes/assumptions/162.md). -/
def Block.hsrReceive (b : Block) (p q : Nat) (f : List Byte) (stamp : Nat) (twin : Option Nat) (bad : Bool) : Bool × Block :=
  let low := if q < p then q else p
  if !hsrTagged f then (!bad, b)
  else if frameSrc f = Config.ownMac then
    (false, b.doIf (!bad) (fun b =>
      (b.prtCnt p 19 1).raiseIf (hsrPath f != pathOf p q && hsrPath f != pathOf q p) (portEvt p 8)))
  else if b.proxied low (frameSrc f) then (false, b)
  else
    let ptp := etherType f == 0x88F7
    let first := if ptp then (true, b) else b.ringFirst p low (frameSrc f) (hsrSeq f) stamp
    let b := first.2.doIf (first.1 && first.2.linkUp q) (fun b => (b.sendDirect q f bad).prtCnt p 18 1)
    if bad then (false, b)
    else if ptp then (forMe f, b)
    else
      let beyond := (b.interlink low).isSome && (isGroup (frameDst f) || b.proxied low (frameDst f))
      if forMe f || beyond then
        let r := b.dupDiscard p q (frameSrc f) (hsrSeq f) stamp twin
        (r.1 && forMe f, if r.1 then r.2.toInterlink low f else r.2.rxDrop p f none)
      else (false, b.doIf (!first.1) (fun b => (b.prtCnt p 8 1).rxDrop p f none))

/-- The ring pair whose interlink port p is (R138). -/
def Block.redboxOf (b : Block) (p : Nat) : Option (Nat × Nat) :=
  ((List.range 16).find? (fun low =>
    match b.pairOf low with
    | some (_, q) => decide (low < q) && (b.interlink low).any (fun x => x.1 == p)
    | none => false)).bind (fun low => (b.pairOf low).map (fun x => (low, x.2)))

/-- A frame of an interlink port enters the ring on both ring ports (R138): with the number of its PRP trailer, which is removed, where
the interlink joins a PRP LAN, else with the RedBox's number for the source; is it kept for local delivery? A source that finds the node
table full has no entry to hold its number: its frames take 0 (DESIGN CHOICE, notes/assumptions/163.md). -/
def Block.interlinkReceive (b : Block) (low q : Nat) (f : List Byte) : Bool × Block :=
  if etherType f = 0x88F7 ∨ frameDst f = Config.ownMac then (true, b)
  else
    let mac := frameSrc f
    let nodes := (b.prt low).nodes
    let old := nodes.find? (fun e => e.mac == mac)
    let now := b.portNs low
    let e0 : Node := match old with | some e => e | none => { mac := mac, hi := 0, seen := 0, last := now }
    let own := match e0.proxy with | some n => n | none => 0
    let prp := (b.interlink low).any (fun x => x.2.isSome)
    let seq := match (if prp then prpTrailer f else none) with | some t => t.1 | none => own
    let b := if old.isNone && decide (1024 ≤ nodes.length) then (b.prtCnt low 9 1).raiseEvery 1000 (portEvt low 7)
      else b.setNodes low (putNode nodes { e0 with last := now, proxy := some ((own + 1) % 65536) })
    let g := if prp then withoutRct f else f
    let b := b.sendDirect low (withHsr g (pathOf low q) seq) false
    (isGroup (frameDst f), b.sendDirect q (withHsr g (pathOf q low) seq) false)

/-! Wake-pattern filters (R144 to R147) -/

/-- The bytes that filter f of port p selects, by their places. -/
def Block.wakeSel (b : Block) (p f : Nat) : List Nat :=
  (List.range 128).filter (fun i => bit (b.rd (PRTp_WFf_MASKw p f (i / 32))).toNat (i % 32))

/-- Does filter f of port p match a frame (R144)? -/
def Block.wakeMatch (b : Block) (p f : Nat) (fr : List Byte) : Bool :=
  let sel := b.wakeSel p f
  !sel.isEmpty && sel.all (fun i => decide (i < fr.length)) &&
    crc16 (sel.map (fun i => fr.getD i 0)) == b.get (PRTp_WFf_CHECK_CHECK p f)

/-- A wake request reaches NRG in Bivouac: the first one latches its source and raises event 29 (R572). -/
def Block.nrgWake (b : Block) (src : Nat) : Block :=
  if b.on NRG_STATUS_BIVOUAC then
    let b := b.doIf (!b.on NRG_BIV_STAT_VALID) (fun b =>
      ((b.set NRG_BIV_STAT_VALID 1).set NRG_BIV_STAT_SRC src).raise 29)
    { b with nrg := { b.nrg with exiting := true } }
  else b

/-- The filters of port p see a frame (R145, R146): a match counts; while a cause is latched it does nothing else. -/
def Block.wakeFilters (b : Block) (p : Nat) (fr : List Byte) (stamp : Nat) : Block :=
  let ms := (List.range 8).filter (fun f => b.wakeMatch p f fr)
  if ms.isEmpty then b
  else
    let b := b.prtCnt p 21 1
    if b.on (PRTp_WAKE_CAUSE_VALID p) then b
    else
      let b := b.raiseIf (ms.any (fun f => bit (b.get (PRTp_WAKE_CTRL_EVT p)) f)) (portEvt p 10)
      if ms.any (fun f => bit (b.get (PRTp_WAKE_CTRL_EN p)) f) && b.on NRG_STATUS_BIVOUAC then
        let b := ((b.set (PRTp_WAKE_CAUSE_VALID p) 1).set (PRTp_WAKE_CAUSE_FILTER p) (ms.headD 0)).wr64 (PRTp_WAKE_TIME_LO p)
          (stamp / 65536)
        (b.raise (portEvt p 15)).nrgWake p
      else b

/-! Reception (R125, R127, R128, R723) -/

/-- Why the MAC discards a frame (R125), if it does: the counters' numbers in R148 and R184. -/
def macFault (f : RxFrame) : Option (Nat × Nat) :=
  let len := f.bytes.length + 4
  if !f.fcs then some (2, 2) else if len < 64 then some (3, 3) else if 1522 < len then some (4, 4) else none

/-- The ingress time stamp with the corrections of R93 and R94. -/
def Block.ingressStamp (b : Block) (p stamp : Nat) : Nat :=
  (((stamp : Nat) : Int) - (((b.get (TIM_PORTp_ILAT_LAT p) * 4096 : Nat)) : Int)
    - sgn 32 (b.rd (TIM_PORTp_ASYM p)).toNat * 4096).toNat

/-- RS-FEC codewords corrected and uncorrectable on port p since its last frame (R121): counted, with event 2 for the latter. -/
def Block.fecCount (b : Block) (p : Nat) (f : RxFrame) : Block :=
  if b.lineFec p then
    let n := if f.fec && f.uncorr == 0 then 1 else f.uncorr
    ((b.portCnt p 13 10 f.corr).portCnt p 14 11 n).doIf (n != 0) (fun b => b.raiseEvery 1 (portEvt p 2))
  else b

/-- The PRBS31 bit errors that port p finds while its test runs (R123, R150). -/
def Block.prbsCount (b : Block) (p n : Nat) : Block :=
  let a := if p < 16 then PRTp_PRBS_ERR p else STNs_PRBS_ERR (p - 16)
  b.wr a (BitVec.ofNat 32 (satAdd 0xFFFFFFFF (b.rd a).toNat n))

/-- The MAC's checks of R121, R125, R127, R128 and R723 on port p: the block after its counters, and whether the frame
goes on. -/
def Block.macCheck (b : Block) (p : Nat) (f : RxFrame) : Bool × Block :=
  let b := b.fecCount p f
  if f.fec && b.lineFec p then (false, b.rxDrop p f.bytes none)
  else match macFault f with
    | some (i, j) => (false, ((b.portCnt p i j 1).doIf (i == 2) (fun b => b.raiseEvery 1 (portEvt p 3))).rxDrop p f.bytes none)
    | none => (true, (b.portCnt p 0 0 1).portCnt p 1 1 (f.bytes.length + 4))

/-- The checks that follow the wake filters. Of a frame with a second 0x8100 tag R127 says nothing: it passes, and its inner tag is the
EtherType that R129 reads (DESIGN CHOICE, notes/assumptions/164.md). -/
def Block.classCheck (b : Block) (p : Nat) (f : List Byte) : Bool × Block :=
  if beAt f 12 2 = 0x88A8 then (false, (b.portCnt p 6 6 1).rxDrop p f none)
  else if beAt f (afterVlan f) 2 = 0x8808 then (false, (b.portCnt p 5 5 1).rxDrop p f none)
  else if b.on (ctlQuiesce (portUnit p).hdr) then (false, (b.portCnt p 6 6 1).rxDrop p f none)
  else (true, b)

/-- Does port p receive at all: enabled, with its link up, not retired, and in Bivouac kept powered (R147, R571)? -/
def Block.receives (b : Block) (p : Nat) : Bool :=
  (b.prt p).en && b.on (linkBit p) && !b.on (stRetired (portUnit p).hdr) &&
    (!b.on NRG_STATUS_BIVOUAC || (if p < 16 then b.on (PRTp_WAKE_CTRL_EN p) else bit (b.get NRG_BIV_CFG_STN_KEEP) (p - 16)))

/-- The frame that a bad check sequence left on the ring: cut-through forwarding sends it on, inverted (R137). -/
def Block.badCutThrough (b : Block) (p : Nat) (f : RxFrame) : Block :=
  match b.pairOf p with
  | some (m, q) =>
    if m ≠ 1 ∧ f.fcs = false ∧ b.lineMode p < 2 ∧ b.on (ctlQuiesce (portUnit p).hdr) = false then
      (b.hsrReceive p q f.bytes f.stamp none true).2
    else b
  | none => b

/-- A frame that passed the MAC: redundancy handling and the destination of R129. -/
def Block.processFrame (b : Block) (p : Nat) (f : List Byte) (stamp : Nat) (twin : Option Nat) : Block :=
  let r := match b.pairOf p with
    | some (m, q) => if m = 1 then b.prpReceive p q f stamp twin else b.hsrReceive p q f stamp twin false
    | none => match b.redboxOf p with
      | some (low, q) => b.interlinkReceive low q f
      | none => (true, b)
  if r.1 then r.2.deliver p f stamp else r.2

/-! The commands -/

/-- R122, R132: EN goes from 0 to 1 in the CFG of port p with the other fields of v; the port reads its settings. -/
def execPortEnable (p : Nat) (v : Word) (s : State) : Host.Outcome State Fault Refusal :=
  runUnit (portUnit p) (fun b =>
    if 20 ≤ p ∨ (b.prt p).en = true ∨ b.on (stRetired (portUnit p).hdr) = true then b
    else
      let w := BitVec.ofNat 32 ((v.toNat &&& (if p < 16 then 0x3E else 0x7E)) + 1)
      let b := b.wr (portCfg p) w
      let x := b.prt p
      let b := b.setPrt p { x with cfg := w, en := true, timer := b.tim.elapsed, lastRx := none, silent := false,
                                   red := if p < 16 then b.rd (PRTp_RED p) else 0, dd := if p < 16 then b.rd (PRTp_DD p) else 0 }
      let b := b.setFaults p 1 0
      let b := if p < 16 then b.judgePairs p else b
      let b := match b.pairOf p with
        | some (_, q) => b.setPrt (if q < p then q else p) { b.prt (if q < p then q else p) with supAt := b.tim.elapsed }
        | none => b
      b.guardRefresh) s

/-- R122: EN clears: the link drops at once; a frame in reception counts as a runt, one in transmission is cut. -/
def execPortDisable (p : Nat) (receiving : Bool) (s : State) : Host.Outcome State Fault Refusal :=
  runUnit (portUnit p) (fun b =>
    if 20 ≤ p ∨ (b.prt p).en = false then b
    else
      let b := b.set ⟨portCfg p, 0, 1⟩ 0
      let b := b.doIf (receiving && b.on (linkBit p)) (fun b => b.portCnt p 3 3 1)
      let b := (b.linkDrop p).setFaults p 0 0
      (b.setPrt p { b.prt p with en := false }).guardRefresh) s

/-- Port p reaches LINK, with the rate an SGMII PHY reports and whether the partner agrees to EEE. -/
def Block.portLinkUp (b : Block) (p speed : Nat) (eee : Bool) : Block :=
    if 20 ≤ p ∨ (b.prt p).en = false ∨ b.on (linkBit p) = true ∨ b.deadMode p = true ∨ b.on (prbsBit p) = true ∨
        b.on (stRetired (portUnit p).hdr) = true then b
    else
      let b := (b.set (linkBit p) 1).set (fecLock p) (if b.lineFec p then 1 else 0)
      let fast := if p < 16 then b.lineMode p < 2 else b.lineMode p < 3
      let b := b.set (speedBits p) (if b.isSgmii p then (if speed < 3 then speed else 2) else if fast then 3 else 2)
      let b := b.setFaults p 0 0
      let b := b.doIf (decide (16 ≤ p)) (fun b =>
        let m := b.lineMode p
        let can := m == 2 || m == 4 || (m == 5 && decide (2 ≤ speed))
        b.set (STNs_STAT_EEE_ACTIVE (p - 16)) (if eee && can && b.on (STNs_EEE_EN (p - 16)) && !b.eeeBlocked (p - 16) then 1 else 0))
      b.raise (portEvt p 0)

/-- R125 to R147: process port p receives a whole frame, or under PRBS finds bit errors. For the timers of R143 a frame that fails the
MAC's checks has been received too (DEDUCED, notes/assumptions/165.md). -/
def Block.portFrame (b : Block) (p : Nat) (f : RxFrame) : Block :=
  if 16 ≤ p then b
  else if b.on (prbsBit p) then b.prbsCount p f.prbs
  else if b.receives p = false then b
  else
    let b := b.advanceTo (f.stamp / 65536)
    let b := b.setPrt p { b.prt p with timer := b.tim.elapsed, lastRx := some b.tim.elapsed, silent := false }
    match b.macCheck p f with
    | (false, b) => b.badCutThrough p f
    | (true, b) =>
      let stamp := b.ingressStamp p f.stamp
      match ((b.rxMirror p f.bytes stamp).wakeFilters p f.bytes stamp).classCheck p f.bytes with
      | (false, b) => b
      | (true, b) =>
        if b.on NRG_STATUS_BIVOUAC && etherType f.bytes != 0x88F7 then (b.prtCnt p 6 1).rxDrop p f.bytes none
        else b.processFrame p f.bytes stamp f.twin

/-- R131, R173: an episode of low-power idle on port p: counted, on a process port with event 11 on the first since RX_LPI was
written. -/
def execLpiReceived (p : Nat) (s : State) : Host.Outcome State Fault Refusal :=
  runUnit (portUnit p) (fun b =>
    if 20 ≤ p ∨ b.receives p = false then b
    else if 16 ≤ p then b.stnCnt (p - 16) 8 1
    else
      let first := !(b.prt p).lpi
      ((b.prtCnt p 12 1).setPrt p { b.prt p with lpi := true }).raiseIf first (portEvt p 11)) s

/-- R140: the node-table entry of a source, unused for longer than FORGET, is freed. -/
def execNodeEntryForget (p mac : Nat) (s : State) : Host.Outcome State Fault Refusal :=
  runUnit (portUnit p) (fun b =>
    let low := b.pairLow p
    let nodes := (b.prt low).nodes
    match nodes.find? (fun e => e.mac == mac) with
    | none => b
    | some e =>
      let due := e.last + b.ddForget low + 1
      let b := if b.portNs low < due then b.advanceTo (b.ns + (due - b.portNs low)) else b
      b.setNodes low (nodes.filter (fun x => x.mac != mac))) s

/-- A PRP supervision frame of version 1 that names the module's own address (R135), without its trailer. -/
def supervisionFrame (seq : Nat) : List Byte :=
  beBytes 6 0x01154E000100 ++ beBytes 6 Config.ownMac ++ beBytes 2 0x88FB ++ beBytes 2 0x0001 ++ beBytes 2 seq ++
    beBytes 1 20 ++ beBytes 1 6 ++ beBytes 6 Config.ownMac ++ beBytes 2 0

/-- R135: SUP_INT seconds after the pair formed or last did so, the PRP pair of port p sends a supervision frame on both ports. SUP_INT is
1 to 255 s; 0 acts as 1 (DESIGN CHOICE, notes/assumptions/166.md). -/
def execSupervisionTx (p : Nat) (s : State) : Host.Outcome State Fault Refusal :=
  runUnit (portUnit p) (fun b =>
    match b.pairOf p with
    | some (1, q) =>
      let low := if q < p then q else p
      let due := (b.prt low).supAt + clampN 1 255 (bits (b.prt low).red.toNat 8 8) * 1000000000 * 2 ^ 32
      let b := b.advanceRun due
      let x := b.prt low
      let b := b.setPrt low { x with supSeq := (x.supSeq + 1) % 65536, supAt := b.tim.elapsed }
      (b.takeIn { id := 0, src := 23, bytes := supervisionFrame x.supSeq } (2 ^ p + 2 ^ q)).2
    | _ => b) s

/-- R143: port p of a PRP pair has received nothing for SILENT_MS while its partner has received a frame. -/
def execLanSilent (p : Nat) (s : State) : Host.Outcome State Fault Refusal :=
  runUnit (portUnit p) (fun b =>
    match b.pairOf p with
    | some (1, q) =>
      let x := b.prt p
      let ms := bits x.red.toNat 16 8
      let win := ms * 1000000 * 2 ^ 32
      if ms = 0 ∨ x.silent = true then b
      else
        let b := b.advanceRun (x.timer + win)
        match (b.prt q).lastRx with
        | some t => if b.tim.elapsed ≤ t + win then (b.setPrt p { x with silent := true }).raise (portEvt p 9) else b
        | none => b
    | _ => b) s

end Sys2Proof.Machine
end

