-- ==== Sys2Proof/Machine/Station.lean ====
section
/-! DEFINITION. The station ports (chapter "Switch core and station bus ports", R171 to R182): dispatch, Energy
Efficient Ethernet, MACsec and routable reception. Station index t is 0–3; its switch port is 16 + t. -/

namespace Sys2Proof.Machine

open Sys2Proof Sys2Proof.Reg

/-! MACsec (R177 to R180) -/

/-- The SA registers of station t: SAs 0–3 send, SA 4 + 4c + a is SA a of receive channel c. -/
def saCtrl (t n : Nat) : Nat := if n < 4 then STNs_TXSAa_CTRL t n else STNs_RXSCc_SAa_CTRL t ((n - 4) / 4) ((n - 4) % 4)
def saEn (t n : Nat) : Fld := ⟨saCtrl t n, 31, 1⟩
def saSlot (t n : Nat) : Fld := ⟨saCtrl t n, 0, 9⟩

/-- The packet number pair, the short SCI and the salt of an SA, which follow its control register. -/
def saPn (t n : Nat) : Nat := saCtrl t n + 4
def Block.saSalt (b : Block) (t n : Nat) : List Byte :=
  let a := saCtrl t n + 0x10
  beBytes 4 (b.rd (a + 8)).toNat ++ beBytes 4 (b.rd (a + 4)).toNat ++ beBytes 4 (b.rd a).toNat

/-- Does an SA's slot still hold the key its SA_EN recorded (R179, R663)? -/
def Block.saFresh (b : Block) (t n : Nat) : Bool × Block :=
  let slot := b.get (saSlot t n)
  let r := b.keyUse slot 2
  (r.1 && b.keyGen slot == b.swc.saGen.get (fun _ => 0) (64 * t + n), r.2)

/-- XOR of two byte strings of one length. -/
def xorBytes (x y : List Byte) : List Byte := List.zipWith (fun a c => a ^^^ c) x y

/-- The nonce of a frame: SCI and PN, or under XPN the short SCI and the 64-bit PN, XORed with the salt. -/
def Block.secNonce (b : Block) (t n sci pn : Nat) : List Byte :=
  if b.on (STNs_SEC_CIPHER t) then
    xorBytes (beBytes 4 (b.rd (saCtrl t n + 0xC)).toNat ++ beBytes 8 pn) (b.saSalt t n)
  else beBytes 8 sci ++ beBytes 4 pn

/-- Does a frame pass unprotected, on the uncontrolled port (R177)? -/
def Block.secBypass (b : Block) (t : Nat) (f : List Byte) : Bool :=
  etherType f == 0x888E || (b.on (STNs_SEC_PTP_BYPASS t) && etherType f == 0x88F7)

/-- The SecTAG of a sent frame. -/
def secTag (tci pn sl : Nat) (sci : Option Nat) : List Byte :=
  beBytes 2 0x88E5 ++ beBytes 1 tci ++ beBytes 1 sl ++ beBytes 4 pn ++
    (match sci with | some s => beBytes 8 s | none => [])

/-- Does station port t apply MACsec: the member has it and EN is set (R3, R177)? -/
def Block.secOn (b : Block) (t : Nat) : Bool := b.member.hasMacsec && b.on (STNs_SEC_EN t)

/-- The bytes of a frame before the check sequence as port e would send it, once MACsec has lengthened it (R178). -/
def Block.outSize (b : Block) (e : Nat) (f : List Byte) : Nat :=
  if 16 ≤ e ∧ e < 20 ∧ b.secOn (e - 16) = true ∧ b.secBypass (e - 16) f = false then
    f.length + (if b.on (STNs_SEC_INCLUDE_SCI (e - 16)) then 32 else 24)
  else f.length

/-- What egress makes of a frame at station port t (R161, R177 to R179): its bytes as sent, or none where it is
discarded. -/
def Block.secProtect (b : Block) (t : Nat) (f : List Byte) : Option (List Byte) × Block :=
  if !b.secOn t || b.secBypass t f then (some f, b)
  else
    let a := b.get (STNs_SEC_TX_AN t)
    let withSci := b.on (STNs_SEC_INCLUDE_SCI t)
    let xpn := b.on (STNs_SEC_CIPHER t)
    if !b.on (saEn t a) then (none, b.stnCnt t 20 1)
    else
      let pn := b.rd64 (saPn t a)
      if pn = 0 ∨ (xpn = false ∧ 2 ^ 32 ≤ pn) then (none, (b.stnCnt t 20 1).raise (391 + 16 * t))
      else match b.saFresh t a with
        | (false, b) => (none, (b.stnCnt t 20 1).raise (392 + 16 * t))
        | (true, b) =>
          let b := b.count64 ⟨.stn, t⟩ (saPn t a)
          let b := b.raiseIf (b.rd64 (saPn t a) == b.rd64 (STNs_PN_THRESH_LO t)) (390 + 16 * t)
          let sci := b.rd64 (STNs_TXSC_SCI_LO t)
          let conf := b.on (STNs_SEC_CONF t)
          let data := f.drop 12
          let tci := (if withSci then 0x20 else 0) + (if conf then 0x0C else 0) + a
          let tag := secTag tci (pn % 2 ^ 32) (if data.length < 48 then data.length else 0) (if withSci then some sci else none)
          let key := b.keyMaterial (b.get (saSlot t a))
          let nonce := b.secNonce t a sci pn
          let head := f.take 12 ++ tag
          let out := if conf then head ++ Config.gcmSeal key nonce head data
            else head ++ data ++ Config.gcmSeal key nonce (head ++ data) []
          (some out, b)

/-- The receive channel of an SCI (R180). -/
def Block.secChannel (b : Block) (t sci : Nat) : Option Nat :=
  (List.range 8).find? (fun c => b.on (STNs_RXSCc_CTRL_EN t c) && b.rd64 (STNs_RXSCc_SCI_LO t c) == sci)

/-- The packet number of a received frame: under XPN the 64-bit one recovered from the lowest acceptable PN. -/
def recoverPn (xpn : Bool) (lpn pn32 : Nat) : Nat :=
  if xpn then (lpn / 2 ^ 32 + (if bit lpn 31 && !bit pn32 31 then 1 else 0)) * 2 ^ 32 + pn32 else pn32

/-- MACsec verification of a received frame (R180): the frame as delivered, or none where it is discarded. -/
def Block.secVerify (b : Block) (t : Nat) (f : List Byte) : Option (List Byte) × Block :=
  if !b.secOn t then (some f, b)
  else if beAt f 12 2 ≠ 0x88E5 then
    if b.secBypass t f then (some f, b)
    else
      let b := (b.stnCnt t 19 1).raiseEvery 1 (399 + 16 * t)
      (if b.on (STNs_SEC_STRICT t) then none else some f, b)
  else
    let tci := beAt f 14 1
    let hasSci := bit tci 5
    let a := tci % 4
    let sci := if hasSci then beAt f 20 8 else frameSrc f * 65536 + 1
    let at' := if hasSci then 28 else 20
    match b.secChannel t sci with
    | none => (none, b.stnCnt t 18 1)
    | some c =>
      let n := 4 + 4 * c + a
      if !b.on (saEn t n) then (none, b.stnCnt t 18 1)
      else match b.saFresh t n with
        | (false, b) => (none, (b.stnCnt t 18 1).raise (392 + 16 * t))
        | (true, b) =>
          let lpn := b.rd64 (saPn t n)
          let pn := recoverPn (b.on (STNs_SEC_CIPHER t)) lpn (beAt f 16 4)
          let key := b.keyMaterial (b.get (saSlot t n))
          let nonce := b.secNonce t n sci pn
          let head := f.take at'
          let body := f.drop at'
          let clear := if bit tci 3 then Config.gcmOpen key nonce head body
            else (Config.gcmOpen key nonce (head ++ body.take (body.length - 16)) (body.drop (body.length - 16))).map
              (fun _ => body.take (body.length - 16))
          match clear with
          | none => (none, (b.stnCnt t 16 1).raiseEvery 1 (393 + 16 * t))
          | some data =>
            if b.on (STNs_SEC_REPLAY t) ∧ pn < lpn then (none, (b.stnCnt t 17 1).raiseEvery 1 (394 + 16 * t))
            else
              let floor := pn + 1 - b.get (STNs_SEC_REPLAY_WINDOW t)
              (some (f.take 12 ++ data), if lpn < floor then b.wr64 (saPn t n) floor else b)

/-! Routable GOOSE and SV (R181, R182) -/

/-- Does a frame's IPv4 destination match an enabled address of station t? -/
def Block.routeHit (b : Block) (t : Nat) (f : List Byte) : Bool :=
  isIpv4 f && (List.range 16).any (fun r => b.on (STNs_RCTLr_EN t r) && (b.rd (STNs_RADDRr t r)).toNat == ipDst f)

/-- The remaining conditions of R181. -/
def routeOk (f : List Byte) : Bool :=
  ipIhl f == 5 && beAt f (ipAt f) 1 / 16 == 4 && ipSumOk f && beAt f (ipAt f + 6) 2 % 16384 == 0 && ipProto f == 17 &&
    udpDst f == 102 && udpSumOk f

/-- Where the session header stands, and whether its length fields agree with the UDP length (R182). -/
def sessionAt (f : List Byte) : Nat := l4At f + 8
def sessionOk (f : List Byte) : Bool :=
  let h := sessionAt f
  decide (34 ≤ udpLen f) && beAt f (h + 1) 1 == 24 && beAt f (h + 2) 1 == 0x80 && beAt f (h + 3) 1 == 22 &&
    beAt f (h + 4) 4 + 16 == udpLen f

/-- A routable frame of station t: to engine 16, to the Ridge queue, or malformed (R181, R182). -/
def Block.routable (b : Block) (t : Nat) (f : List Byte) (stamp : Nat) : Block :=
  if !(routeOk f && sessionOk f) then ((b.stnCnt t 21 1).raiseEvery 1 (395 + 16 * t)).rxDrop (16 + t) f none
  else
    let h := sessionAt f
    let si := beAt f h 1
    if si = 0xA1 ∨ si = 0xA2 then
      b.toEngine (16 + t) 16 ⟨f, stamp, 16 + t, true, ipSrc f, beAt f (h + 8) 4, beAt f (h + 22) 4, h + 26⟩
    else b.ridgeRx 0 (16 + t) f stamp false

/-- The one destination of a frame of station port t (R172). Its EtherType stands after any VLAN tag: station ports carry no HSR (R171). -/
def Block.stnDeliver (b : Block) (t : Nat) (f : List Byte) (stamp : Nat) : Block :=
  let e := beAt f (afterVlan f) 2
  if e = 0x888E then b.ridgeRx 0 (16 + t) f stamp false
  else if e = 0x88F7 then b.ptpDeliver (16 + t) f stamp
  else if e = 0x88CC then b.ridgeRx 0 (16 + t) f stamp false
  else if e = 0x88B8 then b.toEngine (16 + t) 16 { bytes := f, stamp := stamp, port := 16 + t }
  else if !hsrTagged f && b.routeHit t f then b.routable t f stamp
  else if e = 0x88BA then (b.stnCnt t 6 1).rxDrop (16 + t) f none
  else if b.on (STNs_CFG_FWD t) then b.toSwitch (16 + t) f stamp
  else (b.stnCnt t 6 1).rxDrop (16 + t) f none

/-! Energy Efficient Ethernet (R173 to R176) -/

/-- Has port e nothing to send but launches, and none of those either? -/
def Block.portBare (b : Block) (e : Nat) : Bool :=
  (List.range 8).all (fun q => (b.swc.queues.get (fun _ => []) (8 * e + q)).isEmpty) &&
    (b.swc.pubQ.get (fun _ => []) e).isEmpty && (b.swc.sending.get (fun _ => none) e).isNone
def Block.portEmpty (b : Block) (e : Nat) : Bool := b.portBare e && (b.swc.launch.get (fun _ => []) e).isEmpty

/-- The transmit wake time in µs: the larger of TX_TW and TW_MIN (R176). -/
def Block.wakeUs (b : Block) (t : Nat) : Nat :=
  if b.get (STNs_EEE_TW_TX_TW t) < b.get (STNs_EEE_TW_TW_MIN t) then b.get (STNs_EEE_TW_TW_MIN t)
  else b.get (STNs_EEE_TW_TX_TW t)

/-- Port t leaves low-power idle; its next frame starts the wake time later (R175). -/
def Block.eeeLeave (b : Block) (t : Nat) : Block :=
  if b.on (STNs_STAT_TX_LPI t) then
    (b.set (STNs_STAT_TX_LPI t) 0).modSwc (fun w => { w with wakeAt := (t, b.ns + b.wakeUs t * 1000) :: w.wakeAt })
  else b

/-- The instant, ns, by which port e leaves low-power idle for the launch at the head of its queue: L − TX_TW − 1 µs (R175). -/
def Block.launchWakeAt (b : Block) (e : Nat) : Nat :=
  match b.stored ((b.swc.launch.get (fun _ => []) e).headD 0) with
  | some f => b.launchStart e (match f.launch with | some l => l | none => 0) - b.wakeUs (e - 16) * 1000 - 1000
  | none => 0

/-- Station port t leaves low-power idle for what waits on it: a launch alone lets it sleep until its time (R175). -/
def Block.eeeWake (b : Block) (t : Nat) : Block :=
  if b.on (STNs_STAT_TX_LPI t) && b.portBare (16 + t) then (b.advanceTo (b.launchWakeAt (16 + t))).eeeLeave t else b.eeeLeave t

/-- Station port t receives a whole frame, or under PRBS finds bit errors (R123, R171, R172, R180). -/
def Block.stnFrame (b : Block) (t : Nat) (f : RxFrame) : Block :=
  if b.on (prbsBit (16 + t)) then b.prbsCount (16 + t) f.prbs
  else if b.receives (16 + t) = false then b
  else
    match (b.advanceTo (f.stamp / 65536)).macCheck (16 + t) f with
    | (false, b) => b
    | (true, b) =>
      let stamp := b.ingressStamp (16 + t) f.stamp
      match (b.rxMirror (16 + t) f.bytes stamp).classCheck (16 + t) f.bytes with
      | (false, b) => b
      | (true, b) =>
        match b.secVerify t f.bytes with
        | (none, b) => b.rxDrop (16 + t) f.bytes (some 7)
        | (some g, b) => b.stnDeliver t g stamp

/-! The commands -/

/-- R172, R180: station port p (0–3) receives a whole frame. -/
def execStationFrameReceived (p : Nat) (f : RxFrame) (s : State) : Host.Outcome State Fault Refusal :=
  runUnit ⟨.stn, p⟩ (fun b => b.stnFrame p f) s

/-- R173: station port p, with every queue empty for IDLE_US, enters transmit low-power idle. -/
def execEeeLpiEntry (p : Nat) (s : State) : Host.Outcome State Fault Refusal :=
  runUnit ⟨.stn, p⟩ (fun b =>
    if 4 ≤ p ∨ b.on (linkBit (16 + p)) = false ∨ b.on (STNs_STAT_EEE_ACTIVE p) = false ∨ b.on (STNs_EEE_EN p) = false ∨
        b.on (STNs_STAT_TX_LPI p) = true ∨ b.portEmpty (16 + p) = false ∨ b.eeeBlocked p = true then b
    else
      let b := b.advanceTo (b.swc.idleAt.get (fun _ => 0) p + b.get (STNs_EEE_IDLE_US p) * 1000)
      (b.set (STNs_STAT_TX_LPI p) 1).stnCnt p 9 1) s

/-- R175: a queued frame makes station port p leave low-power idle; a launch no later than L − TX_TW − 1 µs. -/
def execEeeWake (p : Nat) (s : State) : Host.Outcome State Fault Refusal :=
  runUnit ⟨.stn, p⟩ (fun b => if 4 ≤ p ∨ b.portEmpty (16 + p) = true then b else b.eeeWake p) s

/-- R176: firmware writes TX_TW; one below TW_MIN raises event 5. TW_MIN follows the image lock. -/
def execEeeTwWrite (p : Nat) (v : Word) (s : State) : Host.Outcome State Fault Refusal :=
  runUnit ⟨.stn, p⟩ (fun b =>
    if 4 ≤ p then b
    else
      let b := b.set (STNs_EEE_TW_TX_TW p) v.toNat
      let b := b.doIf (!b.imgLock) (fun b => b.set (STNs_EEE_TW_TW_MIN p) (v.toNat / 65536))
      b.raiseIf (decide (b.get (STNs_EEE_TW_TX_TW p) < b.get (STNs_EEE_TW_TW_MIN p))) (389 + 16 * p)) s

/-- R179, R663: SA_EN set in SA sa of station port p with the key slot of v; a slot that does not permit MACsec leaves
SA_EN clear with KEY_REFUSED. -/
def execSaEnable (p sa : Nat) (v : Word) (s : State) : Host.Outcome State Fault Refusal :=
  runUnit ⟨.stn, p⟩ (fun b =>
    if 4 ≤ p ∨ 36 ≤ sa ∨ b.member.hasMacsec = false then b
    else
      let slot := bits v.toNat 0 9
      let b := b.wr (saCtrl p sa) (BitVec.ofNat 32 (2 ^ 31 + slot))
      match b.keyUse slot 2 with
      | (true, b) =>
        if b.get (KEY_SLOTn_ATTR_LEN slot) = 32 then
          b.modSwc (fun w => { w with saGen := (64 * p + sa, b.keyGen slot) :: w.saGen })
        else (b.set (saEn p sa) 0).set (STNs_SEC_STAT_KEY_REFUSED p) 1
      | (false, b) => (b.set (saEn p sa) 0).set (STNs_SEC_STAT_KEY_REFUSED p) 1) s

end Sys2Proof.Machine
end

