-- ==== Sys2Proof/Machine/Rhizoid.lean ====
section
/-! DEFINITION. Sampled-value intake and alignment (chapter "Sampled-value intake and alignment"): parsing, matching, the
checks, placement, and the release of instants. -/

namespace Sys2Proof.Machine

open Sys2Proof Sys2Proof.Reg

/-! Counters and events -/

def Block.rhzCnt (b : Block) (e i : Nat) : Block := b.count (RHZe_CNTi e i) 1 (bitOf (RHZe_CNT_ROLL e) i) 542
def Block.slotCnt (b : Block) (s i n : Nat) : Block := b.count (RHZ_SLOTs_CNTi s i) n (bitOf (RHZ_SLOTs_CNT_ROLL s) i) 542

/-- An ASDU or a record of a slot's former generation, or of a disabled slot, is dropped: STALE of engine e, and event 543 (R191, R218). -/
def Block.stale (b : Block) (e : Nat) : Block := (b.rhzCnt e 4).raiseEvery 1000 543

def Block.mismatch (b : Block) (kind s : Nat) : Block := (b.set RHZ_MISMATCH_KIND kind).set RHZ_MISMATCH_SLOT s

/-- STATE of a slot (R214). -/
abbrev slotDISABLED : Nat := 0
abbrev slotACQUIRING : Nat := 1
abbrev slotRUNNING : Nat := 2
abbrev slotHOLDOVER : Nat := 3
abbrev slotINVALID : Nat := 4

def Block.slotState (b : Block) (s : Nat) : Nat := b.get (RHZ_SLOTs_STAT_STATE s)

/-- A slot's STATE takes a value: a change sets its bit in RHZ_ATTN and raises event 529; RHZ_INV follows (R214, R216). -/
def Block.setSlotState (b : Block) (s v : Nat) : Block :=
  if b.slotState s = v then b
  else
    let b := (b.set (RHZ_SLOTs_STAT_STATE s) v).set (bitOf (RHZ_ATTNk (s / 32)) (s % 32)) 1
    (b.set (bitOf (RHZ_INVk (s / 32)) (s % 32)) (if v = slotACQUIRING ∨ v = slotINVALID then 1 else 0)).raise 529

/-! The application header of SV and GOOSE frames (R182, R195 to R197, R659) -/

/-- APPID, the simulation bit, the destination MAC or source IPv4 address, the APDU, and any security extension. -/
structure AppHead where
  appid : Nat
  sim : Bool
  addr : Nat
  apdu : List Byte
  ext : Option SecExt

/-- The security extension that fills the octets after an APDU; pre is what precedes it under the tag. -/
def parseExt (pre rest : List Byte) : Option SecExt :=
  let iv := beAt rest 5 1
  let n := beAt rest (6 + iv) 1
  if rest.length = 7 + iv + n then
    some ⟨beAt rest 0 1, beAt rest 1 4, pre ++ rest.take (7 + iv), slice rest 6 iv, rest.drop (7 + iv)⟩
  else none

/-- How many octets the APDU at the head of a byte string takes. -/
def apduLen (l : List Byte) : Option Nat :=
  match l with
  | x :: _ =>
    if x.toNat = 0xE6 then some (32 + 36 * (beAt l 3 1 % 32))
    else match berHead l with | some (_, len, h) => some (h + len) | none => none
  | [] => none

/-- The header of a frame; none where the Length field disagrees (R196). -/
def appHead (f : EngFrame) : Option AppHead :=
  if f.routable then
    let o := f.offset
    let body := slice f.bytes (o + 6) (beAt f.bytes (o + 4) 2)
    let h := sessionAt f.bytes
    let tail := slice f.bytes (o + 6 + body.length) (h + udpLen f.bytes - 8 - (o + 6 + body.length))
    let tag := tail.drop 2
    let ext : Option SecExt := if tail.isEmpty then none
      else some ⟨if tag.length = 32 then 1 else 0, f.keyId, slice f.bytes h (o + 6 + body.length - h), fit 12 (beBytes 4 f.spdu), tag⟩
    if apduLen body = some body.length ∧ body.length = beAt f.bytes (o + 4) 2 then
      some ⟨beAt f.bytes (o + 2) 2, beAt f.bytes (o + 1) 1 != 0, f.srcIp, body, ext⟩
    else none
  else
    let p := f.bytes.drop (etherAt f.bytes + 2)
    let len := beAt p 2 2
    let body := slice p 8 (len - 8)
    match apduLen body with
    | none => none
    | some n =>
      let rest := body.drop n
      let ext := parseExt (p.take (8 + n)) rest
      if 8 ≤ len ∧ len ≤ p.length ∧ n ≤ body.length ∧ (rest.isEmpty = true ∨ ext.isSome = true) then
        some ⟨beAt p 0 2, bit (beAt p 4 2) 15, frameDst f.bytes, body.take n, ext⟩
      else none

/-! The APDU (R195 to R198) -/

/-- One ASDU as parsed: its channels as (value, quality). -/
structure SvAsdu where
  svId : List Byte
  cnt : Nat
  confRev : Nat
  synch : Nat
  rate : Option Nat
  data : List (Nat × Nat)
  raw : List Byte := []
  deriving DecidableEq

/-- The channels of seqData. -/
def svData (l : List Byte) : List (Nat × Nat) :=
  (List.range (l.length / 8)).map (fun c => (beAt l (8 * c) 4, beAt l (8 * c + 4) 4))

/-- Strictly rising tags. -/
def rising : List Nat → Bool
  | a :: c :: t => decide (a < c) && rising (c :: t)
  | _ => true

/-- An ASDU of IEC 61850-9-2 with smpCnt of n octets; none where it breaks R195. -/
def parseAsduN (n : Nat) (l : List Byte) : Option SvAsdu :=
  match ber l with
  | none => none
  | some es =>
    let tags := es.map (fun e => e.1)
    let len := fun t n => match berGet es t with | some v => v.length == n | none => true
    if rising tags && tags.all (fun t => decide (0x80 ≤ t) && decide (t ≤ 0x89)) &&
        len 0x82 n && len 0x83 4 && len 0x84 8 && len 0x85 1 && len 0x86 2 && len 0x88 2 && len 0x89 8 then
      match berGet es 0x80, berGet es 0x82, berGet es 0x83, berGet es 0x85, berGet es 0x87 with
      | some i, some c, some r, some y, some d =>
        if d.length % 8 = 0 then some ⟨i, beNat c, beNat r, beNat y, (berGet es 0x86).map beNat, svData d, l⟩ else none
      | _, _, _, _, _ => none
    else none

/-- An ASDU of a 9-2 frame. -/
def parseAsdu (l : List Byte) : Option SvAsdu := parseAsduN 2 l

/-- The octets of a BER element with a value of up to 65,535 octets. -/
def berOf (tag : Nat) (v : List Byte) : List Byte :=
  leBytes 1 tag ++ (if v.length < 128 then leBytes 1 v.length else if v.length < 256 then [0x81] ++ leBytes 1 v.length else [0x82] ++ beBytes 2 v.length) ++ v

/-- An ASDU of a high-rate frame as a 9-2 ASDU with smpCnt of four octets: the form in which it is forwarded. -/
def highRaw (svId : List Byte) (cnt confRev synch : Nat) (data : List (Nat × Nat)) : List Byte :=
  berOf 0x80 svId ++ berOf 0x82 (beBytes 4 cnt) ++ berOf 0x83 (beBytes 4 confRev) ++ berOf 0x85 (beBytes 1 synch) ++
    berOf 0x87 (data.foldl (fun l d => l ++ beBytes 4 d.1 ++ beBytes 4 d.2) [])

/-- Every element of a list through a partial function, or none. -/
def allSome {α β : Type} (f : α → Option β) : List α → Option (List β)
  | [] => some []
  | a :: t => match f a, allSome f t with | some x, some r => some (x :: r) | _, _ => none

/-- The ASDUs of a savPdu. NASDU being 1 to 8, noASDU takes one octet (DEDUCED, notes/assumptions/170.md). -/
def parseSav (apdu : List Byte) : Option (List SvAsdu) :=
  match ber apdu with
  | some [(0x60, body)] =>
    match ber body with
    | some [(0x80, n), (0xA2, sq)] =>
      match ber sq with
      | some es =>
        if n.length = 1 ∧ es.length = beNat n ∧ es.all (fun e => e.1 == 0x30) = true then allSome (fun e => parseAsdu e.2) es else none
      | none => none
    | _ => none
  | _ => none

/-- The ASDUs of a high-rate frame (R197, R198); offsets count from its first APDU octet, eight octets after APPID. -/
def parseHigh (apdu : List Byte) (resv : Nat) : Option (List SvAsdu) :=
  let n := beAt apdu 3 1
  let sv := slice apdu 16 16
  let name := sv.takeWhile (fun x => x != 0)
  let q := fun c => beAt apdu (32 + 4 * c) 4
  if beAt apdu 1 1 / 16 = 1 ∧ beAt apdu 2 1 = 8 ∧ 1 ≤ n ∧ n ≤ 24 ∧ beAt apdu 13 1 % 128 = 0 ∧ beAt apdu 14 2 = 0 ∧
      resv % 32768 = 0 ∧ (sv.drop name.length).all (fun x => x == 0) = true ∧ beAt apdu 8 4 < 96000 then
    some ((List.range 8).map (fun k =>
      let cnt := (beAt apdu 8 4 + k) % 96000
      let data := (List.range n).map (fun c => (beAt apdu (32 + 4 * n + 4 * (k * n + c)) 4, q c))
      ⟨name, cnt, beAt apdu 4 4, beAt apdu 12 1, none, data, highRaw name cnt (beAt apdu 4 4) (beAt apdu 12 1) data⟩))
  else none

/-! Status words (R206) -/

/-- The status of a received sample. -/
def sampleStatus (q : Nat) (unsync sim : Bool) : Nat :=
  let bt := fun (v : Bool) (i : Nat) => if v then 2 ^ i else 0
  bt unsync 11 + bt sim 10 + bt (bit q 11) 9 + bt (bit q 12) 8 + bt (bit q 13) 7 + bt (bit q 10) 6 +
    bt (bits q 2 8 != 0) 5 + (if q % 4 = 2 then 1 else q % 4)

/-- The status of a substituted sample (R215). -/
def heldStatus (st : Nat) (sat : Bool) : Nat := (st ||| 0x4043) ||| (if sat then 0x2000 else 0)

/-- extrapolate() of R215 on 32-bit words: the value, and whether it saturated. -/
def extrapolate (x1 x0 k : Nat) : Nat × Bool :=
  let v := sgn 32 x1 + (k : Int) * (sgn 32 x1 - sgn 32 x0)
  let c := clampI (-2147483648) 2147483647 v
  (uns 32 c, c != v)

/-! Matching (R192) -/

/-- Slots in index order that satisfy keys 1 to 3 at engine e. -/
def Block.keyed (b : Block) (e : Nat) (h : AppHead) (routable : Bool) : List Nat :=
  (List.range b.member.slots).filter (fun s =>
    let x := b.slotOf s
    x.en && (b.grpOf x.group).en && x.names e && x.appid == h.appid && (x.profile == 2) == routable && x.addr == h.addr)

/-- The slot of keys 1 to 4. -/
def Block.matched (b : Block) (ks : List Nat) (svId : List Byte) : Option Nat :=
  ks.find? (fun s => (b.slotOf s).svLen != 0 && (b.slotOf s).svId == svId)

/-- Does a matched ASDU fit its slot (R196)? -/
def Block.fits (b : Block) (s : Nat) (a : SvAsdu) (n : Nat) (high : Bool) : Bool :=
  let x := b.slotOf s
  let r := (b.grpOf x.group).rate
  x.nasdu == n && a.data.length == x.nch && decide (a.cnt < r) && (match a.rate with | some v => v == r | none => true) &&
    (x.profile == 1) == high

/-! Placement (R207, R208, R726) -/

/-- nearest_instant of R726. -/
def nearestInstant (x : Grp) (est : Nat) : Nat :=
  let i := x.firstFrom est
  if i = 0 then 0 else if est - x.tInst (i - 1) ≤ x.tInst i - est then i - 1 else i

/-- nearest_with_count of R726. -/
def nearestWithCount (x : Grp) (est cnt : Nat) : Nat :=
  let s := est / 1000000000
  let d := fun i => (((x.tInst i : Nat) : Int) - ((est : Nat) : Int)).natAbs
  ([s - 1, s, s + 1].map (fun q => q * x.rate + cnt)).foldl (fun m i => if d i < d m then i else m) ((s - 1) * x.rate + cnt)

/-- The outcomes of R207. -/
inductive Placing
  | dup | restart | implaus | late | future | write (i : Nat)
  deriving DecidableEq, Repr

/-- The ASDUs of slot s in a list of rows no longer count for it. -/
def killRows (s : Nat) (p : Nat → Bool) (l : List (Nat × RowAsdu)) : List (Nat × RowAsdu) :=
  l.map (fun e => if e.2.slot = s ∧ p e.1 = true then (e.1, { e.2 with dead := true }) else e)

/-- A slot restarts (R208, steps 1 and 2). The ASDUs of its old sequence that wait for a release serve no more: their instants are
released without them. -/
def Block.slotRestart (b : Block) (s ts : Nat) : Block :=
  let b := (((b.slotCnt s 5 1).raise 534).setSlotState s slotACQUIRING).set (RHZ_SLOTs_STAT_GOOD_RUN s) 0
  let g := (b.slotOf s).group
  let b := b.setGrp g { b.grpOf g with rows := killRows s (fun _ => true) (b.grpOf g).rows }
  b.setSlot s { b.slotOf s with haveLast := false, restartTs := ts, x1 := [], x0 := [], st := [], simRestart := false }

/-- The pseudocode of R207 for ASDU k of n: its outcome, with what it changes. -/
def Block.place (b : Block) (s cnt synch n k ts : Nat) (synced : Bool) : Placing × Block :=
  let x := b.slotOf s
  let g := b.grpOf x.group
  let R := g.rate
  let D := g.depth
  let d := sub32 (cnt + R) (b.get (RHZ_SLOTs_LAST_CNT s)) % R
  if x.haveLast && (d == 0 || decide (R - D < d)) then (.dup, b)
  else if x.haveLast && decide (D < d) then (.restart, b)
  else if x.haveLast && decide (ts < x.restartTs) then (.dup, b)
  else
    let est := (ts + 2 ^ 64 - (x.transit + (n - 1 - k) * 1000000000 / R)) % 2 ^ 64
    let lastI := b.rd64 (RHZ_SLOTs_LASTI_LO s)
    let I := if synced then nearestWithCount g est cnt else if x.haveLast then lastI + d else nearestInstant g est
    if g.plausNs < (((g.tInst I : Nat) : Int) - ((est : Nat) : Int)).natAbs then (if synced then .implaus else .restart, b)
    else if x.haveLast && I != lastI + d then (.restart, b)
    else
      let b := if x.haveLast then b.slotCnt s 7 (d - 1) else b
      let b := ((b.set (RHZ_SLOTs_LAST_CNT s) cnt).set (RHZ_SLOTs_LAST_SYNCH s) synch).wr64 (RHZ_SLOTs_LASTI_LO s) I
      let b := (b.setSlot s { x with haveLast := true }).set (RHZ_SLOTs_STAT_ARRIVING s) 1
      let next := b.grpNext x.group
      (if I < next then .late else if next + D ≤ I then .future else .write I, b)

/-- The entries of a slot's channels of an instant in the ring (R209). -/
def Block.ringWrite (b : Block) (s i : Nat) (vals : List (Nat × Nat)) : Block :=
  let x := b.slotOf s
  let g := b.grpOf x.group
  (List.range vals.length).foldl (fun b c =>
    let v := vals.getD c (0, 0)
    b.stores .intake (g.entryAt (x.chBase + c) i) (leBytes 4 v.1 ++ leBytes 2 v.2 ++ leBytes 2 i)) b

/-- An ASDU stands in its row; one of the slot that stood there is replaced. -/
def Block.rowPut (b : Block) (g i : Nat) (r : RowAsdu) : Block :=
  let x := b.grpOf g
  b.setGrp g { x with rows := (i, r) :: killRows r.slot (fun j => j == i) x.rows }

/-- The outcome of placing an ASDU acts (R207, R208); e counts. The bytes of row I − D stay until t_inst(I) (R210): an ASDU whose instant
has not come yet is written to them at its release (DEDUCED, notes/assumptions/172.md). -/
def Block.placed (b : Block) (e s : Nat) (o : Placing) (r : RowAsdu) : Block :=
  match o with
  | .dup => b.slotCnt s 4 1
  | .implaus | .restart => (b.rhzCnt e 6).raiseEvery 1 538
  | .future => (b.rhzCnt e 7).raiseEvery 1 538
  | .late => (b.slotCnt s 3 1).raiseEvery 1 537
  | .write i =>
    let g := (b.slotOf s).group
    (b.rowPut g i r).doIf (decide ((b.grpOf g).tInst i ≤ b.ns)) (fun b => b.ringWrite s i r.vals)

/-- An ASDU is placed, with one restart where R207 asks for it (R208). -/
def Block.placeAsdu (b : Block) (e s : Nat) (a : SvAsdu) (n k ts : Nat) (synced sim : Bool) : Block :=
  let r : RowAsdu := ⟨s, b.get (RHZ_SLOTs_STAT_GEN s), ts, a.synch, synced,
    a.data.map (fun d => (d.1, sampleStatus d.2 (!synced) sim)), a.data.foldl (fun q d => q ||| d.2 % 16384) 0, e, a.raw, false⟩
  match b.place s a.cnt a.synch n k ts synced with
  | (.restart, b) =>
    let again := (b.slotRestart s ts).place s a.cnt a.synch n k ts synced
    again.2.placed e s again.1 r
  | (o, b) => b.placed e s o r

/-! The checks of R201 on an ASDU matched to slot s -/

/-- The synchronisation level of a smpSynch (R203). -/
def syncLevel (y : Nat) : Nat := if y = 2 then 2 else if y = 1 ∨ (5 ≤ y ∧ y ≤ 254) then 1 else 0

/-- Step 4: simulation (R204). Is the ASDU accepted? -/
def Block.simCheck (b : Block) (e s ts : Nat) (sim : Bool) : Bool × Block :=
  let seen := b.on (RHZ_SLOTs_STAT_SIM_SEEN s)
  if b.on RHZ_CTRL_SIM_MODE then
    if sim then
      (true, if seen then b else ((b.set (RHZ_SLOTs_STAT_SIM_SEEN s) 1).raise 535).slotRestart s ts)
    else if seen then (false, b.rhzCnt e 5) else (true, b)
  else if sim then (false, (b.rhzCnt e 5).raiseEvery 1000 536)
  else (true, b)

/-- Steps 3 to 7 of R201. -/
def Block.checkAsdu (b : Block) (e s : Nat) (a : SvAsdu) (n k ts : Nat) (sim : Bool) : Block :=
  let x := b.slotOf s
  if a.confRev ≠ x.confRev then
    let first := !b.on (RHZ_SLOTs_STAT_CONFREV_ERR s)
    let b := ((b.slotCnt s 6 1).wr (RHZ_SLOTs_CONFREV_SEEN s) (BitVec.ofNat 32 a.confRev)).set (RHZ_SLOTs_STAT_CONFREV_ERR s) 1
    b.doIf first (fun b => (b.mismatch 2 s).raise 532)
  else
    match b.simCheck e s ts sim with
    | (false, b) => b
    | (true, b) =>
      let meets := decide ((if x.syncReq = 3 then 2 else x.syncReq) ≤ syncLevel a.synch)
      let b := if b.on (RHZ_SLOTs_STAT_UNSYNC s) = meets then (b.set (RHZ_SLOTs_STAT_UNSYNC s) (if meets then 0 else 1)).raise 539 else b
      if !meets && !x.allowUnsync then b.rhzCnt e 10
      else
        let b := if (b.slotOf s).simRestart then b.slotRestart s ts else b
        b.placeAsdu e s a n k ts meets sim

/-! A whole frame (R196) -/

/-- A frame that breaks R196: counted once, with the engine's event. -/
def Block.malformed (b : Block) (e : Nat) : Block := (b.rhzCnt e 2).raiseEvery 1 (512 + e)

/-- A parsed frame's ASDUs, each with its slot. -/
def Block.svTake (b : Block) (e : Nat) (f : EngFrame) (h : AppHead) (as : List SvAsdu) (high : Bool) : Block :=
  let ks := b.keyed e h f.routable
  let ms := as.map (fun a => (a, b.matched ks a.svId))
  if !ms.all (fun m => match m.2 with | some s => b.fits s m.1 as.length high | none => true) then b.malformed e
  else
    let slots := ms.filterMap (fun m => m.2)
    let auth := match slots with
      | [] => (true, b)
      | s :: _ => b.authCheck (b.rd (KEY_SVBs s)).toNat 0 h.ext
    let b := auth.2
    if !auth.1 then b
    else
      -- R199: the SPDU number of the payload, judged once for each slot
      let fresh := fun s => !f.routable || !(b.slotOf s).haveSpdu || decide (0 < sgn 32 (f.spdu + 2 ^ 32 - (b.rd (RHZ_SLOTs_SPDU s)).toNat))
      let old := slots.dedup.filter (fun s => !fresh s)
      let b := old.foldl (fun b _ => (b.rhzCnt e 8).raiseEvery 1 541) b
      let b := slots.foldl (fun b s => if f.routable && !(s ∈ old) then
          (b.setSlot s { b.slotOf s with haveSpdu := true }).wr (RHZ_SLOTs_SPDU s) (BitVec.ofNat 32 f.spdu) else b) b
      let hold := bit (beAt h.apdu 13 1) 7
      let b := if high then slots.foldl (fun b s => b.set (RHZ_SLOTs_STAT_MU_HOLD s) (if hold then 1 else 0)) b else b
      (List.range ms.length).foldl (fun b k =>
        match ms[k]? with
        | none => b
        | some (a, m) =>
          let b := b.rhzCnt e 1
          match m with
          | none =>
            let b := b.rhzCnt e 3
            match ks with
            | s :: _ => (b.mismatch 1 s).raiseEvery 1000 533
            | [] => b
          | some s =>
            if s ∈ old then b
            else b.checkAsdu e s a ms.length k (f.stamp / 65536) h.sim) b

/-- Is a frame one of sampled values? -/
def isSv (f : EngFrame) : Bool :=
  if f.routable then beAt f.bytes (sessionAt f.bytes) 1 == 0xA2 else etherType f.bytes == 0x88BA

/-- The head of engine e's queue leaves it. -/
def Block.engineTake (b : Block) (e : Nat) : Block :=
  let q := (b.rhz.queue.get (fun _ => []) e).drop 1
  ({ b with rhz := { b.rhz with queue := (e, q) :: b.rhz.queue } }.set (RHZe_STAT_QFILL e) q.length).rhzCnt e 0

/-- A sampled-value frame of engine e. -/
def Block.svFrame (b : Block) (e : Nat) (f : EngFrame) : Block :=
  match appHead f with
  | none => b.malformed e
  | some h =>
    let high := beAt h.apdu 0 1 == 0xE6
    match (if high then parseHigh h.apdu (beAt f.bytes (etherAt f.bytes + 6) 2) else parseSav h.apdu) with
    | none => b.malformed e
    | some as => b.svTake e f h as high

/-! Release (R211 to R216) -/

/-- Enabled slots of a group. -/
def Block.grpSlots (b : Block) (g : Nat) : List Nat :=
  (List.range 1024).filter (fun s => (b.slotOf s).en && (b.slotOf s).group == g)

/-- The slots awaited for the next instant, as the state now stands (R211). -/
def Block.awaitSet (b : Block) (g : Nat) : List Nat :=
  (b.grpSlots g).filter (fun s => (b.slotOf s).awaitEn &&
    (b.slotState s == slotRUNNING || b.slotState s == slotHOLDOVER || b.on (RHZ_SLOTs_STAT_ARRIVING s)))

/-- The group's awaited set and its register follow. -/
def Block.awaitShow (b : Block) (g : Nat) : Block :=
  let a := b.awaitSet g
  ((b.setGrp g { b.grpOf g with awaited := a }).set (RHZ_GRPg_AWAIT_SLOTS g) (b.grpSlots g).length).set
    (RHZ_GRPg_AWAIT_AWAITED g) a.length

/-- An awaited slot that is no longer enabled is not awaited (R211); the group's registers follow. -/
def Block.awaitDrop (b : Block) (g s : Nat) : Block :=
  let a := (b.grpOf g).awaited.filter (fun t => t != s)
  ((b.setGrp g { b.grpOf g with awaited := a }).set (RHZ_GRPg_AWAIT_SLOTS g) (b.grpSlots g).length).set (RHZ_GRPg_AWAIT_AWAITED g) a.length

/-- ref of R212 for NEXT of group g, and whether it is a deadline release. -/
def Block.releaseRef (b : Block) (g : Nat) : Nat × Bool :=
  let x := b.grpOf g
  let I := b.grpNext g
  let row := x.rows.filter (fun r => r.1 == I)
  let guard := b.guardFor g I
  let lim := 1000000000 / x.rate - guard
  let wait := if x.waitNs < lim then x.waitNs else lim
  let dl0 := x.tInst I + x.dmaxNs
  let dl := row.foldl (fun d r => if r.2.stamp + wait < d then r.2.stamp + wait else d) dl0
  let stampOf := fun s => (row.find? (fun r => r.2.slot == s && !r.2.dead)).map (fun r => r.2.stamp)
  if x.awaited ≠ [] ∧ x.awaited.all (fun s => match stampOf s with | some t => decide (t < dl) | none => false) = true then
    (x.awaited.foldl (fun m s => match stampOf s with | some t => (if m < t + 1 then t + 1 else m) | none => m) 0, false)
  else (dl, true)

/-- The status and value of an entry without a value (R216). -/
def invalidEntries (n : Nat) : List (Nat × Nat) := List.replicate n (0, 0x8001)

/-- Slot s at the release of instant i, with the ASDU included or none (R214): how its entries read, and the block. -/
def Block.slotRelease (b : Block) (s i : Nat) (a : Option RowAsdu) : Block :=
  let x := b.slotOf s
  let st := b.slotState s
  match a with
  | some r =>
    let b := (b.slotCnt s 0 1).set (RHZ_SLOTs_QUAL_QOR s) r.qual
    let b := b.setSlot s { x with x1 := r.vals.map (fun v => v.1), x0 := x.x1, st := r.vals.map (fun v => v.2) }
    if st = slotACQUIRING ∨ st = slotINVALID then
      let n := b.get (RHZ_SLOTs_STAT_GOOD_RUN s) + 1
      let b := b.set (RHZ_SLOTs_STAT_GOOD_RUN s) n
      if 16 ≤ n then ((b.setSlotState s slotRUNNING).raise 531).ringWrite s i r.vals
      else b.ringWrite s i (r.vals.map (fun v => (v.1, (v.2 / 4 * 4 + 1) ||| 0x8000)))
    else ((b.setSlotState s slotRUNNING).set (RHZ_SLOTs_STAT_MISS s) 0).ringWrite s i r.vals
  | none =>
    let b := b.slotCnt s 1 1
    if st = slotACQUIRING ∨ st = slotINVALID then
      ((b.set (RHZ_SLOTs_STAT_GOOD_RUN s) 0).set (RHZ_SLOTs_STAT_ARRIVING s) 0).ringWrite s i (invalidEntries x.nch)
    else
      let k := if st = slotRUNNING then 1 else b.get (RHZ_SLOTs_STAT_MISS s) + 1
      if 2 < k then
        let b := ((b.set (RHZ_SLOTs_STAT_MISS s) 0).set (RHZ_SLOTs_STAT_GOOD_RUN s) 0).setSlotState s slotINVALID
        (b.raise 530).ringWrite s i (invalidEntries x.nch)
      else
        let b := ((b.setSlotState s slotHOLDOVER).set (RHZ_SLOTs_STAT_MISS s) k).slotCnt s 2 1
        b.ringWrite s i ((List.range x.nch).map (fun c =>
          let e := extrapolate (x.x1.getD c 0) (x.x0.getD c 0) k
          (e.1, heldStatus (x.st.getD c 0) e.2)))

/-- The entry of slot s in a RELEASE record after the release (R438). -/
def Block.relEntry (b : Block) (s : Nat) (included : Bool) : Nat :=
  let st := b.slotState s
  let o := if included then 0 else if st = slotHOLDOVER then 1 else 2
  s * 2 ^ 22 + o * 2 ^ 20 + st * 2 ^ 17 + b.get (RHZ_SLOTs_STAT_MISS s) * 2 ^ 15 + b.get (RHZ_SLOTs_STAT_GOOD_RUN s) * 2 ^ 10

/-- A release of instant i of group g with a set of included ASDUs (R213). -/
def Block.releaseWith (b : Block) (g i : Nat) (inc : List RowAsdu) (deadline : Bool) : Block :=
  let x := b.grpOf g
  let slots := b.grpSlots g
  let b := slots.foldl (fun b s => b.slotRelease s i (inc.find? (fun r => r.slot == s))) b
  -- slots disabled less than D rows ago (R214)
  let b := b.each 1024 (fun s b =>
    let y := b.slotOf s
    b.doIf (!y.en && y.offRows != 0 && y.group == g) (fun b =>
      (b.ringWrite s i (invalidEntries y.nch)).setSlot s { y with offRows := y.offRows - 1 }))
  -- sources of the synchronised slots differ (R203)
  let ys := inc.filter (fun r => r.synced && r.synch != 0)
  let b := match ys with
    | r :: t => if t.any (fun q => q.synch != r.synch) then
        (b.mismatch 3 (ys.foldl (fun (m : Nat) (q : RowAsdu) => if q.slot < m then q.slot else m) r.slot)).raiseEvery 1000 540 else b
    | [] => b
  let b := if deadline then (b.count (RHZ_GRPg_REL_DEADLINE g) 1 (bitOf (RHZ_GRPg_CNT_ROLL g) 1) 542)
    else b.count (RHZ_GRPg_REL_COMPLETE g) 1 (bitOf (RHZ_GRPg_CNT_ROLL g) 0) 542
  let b := if deadline && b.on (RHZ_GRPg_CFG_DL_EVT g) then b.raiseEvery 1000 (544 + g) else b
  let rel : RelRec := ⟨g, i, slots.map (fun s => b.relEntry s (inc.any (fun r => r.slot == s)))⟩
  let b := { b with rhz := { b.rhz with recs := b.rhz.recs ++ [rel] } }
  let kept : List (Nat × RowAsdu) := inc.map (fun r => (i, r)) ++ x.old.filter (fun r => decide (i < r.1 + x.depth))
  let old : List (Nat × RowAsdu) := if b.get ROPE_ROLE_ROLE == 3 then kept else []
  let left : List (Nat × RowAsdu) := x.rows.filter (fun r => decide (i < r.1))
  let b := b.setGrp g { b.grpOf g with rows := left, rel := (i, b.ns) :: (b.grpOf g).rel, old := old }
  (b.wr64 (RHZ_GRPg_NEXT_LO g) (i + 1)).awaitShow g

/-- NEXT of group g is released with the ASDUs stamped before ref; one stamped at or after it is late (R212). -/
def Block.release1 (b : Block) (g ref : Nat) (deadline : Bool) : Block :=
  let i := b.grpNext g
  let row := ((b.grpOf g).rows.filter (fun r => r.1 == i && !r.2.dead)).map (fun r => r.2)
  let ok := row.filter (fun r => decide (r.stamp < ref) && r.gen == b.get (RHZ_SLOTs_STAT_GEN r.slot) && (b.slotOf r.slot).en)
  let stale := row.filter (fun r => r.gen != b.get (RHZ_SLOTs_STAT_GEN r.slot) || !(b.slotOf r.slot).en)
  let b := stale.foldl (fun b r => b.stale r.eng) b
  let late := row.filter (fun r => decide (ref ≤ r.stamp) && !(r.gen != b.get (RHZ_SLOTs_STAT_GEN r.slot) || !(b.slotOf r.slot).en))
  let b := late.foldl (fun b r => (b.slotCnt r.slot 3 1).raiseEvery 1 537) b
  b.releaseWith g i ok deadline

/-! The commands -/

/-- R196: engine e takes the oldest frame of its queue, one of sampled values. -/
def Block.svTakeHead (b : Block) (e : Nat) : Block :=
  match b.rhz.queue.get (fun _ => []) e with
  | f :: _ => if isSv f then (b.engineTake e).svFrame e f else b
  | [] => b

/-- A slot's enable, but for the channel switch that it causes (R190, R214). -/
def Block.slotEnable (b : Block) (s : Nat) : Block :=
  let gen := (b.get (RHZ_SLOTs_STAT_GEN s) + 1) % 16
  let b := b.setSlot s { en := true, cfg := b.slotWords s }
  let b := (List.range 16).foldl (fun b w => b.wr (RHZ_SLOTs_STAT s + 4 * w) 0) b
  (((b.set (RHZ_SLOTs_STAT_GEN s) gen).setSlotState s slotACQUIRING).guardRefresh).set
    (RHZ_GRPg_AWAIT_SLOTS (b.slotOf s).group) (b.grpSlots (b.slotOf s).group).length

/-- The enabled slot whose channels overlap those of slot s (R189). -/
def Block.overlapOf (b : Block) (s : Nat) : Option Nat :=
  let x : Slot := { cfg := b.slotWords s }
  (List.range 1024).find? (fun t => t != s && (b.slotOf t).en &&
    decide (x.chBase < (b.slotOf t).chBase + (b.slotOf t).nch) && decide ((b.slotOf t).chBase < x.chBase + x.nch))

/-- EN of an enabled slot cleared: DISABLED, and no longer awaited (R211, R214). -/
def Block.slotOff (b : Block) (k : Nat) : Block :=
  let x := b.slotOf k
  if x.en then
    let b := (b.set (RHZ_SLOTs_CFG_EN k) 0).setSlot k { x with en := false, offRows := (b.grpOf x.group).depth }
    let b := (b.setSlotState k slotDISABLED).set (RHZ_SLOTs_STAT_ARRIVING k) 0
    b.guardRefresh.awaitDrop x.group k
  else b

/-- R214: EN of slot k cleared: DISABLED from this write. -/
def execSlotDisable (k : Nat) (s : State) : Host.Outcome State Fault Refusal :=
  runAt .rhz (fun b =>
    if b.member.slots ≤ k then b else b.slotOff k) s

/-- R727, R220: EN set in group g's CFG with the fields of v; a reserved RATE leaves EN at 0. -/
def execGroupEnable (g : Nat) (v : Word) (s : State) : Host.Outcome State Fault Refusal :=
  runAt .rhz (fun b =>
    if 16 ≤ g then b
    else
      let ok := decide (bits v.toNat 0 3 < 5) || (b.grpOf g).en
      let b := b.wr (RHZ_GRPg_CFG g) (BitVec.ofNat 32 ((v.toNat &&& 0x1F7) + (if ok then 2 ^ 31 else 0)))
      if !ok || (b.grpOf g).en then b
      else
        let x : Grp := { en := true, cfg := (List.range 6).map (fun w => b.rd (RHZ_GRPg_CFG g + 4 * w)) }
        ((b.setGrp g { x with start := x.firstFrom b.ns }).wr64 (RHZ_GRPg_NEXT_LO g) (x.firstFrom b.ns)).guardRefresh.awaitShow g) s

/-- R217: EN of group g cleared: unreleased rows are discarded without release records. -/
def execGroupDisable (g : Nat) (s : State) : Host.Outcome State Fault Refusal :=
  runAt .rhz (fun b =>
    if 16 ≤ g then b
    else (b.set (RHZ_GRPg_CFG_EN g) 0).setGrp g { b.grpOf g with en := false, rows := [], awaited := [], part := none, mark := none }) s

end Sys2Proof.Machine
end

