-- ==== Sys2Proof/Machine/Acq.lean ====
section
/-! DEFINITION. The trigger and acquisition engine (chapter "Trigger and acquisition engine"): triggers, capture sets,
segments, gap records, and the fast event inputs with their TDCs. -/

namespace Sys2Proof.Machine

open Sys2Proof Sys2Proof.Reg

def Block.feiOf (b : Block) (i : Nat) : Fei := b.acq.fei.get (fun _ => {}) i
def Block.setFei (b : Block) (i : Nat) (x : Fei) : Block := { b with acq := { b.acq with fei := (i, x) :: b.acq.fei } }
def Block.trgOf (b : Block) (u : Nat) : Trg := b.acq.trg.get (fun _ => {}) u
def Block.setTrg (b : Block) (u : Nat) (x : Trg) : Block := { b with acq := { b.acq with trg := (u, x) :: b.acq.trg } }
def Block.csetOf (b : Block) (s : Nat) : Cset := b.acq.cset.get (fun _ => {}) s
def Block.setCset (b : Block) (s : Nat) (x : Cset) : Block := { b with acq := { b.acq with cset := (s, x) :: b.acq.cset } }

def Block.acqCnt (b : Block) (i n : Nat) : Block := b.count (ACQ_CNTi i) n (bitOf ACQ_CNT_ROLL i) 852
def Block.csetCnt (b : Block) (s i n : Nat) : Block := b.count (ACQ_CSETs_CNTi s i) n (bitOf (ACQ_CSETs_CNT_ROLL s) i) 852

def Block.hasFei (b : Block) : Bool := bit b.member.acqCaps 0

/-! The settings of a trigger unit (R417) and of a capture set (R418) -/

def Trg.word (x : Trg) (w : Nat) : Nat := (x.cfg.getD w 0).toNat
def Trg.kind (x : Trg) : Nat := bits (x.word 0) 28 3
def Trg.type (x : Trg) : Nat := bits (x.word 0) 25 3
def Trg.pol (x : Trg) : Nat := bits (x.word 0) 23 2
def Trg.outside (x : Trg) : Bool := bit (x.word 0) 22
def Trg.sets (x : Trg) : Nat := bits (x.word 0) 13 8
def Trg.src (x : Trg) : Nat := bits (x.word 0) 0 13

def Cset.word (x : Cset) (w : Nat) : Nat := (x.cfg.getD w 0).toNat
def Cset.mode (x : Cset) : Nat := bits (x.word 0) 29 2
def Cset.wrap (x : Cset) : Bool := bit (x.word 0) 28
def Cset.fmt (x : Cset) : Nat := bits (x.word 0) 27 1
def Cset.avgLog (x : Cset) : Nat := clampN 0 6 (bits (x.word 0) 24 3)
/-- EXTRA, at most 4 and at most AVG_LOG (R397). -/
def Cset.extra (x : Cset) : Nat := clampN 0 (if x.avgLog < 4 then x.avgLog else 4) (bits (x.word 0) 21 3)
def Cset.xtEn (x : Cset) : Bool := bit (x.word 0) 20
def Cset.xtLine (x : Cset) : Nat := bits (x.word 0) 18 2
def Cset.evtMask (x : Cset) : Nat := bits (x.word 0) 0 16
def Cset.nch (x : Cset) : Nat := clampN 1 64 (bits (x.word 1) 16 7)
def Cset.chFirst (x : Cset) : Nat := bits (x.word 1) 0 13
def Cset.pre (x : Cset) : Nat := bits (x.word 2) 0 16
def Cset.post (x : Cset) : Nat := clampN 1 0xFFFFFF (bits (x.word 3) 0 24)
def Cset.ring (x : Cset) : Nat := bits (x.word 4) 6 17 * 64
def Cset.ringRows (x : Cset) : Nat := clampN 1 0xFFFFF (bits (x.word 5) 0 20)
def Cset.pool (x : Cset) : Nat := (x.word 6 / 4096 * 4096) + 2 ^ 32 * x.word 7
def Cset.poolBytes (x : Cset) : Nat := x.word 8 * 1024
def Cset.dirFirst (x : Cset) : Nat := bits (x.word 9) 0 16
def Cset.dirCount (x : Cset) : Nat := clampN 2 65536 (bits (x.word 10) 0 17)
def Cset.autoNs (x : Cset) : Nat := x.word 11 * 1000
def Cset.evtMax (x : Cset) : Nat := clampN 0 1024 (bits (x.word 12) 16 11)
def Cset.settleNs (x : Cset) : Nat := bits (x.word 12) 0 16 * 1000
def Cset.xtNs (x : Cset) : Nat := clampN 1 65535 (bits (x.word 13) 0 16) * 1000
def Cset.avg (x : Cset) : Nat := 2 ^ x.avgLog

def round64 (n : Nat) : Nat := (n + 63) / 64 * 64

/-- ROW_BYTES of R398. -/
def Cset.rowBytes (x : Cset) : Nat := if x.fmt = 0 then 8 * x.nch else (8 + 4 * x.nch + 7) / 8 * 8
/-- MAXSEG of R405. -/
def Cset.maxSeg (x : Cset) : Nat := round64 (64 + (x.pre + x.post) * x.rowBytes + 16 * x.evtMax)

/-- The enabled alignment group whose channels hold channel c (R209). -/
def Block.chGroup (b : Block) (c : Nat) : Option Nat :=
  (List.range 16).find? (fun g =>
    let x := b.grpOf g
    x.en && decide (x.chFirst ≤ c) && decide (c < x.chFirst + x.chCount))

/-- The group of set s: the enabled one that holds its channels, else the one that did when it was last enabled. -/
def Block.csetGrp (b : Block) (s : Nat) : Grp :=
  let c := (b.csetOf s).chFirst
  match b.chGroup c with
  | some g => b.grpOf g
  | none => match (List.range 16).find? (fun g => decide ((b.grpOf g).chFirst ≤ c) && decide (c < (b.grpOf g).chFirst + (b.grpOf g).chCount)) with
    | some g => b.grpOf g
    | none => {}

/-- The time of row r of set s in ns: t_inst of its first instant (R397). -/
def Block.rowNs (b : Block) (s r : Nat) : Nat := (b.csetGrp s).tInst (r * (b.csetOf s).avg)

/-- STATE of a capture set. -/
abbrev csIDLE : Nat := 0
abbrev csARMED : Nat := 1
abbrev csCAPTURING : Nat := 2
abbrev csSTOPPED : Nat := 3

/-! DRAM and the directory (R405, R407) -/

/-- The engine stores bytes in a DATA region; elsewhere nothing is stored (R405, R534). -/
def Block.acqStore (b : Block) (a : Nat) (l : List Byte) : Block := if b.inData a l.length then b.stores .dram a l else b.refusedAt a l.length

/-- Directory entry of record number n of set s. -/
def Block.dirWrite (b : Block) (s n addr bytes seg state : Nat) : Block :=
  let x := b.csetOf s
  b.stores .acq (16 * (x.dirFirst + n % x.dirCount))
    (leBytes 8 addr ++ leBytes 4 bytes ++ leBytes 2 seg ++ leBytes 1 state ++ leBytes 1 s)

/-- 62 bytes with their HCRC (R406). -/
def withHcrc (l : List Byte) : List Byte := fit 62 l ++ leBytes 2 (crc16 (fit 62 l))

/-- A record of set s is complete: its directory entry, PROD, the next record number, and its place in the pool. -/
def Block.recordDone (b : Block) (s addr bytes state : Nat) : Block :=
  let n := (b.rd (ACQ_CSETs_PROD s)).toNat
  let b := b.dirWrite s n addr bytes (b.get (ACQ_CSETs_STAT_SEG s)) state
  let b := (b.wr (ACQ_CSETs_PROD s) (BitVec.ofNat 32 (n + 1))).set (ACQ_CSETs_STAT_SEG s) (b.get (ACQ_CSETs_STAT_SEG s) + 1)
  let x := b.csetOf s
  b.setCset s { x with pos := addr - x.pool + bytes, recs := x.recs ++ [(n, addr - x.pool, bytes)] }

/-! Room (R408) -/

/-- Where n bytes go in the pool: after the last record, or at its base where they do not fit before its end. -/
def Cset.place (x : Cset) (n : Nat) : Nat := if x.pos + n ≤ x.poolBytes then x.pos else 0

/-- Can a segment begin: an entry is left, and MAXSEG + 64 bytes hold no unconsumed record? -/
def Block.roomFor (b : Block) (s : Nat) (x : Cset) : Bool :=
  let used := (2 ^ 32 + (b.rd (ACQ_CSETs_PROD s)).toNat - (b.rd (ACQ_CSETs_CONS s)).toNat) % 2 ^ 32
  let a := x.place x.maxSeg
  let n := x.maxSeg + 64
  decide (used < x.dirCount - 1) && decide (n ≤ x.poolBytes) &&
    x.recs.all (fun r => decide (r.2.1 + r.2.2 ≤ a) || decide (a + n ≤ r.2.1))

/-- The oldest record of a set is given up under WRAP; fuel is the records held (R408). -/
def Block.wrapRoom (b : Block) (s : Nat) : Nat → Option Nat × Block
  | 0 => (if b.roomFor s (b.csetOf s) then none else some 0, b)
  | n + 1 =>
    let x := b.csetOf s
    if b.roomFor s x then (none, b)
    else match x.recs with
      | [] => (some 0, b)
      | r :: t =>
        if b.on (ACQ_CSETs_PIN_PIN_EN s) ∧ b.get (ACQ_CSETs_PIN_SEG s) = r.1 % 65536 then (some 2, b)
        else Block.wrapRoom ((b.setCset s { x with recs := t }).wr (ACQ_CSETs_CONS s) (BitVec.ofNat 32 (r.1 + 1))) s n

/-- Room for a segment of set s: none, or the cause of a gap (R408, R410). -/
def Block.segRoom (b : Block) (s : Nat) : Option Nat × Block :=
  let x := b.csetOf s
  if x.wrap && b.on HIF_STAT_LINK_UP then b.wrapRoom s x.recs.length
  else (if b.roomFor s x then none else some 0, b)

/-! Gap records (R409, R410) -/

/-- A loss begins a gap episode or adds to it. -/
def Block.gapAdd (b : Block) (s cause firstNs lastNs trig rows : Nat) (seg : Option Nat) : Block :=
  let x := b.csetOf s
  let g : Gap := match x.gap with
    | none => ⟨cause, firstNs, lastNs, trig, rows, seg⟩
    | some g => ⟨g.cause, g.firstNs, lastNs, satAdd 0xFFFFFFFF g.trigLost trig, satAdd 0xFFFFFFFF g.rowsLost rows,
        match g.truncSeg with | some t => some t | none => seg⟩
  ((b.setCset s { x with gap := some g }).csetCnt s 2 trig).csetCnt s 3 rows

/-- The open gap episode ends: its record is written. -/
def Block.gapWrite (b : Block) (s : Nat) : Block :=
  let x := b.csetOf s
  match x.gap with
  | none => b
  | some g =>
    let addr := x.pool + x.place 64
    let rec' := withHcrc (leBytes 2 (b.get (ACQ_CSETs_STAT_SEG s)) ++ leBytes 1 s ++ [0x80] ++ leBytes 4 g.cause ++
      leBytes 8 g.firstNs ++ leBytes 8 g.lastNs ++ leBytes 4 g.trigLost ++ leBytes 4 g.rowsLost ++
      leBytes 2 (g.truncSeg.getD 0) ++ leBytes 1 (if g.truncSeg.isSome then 1 else 0))
    let b := (b.setCset s { x with gap := none }).acqStore addr rec'
    ((b.recordDone s addr 64 3).csetCnt s 1 1).raise (840 + s)

/-! Triggers (R400, R401) -/

/-- KIND order of R401, forced triggers last. -/
def AcqTrig.rank (t : AcqTrig) : Nat := if t.unit = 255 then 8 * 256 + 255 else (if t.kind = 5 then 4 else t.kind) * 256 + t.unit

/-- The earlier trigger, ties by KIND and unit. -/
def AcqTrig.before (t u : AcqTrig) : Bool := decide (t.time < u.time) || (t.time == u.time && decide (t.rank < u.rank))

/-- A trigger is offered to set s. -/
def Block.offer (b : Block) (s : Nat) (t : AcqTrig) : Block :=
  let x := b.csetOf s
  let st := b.get (ACQ_CSETs_STAT_STATE s)
  if b.takes ⟨.acq, 0⟩ = false then b
  else if st = csARMED then
    if t.time < b.rd64 (ACQ_CSETs_ARM_LO s) * 65536 then b.acqCnt 3 1
    else
      let stop := match x.settle with | some e => e | none => t.recv + x.settleNs
      b.setCset s { x with settle := some stop, queue := x.queue ++ [t] }
  else if st = csCAPTURING then
    if x.queue.length < 16 then b.setCset s { x with queue := x.queue ++ [t] } else (b.acqCnt 3 1).raiseEvery 1000 851
  else b

/-- Unit u fires: it offers a trigger to each set of its SETS (R392). -/
def Block.trgFire (b : Block) (u time : Nat) (interp : Bool) : Block :=
  let x := b.trgOf u
  let t : AcqTrig := ⟨time, x.kind, u, interp, false, false, b.ns⟩
  let b := b.count (ACQ_TRGu_COUNT u) 1 (bitOf (ACQ_TRGu_COUNT u) 32) 852
  b.each 8 (fun s b => b.doIf (bit x.sets s) (fun b => b.offer s t))

/-- Set s is armed with an arm time; the triggers of its queue are judged (R400). -/
def Block.arm (b : Block) (s ns : Nat) : Block :=
  let q := (b.csetOf s).queue
  let b := (b.setCset s { b.csetOf s with queue := [], settle := none }).wr64 (ACQ_CSETs_ARM_LO s) ns
  q.foldl (fun b t => b.offer s t) (b.set (ACQ_CSETs_STAT_STATE s) csARMED)

/-! Segments (R403 to R406) -/

/-- Row r of set s in its ring. -/
def Block.ringRowAt (b : Block) (s r : Nat) : Nat := (b.csetOf s).ring + r % (b.csetOf s).ringRows * (b.csetOf s).rowBytes

/-- DRAM takes the next n rows of the segment being filled from the ring (R403). -/
def Block.segRows (b : Block) (s : Nat) : Nat → Block
  | 0 => b
  | n + 1 =>
    let x := b.csetOf s
    match x.cur with
    | none => b
    | some g =>
      let row := b.load .acq (b.ringRowAt s (g.first + g.written)) x.rowBytes
      Block.segRows ((b.setCset s { x with cur := some { g with written := g.written + 1 } }).acqStore (g.addr + 64 + g.written * x.rowBytes) row) s n

/-- The rows of set s's segment that are in its ring and not yet in DRAM. -/
def Cset.lag (x : Cset) : Nat :=
  match x.cur with
  | some g => (if x.hi < g.stop then x.hi else g.stop) - (g.first + g.written)
  | none => 0

/-- How many of the waiting rows DRAM takes now is left open: its bandwidth decides (notes/assumptions/175). -/
def Block.segDrain (b : Block) (s : Nat) : Block :=
  let n := (b.csetOf s).lag
  if n = 0 then b
  else
    let v := b.draw (n + 1)
    v.2.segRows s v.1

/-- The XTRIG drive of a set that accepted a trigger (R391). -/
def Block.xtDrive (b : Block) (s : Nat) : Block :=
  let x := b.csetOf s
  if x.xtEn then (b.setCset s { x with xtEnd := some (b.ns + x.xtNs) }).emit (.xtrig x.xtLine true) else b

/-- Set s accepts trigger t; others are the triggers of its queue besides (R401, R403, R408, R409). -/
def Block.acceptTrig (b : Block) (s : Nat) (t : AcqTrig) (others : List AcqTrig) : Block :=
  let b := b.xtDrive s
  let x := b.csetOf s
  let g := b.csetGrp s
  let r := (g.firstFrom (t.time / 65536 + 1) - 1) / x.avg
  let stop := r + x.post
  let stopNs := b.rowNs s stop
  match b.segRoom s with
  | (some cause, b) =>
    let b := b.setCset s { b.csetOf s with queue := others, settle := none }
    (b.gapAdd s cause (t.time / 65536) (t.time / 65536) 1 0 none).arm s stopNs
  | (none, b) =>
    let b := b.gapWrite s
    let x := b.csetOf s
    let first := if r - x.pre < x.lo then x.lo else r - x.pre
    let short := decide (r - x.pre < first)
    let inSeg := fun (u : AcqTrig) => decide (b.rowNs s first * 65536 ≤ u.time) && decide (u.time < stopNs * 65536)
    let merged := (others.filter inSeg).length
    let addr := x.pool + x.place x.maxSeg
    let seg : Seg := ⟨addr, first, r, stop, 0, t, satAdd 65535 0 merged, decide (first < x.prevEnd), short, b.timeState,
      b.get TIM_STATUS_STEP_GEN, b.rd64 (ACQ_CSETs_ARM_LO s)⟩
    let b := b.setCset s { x with cur := some seg, settle := none, queue := (others.filter (fun u => !inSeg u)).take 16 }
    let b := (b.acqCnt 4 merged).set (ACQ_CSETs_STAT_STATE s) csCAPTURING
    let v := b.draw (2 ^ 32)
    let b := v.2.dirWrite s ((b.rd (ACQ_CSETs_PROD s)).toNat) addr v.1 (b.get (ACQ_CSETs_STAT_SEG s)) 1
    b.segDrain s

/-- Edges in time order. -/
def edgeInsert (e : FeiEdge) : List FeiEdge → List FeiEdge
  | [] => [e]
  | h :: t => if e.stamp < h.stamp then e :: h :: t else h :: edgeInsert e t

/-- The segment of set s is completed with the rows it has: event records, header, directory entry (R403, R404). -/
def Block.finishSeg (b : Block) (s : Nat) (trunc : Bool) : Block :=
  let x := b.csetOf s
  match x.cur with
  | none => b
  | some g =>
    let lo := b.rowNs s g.first * 65536
    let hi := b.rowNs s (g.first + g.written) * 65536
    let evs := (b.acq.edges.filter (fun e => bit x.evtMask e.input && decide (lo ≤ e.stamp) && decide (e.stamp < hi))).foldl
      (fun l e => edgeInsert e l) []
    let kept := evs.take x.evtMax
    let pre := if g.written < g.trigRow - g.first then g.written else g.trigRow - g.first
    let evBytes := kept.foldl (fun l e => l ++ leBytes 8 (e.stamp / 65536) ++ leBytes 2 e.stamp ++ leBytes 1 e.input ++
      leBytes 1 ((if e.rising then 1 else 0) + (if e.coarse then 2 else 0)) ++ leBytes 4 0) []
    let bytes := round64 (64 + g.written * x.rowBytes + 16 * kept.length)
    let f := fun (c : Bool) (i : Nat) => if c then 2 ^ i else 0
    let flags := f g.trig.auto 0 + f g.trig.forced 1 + f g.trig.interp 2 + f g.overlap 3 + f g.preShort 4 + f trunc 5 +
      f (decide (x.evtMax < evs.length)) 6
    let head := withHcrc (leBytes 2 (b.get (ACQ_CSETs_STAT_SEG s)) ++ leBytes 1 s ++ leBytes 1 flags ++ leBytes 1 g.trig.kind ++
      leBytes 1 g.trig.unit ++ leBytes 1 g.timeState ++ leBytes 1 g.stepGen ++ leBytes 8 (g.trig.time / 65536) ++
      leBytes 2 g.trig.time ++ leBytes 2 g.merged ++ leBytes 4 pre ++ leBytes 4 (g.written - pre) ++
      leBytes 8 (g.first * x.avg) ++ leBytes 2 x.nch ++ leBytes 1 x.fmt ++ leBytes 1 (x.avgLog + 16 * x.extra) ++
      leBytes 4 x.rowBytes ++ leBytes 2 kept.length ++ leBytes 1 (bits ((b.csetGrp s).word 0) 0 3) ++ leBytes 1 0 ++
      leBytes 8 g.arm ++ leBytes 4 bytes ++ leBytes 2 x.chFirst)
    let b := (b.acqStore (g.addr + 64 + g.written * x.rowBytes) evBytes).acqStore g.addr head
    let b := b.setCset s { x with cur := none, prevEnd := g.first + g.written }
    ((b.recordDone s g.addr bytes 2).csetCnt s 0 1).raise (832 + s)

/-- The segment of set s is cut short: TRUNC, and the rows missing are lost (R409). -/
def Block.truncSeg (b : Block) (s cause : Nat) : Block :=
  match (b.csetOf s).cur with
  | none => b
  | some g =>
    let seg := b.get (ACQ_CSETs_STAT_SEG s)
    let a := b.rowNs s (g.first + g.written)
    let z := b.rowNs s (g.stop - 1)
    (b.finishSeg s true).gapAdd s cause a z 0 (g.stop - g.first - g.written) (some seg)

/-- After a segment whose rows end before row stop, the set stops in SINGLE, else it is armed from there on (R400, R409). -/
def Block.segNext (b : Block) (s stop : Nat) : Block :=
  if (b.csetOf s).mode = 2 then b.set (ACQ_CSETs_STAT_STATE s) csSTOPPED else b.arm s (b.rowNs s stop)

/-- Row r is about to go into the ring: where that overwrites a row that DRAM has not taken, the segment is cut short first (R409). -/
def Block.segOverrun (b : Block) (s r : Nat) : Block :=
  let x := b.csetOf s
  match x.cur with
  | none => b
  | some g => if 0 < x.lag ∧ g.first + g.written + x.ringRows ≤ r then (b.truncSeg s 1).segNext s g.stop else b

/-! A released instant (R394, R397) -/

/-- The raw entry of channel c for instant i of group x: value and status. -/
def Block.ringEntry (b : Block) (x : Grp) (c i : Nat) : Int × Nat :=
  (sgn 32 (b.loadNat .intake (x.entryAt c i) 4), b.loadNat .intake (x.entryAt c i + 4) 2)

/-- The worse of two VALIDITY codes: 0b01, then 0b11, then 0b00 (R247, R249, R397); 0b10 is never written. -/
def worse (a c : Nat) : Nat := if a = 1 ∨ c = 1 then 1 else if a = 3 ∨ c = 3 then 3 else a ||| c

/-- Statuses joined: the OR of bits 15:2, the worst of bits 1:0. -/
def joinStatus (a c : Nat) : Nat := (a / 4 ||| c / 4) * 4 + worse (a % 4) (c % 4)

/-- The bytes of a finished row r of a set. -/
def Cset.rowOf (x : Cset) (r : Nat) (sums : List (Int × Nat)) : List Byte :=
  let vals := sums.map (fun p => (uns 32 (satS 32 (rne p.1 (x.avgLog - x.extra))).1, p.2))
  if x.fmt = 0 then vals.foldl (fun l v => l ++ leBytes 4 v.1 ++ leBytes 2 v.2 ++ leBytes 2 (r * x.avg)) []
  else fit x.rowBytes (vals.foldl (fun l v => l ++ leBytes 4 v.1)
    (leBytes 4 (r * x.avg) ++ leBytes 2 (vals.foldl (fun a v => joinStatus a v.2) 0) ++ leBytes 2 0))

/-- Set s takes instant i of its group (R397, R399). -/
def Block.csetTake (b : Block) (s i : Nat) : Block :=
  let x := b.csetOf s
  let g := b.csetGrp s
  let ent := (List.range x.nch).map (fun c => b.ringEntry g (x.chFirst + c) i)
  let start := decide (i % x.avg = 0)
  let sums := if start then ent else List.zipWith (fun p e => (p.1 + e.1, joinStatus p.2 e.2)) x.sums ent
  let taken := if start then 1 else if x.taken = 0 then 0 else x.taken + 1
  let r := i / x.avg
  if taken = x.avg ∧ i % x.avg = x.avg - 1 then
    let b := b.segOverrun s r
    let x' : Cset := { b.csetOf s with
      sums := [], taken := 0, hi := r + 1,
      lo := if x.hi ≠ r then r else if r + 1 - x.lo > x.ringRows then r + 1 - x.ringRows else x.lo }
    ((b.setCset s x').stores .acq (b.ringRowAt s r) (x.rowOf r sums)).segDrain s
  else b.setCset s { x with sums := sums, taken := taken }

/-- The time at which the line from (t0, x0) to (t1, x1) passes a level, 2⁻¹⁶ ns (R395). -/
def crossTime (lv x0 x1 : Int) (t0 t1 : Nat) : Nat :=
  let num := (lv - x0) * (((t1 - t0) * 65536 : Nat) : Int)
  let q := if x0 < x1 then rneDiv num (x1 - x0).toNat else if x1 < x0 then rneDiv (-num) (x0 - x1).toNat else 0
  (((t0 * 65536 : Nat) : Int) + q).toNat

/-- The crossings that one step of a source makes: of LEVEL upwards, of HIGH upwards, of LEVEL downwards. -/
structure Crossings where
  up : Option Nat
  upHigh : Option Nat
  down : Option Nat

/-- Does a width or an interval satisfy COND (R393)? -/
def Trg.cond (x : Trg) (w : Nat) : Bool :=
  let inside := decide (x.word 4 * 65536 ≤ w) && decide (w ≤ x.word 5 * 65536)
  if x.outside then !inside else inside

/-- The crossings act under the unit's TYPE, for the rising polarity (R393): the trigger times. -/
def Trg.judge (x : Trg) (w : Watch) (c : Crossings) : List Nat × Watch :=
  let w := match c.up with | some t => { w with t0 := some t, high := false } | none => w
  match x.type with
  | 1 => (match c.up with | some t => [t] | none => [], { w with t0 := none })
  | 2 => match c.down, w.t0 with
    | some t, some a => (if x.cond (t - a) then [t] else [], { w with t0 := none })
    | _, _ => ([], w)
  | 3 =>
    let w := if c.upHigh.isSome then { w with high := true } else w
    match c.down, w.t0 with
    | some t, some _ => (if w.high then [] else [t], { w with t0 := none })
    | _, _ => ([], w)
  | 4 => match c.down, w.t0 with
    | some t, some a => (if a + x.word 4 * 65536 ≤ t then [a + x.word 4 * 65536] else [], { w with t0 := none })
    | _, _ => ([], w)
  | 5 => match c.upHigh, w.t0 with
    | some t, some a => (if x.cond (t - a) then [t] else [], { w with t0 := none })
    | _, _ => ([], if c.down.isSome then { w with t0 := none } else w)
  | _ => ([], w)

/-- One good sample in the rising polarity: v at instant time t, the sample before it, LEVEL, HIGH, HYST. -/
def Trg.sample (x : Trg) (w : Watch) (prev : Option (Nat × Int)) (v lv hi h : Int) (t : Nat) : List Nat × Watch :=
  let at' := fun (l : Int) => match prev with | some p => crossTime l p.2 v p.1 t | none => t * 65536
  let up := w.up && decide (lv ≤ v)
  let dn := w.down && decide (v ≤ lv)
  let uh := w.upHigh && decide (hi ≤ v)
  let w' : Watch := { w with
    up := decide (v < lv - h) || (w.up && !up), down := decide (lv + h < v) || (w.down && !dn),
    upHigh := decide (v < hi - h) || (w.upHigh && !uh) }
  let r := x.judge w' ⟨if up then some (at' lv) else none, if uh then some (at' hi) else none, if dn then some (at' lv) else none⟩
  -- TIMEOUT: decided at the first row at or after the trigger time
  match r.2.t0 with
  | some a => if x.type = 4 ∧ a + x.word 4 * 65536 ≤ t * 65536 then (r.1 ++ [a + x.word 4 * 65536], { r.2 with t0 := none }) else r
  | none => r

/-- PHASE of a unit's status. -/
def Watch.phase (w : Watch) : Nat := if w.t0.isSome then 2 else if w.up then 1 else 0
def Block.showPhase (b : Block) (u : Nat) : Block :=
  let x := b.trgOf u
  let p := if x.pol = 2 then x.neg.phase else if x.neg.phase < x.pos.phase then x.pos.phase else if x.pol = 3 then x.neg.phase else x.pos.phase
  b.set (ACQ_TRGu_STAT_PHASE u) p

/-- Unit u takes one sample of its channel (R394). -/
def Block.trgSample (b : Block) (u i : Nat) (g : Grp) : Block :=
  let x := b.trgOf u
  let e := b.ringEntry g x.src i
  let t := g.tInst i
  if bit e.2 15 || bit e.2 14 || e.2 % 4 == 1 then
    (b.setTrg u { x with pos := {}, neg := {}, prev := none }).showPhase u
  else
    let prev := match x.prev with | some p => if p.1 + 1 = i then some (g.tInst p.1, p.2) else none | none => none
    let lv := sgn 32 (x.word 1)
    let hi := sgn 32 (x.word 2)
    let h : Int := ((x.word 3 : Nat) : Int)
    let blank := prev.isNone
    let p := if x.pol = 2 then ([], x.pos) else x.sample (if blank then {} else x.pos) prev e.1 lv hi h t
    let n := if bit x.pol 1 then x.sample (if blank then {} else x.neg) (prev.map (fun q => (q.1, -q.2))) (-e.1) (-lv) (-hi) h t else ([], x.neg)
    let b := (b.setTrg u { x with pos := p.2, neg := n.2, prev := some (i, e.1) }).showPhase u
    (p.1 ++ n.1).foldl (fun b t => b.trgFire u t true) b

/-- Instant i of group g is released: rows of the capture sets, then the signal trigger units (R394, R399). -/
def Block.acqInstant (b : Block) (g i : Nat) : Block :=
  let x := b.grpOf g
  let b := b.each 8 (fun s b => b.doIf ((b.csetOf s).en && b.chGroup (b.csetOf s).chFirst == some g) (fun b => b.csetTake s i))
  b.each 32 (fun u b =>
    let y := b.trgOf u
    b.doIf (y.en && y.kind == 2 && b.chGroup y.src == some g) (fun b => b.trgSample u i x))

/-- A trigger of KIND 3, 4 or 5 from source src reaches the units that take it (R386). -/
def Block.acqSource (b : Block) (kind src time : Nat) (interp : Bool) : Block :=
  b.each 32 (fun u b =>
    let x := b.trgOf u
    b.doIf (x.en && x.kind == kind && x.src == src) (fun b => b.trgFire u time interp))

/-- EN 0→1 of trigger unit u with the word v in CFG: discarded where the member lacks a capability, or TYPE does not fit
KIND, or POL is 0b11 outside EDGE, or 0b00 where TYPE uses it (R385, R392, R393). The answer says whether the write stands. -/
def Block.trgAllowed (b : Block) (v : Nat) : Bool :=
  let kind := bits v 28 3
  let type := bits v 25 3
  let caps := b.member.acqCaps
  let fits := match kind with
    | 0 => bit caps 0 && (type == 1 || type == 2 || type == 4)
    | 1 => type == 1
    | 2 => bit caps 1 && decide (1 ≤ type) && decide (type ≤ 5)
    | 3 | 4 | 5 => type == 0
    | _ => false
  fits && (bits v 23 2 != 3 || type == 1) && (bits v 23 2 != 0 || type == 0)
def Block.trgEnable (b : Block) (u : Nat) : Block :=
  (b.setTrg u { en := true, cfg := (List.range 6).map (fun w => b.rd (ACQ_TRGu_CFG u + 4 * w)) }).set (ACQ_TRGu_STAT_PHASE u) 0

/-! Fast event inputs (R387 to R390) -/

/-- The stamp of an edge: tap j of the active table, or coarse while the PLL is lost. -/
def Block.feiStamp (b : Block) (i tap : Nat) : Nat × Bool :=
  let x := b.feiOf i
  let d := sgn 32 x.delay.toNat
  let tc : Int := ((b.stamp : Nat) : Int)
  if b.on TIM_STATUS_PLL_LOST then ((tc - 20 * 65536 - d).toNat, true)
  else
    let tbl := if b.on (ACQ_FEIi_STAT_ACTIVE i) then x.tblB else x.tblA
    ((tc - (((tbl.getD tap 0 : Nat)) : Int) - d).toNat, false)

/-- The edges that no capture set can still need leave the list. -/
def Block.edgesKept (b : Block) : List FeiEdge :=
  let floors := (List.range 8).filterMap (fun s =>
    let x := b.csetOf s
    if x.en then some (b.rowNs s (match x.cur with | some g => if g.first < x.lo then g.first else x.lo | none => x.lo) * 65536) else none)
  b.acq.edges.filter (fun e => floors.any (fun f => decide (f ≤ e.stamp)))

/-- An edge acts on unit u: a crossing in its own direction (R393). -/
def Block.trgEdge (b : Block) (u : Nat) (rising : Bool) (t : Nat) : Block :=
  let x := b.trgOf u
  let c : Bool → Crossings := fun up => if up then ⟨some t, none, none⟩ else ⟨none, none, some t⟩
  let p := if x.pol = 2 then ([], x.pos) else x.judge x.pos (c rising)
  let n := if bit x.pol 1 then x.judge x.neg (c (!rising)) else ([], x.neg)
  let b := (b.setTrg u { x with pos := { p.2 with up := true }, neg := { n.2 with up := true } }).showPhase u
  (p.1 ++ n.1).foldl (fun b t => b.trgFire u t false) b

/-- R387, R388: an edge on FEI i, sampled now, at raw tap j of the active TDC; full: its edge queue has no room. -/
def execFeiEdge (i : Nat) (rising : Bool) (tap : Nat) (full : Bool) (s : State) : Host.Outcome State Fault Refusal :=
  runAt .acq (fun b =>
    if 16 ≤ i ∨ b.hasFei = false then b
    else
      let x := b.feiOf i
      let b := b.set (ACQ_FEIi_STAT_LEVEL i) (if rising then 1 else 0)
      if !x.en || !bit (bits x.cfg.toNat 0 2) (if rising then 0 else 1) then b
      else if full || (match x.last with | some t => decide (b.stamp < t + 8 * 65536) | none => false) then
        (b.acqCnt 0 1).raiseEvery 1 848
      else
        let st := b.feiStamp i tap
        let b := b.setFei i { x with last := some b.stamp }
        let b := b.set (ACQ_FEIi_STAT_COARSE i) (if st.2 then 1 else 0)
        let b := (b.wr (ACQ_FEIi_LAST_FRAC i) (BitVec.ofNat 32 (st.1 % 65536))).wr64 (ACQ_FEIi_LAST_LO i) (st.1 / 65536)
        let b := { b with acq := { b.acq with edges := b.edgesKept ++ [(⟨st.1, i, rising, st.2⟩ : FeiEdge)] } }
        let b := b.raiseIf (bit x.cfg.toNat 2) 853
        b.each 32 (fun u b =>
          let y := b.trgOf u
          b.doIf (y.en && y.kind == 0 && y.src == i) (fun b => b.trgEdge u rising st.1))) s

/-- The calibration of a TDC of input i begins (R390). -/
def Block.calStart (b : Block) (i : Nat) (sideB : Bool) : Block :=
  let x := b.feiOf i
  if b.on (ACQ_FEIi_STAT_SINGLE i) || (if sideB then x.busyB else x.busyA) then b
  else
    ((b.setFei i (if sideB then { x with busyB := true } else { x with busyA := true })).set (ACQ_FEIi_STAT_CAL_BUSY i) 1).acqCnt 1 1

/-- The standby TDC of an input begins to calibrate; one whose other TDC is retired has none. -/
def Block.calStandby (b : Block) (i : Nat) : Block :=
  b.calStart i (!b.on (ACQ_FEIi_STAT_ACTIVE i))

/-- The enabled input whose turn comes after input i. -/
def Block.calNext (b : Block) (i : Nat) : Option Nat :=
  ((List.range 16).map (fun k => (i + 1 + k) % 16)).find? (fun k => (b.feiOf k).en)

/-- R390: calibration of input i: at start of both its TDCs; else of its standby TDC, in its turn and after the period. -/
def execTdcCalibrationStart (i : Nat) (both : Bool) (s : State) : Host.Outcome State Fault Refusal :=
  runAt .acq (fun b =>
    if 16 ≤ i ∨ b.hasFei = false then b
    else if both then (b.calStart i false).calStart i true
    else if b.calNext b.acq.calTurn = some i then
      let b := b.advanceTo (b.acq.calAt + b.get ACQ_CAL_PERIOD_MS * 1000000)
      ({ b with acq := { b.acq with calAt := b.ns, calTurn := i } }).calStandby i
    else b) s

/-- Sensor 47 has a new reading: each enabled input's standby TDC calibrates where it moved by more than CAL_DT since its last
calibration (R390, R557). -/
def Block.calByHeat (b : Block) : Block :=
  if b.hasFei = false ∨ b.released .acq = false ∨ b.on (NRG_SENSs_FAULT 47) = true then b
  else
    let t := sgn 16 (b.get (NRG_SENSs_TEMP 47))
    b.each 16 (fun i b =>
      let x := b.feiOf i
      match (if b.on (ACQ_FEIi_STAT_ACTIVE i) then x.heatA else x.heatB) with
      | none => b
      | some h => b.doIf (x.en && decide (8 * b.get ACQ_CAL_CAL_DT < (t - h).natAbs)) (fun b => b.calStandby i))

/-- R390: a write of 1 to CAL_NOW. -/
def execCalNow (s : State) : Host.Outcome State Fault Refusal :=
  runAt .acq (fun b =>
    if !b.hasFei then b
    else
      let b := b.each 16 (fun i b => b.doIf (b.feiOf i).en (fun b => b.calStandby i))
      b.set ACQ_CAL_CAL_NOW (if (List.range 16).any (fun i => (b.feiOf i).busyA || (b.feiOf i).busyB) then 1 else 0)) s

/-- The table of R389: its 64 values, the widest tap, and whether every tap is narrow enough. -/
def calTable (hist : List Nat) (n : Nat) : List Nat × Nat × Bool :=
  let r := (List.range 64).foldl (fun (p : List Nat × Nat × Bool × Nat) j =>
    let h := hist.getD j 0
    let t := (rneDiv (((2 * p.2.2.2 + h) * 262144 : Nat) : Int) (2 * n)).toNat
    let w := (rneDiv ((h * 262144 : Nat) : Int) n).toNat
    (p.1 ++ [t], if p.2.1 < w then w else p.2.1, p.2.2.1 && decide (w ≤ 8192), p.2.2.2 + h)) ([], 0, true, 0)
  (r.1, r.2.1, r.2.2.1)

/-- A TDC is retired (R390, R683): its input goes on with the other one. -/
def Block.retireTdc (i : Nat) (sideB : Bool) (b : Block) : Retired :=
  let y := b.feiOf i
  let b := b.setFei i (if sideB then { y with retB := true } else { y with retA := true })
  ⟨none, false, false, ((b.set (ACQ_FEIi_STAT_SINGLE i) 1).set (ACQ_FEIi_STAT_ACTIVE i) (if sideB then 0 else 1)).raise 850⟩

/-- R389, R390: the calibration of TDC A or B of input i ends with a histogram of its hits. -/
def execTdcCalibrationDone (i : Nat) (sideB : Bool) (hist : List Nat) (s : State) : Host.Outcome State Fault Refusal :=
  runAt .acq (fun b =>
    let x := b.feiOf i
    if 16 ≤ i ∨ (if sideB then x.busyB else x.busyA) = false then b
    else
      let r := calTable hist (2 ^ clampN 14 20 (b.get ACQ_CAL_CAL_LOG))
      let heat := some (sgn 16 (b.get (NRG_SENSs_TEMP 47)))
      let x : Fei := if sideB then { x with busyB := false, heatB := heat } else { x with busyA := false, heatA := heat }
      let b := b.set (ACQ_FEIi_STAT_CAL_BUSY i) (if x.busyA || x.busyB then 1 else 0)
      let b := if r.2.2 then
          let b := b.setFei i (if sideB then { x with tblB := r.1, failsB := 0 } else { x with tblA := r.1, failsA := 0 })
          (b.set (ACQ_FEIi_STAT_ACTIVE i) (if sideB then 1 else 0)).set (ACQ_FEIi_WIDTH_WMAX i) r.2.1
        else
          let n := (if sideB then x.failsB else x.failsA) + 1
          let b := b.setFei i (if sideB then { x with failsB := n } else { x with failsA := n })
          let b := ((b.set (if sideB then ACQ_FEIi_STAT_FAIL_B i else ACQ_FEIi_STAT_FAIL_A i) 1).acqCnt 2 1).raise 849
          b.classify (182 + 2 * i + (if sideB then 1 else 0)) 6 (UnitRef.id ⟨.acq, 0⟩) (decide (3 ≤ n)) 5 (byHistory := false) (Block.retireTdc i sideB)
      b.setIf (!(List.range 16).any (fun i => (b.feiOf i).busyA || (b.feiOf i).busyB)) ACQ_CAL_CAL_NOW 0) s

/-! Cross-trigger lines (R391) -/

/-- Does the module itself drive XTRIG line l? -/
def Block.xtDriven (b : Block) (l : Nat) : Bool :=
  (List.range 8).any (fun s => (b.csetOf s).xtEnd.isSome && (b.csetOf s).xtLine == l) ||
    (List.range 8).any (fun g => b.get (TIM_PGg_CTRL_OUT g) == l + 2 && decide (b.stamp < b.tim.pgEnd.get (fun _ => 0) g))

/-- A falling edge on XTRIG line l reaches the acquisition engine (R391). -/
def Block.xtrigFalls (b : Block) (l : Nat) : Block :=
  if 4 ≤ l then b
  else if b.xtDriven l && bit (b.get ACQ_CTRL_XT_SELF_MASK) l then b.acqCnt 5 1
  else
    let t := b.stamp - b.get ACQ_XT_COMP_COMP_NS * 65536
    b.each 32 (fun u b =>
      let y := b.trgOf u
      b.doIf (y.en && y.kind == 1 && y.src == l) (fun b => b.trgFire u t false))

/-- R391: capture set k releases its XTRIG drive. -/
def execXtrigRelease (k : Nat) (s : State) : Host.Outcome State Fault Refusal :=
  runAt .acq (fun b =>
    let x := b.csetOf k
    match x.xtEnd with
    | none => b
    | some e =>
      let b := (b.advanceTo e).setCset k { x with xtEnd := none }
      if b.xtDriven x.xtLine then b else b.emit (.xtrig x.xtLine false)) s

/-! The commands of trigger units and capture sets -/

/-- R393: an FEI unit of TYPE TIMEOUT fires T1_NS after its source entered its side; signal units decide at their rows. -/
def execTriggerTimeout (u : Nat) (s : State) : Host.Outcome State Fault Refusal :=
  runAt .acq (fun b =>
    let x := b.trgOf u
    if 32 ≤ u ∨ x.en = false ∨ x.kind ≠ 0 ∨ x.type ≠ 4 then b
    else
      match (if x.pol = 2 then x.neg.t0 else x.pos.t0) with
      | none => b
      | some a =>
        let t := a + x.word 4 * 65536
        let b := b.advanceTo ((t + 65535) / 65536)
        ((b.setTrg u { x with pos := { x.pos with t0 := none }, neg := { x.neg with t0 := none } }).showPhase u).trgFire u t false) s

/-- The earliest trigger of a list, and the others. -/
def earliest : List AcqTrig → Option (AcqTrig × List AcqTrig)
  | [] => none
  | t :: r => match earliest r with
    | none => some (t, [])
    | some (m, o) => if t.before m then some (t, m :: o) else some (m, t :: o)

/-- R401: the settling window of set k closes. -/
def execSettleWindowEnd (k : Nat) (s : State) : Host.Outcome State Fault Refusal :=
  runAt .acq (fun b =>
    let x := b.csetOf k
    match x.settle with
    | none => b
    | some e =>
      match earliest x.queue with
      | some (t, o) => (b.advanceTo e).acceptTrig k t o
      | none => b.setCset k { x with settle := none }) s

/-- R402: an AUTO set without a trigger before ARM + AUTO_US forces one. -/
def execAutoTrigger (k : Nat) (s : State) : Host.Outcome State Fault Refusal :=
  runAt .acq (fun b =>
    let x := b.csetOf k
    if 8 ≤ k ∨ b.get (ACQ_CSETs_STAT_STATE k) ≠ csARMED ∨ x.mode ≠ 1 then b
    else
      let t := b.rd64 (ACQ_CSETs_ARM_LO k) + x.autoNs
      if x.queue.any (fun u => decide (u.time < t * 65536)) then b
      else
        let b := b.advanceTo (t + x.settleNs)
        b.acceptTrig k ⟨t * 65536, 5, 255, false, true, false, b.ns⟩ x.queue) s

/-- R402: a write of 1 to FORCE of set k. -/
def execForce (k : Nat) (s : State) : Host.Outcome State Fault Refusal :=
  runAt .acq (fun b =>
    if 8 ≤ k then b
    else if b.get (ACQ_CSETs_STAT_STATE k) = csARMED then b.offer k ⟨b.stamp, 5, 255, false, false, true, b.ns⟩
    else b.acqCnt 3 1) s

/-- R400: a write of 1 to REARM of a stopped SINGLE set. -/
def execRearm (k : Nat) (s : State) : Host.Outcome State Fault Refusal :=
  runAt .acq (fun b => if k < 8 ∧ b.get (ACQ_CSETs_STAT_STATE k) = csSTOPPED then b.arm k b.ns else b) s

/-- R400, R409, R411: EN of set k set with the fields of v; discarded where the member lacks averaging or FEI. -/
def execCsetEnable (k : Nat) (v : Word) (s : State) : Host.Outcome State Fault Refusal :=
  runAt .acq (fun b =>
    let caps := b.member.acqCaps
    if 8 ≤ k ∨ (bits v.toNat 24 3 ≠ 0 ∧ bit caps 2 = false) ∨ (bits v.toNat 0 16 ≠ 0 ∧ bit caps 0 = false) then b
    else
      let b := b.wr (ACQ_CSETs_CFG k) (BitVec.ofNat 32 ((v.toNat &&& 0x7FFCFFFF) + 2 ^ 31))
      let old := b.csetOf k
      if old.en then b
      else
        let b := b.setCset k { en := true, cfg := (List.range 14).map (fun w => b.rd (ACQ_CSETs_CFG k + 4 * w)), pos := old.pos, recs := old.recs, gap := old.gap, prevEnd := old.prevEnd }
        let b := b.wr (ACQ_CSETs_MAXSEG k) (BitVec.ofNat 32 (b.csetOf k).maxSeg)
        let next := match b.chGroup (b.csetOf k).chFirst with
          | some g => (b.grpNext g + (b.csetOf k).avg - 1) / (b.csetOf k).avg
          | none => 0
        let b := b.setCset k { b.csetOf k with lo := next, hi := next }
        (b.gapWrite k).arm k b.ns) s

/-- R409: EN of set k cleared; a capture is cut short. -/
def execCsetDisable (k : Nat) (s : State) : Host.Outcome State Fault Refusal :=
  runAt .acq (fun b =>
    if 8 ≤ k then b
    else
      let b := (b.set (ACQ_CSETs_CFG_EN k) 0).truncSeg k 4
      (b.setCset k { b.csetOf k with en := false, queue := [], settle := none, sums := [], taken := 0 }).set (ACQ_CSETs_STAT_STATE k) csIDLE) s

/-- R403: the last row of set k's segment is in DRAM; the segment is completed, and the set re-arms or stops. -/
def execSegmentComplete (k : Nat) (s : State) : Host.Outcome State Fault Refusal :=
  runAt .acq (fun b =>
    match (b.csetOf k).cur with
    | none => b
    | some g =>
      if g.stop ≤ (b.csetOf k).hi then ((b.segRows k (b.csetOf k).lag).finishSeg k false).segNext k g.stop else b) s

/-- R407, R409: the host writes CONS of set k; beyond PROD the write is discarded. -/
def execAcqConsWrite (k : Nat) (v : Word) (s : State) : Host.Outcome State Fault Refusal :=
  runAt .acq (fun b =>
    let prod := (b.rd (ACQ_CSETs_PROD k)).toNat
    let cons := (b.rd (ACQ_CSETs_CONS k)).toNat
    if 8 ≤ k ∨ (2 ^ 32 + prod - cons) % 2 ^ 32 < (2 ^ 32 + v.toNat - cons) % 2 ^ 32 then b
    else
      let x := b.csetOf k
      let left := (2 ^ 32 + prod - v.toNat) % 2 ^ 32
      let b := (b.wr (ACQ_CSETs_CONS k) v).setCset k { x with recs := x.recs.drop (x.recs.length - left) }
      if x.gap.isSome ∧ x.en = true ∧ x.cur.isNone then
        match b.segRoom k with
        | (none, b) => b.gapWrite k
        | (some _, _) => b
      else b) s

end Sys2Proof.Machine
end

