-- ==== Sys2Proof/Machine/Time.lean ====
section
/-! DEFINITION. The time base (chapter "Time base, synchronisation and time triggers"): the servo, steps, sources,
states and holdover, leap seconds, tick numbers, comparators and pulse generators. -/

namespace Sys2Proof.Machine

open Sys2Proof Sys2Proof.Reg

/-! Names of the states of R102 and of the sources of R91 -/

abbrev timFREE : Nat := 0
abbrev timLOCKING : Nat := 1
abbrev timLOCKED : Nat := 2
abbrev timHOLDOVER : Nat := 3
abbrev timEXCEEDED : Nat := 4
abbrev srcPTP : Nat := 1
abbrev srcPPS : Nat := 2
abbrev srcIRIG : Nat := 3

def Block.modTim (b : Block) (f : Tim → Tim) : Block := { b with tim := f b.tim }

def Block.syncState (b : Block) : Nat := b.get TIM_STATUS_STATE

/-- The state changes; the runs of R102 start anew. -/
def Block.setTimState (b : Block) (s : Nat) : Block :=
  (b.modTim (fun t => { t with lockRun := 0, unlockRun := 0 })).set TIM_STATUS_STATE s

def Block.freqAdj (b : Block) : Int := sgn 32 (b.rd TIM_FREQ_ADJ).toNat
def Block.holdRate (b : Block) : Int := sgn 32 (b.rd TIM_FREQ_HOLD).toNat
def Block.setFreq (b : Block) (f : Int) : Block := b.wr TIM_FREQ_ADJ (BitVec.ofInt 32 f)

/-- Time since the cold reset, no step in it, in ns. -/
def Block.elapsedNs (b : Block) : Nat := b.tim.elapsed / 2 ^ 32

/-- Elapsed time reaches an instant of ns; one already past changes nothing. -/
def Block.advanceElapsed (b : Block) (ns : Nat) : Block :=
  if b.elapsedNs < ns then b.advanceTo (b.ns + (ns - b.elapsedNs)) else b

/-- LIM of R86: TIM_SLEW.LIMIT, 1 to 500 ppm, in 2⁻¹⁰ ppb (R87). -/
def Block.slewLim (b : Block) : Int := ((clampN 1 500 (b.get TIM_SLEW_LIMIT) * 1024000 : Nat) : Int)

/-- One time-base cycle of 4 ns, or of 40 ns from the crystal while the PLL is lost (R82, R105): the advance in
2⁻³² ns, rounded down. -/
def Block.cycleStep (b : Block) : Nat :=
  let c : Nat := if b.on TIM_STATUS_PLL_LOST then 40 else 4
  (((c * 2 ^ 32 : Nat) : Int) + Int.fdiv (((c * 2 ^ 32 : Nat) : Int) * b.freqAdj) (1024 * 1000000000)).toNat

/-- TIM_NOW after one time-base cycle (R82). -/
def Block.timeCycle (b : Block) : Block :=
  { b with tim := { b.tim with now := (b.tim.now + b.cycleStep) % 2 ^ 96, elapsed := b.tim.elapsed + b.cycleStep },
           xtal := b.xtal + (if b.on TIM_STATUS_PLL_LOST then 40 else 4) }

/-- What passes while no command waits: one time-base cycle, or one period of the crystal while the time base is held in reset. -/
def Block.idleCycle (b : Block) : Block :=
  if b.rst.off then b else if b.released .tim then b.timeCycle else { b with xtal := b.xtal + 40 }

/-! Ticks (R109, R110) -/

/-- N of R109. -/
def Block.tickRate (b : Block) : Nat := clampN 100 20000 (b.get TIM_TICK_RATE)

/-- tick_ns of R109. -/
def tickNs (N n : Nat) : Nat := n / N * 1000000000 + n % N * 1000000000 / N

/-- latest_tick of R110. -/
def latestTick (N t : Nat) : Nat :=
  t / 1000000000 * N + ((t % 1000000000 + 1) * N + 999999999) / 1000000000 - 1

/-- The last tick issued. -/
def Block.lastTick (b : Block) : Nat := b.rd64 TIM_TICKNUM_LO

/-! Pulse generators (R114) -/

/-- The period of generator g in 2⁻¹⁶ ns. -/
def Block.pgPeriod (b : Block) (g : Nat) : Nat := (b.rd (TIM_PGg_PERIOD g)).toNat * 65536 + b.get (TIM_PGg_PFRAC_FRAC g)

/-- How many pulses a train of generator g has; 0 for an unending one. PERIOD = 0 gives a single pulse. -/
def Block.pgCount (b : Block) (g : Nat) : Nat :=
  if (b.rd (TIM_PGg_PERIOD g)).toNat = 0 then 1 else (b.rd (TIM_PGg_COUNT g)).toNat

/-- The first pulse of a train from t0 that begins at or after t; both in 2⁻¹⁶ ns. -/
def Block.pgFirst (b : Block) (g t0 t : Nat) : Nat :=
  if b.pgPeriod g = 0 then (if t ≤ t0 then 0 else 1)
  else if t ≤ t0 then 0 else (t - t0 + b.pgPeriod g - 1) / b.pgPeriod g

/-- A train stops: RUNNING clears and event 59 is raised. -/
def Block.pgStop (b : Block) (g : Nat) : Block := (b.set (TIM_PGg_CTRL_RUNNING g) 0).raise 59

/-- Generator g starts with base time t0; its start event is now. Pulses that would begin more than slack ns before the
start are skipped and counted: 8 ns, or none for a START that had already passed; with every pulse skipped the train is done at once. -/
def Block.pgStart (b : Block) (g t0 slack : Nat) : Block :=
  let j := b.pgFirst g t0 (b.stamp - slack * 65536)
  let b := (b.modTim (fun t => { t with pgT0 := (g, t0) :: t.pgT0, pgNext := (g, j) :: t.pgNext,
                                         pgWait := (g, false) :: t.pgWait })).set (TIM_PGg_CTRL_RUNNING g) 1
  if b.pgCount g ≠ 0 ∧ b.pgCount g ≤ j then b.pgStop g else b

/-! Steps (R88, R117) -/

/-- What a step of more than 2³⁸ ns does to comparators and generators (R117). -/
def Block.bigStep (b : Block) : Block :=
  let b := b.each 64 (fun n b => b.doIf (b.on (TIM_CMPn_CTRL_ARM n)) (fun b =>
    (b.set (TIM_CMPn_CTRL_ARM n) 0).set (TIM_CMPn_CTRL_CANCELLED n) 1))
  b.each 8 (fun g b => b.doIf (b.on (TIM_PGg_CTRL_RUNNING g)) (fun b =>
    if b.on (TIM_PGg_CTRL_ALIGN_SEC g) then b.modTim (fun t => { t with pgWait := (g, true) :: t.pgWait })
    else b.pgStop g))

/-- What a smaller step does: a running generator's next edge is the first one after the stepped time, and none is
repeated (R117). -/
def Block.smallStep (b : Block) : Block :=
  b.each 8 (fun g b => b.doIf (b.on (TIM_PGg_CTRL_RUNNING g)) (fun b =>
    let j := b.pgFirst g (b.tim.pgT0.get (fun _ => 0) g) b.stamp
    let old := b.tim.pgNext.get (fun _ => 0) g
    b.modTim (fun t => { t with pgNext := (g, if old < j then j else old) :: t.pgNext })))

/-! EST_ERR (R104) -/

/-- EST_ERR: in LOCKING and LOCKED the last |offset|; in holdover grown by DRIFT for each second since its entry; in FREE all ones. -/
def Block.estErr (b : Block) : Nat :=
  let sat := fun (n : Nat) => if 2 ^ 32 ≤ n then 2 ^ 32 - 1 else n
  let st := b.syncState
  if st = timFREE then 2 ^ 32 - 1
  else if st = timLOCKING ∨ st = timLOCKED then sat b.tim.lastOff
  else sat (b.tim.holdErr + b.get TIM_HOLD_DRIFT * (b.ns - b.tim.holdAt) / 1000000000)

/-- The register follows it. -/
def Block.showErr (b : Block) : Block := b.wr TIM_EST_ERR (BitVec.ofNat 32 b.estErr)

/-- A step of TIM_NOW by d in 2⁻³² ns: STEP_GEN counts, LOCKING is entered from a synchronised state and, where a
measurement caused the step, from FREE; event 54 (R88, R102). DESIGN CHOICE (notes/assumptions/155.md): a backward step larger than
TIM_NOW leaves 0. -/
def Block.timeStep (b : Block) (d : Int) (byMeasurement : Bool) : Block :=
  let b := b.modTim (fun t => { t with now := (((t.now : Nat) : Int) + d).toNat % 2 ^ 96, stepAt := some t.elapsed })
  let b := b.set TIM_STATUS_STEP_GEN (b.get TIM_STATUS_STEP_GEN + 1)
  let b := if b.syncState = timFREE ∧ byMeasurement = false then b else (b.setTimState timLOCKING).showErr
  let b := if d.natAbs ≤ 2 ^ 38 * 2 ^ 32 then b.smallStep else b.bigStep.dropLaunches
  b.raise 54

/-- Does STEP_POLICY permit a step now (R88)? The P table runs while table 0 is in CYCLE or SKIP. -/
def Block.stepPermitted (b : Block) : Bool :=
  let free := b.syncState == timFREE
  match b.get TIM_CTRL_STEP_POLICY with
  | 0 => true
  | 1 => free || !(b.get CRZ_STATUS_STATE % 4 == 1 || b.get CRZ_STATUS_STATE % 4 == 2)
  | _ => free

/-! Measurements (R86, R88, R91, R102, R719 to R721) -/

/-- The servo of R86 on an offset in 1/16 ns. -/
def Block.servo (b : Block) (e : Int) : Block :=
  let r0 := e * 64
  let li := sgn 4 (b.get TIM_SERVO_LOG_INT)
  let r := if 0 ≤ li then asr r0 li.toNat else r0 * ((2 ^ (-li).toNat : Nat) : Int)
  let lim := b.slewLim
  let integ := clampI (-lim) lim (b.tim.integ - asr r (b.get TIM_SERVO_KI_SHIFT))
  let b := b.modTim (fun t => { t with integ := integ })
  b.setFreq (clampI (-lim) lim (integ - asr r (b.get TIM_SERVO_KP_SHIFT)))

/-- |offset| in whole ns (R720). -/
def offNs (e : Int) : Nat := (e.natAbs + 15) / 16

/-- The transition of R102 for a measurement that caused no step. -/
def Block.lockMove (b : Block) (off : Nat) : Block :=
  if b.syncState = timFREE then b.setTimState timLOCKING
  else if b.syncState = timLOCKING then
    let run := if off ≤ b.get TIM_SERVO_LOCK_THRESH then b.tim.lockRun + 1 else 0
    if 4 ≤ run then (b.setTimState timLOCKED).raise 48 else b.modTim (fun t => { t with lockRun := run })
  else if b.syncState = timLOCKED then
    let run := if b.get TIM_SERVO2_UNLOCK_THRESH < off then b.tim.unlockRun + 1 else 0
    if 2 ≤ run then (b.setTimState timLOCKING).raise 48 else b.modTim (fun t => { t with unlockRun := run })
  else b.setTimState timLOCKING

/-- An accepted measurement, offset e in 1/16 ns: a step where R88 makes one, else the servo; then the transition of
R102, the holdover rate of R719 and EST_ERR of R104. -/
def Block.accept (b : Block) (e : Int) : Block :=
  let off := offNs e
  let free := b.syncState == timFREE
  let held := b.syncState == timHOLDOVER || b.syncState == timEXCEEDED
  -- R721: the integrator resumes from the rate on which the module held over
  let b := b.doIf held (fun b => b.modTim (fun t => { t with integ := b.freqAdj }))
  let b := b.modTim (fun t => { t with lastOff := off })
  let step := (free && decide (b.get TIM_SERVO_LOCK_THRESH < off)) ||
    (decide (b.get TIM_SERVO2_STEP_THRESH * 1000 < off) && b.stepPermitted)
  let b := if step then b.timeStep (-(e * ((2 ^ 28 : Nat) : Int))) true else (b.servo e).lockMove off
  let b := b.showErr
  b.doIf (b.syncState == timLOCKED) (fun b =>
    b.wr TIM_FREQ_HOLD (BitVec.ofInt 32 (b.holdRate + asr (b.freqAdj - b.holdRate) (b.get TIM_HOLD_AVG_LOG))))

/-- Is a source's watchdog alive (R91)? -/
def Block.srcAlive (b : Block) (src : Nat) : Bool :=
  if src = srcPTP then b.tim.ptpAlive else if src = srcPPS then b.tim.ppsAlive
  else if src = srcIRIG then b.tim.irigAlive else false

/-- A measurement of a source: taken from PRIMARY, or from SECONDARY while PRIMARY's watchdog has expired; a change of
source passes through LOCKING (R91). A quiesced TIM takes none (R78). -/
def Block.measure (b : Block) (src : Nat) (e : Int) : Block :=
  let prim := b.get TIM_CTRL_PRIMARY
  if b.takes ⟨.tim, 0⟩ = true ∧ (src = prim ∨ (src = b.get TIM_CTRL_SECONDARY ∧ b.srcAlive prim = false)) then
    let change := b.get TIM_STATUS_SRC_ACTIVE ≠ src
    let b := b.set TIM_STATUS_SRC_ACTIVE src
    let b := if change ∧ b.syncState = timLOCKED then (b.setTimState timLOCKING).raise 48 else b
    b.accept e
  else b

/-! Holdover (R102 to R104) -/

/-- A temperature sensor's reading in 1/8 °C. -/
def Block.sensTemp (b : Block) (s : Nat) : Int := sgn 16 (b.get (NRG_SENSs_TEMP s))

/-- The used entries of TIM_TCOMPk as (temperature in 1/8 °C, correction in 2⁻¹⁰ ppb), ascending (R103). -/
def Block.tcomp (b : Block) : List (Int × Int) :=
  (List.range 8).filterMap (fun k =>
    if b.get (TIM_TCOMPk_TEMP k) = 0x80 then none
    else some (8 * sgn 8 (b.get (TIM_TCOMPk_TEMP k)), 64 * sgn 24 (b.get (TIM_TCOMPk_CORR k))))

/-- The correction at a temperature: interpolated between entries, constant beyond the end entries (R103). -/
def interp : List (Int × Int) → Int → Int
  | [], _ => 0
  | [(_, c)], _ => c
  | (t0, c0) :: (t1, c1) :: rest, t =>
    if t ≤ t0 then c0
    else if t ≤ t1 then c0 + Int.tdiv ((c1 - c0) * (t - t0)) (t1 - t0)
    else interp ((t1, c1) :: rest) t

/-- FREQ_ADJ in holdover: hold + C(T) − C(T0), within the bound of R87 (R103). -/
def Block.holdFreq (b : Block) : Block :=
  b.setFreq (clampI (-b.slewLim) b.slewLim
    (b.holdRate + interp b.tcomp (b.sensTemp (b.get TIM_HOLD_SENSOR)) - interp b.tcomp b.tim.holdTemp))

/-- In holdover FREQ_ADJ follows the sensor (R103). -/
def Block.holdFollow (b : Block) : Block := b.doIf (b.syncState == timHOLDOVER || b.syncState == timEXCEEDED) Block.holdFreq

/-- HOLDOVER is entered (R102 to R104). DESIGN CHOICE (notes/assumptions/156.md): SRC_ACTIVE reads 0, none, while no source steers. -/
def Block.enterHoldover (b : Block) : Block :=
  let err := if b.tim.lastOff < 20 then 20 else b.tim.lastOff
  let b := b.modTim (fun t => { t with holdErr := err, holdAt := b.ns, holdTemp := b.sensTemp (b.get TIM_HOLD_SENSOR) })
  let b := (b.setTimState timHOLDOVER).set TIM_STATUS_SRC_ACTIVE 0
  b.showErr.holdFreq.raise 49

/-- Both selected sources' watchdogs have expired in LOCKING or LOCKED (R102). -/
def Block.sourcesLost (b : Block) : Block :=
  if (b.syncState = timLOCKING ∨ b.syncState = timLOCKED) ∧ b.srcAlive (b.get TIM_CTRL_PRIMARY) = false ∧
      b.srcAlive (b.get TIM_CTRL_SECONDARY) = false then
    if b.on TIM_CTRL_HOLD_EN then b.enterHoldover
    else ((b.setTimState timFREE).set TIM_STATUS_SRC_ACTIVE 0).showErr.raise 48
  else b

/-! Calendar (R101) -/

/-- Days from 1970-01-01 to the first of January of a year. -/
def daysToYear (y : Nat) : Nat := 365 * (y - 1970) + ((y - 1) / 4 - 492) - ((y - 1) / 100 - 19) + ((y - 1) / 400 - 4)

/-- The year that holds a UTC second. -/
def yearOf (sec : Nat) : Nat :=
  let y := 1970 + sec / 86400 / 366
  ((List.range 8).map (fun k => y + k)).foldl (fun acc k => if daysToYear k ≤ sec / 86400 then k else acc) y

def Block.utcOffset (b : Block) : Int := sgn 16 (b.get TIM_UTC_OFFSET)

/-- The UtcTime of an instant in ns: seconds, 24-bit fraction and TimeQuality octet (R107). -/
def Block.utcTime (b : Block) (ns : Nat) : Nat × Nat × Nat :=
  let sec := ((((ns / 1000000000 : Nat) : Int)) - b.utcOffset).toNat
  let fr := ns % 1000000000 * 2 ^ 24 / 1000000000
  let st := b.syncState
  let known := if st = timFREE then 0 else b.get TIM_UTC_VALID
  let fail := b.get TIM_STATUS_PLL_LOST
  let good := decide (st = timLOCKED) || decide (st = timHOLDOVER)
  let acc := if good ∧ fail = 0 then b.get TIM_UTC_ACC else 31
  (sec, fr, known * 128 + fail * 64 + (if good then 0 else 32) + acc)

/-! The commands -/

/-- R722: a write of RATE while the image lock is clear; a change of N renumbers the last tick. -/
def execTickRateWrite (v : Word) (s : State) : Host.Outcome State Fault Refusal :=
  runAt .tim (fun b =>
    if b.imgLock then b
    else
      let old := b.tickRate
      let b := b.set TIM_TICK_RATE (bits v.toNat 0 15)
      if b.tickRate = old then b else b.wr64 TIM_TICKNUM_LO (latestTick b.tickRate b.ns)) s

/-- R89: a write of TIM_OFFSET_IN submits a measurement; a stale tag discards and counts it. -/
def execOffsetSubmit (v : Word) (s : State) : Host.Outcome State Fault Refusal :=
  runAt .tim (fun b =>
    let b := b.modTim (fun t => { t with ptpAlive := true, ptpAt := t.elapsed / 2 ^ 32 })
    if b.get TIM_OFFSET_TAG_GEN = b.get TIM_STATUS_STEP_GEN then b.measure srcPTP (sgn 32 v.toNat)
    else b.count TIM_OFFSET_STALE 1 (bitOf TIM_OFFSET_STALE 32) 62) s

/-- R88: STEP_CMD steps by TIM_STEP where STEP_POLICY permits, else raises event 55. -/
def execStepCmd (s : State) : Host.Outcome State Fault Refusal :=
  runAt .tim (fun b =>
    if b.stepPermitted then
      b.timeStep (sgn 64 (b.rd64 TIM_STEP_LO) * ((2 ^ 32 : Nat) : Int) + (((b.get TIM_STEP_FRAC_FRAC) * 2 ^ 16 : Nat) : Int)) false
    else b.raise 55) s

/-- R90, R87: firmware trims the rate while PRIMARY is 0b00, within the bound of TIM_SLEW.LIMIT. -/
def execFreqAdjWrite (v : Word) (s : State) : Host.Outcome State Fault Refusal :=
  runAt .tim (fun b => if b.get TIM_CTRL_PRIMARY = 0 then b.setFreq (clampI (-b.slewLim) b.slewLim (sgn 32 v.toNat)) else b) s

/-- The elapsed ns at which a live source's watchdog expires (R91). -/
def Block.watchEnd (b : Block) (src : Nat) : Nat :=
  if src = srcPTP then b.tim.ptpAt + b.get TIM_WATCH_PTP_WATCH * 1000000
  else if src = srcPPS then b.tim.ppsAt + 1100000000
  else b.tim.irigAt + 2000000000

/-- R91: a live source's watchdog expires at the end of its period. -/
def execSourceWatchdogExpiry (src : Nat) (s : State) : Host.Outcome State Fault Refusal :=
  runAt .tim (fun b =>
    if b.srcAlive src = false then b else
    let b := b.advanceElapsed (b.watchEnd src)
    let b := b.modTim (fun t =>
      if src = srcPTP then { t with ptpAlive := false } else if src = srcPPS then { t with ppsAlive := false }
      else if src = srcIRIG then { t with irigAlive := false, irigValid := false, irigSec := none } else t)
    let b := b.doIf (src == srcIRIG) (fun b => b.set TIM_IRIG_STAT_VALID 0)
    let b := if src = srcPPS then b.raise 51 else if src = srcIRIG then b.raise 53 else b
    b.sourcesLost) s

/-- The offset of a PPS_IN edge, 1/16 ns (R98). -/
def Block.ppsOffset (b : Block) (stampQ4 : Nat) : Int :=
  let t : Int := ((stampQ4 : Nat) : Int) - (((b.rd TIM_PPS_DELAY).toNat : Nat) : Int)
  match b.tim.irigValid, b.tim.irigSec with
  | true, some sec =>
    -- the whole second of this edge, counted from the last frame's marker
    let n := ((((stampQ4 : Nat) : Int) - (((b.tim.irigEdge / 4096 : Nat)) : Int)) + 8000000000) / 16000000000
    t - (((sec : Nat) : Int) + n) * 16000000000
  | _, _ =>
    let off := t % 16000000000
    if 8000000000 ≤ off then off - 16000000000 else off

/-- An edge of PPS_IN is rejected: counted, with event 52 at most once a second (R99). -/
def Block.ppsReject (b : Block) : Block :=
  (b.count TIM_PPS_REJECT 1 (bitOf TIM_PPS_REJECT 32) 62).raiseEvery 1000 52

/-- R98, R99: an edge of PPS_IN now; the measurement of an edge in the cycle of a step is discarded as stale (R117). -/
def execPpsEdge (rising : Bool) (s : State) : Host.Outcome State Fault Refusal :=
  runAt .tim (fun b =>
    if rising = b.on TIM_CTRL_PPS_POL then b
    else
      let b := (b.wr TIM_PPS_STAMP_FRAC (BitVec.ofNat 32 (b.stamp % 65536))).wr64 TIM_PPS_STAMP_LO b.ns
      let b := b.modTim (fun t => { t with ppsAlive := true, ppsAt := t.elapsed / 2 ^ 32 })
      let e := b.ppsOffset (b.stamp / 4096)
      let early := match b.tim.ppsAccept with | some t => decide (b.ns < t + 900000000) | none => false
      if b.tim.stepAt = some b.tim.elapsed then b
      else if early then b.ppsReject
      else if b.syncState = timLOCKED ∧ b.get TIM_PPS_WIN_WIN < offNs e then
        let n := b.tim.ppsRejects + 1
        let b := b.ppsReject.modTim (fun t => { t with ppsRejects := n })
        if 3 ≤ n then
          let b := b.modTim (fun t => { t with ppsRejects := 0, ppsAccept := some b.ns })
          let b := (b.setTimState timLOCKING).raise 48
          b.measure srcPPS e
        else b
      else
        (b.modTim (fun t => { t with ppsRejects := 0, ppsAccept := some b.ns })).measure srcPPS e) s

/-- What a bit width in µs stands for: 0, 1, or 2 for a position identifier; none beyond ±0.5 ms of 2, 5 or 8 ms (R100). -/
def irigSymbol (us : Nat) : Option Nat :=
  if 1500 ≤ us ∧ us ≤ 2500 then some 0 else if 4500 ≤ us ∧ us ≤ 5500 then some 1 else if 7500 ≤ us ∧ us ≤ 8500 then some 2 else none

/-- Are the hundred bits of a frame in place, the position identifiers where they belong and nowhere else: the reference marker and the
last bit of every ten (R100)? PRESUMED (notes/assumptions/157.md): the places are those of IRIG 200. -/
def irigShape (ws : List Nat) : Bool :=
  ws.length == 100 && (List.range 100).all (fun i =>
    match irigSymbol (ws.getD i 0) with
    | none => false
    | some x => (x == 2) == (i == 0 || i % 10 == 9))

/-- Is the IEEE 1344 extension in use: EXT1344 with a code that carries control functions (R101)? -/
def Block.irigExt (b : Block) : Bool :=
  b.on TIM_IRIG_CFG_EXT1344 && (b.get TIM_IRIG_CFG_CODE ∈ [0, 1, 4, 5])

/-- The TAI seconds of an IRIG-B frame, or none where no year is known (R101). -/
def Block.irigTai (b : Block) (f : IrigFrame) : Option Nat :=
  if f.code < 4 ∧ b.syncState = timFREE then none
  else
    let y := if f.code < 4 then yearOf ((((b.ns / 1000000000 : Nat) : Int)) - b.utcOffset).toNat else 2000 + f.year
    let local' : Int := ((daysToYear y * 86400 + (f.day - 1) * 86400 + f.sec : Nat) : Int)
    let utc := if b.irigExt then local' - 1800 * f.offset else local'
    some (utc + b.utcOffset).toNat

/-- An IRIG-B frame that fails its check (R100): the error bit, event 53, and the run of valid frames ends. -/
def Block.irigBad (b : Block) (f : Fld) : Block :=
  ((b.modTim (fun t => { t with irigValid := false, irigSec := none })).set f 1).set TIM_IRIG_STAT_VALID 0 |>.raise 53

/-- R100, R101: an IRIG-B frame. -/
def execIrigbFrame (f : IrigFrame) (s : State) : Host.Outcome State Fault Refusal :=
  runAt .tim (fun b =>
    let b := b.advanceTo ((f.edge + 65535) / 65536)
    if irigShape f.widths = false ∨ f.code ≠ b.get TIM_IRIG_CFG_CODE then b.irigBad TIM_IRIG_STAT_FORMAT_ERR
    else if b.irigExt = true ∧ f.parity = false then b.irigBad TIM_IRIG_STAT_PARITY_ERR
    else
      match b.irigTai f with
      | none => b.set TIM_IRIG_STAT_NO_YEAR 1
      | some sec =>
        let edge := f.edge - b.get TIM_IRIG_CFG_DELAY * 65536
        let valid := b.tim.irigSec == some (sec - 1)
        let b := b.modTim (fun t => { t with irigSec := some sec, irigEdge := edge, irigValid := valid, irigAlive := true, irigAt := t.elapsed / 2 ^ 32 })
        let b := ((b.set TIM_IRIG_STAT_NO_YEAR 0).set TIM_IRIG_STAT_VALID (if valid then 1 else 0)).wr64 TIM_IRIG_SEC_LO sec
        if valid then b.measure srcIRIG ((((edge / 4096 : Nat)) : Int) - ((sec * 16000000000 : Nat) : Int)) else b) s

/-- R102, R104: EST_ERR exceeds TIM_HOLD_LIMIT; TIM_NOW is at least the instant at which it does. -/
def execHoldLimitExceeded (s : State) : Host.Outcome State Fault Refusal :=
  runAt .tim (fun b =>
    let lim := (b.rd TIM_HOLD_LIMIT).toNat
    let drift := b.get TIM_HOLD_DRIFT
    if b.syncState ≠ timHOLDOVER ∨ lim = 2 ^ 32 - 1 ∨ (drift = 0 ∧ b.tim.holdErr ≤ lim) then b
    else
      let need := lim + 1 - b.tim.holdErr
      let b := if need = 0 then b else b.advanceTo (b.tim.holdAt + (need * 1000000000 + drift - 1) / drift)
      (b.setTimState timEXCEEDED).showErr.raise 50) s

/-- R105: the time-base PLL loses lock. -/
def Block.timePllLoss (b : Block) : Block :=
  let b := b.set TIM_STATUS_PLL_LOST 1
  let b := if b.syncState = timLOCKING ∨ b.syncState = timLOCKED then b.enterHoldover else b
  b.raise 63

def execTimebasePllLoss (s : State) : Host.Outcome State Fault Refusal := runAt .tim Block.timePllLoss s

/-- R105: the time-base PLL has relocked and has been stable for 2 µs. -/
def execTimebasePllRelock (s : State) : Host.Outcome State Fault Refusal :=
  runAt .tim (fun b => if b.on TIM_STATUS_PLL_LOST then (b.set TIM_STATUS_PLL_LOST 0).raise 63 else b) s

/-- R108: the armed leap second is reached. -/
def execLeapApply (s : State) : Host.Outcome State Fault Refusal :=
  runAt .tim (fun b =>
    if b.on TIM_LEAP_CTRL_ARM then
      let b := b.advanceTo (b.rd64 TIM_LEAP_LO * 1000000000)
      let b := b.set TIM_UTC_OFFSET (uns 16 (b.utcOffset + (if b.on TIM_LEAP_CTRL_SIGN then -1 else 1)))
      (b.set TIM_LEAP_CTRL_ARM 0).raise 61
    else b) s

/-- The 40-bit target of comparator n. -/
def Block.cmpTarget (b : Block) (n : Nat) : Nat := b.rd64 (TIM_CMPn_TGT_LO n) % 2 ^ 40

/-- R113: a write of TIM_CMPn_CTRL. ARM set without DISARM arms; a comparator that starts a generator gives it the
target at the arming (R114). -/
def execCmpArm (n : Nat) (v : Word) (s : State) : Host.Outcome State Fault Refusal :=
  runAt .tim (fun b =>
    if n < 64 ∧ b.takes ⟨.tim, 0⟩ = true then
      let a := TIM_CMPn_CTRL n
      let old := (b.rd a).toNat
      let w1c := bits old 27 3 - bits (old &&& v.toNat) 27 3
      let arm := if bit v.toNat 30 then 0 else if bit v.toNat 31 || bit old 31 then 1 else 0
      let b := b.wr a (BitVec.ofNat 32 (arm * 2 ^ 31 + w1c * 2 ^ 27 + (v.toNat &&& 0xF5)))
      if arm = 1 ∧ b.on (TIM_CMPn_CTRL_PG_START n) = true then
        b.modTim (fun t => { t with pgTaken := (n, b.cmpTarget n) :: t.pgTaken })
      else b
    else b) s

/-- R113: DISARM clears ARM. -/
def execCmpDisarm (n : Nat) (s : State) : Host.Outcome State Fault Refusal :=
  runAt .tim (fun b => if n < 64 then b.set (TIM_CMPn_CTRL_ARM n) 0 else b) s

/-- R114: a generator's start event: its START is reached, or with ALIGN_SEC the next whole TAI second. -/
def execPgStart (g : Nat) (s : State) : Host.Outcome State Fault Refusal :=
  runAt .tim (fun b =>
    if 8 ≤ g ∨ b.on (TIM_PGg_CTRL_EN g) = false ∨
        (b.on (TIM_PGg_CTRL_RUNNING g) = true ∧ b.tim.pgWait.get (fun _ => false) g = false) then b
    else if b.on (TIM_PGg_CTRL_ALIGN_SEC g) then
      let sec := (b.ns + 999999999) / 1000000000
      (b.advanceTo (sec * 1000000000)).pgStart g (sec * 1000000000 * 65536) 8
    else
      let t0 := b.extend40 (b.rd64 (TIM_PGg_START_LO g) % 2 ^ 40)
      (b.advanceTo t0).pgStart g (t0 * 65536) 0) s

/-- R114: COUNT pulses are done: RUNNING clears, event 59. -/
def execPgTrainDone (g : Nat) (s : State) : Host.Outcome State Fault Refusal :=
  runAt .tim (fun b =>
    if g < 8 ∧ b.on (TIM_PGg_CTRL_RUNNING g) = true ∧ b.pgCount g ≠ 0 ∧
        b.pgCount g ≤ b.tim.pgNext.get (fun _ => 0) g then b.pgStop g
    else b) s

end Sys2Proof.Machine
end

