-- ==== Sys2Proof/Machine/Goose.lean ====
section
/-! DEFINITION. The input image, GOOSE subscription, posted entries, and the timer block (R355 to R372). -/

namespace Sys2Proof.Machine

open Sys2Proof Sys2Proof.Reg

def Block.subOf (b : Block) (e : Nat) : GSub := b.gin.sub.get (fun _ => {}) e
def Block.setSub (b : Block) (e : Nat) (x : GSub) : Block := { b with gin := { b.gin with sub := (e, x) :: b.gin.sub } }
def Block.gsubCnt (b : Block) (e i : Nat) : Block := b.count (RHZ_GSUBe_CNTi e i) 1 (bitOf (RHZ_GSUBe_CNT_ROLL e) i) 542

/-! The settings of an entry (R383) -/

def GSub.word (x : GSub) (w : Nat) : Nat := (x.cfg.getD w 0).toNat
def GSub.kind (x : GSub) : Nat := bits (x.word 0) 30 1
def GSub.crzEn (x : GSub) : Bool := bit (x.word 0) 29
def GSub.routable (x : GSub) : Bool := bit (x.word 0) 28
def GSub.names (x : GSub) (e : Nat) : Bool := bits (x.word 0) 23 5 == e || bits (x.word 0) 18 5 == e
def GSub.nmem (x : GSub) : Nat := clampN 1 128 (bits (x.word 0) 0 8)
def GSub.appid (x : GSub) : Nat := bits (x.word 1) 16 16
def GSub.refLen (x : GSub) : Nat := bits (x.word 1) 0 7
/-- The destination MAC address, or the source IPv4 address of a routable entry (R361, R383). -/
def GSub.addr (x : GSub) : Nat := if x.routable then x.word 2 else x.word 2 + 2 ^ 32 * bits (x.word 3) 0 16
def GSub.confRev (x : GSub) : Nat := x.word 4
def GSub.offset (x : GSub) : Nat := bits (x.word 5) 3 17 * 8
def GSub.tmoMs (x : GSub) : Nat := bits (x.word 6) 0 16
def GSub.ref (x : GSub) : List Byte := ((List.range 16).foldl (fun l w => l ++ leBytes 4 (x.word (7 + w))) []).take x.refLen
/-- Tag and content length of member m. -/
def GSub.member (x : GSub) (m : Nat) : Nat × Nat :=
  let w := x.word (23 + m / 2)
  if m % 2 = 0 then (bits w 8 8, bits w 0 8) else (bits w 24 8, bits w 16 8)

/-- The settings of entry e in its registers. -/
def Block.subWords (b : Block) (e : Nat) : List Word :=
  (List.range 7).map (fun w => b.rd (RHZ_GSUBe_CFG e + 4 * w)) ++ (List.range 16).map (fun w => b.rd (RHZ_GSUBe_REFw e w)) ++
    (List.range 64).map (fun w => b.rd (RHZ_GSUBe_TPLw e w))

/-! Copies and flips (R355 to R358) -/

/-- Where copy c of an entry lies in the intake bank. -/
def Block.ginAt (b : Block) (x : GSub) (c : Nat) : Nat := b.get RHZ_GIN_BASE_BASE * 65536 + c * 0x100000 + x.offset
def ginCur (e : Nat) : Fld := bitOf (RHZ_GIN_CURk (e / 32)) (e % 32)

/-- The guard of R357: posted entries name no port, DEDUCED (notes/assumptions/205). -/
def Block.ginGuard (b : Block) : Nat :=
  let floor := 5000 + b.frameTerm (fun g => (List.range 4096).any (fun e => (b.subOf e).en && (b.subOf e).kind == 0 && (b.subOf e).names g))
  if b.get RHZ_GIN_GUARD_GUARD_NS < floor then floor else b.get RHZ_GIN_GUARD_GUARD_NS

/-- The first base tick whose time is at or after t. -/
def Block.tickFrom (b : Block) (t : Nat) : Nat :=
  let n := latestTick b.tickRate t
  if tickNs b.tickRate n < t then n + 1 else n

/-! Counters and edge detectors on the input image (R369, R371, R372) -/

/-- The cells of the timer block, in the half-open range of its 16-byte cells, that hold any byte. -/
def Block.timerCells (b : Block) (lo hi : Nat) : List Nat :=
  ((b.mem.filter (fun e => decide ((Space.timer).key (16 * lo) ≤ e.1) && decide (e.1 < (Space.timer).key (16 * hi)))).map
    (fun e => (e.1 - (Space.timer).key 0) / 16)).dedup

def Block.tbyte (b : Block) (a : Nat) : Nat := b.loadNat .timer a 1

/-- The bit that a SOURCE names in some member slots: 0 is the least significant bit of a slot's byte 7 (R368). -/
def srcBit (slots : List Byte) (src : Nat) : Bool :=
  bit (beAt slots (8 * bits src 12 7 + 7 - bits src 19 6 / 8) 1) (bits src 19 6 % 8)

/-- An edge of counter cell i: counted where it is selected (R371). -/
def Block.counterEdge (b : Block) (i : Nat) (v : Bool) : Block :=
  let a := 16 * i
  let prev := bit (b.tbyte (a + 15)) 1
  let c := b.tbyte (a + 13)
  let hit := (v && !prev && bit c 0) || (!v && prev && bit c 1)
  let b := b.storeNat .timer (a + 15) 1 (putBits (b.tbyte (a + 15)) 1 1 (if v then 1 else 0))
  if hit then
    let old := sgn 64 (b.loadNat .timer a 8)
    let new := if bit c 2 then old - 1 else old + 1
    let b := b.storeNat .timer a 8 (uns 64 new)
    if sgn 64 (uns 64 new) = new then b else b.storeNat .timer (a + 15) 1 (putBits (b.tbyte (a + 15)) 0 1 1)
  else b

/-- A new version of entry e, by its member slots: edge detectors and counters that name it follow. -/
def Block.imageEdges (b : Block) (e : Nat) (slots : List Byte) : Block :=
  let b := (b.timerCells 0x800 0xC00).foldl (fun b i =>
    let src := b.loadNat .timer (16 * i + 8) 4
    if bit src 31 && bit src 30 && bits src 0 12 == e then b.counterEdge i (srcBit slots src) else b) b
  (b.timerCells 0xC00 0x1000).foldl (fun b i =>
    let a := 16 * i
    let src := b.loadNat .timer (a + 8) 4
    if bit src 31 && bits src 0 12 == e then
      let v := srcBit slots src
      let f := b.tbyte (a + 4)
      if v && !bit f 0 then
        (b.storeNat .timer a 2 (b.loadNat .timer a 2 + 1)).storeNat .timer (a + 4) 1 (putBits (putBits f 0 1 1) 1 1 1)
      else if !v && bit f 0 then
        (b.storeNat .timer (a + 2) 2 (b.loadNat .timer (a + 2) 2 + 1)).storeNat .timer (a + 4) 1 (putBits (putBits f 0 1 0) 2 1 1)
      else b
    else b) b

/-! Changes -/

/-- A change is written into the non-current copy, which is first filled from the current one unless it already holds a
change of the same tick (R356, R357). -/
def Block.ginWrite (b : Block) (e : Nat) (c : GChange) : Block :=
  let x := b.subOf e
  let cur := b.get (ginCur e)
  let a := b.ginAt x (1 - cur)
  let merged := x.pend.isSome
  let b := if merged then b else b.stores .intake a (b.load .intake (b.ginAt x cur) (64 + 8 * x.nmem))
  let late := c.late || (merged && x.pendLate)
  let old := b.loadNat .intake (a + 39) 1
  let fl := (if c.new then c.flags else old &&& 0x17) + (if merged then 8 else 0) + (if late then 32 else 0)
  let b := ((b.storeNat .intake a 8 c.tick).storeNat .intake (a + 8) 8 c.ts).storeNat .intake (a + 36) 2
    (b.loadNat .intake (a + 36) 2 + 1)
  let b := (((b.storeNat .intake (a + 38) 1 c.state).storeNat .intake (a + 39) 1 fl).storeNat .intake (a + 40) 2 x.nmem).stores .intake
    (a + 42) [BitVec.ofNat 8 (b.get (RHZ_GSUBe_STAT_GEN e)), BitVec.ofNat 8 x.kind]
  let b := if c.new || c.head then
      (((b.stores .intake (a + 16) (fit 8 c.t)).storeNat .intake (a + 24) 4 c.st).storeNat .intake (a + 28) 4 c.sq).storeNat
        .intake (a + 32) 4 c.tal
    else b
  let b := if c.new then b.stores .intake (a + 64) (fit (8 * x.nmem) c.slots) else b
  b.setSub e { x with pend := some c.tick, pendLate := late, vers := x.vers ++ [b.load .intake (a + 64) (8 * x.nmem)] }

/-- A change with time stamp ts of entry e: its tick under R357 and R358, the entry's STATE and counters, and Crozier's notice
(R356, R364, R367). The engine whose GIN_LATE counts a late one is lateEng. -/
def Block.ginChange (b : Block) (e lateEng : Nat) (c : GChange) : Block :=
  let x := b.subOf e
  let n0 := b.tickFrom (c.ts + b.ginGuard)
  let late := decide (n0 ≤ b.lastTick)
  let n1 := if late then b.lastTick + 1 else n0
  let after := match x.wait.getLast? with
    | some w => w.tick
    | none => match x.pend with | some t => t | none => 0
  let n := if n1 < after then after else n1
  let c := { c with tick := n, late := late }
  let b := if late && !b.following then b.rhzCnt lateEng 11 else b
  let b := b.gsubCnt e 0
  let b := b.set (RHZ_GSUBe_STAT_TRANS e) (b.get (RHZ_GSUBe_STAT_TRANS e) + 1)
  let b := if b.get (RHZ_GSUBe_STAT_STATE e) = c.state then b
    else (b.set (RHZ_GSUBe_STAT_STATE e) c.state).set (bitOf (RHZ_GSUB_ATTNk (e / 32)) (e % 32)) 1
  if b.following then b.setSub e { b.subOf e with wait := (b.subOf e).wait ++ [c] }
  else
  let b := if x.crzEn then { b with gin := { b.gin with notices := b.gin.notices ++ [(e, n)] } } else b
  if x.pend = none ∨ x.pend = some n then b.ginWrite e c
  else b.setSub e { b.subOf e with wait := (b.subOf e).wait ++ [c] }

/-- The flip of tick n for entry e, and of any earlier tick still pending: edge detectors and counters see each change of the copy, merged
ones too, after the clears of the tick (R369, R372, R381); the changes of the next tick then enter the other copy (R357). -/
def Block.ginFlip1 (b : Block) (n e : Nat) : Nat → Block
  | 0 => b
  | fuel + 1 =>
    let x := b.subOf e
    match x.pend with
    | none =>
      match x.wait with
      | [] => b
      | c :: _ =>
        let now := x.wait.filter (fun w => w.tick == c.tick)
        let b := now.foldl (fun b w => b.ginWrite e w) (b.setSub e { x with wait := [] })
        (b.setSub e { b.subOf e with wait := x.wait.filter (fun w => w.tick != c.tick) }).ginFlip1 n e fuel
    | some t =>
      if n < t then b
      else
        let b := x.vers.foldl (fun b v => b.imageEdges e v) (b.set (ginCur e) (1 - b.get (ginCur e)))
        let b := { b with gin := { b.gin with flipped := if e ∈ b.gin.flipped then b.gin.flipped else b.gin.flipped ++ [e] } }
        let b := b.setSub e { x with pend := none, pendLate := false, vers := [], wait := [] }
        match x.wait with
        | [] => b
        | c :: _ =>
          let now := x.wait.filter (fun w => w.tick == c.tick)
          let b := now.foldl (fun b w => b.ginWrite e w) b
          (b.setSub e { b.subOf e with wait := x.wait.filter (fun w => w.tick != c.tick) }).ginFlip1 n e fuel

/-- The flip of tick n (R357). -/
def Block.ginFlip (b : Block) (n : Nat) : Block :=
  let b := { b with gin := { b.gin with flipped := [] } }
  b.each 4096 (fun e b => b.ginFlip1 n e (2 * (b.subOf e).wait.length + 2))

/-! GOOSE frames (R361 to R365) -/

/-- The primitive elements of a BER value at any depth, in order. -/
def primitives : Nat → List (Nat × List Byte) → Option (List (Nat × List Byte))
  | _, [] => some []
  | 0, _ => none
  | n + 1, (t, v) :: rest =>
    match primitives n rest with
    | none => none
    | some r =>
      if bit t 5 then
        match ber v with
        | none => none
        | some es => (primitives n es).map (fun p => p ++ r)
      else some ((t, v) :: r)

/-- A GOOSE APDU as parsed. -/
structure GoosePdu where
  ref : List Byte
  tal : Nat
  t : List Byte
  st : Nat
  sq : Nat
  test : Bool
  confRev : Nat
  nds : Bool
  members : Option (List (Nat × List Byte))

/-- goosePdu (tag 0x61) of IEC 61850-8-1. -/
def parseGoose (apdu : List Byte) : Option GoosePdu :=
  match ber apdu with
  | some [(0x61, body)] =>
    match ber body with
    | none => none
    | some es =>
      let get := fun t => match berGet es t with | some v => v | none => []
      if [0x80, 0x81, 0x84, 0x85, 0x86, 0x88, 0xAB].all (fun t => (berGet es t).isSome) then
        some ⟨get 0x80, beNat (get 0x81), get 0x84, beNat (get 0x85) % 2 ^ 32, beNat (get 0x86) % 2 ^ 32,
          beNat (get 0x87) != 0, beNat (get 0x88) % 2 ^ 32, beNat (get 0x89) != 0,
          match ber (get 0xAB) with | some m => primitives (apdu.length + 1) m | none => none⟩
      else none
  | _ => none

/-- The first enabled KIND 0 entry that satisfies the keys of R361. -/
def Block.gooseMatch (b : Block) (g : Nat) (h : AppHead) (routable : Bool) (ref : List Byte) : Option Nat :=
  (List.range 4096).find? (fun e =>
    let x := b.subOf e
    x.en && x.kind == 0 && x.names g && x.appid == h.appid && x.routable == routable && x.addr == h.addr &&
      x.refLen != 0 && x.ref == ref)

/-- The verdicts of R363. -/
inductive Judged
  | new (gap : Bool) | retrans | dup | old
  deriving DecidableEq, Repr

/-- judge() of R363. -/
def gooseJudge (have_ : Bool) (est esq lastTs talNs st sq ts : Nat) : Judged :=
  if !have_ then .new false
  else if st = est then (if 0 < sgn 32 (sq + 2 ^ 32 - esq) then .retrans else .dup)
  else if sgn 32 (st + 2 ^ 32 - est) < 0 ∧ (ts % 2 ^ 64 + 2 ^ 64 - lastTs % 2 ^ 64) % 2 ^ 64 < talNs then .old
  else .new (decide (st ≠ (if est = 2 ^ 32 - 1 then 1 else est + 1)))

/-- Member slots in the layout of R365, where allData fits the template. -/
def GSub.slots (x : GSub) (ms : Option (List (Nat × List Byte))) : Option (List Byte) :=
  match ms with
  | none => none
  | some l =>
    if l.length = x.nmem ∧ (List.range x.nmem).all (fun m =>
        let v := l.getD m (0, [])
        v.1 == (x.member m).1 && v.2.length == (x.member m).2 && decide (v.2.length ≤ 8)) = true then
      some (l.foldl (fun s v => s ++ fit 8 v.2) [])
    else none

/-- The deadline of entry e, where it is VALID and has one (R364, R366). -/
def Block.gsubDeadline (b : Block) (e : Nat) : Option Nat :=
  let x := b.subOf e
  if x.en && b.get (RHZ_GSUBe_STAT_STATE e) == 2 && (x.kind == 0 || x.talNs != 0) then some (x.lastTs + x.talNs) else none

/-- Entry e times out at its deadline (R364), a late one counted at engine 16: DEDUCED (notes/assumptions/205). -/
def Block.gsubExpire (b : Block) (e d : Nat) : Block := b.ginChange e 16 { ts := d, tick := 0, late := false, state := 3 }

/-- A frame or post stamped at ts finds the deadline passed: the timeout comes first (R364, R381). -/
def Block.gsubOverdue (b : Block) (e ts : Nat) : Block :=
  match b.gsubDeadline e with
  | some d => if d < ts then b.gsubExpire e d else b
  | none => b

/-- The checks of R362 from step 2 on, for a frame matched to entry e at engine g. -/
def Block.gooseCheck (b : Block) (g e : Nat) (f : EngFrame) (h : AppHead) (p : GoosePdu) : Block :=
  let x := b.subOf e
  let ts := f.stamp / 65536
  let seen := b.on (RHZ_GSUBe_STAT_SIM_SEEN e)
  let mode := b.on RHZ_CTRL_SIM_MODE
  if x.routable && x.haveSpdu && !decide (0 < sgn 32 (f.spdu + 2 ^ 32 - x.spdu)) then b.gsubCnt e 3
  else
    let x := if x.routable then { x with haveSpdu := true, spdu := f.spdu } else x
    let b := b.setSub e x
    if p.confRev ≠ x.confRev then
      let b := (b.gsubCnt e 3).set (RHZ_GSUBe_STAT_CONFREV_ERR e) 1
      if b.get (RHZ_GSUBe_STAT_STATE e) = 4 then b
      else b.ginChange e g { ts := ts, tick := 0, late := false, state := 4, head := true, t := p.t, st := p.st, sq := p.sq, tal := p.tal % 2 ^ 32 }
    else if (h.sim && !mode) || (!h.sim && mode && seen) then b.gsubCnt e 3
    else
      let start := h.sim && mode && !seen
      let b := if start then (b.set (RHZ_GSUBe_STAT_SIM_SEEN e) 1).raise 535 else b
      let x := if start then { x with have_ := false } else x
      let b := b.setSub e x
      match x.slots p.members with
      | none => (b.gsubCnt e 3).set (RHZ_GSUBe_STAT_TPL_ERR e) 1
      | some sl =>
        let est := (b.rd (RHZ_GSUBe_LAST_ST e)).toNat
        let j := gooseJudge x.have_ est (b.rd (RHZ_GSUBe_LAST_SQ e)).toNat x.lastTs x.talNs p.st p.sq ts
        let j := if j = .retrans ∧ b.get (RHZ_GSUBe_STAT_STATE e) ≠ 2 then .new false else j
        match j with
        | .dup => b.gsubCnt e 2
        | .old => b.gsubCnt e 3
        | .retrans => ((b.setSub e { x with lastTs := ts, talNs := p.tal * 1000000 }).wr (RHZ_GSUBe_LAST_SQ e)
            (BitVec.ofNat 32 p.sq)).gsubCnt e 1
        | .new gap =>
          let b := b.setSub e { x with have_ := true, lastTs := ts, talNs := p.tal * 1000000 }
          let b := (b.wr (RHZ_GSUBe_LAST_ST e) (BitVec.ofNat 32 p.st)).wr (RHZ_GSUBe_LAST_SQ e) (BitVec.ofNat 32 p.sq)
          let fl := (if p.test then 1 else 0) + (if p.nds then 2 else 0) + (if h.sim then 4 else 0) + (if gap then 16 else 0)
          b.ginChange e g ⟨ts, 0, false, 2, true, true, p.t, p.st, p.sq, p.tal % 2 ^ 32, fl, sl, some f⟩

/-- A GOOSE frame of engine g (R361, R362, R660). -/
def Block.gooseFrame (b : Block) (g : Nat) (f : EngFrame) : Block :=
  match appHead f with
  | none => b.malformed g
  | some h =>
    match parseGoose h.apdu with
    | none => b.malformed g
    | some p =>
      match b.gooseMatch g h f.routable p.ref with
      | none => b.rhzCnt g 3
      | some e =>
        match b.authCheck (b.rd (KEY_GSBe e)).toNat 1 h.ext with
        | (false, b) => b.gsubCnt e 3
        | (true, b) => (b.gsubOverdue e (f.stamp / 65536)).gooseCheck g e f h p

/-! The timer block (R369 to R372) -/

/-- The requests of step 1 of R369 in cell i. -/
def Block.timerRequests (b : Block) (i : Nat) : Block :=
  let a := 16 * i
  if i < 0x800 then
    if bit (b.tbyte (a + 11)) 0 then
      ((b.storeNat .timer (a + 4) 4 0).storeNat .timer (a + 9) 1 (b.tbyte (a + 9) &&& 4)).storeNat .timer (a + 11) 1 (b.tbyte (a + 11) &&& 0xFE)
    else b
  else if i < 0xC00 then
    if bit (b.tbyte (a + 14)) 0 then
      ((b.storeNat .timer a 8 0).storeNat .timer (a + 15) 1 (b.tbyte (a + 15) &&& 0xFE)).storeNat .timer (a + 14) 1 (b.tbyte (a + 14) &&& 0xFE)
    else b
  else if bit (b.tbyte (a + 5)) 0 then
    ((b.storeNat .timer a 4 0).storeNat .timer (a + 4) 1 (b.tbyte (a + 4) &&& 1)).storeNat .timer (a + 5) 1 (b.tbyte (a + 5) &&& 0xFE)
  else b

/-- The rule of R370: ELAPSED, OUT and RUNNING after an update. -/
def timerRule (mode preset elapsed : Nat) (inp prev out running : Bool) : Nat × Bool × Bool :=
  let rise := inp && !prev
  match mode with
  | 1 => if inp then
      let e := if elapsed + 1 < preset then elapsed + 1 else preset
      (e, decide (preset ≤ e), running)
    else (0, false, running)
  | 2 => if inp then (0, true, running)
    else if out then (elapsed + 1, !decide (preset ≤ elapsed + 1), running) else (elapsed, out, running)
  | 3 => if rise && !running then (0, true, true)
    else if running then (elapsed + 1, !decide (preset ≤ elapsed + 1) && out, !decide (preset ≤ elapsed + 1)) else (elapsed, out, running)
  | 4 => if rise then (0, true, true)
    else if running then (elapsed + 1, !decide (preset ≤ elapsed + 1) && out, !decide (preset ≤ elapsed + 1)) else (elapsed, out, running)
  | _ => (0, false, false)

/-- Timer i updates (R370). -/
def Block.timerUpdate (b : Block) (i : Nat) : Block :=
  let a := 16 * i
  let f := b.tbyte (a + 9)
  let inp := bit (b.tbyte (a + 8)) 0
  let r := timerRule (b.tbyte (a + 10)) (b.loadNat .timer a 4) (b.loadNat .timer (a + 4) 4) inp (bit f 2) (bit f 0) (bit f 1)
  (b.storeNat .timer (a + 4) 4 r.1).storeNat .timer (a + 9) 1
    ((if r.2.1 then 1 else 0) + (if r.2.2 then 2 else 0) + (if inp then 4 else 0))

/-- Step 1 of R369. -/
def Block.timersClear (b : Block) : Block := (b.timerCells 0 0x1000).foldl (fun b i => b.timerRequests i) b

/-- Step 2 of R369. -/
def Block.timersTick (b : Block) : Block :=
  let b := (b.timerCells 0 0x800).foldl (fun b i => b.timerUpdate i) b
  (b.timerCells 0x800 0xC00).foldl (fun b i =>
    let src := b.loadNat .timer (16 * i + 8) 4
    if bit src 31 && !bit src 30 then b.counterEdge i (bit (b.tbyte (16 * i + 12)) 0) else b) b

/-- May a task write byte a of the timer block (R368)? -/
def timerTaskByte (a : Nat) : Bool :=
  let o := a % 16
  if a < 0x8000 then o < 4 || o == 8 || o == 10 || o == 11
  else if a < 0xC000 then o == 12 || o == 13 || o == 14
  else o == 5

/-! The commands -/

/-- R362: engine e takes the oldest frame of its queue, one of GOOSE. -/
def execGooseFrameIntake (e : Nat) (s : State) : Host.Outcome State Fault Refusal :=
  runUnit ⟨.rhz, e⟩ (fun b =>
    match b.rhz.queue.get (fun _ => []) e with
    | f :: _ => if isSv f then b else (b.engineTake e).gooseFrame e f
    | [] => b) s

/-- Does an engine that entry e names hold a frame stamped by the deadline, which decides the entry's freshness (R381)? -/
def Block.gsubAwaits (b : Block) (e d : Nat) : Bool :=
  (List.range 17).any (fun g => (b.subOf e).kind == 0 && (b.subOf e).names g &&
    (b.rhz.queue.get (fun _ => []) g).any (fun f => !isSv f && decide (f.stamp / 65536 ≤ d)))

/-- R364: entry e's deadline passes, and no frame stamped by then is still to be judged. -/
def execGsubTimeout (e : Nat) (s : State) : Host.Outcome State Fault Refusal :=
  runAt .rhz (fun b =>
    match b.gsubDeadline e with
    | some d =>
      let b := b.advanceTo d
      if b.gsubAwaits e d then b else b.gsubExpire e d
    | none => b) s

/-- R366: firmware posts a node's frame to the entry of RHZ_GIN_POST_CMD with the fields of v. -/
def execGinPost (v : Word) (s : State) : Host.Outcome State Fault Refusal :=
  runAt .rhz (fun b =>
    let e := bits v.toNat 0 12
    let b := b.set RHZ_GIN_POST_CMD_ENTRY e
    let x := b.subOf e
    let ts := b.rd64 RHZ_GIN_POST_TS_LO
    if !x.en || x.kind != 1 then b.set RHZ_GIN_POST_CMD_RESULT 1
    else if ts < x.lastPost then b.set RHZ_GIN_POST_CMD_RESULT 2
    else
      let b := b.gsubOverdue e ts
      let x := b.subOf e
      let st := (b.rd (RHZ_GSUBe_LAST_ST e)).toNat + 1
      let b := (b.wr (RHZ_GSUBe_LAST_ST e) (BitVec.ofNat 32 st)).setSub e
        { x with lastPost := ts, have_ := true, lastTs := ts, talNs := x.tmoMs * 1000000 }
      let data := (List.range (2 * x.nmem)).foldl (fun l w => l ++ leBytes 4 (b.rd (RHZ_GIN_POST_DATAw w)).toNat) []
      (b.ginChange e 16 { ts := ts, tick := 0, late := false, state := 2, new := true, st := st, tal := x.tmoMs, slots := data }).set
        RHZ_GIN_POST_CMD_RESULT 0) s

/-- R361, R381: EN of entry e goes from 0 to 1 with the fields of v: its settings are read, GEN counts, its history, status and
counters clear. EN cleared discards a pending change. -/
def execGsubEnable (e : Nat) (v : Word) (s : State) : Host.Outcome State Fault Refusal :=
  runAt .rhz (fun b =>
    if 4096 ≤ e then b
    else
      let was := (b.subOf e).en
      let b := b.wr (RHZ_GSUBe_CFG e) (v &&& 0xFFFC00FF)
      let attn := fun (b : Block) => b.set (bitOf (RHZ_GSUB_ATTNk (e / 32)) (e % 32)) 1
      if !bit v.toNat 31 then
        if was then
          attn (({ b with gin := { b.gin with notices := b.gin.notices.filter (fun n => n.1 != e) } }.setSub e
            { b.subOf e with en := false, pend := none, pendLate := false, vers := [], wait := [] }).set (RHZ_GSUBe_STAT_STATE e) 0)
        else b
      else if was then b
      else
        let gen := (b.get (RHZ_GSUBe_STAT_GEN e) + 1) % 16
        let x : GSub := { en := true, cfg := b.subWords e }
        let b := (List.range 8).foldl (fun b w => b.wr (RHZ_GSUBe_STAT e + 4 * w) 0) (b.setSub e x)
        let b := (b.set (RHZ_GSUBe_STAT_GEN e) gen).set (RHZ_GSUBe_STAT_STATE e) 1
        let head := List.replicate 38 (0 : Byte) ++ [1, 0] ++ leBytes 2 x.nmem ++ [BitVec.ofNat 8 gen, BitVec.ofNat 8 x.kind] ++
          List.replicate (20 + 8 * x.nmem) 0
        attn ((b.stores .intake (b.ginAt x 0) head).stores .intake (b.ginAt x 1) head)) s

/-- R204, R362: SIM_MODE written; clearing it clears SIM_SEEN on every slot, which restart at their next accepted ASDU, and on
every entry, which clears its history. -/
def execSimModeWrite (v : Bool) (s : State) : Host.Outcome State Fault Refusal :=
  runAt .rhz (fun b =>
    let b := b.set RHZ_CTRL_SIM_MODE (if v then 1 else 0)
    if v then b
    else
      let b := b.each 1024 (fun k b => b.doIf (b.on (RHZ_SLOTs_STAT_SIM_SEEN k)) (fun b =>
        (b.set (RHZ_SLOTs_STAT_SIM_SEEN k) 0).setSlot k { b.slotOf k with simRestart := true }))
      b.each 4096 (fun e b => b.doIf (b.on (RHZ_GSUBe_STAT_SIM_SEEN e)) (fun b =>
        (b.set (RHZ_GSUBe_STAT_SIM_SEEN e) 0).setSub e { b.subOf e with have_ := false }))) s

end Sys2Proof.Machine
end

