-- ==== Sys2Proof/Machine/Reset.lean ====
section
/-! DEFINITION. Module resets (chapter "Reset controller and start sequence"): which reset governs, what a cold and a warm
reset keep, and how a start begins (R601 to R610, R613). -/

namespace Sys2Proof.Machine

open Sys2Proof Sys2Proof.Reg

def Block.modRst (b : Block) (f : Rst → Rst) : Block := { b with rst := f b.rst }

/-- Ridge core m starts at RIDGE_BOOT in machine mode (R70). -/
def Block.ridgeStart (b : Block) (m : Nat) : Block :=
  let c : RidgeCore := { pc := b.rd64 RIDGE_BOOT_LO, machine := true }
  { b.set (bitOf RIDGE_RUN m) 1 with ridge := { b.ridge with core := Sparse.put (fun _ => {}) m c b.ridge.core } }

/-- The level of a cause: 0 power-on, 1 cold, 2 warm (R602). -/
def causeLevel (c : Nat) : Nat := if c = 1 then 0 else if c < 6 ∨ c = 9 then 1 else 2

/-- Does a source hold its reset (R602)? -/
def causeHolds (c : Nat) : Bool := (2 ≤ c && c ≤ 6) || c == 0xD

/-- Causes 1 to 13 in a mask. -/
def firstCause (mask : Nat) : Option Nat := (List.range 14).find? (fun c => bit mask c)

/-! What a reset keeps -/

/-- Is a register one of pulse generator 0 (R115)? -/
def isPg0 (a : Nat) : Bool := decide (TIM_PGg_CTRL 0 ≤ a) && decide (a < TIM_PGg_CTRL 1)

/-- Is a register of HIF kept by PERST_N and a warm reset: the wake cause, its time, the slot and the counters (R517)? -/
def hifKept (a : Nat) : Bool :=
  a == HIF_WAKE_CAUSE || a == HIF_WAKE_TIME_LO || a == HIF_WAKE_TIME_HI || a == HIF_SLOT ||
    (decide (HIF_CNTi 0 ≤ a) && decide (a < HIF_CNTi 10))

/-- A word with the fields of a list kept and its other bits at reset. -/
def keepFields (fs : List FieldRow) (reset v : Nat) : Nat :=
  fs.foldl (fun w f => if f.keep then putBits w f.lo (f.hi + 1 - f.lo) (bits v f.lo (f.hi + 1 - f.lo)) else w) reset

/-- A register after a warm reset: each field as its table's Warm column says; a header keeps RETIRED; the key slots, pulse
generator 0 and what R517 names stay (R52, R83, R115, R517, R609). -/
def warmWord (a : Nat) (v : Word) : Word :=
  if isPg0 a ∨ hifKept a = true ∨ a = HIF_STAT ∨ (KEY_SLOTn_ATTR 0 ≤ a ∧ a < KEY_SLOTn_ATTR 512) then v
  else if TIM_PGg_CTRL 1 ≤ a ∧ a < TIM_PGg_CTRL 8 then resetOf a
  else match rowOf a with
    | some r => BitVec.ofNat 32 (keepFields r.fields (resetOf a).toNat v.toNat)
    | none => if a % 64 = 8 ∧ (unitAt (a - 8)).isSome then BitVec.ofNat 32 (putBits (resetOf a).toNat 2 1 (bits v.toNat 2 1)) else resetOf a

/-- Does a byte of memory survive a warm reset (R541)? -/
def memWarm (k : Nat) : Bool :=
  let sp := k / 2 ^ 64
  sp == Space.dram.index || sp == Space.host.index || sp == Space.acq.index || sp == Space.secure.index || decide (288 ≤ sp)

/-- Does it survive a cold reset (R541)? -/
def memCold (k : Nat) : Bool := let sp := k / 2 ^ 64; sp == Space.host.index || decide (288 ≤ sp)

/-- The registers that a cold reset other than power-on keeps (R621, R544, and KEY's fuses and latches). -/
def coldKept (a : Nat) (v : Word) : Word :=
  let keep := fun (f : Fld) (w : Nat) => putBits w f.lo f.width (bits v.toNat f.lo f.width)
  let r := (resetOf a).toNat
  if (RST_CNTc 1 ≤ a ∧ a ≤ RST_CNTc 13) ∨ a = RST_LAST ∨ a = RST_LAST_ALL ∨ (RST_PINFUSEk 0 ≤ a ∧ a ≤ RST_PINFUSEk 15) ∨ a = KEY_FUSE
    then v
  else if a = RST_START then BitVec.ofNat 32 (keep RST_START_STORM r)
  else if a = THL_SEC_STAT then BitVec.ofNat 32 (keep THL_SEC_STAT_WIPE_PEND r)
  else if a = KEY_STATUS then
    BitVec.ofNat 32 (keep KEY_STATUS_LC (keep KEY_STATUS_TAMPER_SEEN (keep KEY_STATUS_DBG_ARMED (keep KEY_STATUS_ENROL_PEND r))))
  else resetOf a

/-- The block after a cold reset: what no domain but the always-on one holds is gone (R541, R601). -/
def Block.coldBlock (b : Block) : Block :=
  let fresh : Block := {}
  { fresh with
    member := b.member
    regs := b.regs.map (fun e => (e.1, coldKept e.1 e.2))
    mem := b.mem.filter (fun e => memCold e.1)
    outs := b.outs
    freeCtr := b.freeCtr
    readData := b.readData
    xtal := b.xtal
    rst := { b.rst with rel := false, warm := false, digest := none, crzDue := none, ridgeAt := [], ridgeHalf := [], who := [], since := [], group := [], ecc := [], ran := false, slot := 0, failed := 0, retried := false, waiting := false, hif := false }
    key := { ({} : Key) with enrolled := b.key.enrolled }
    crn := { ({} : Crn) with upBase := b.xtal } }

/-- The time base after a warm reset: TIM_NOW, the servo and pulse generator 0 go on; comparators, queued stamps and the
other generators do not (R83, R115, R117). -/
def Tim.warm (t : Tim) : Tim :=
  let g0 := fun {α : Type} (m : Sparse α) => m.filter (fun e => e.1 == 0)
  { t with pgTaken := [], pgT0 := g0 t.pgT0, pgNext := g0 t.pgNext, pgWait := g0 t.pgWait, pgEnd := g0 t.pgEnd, tsf := [] }

/-- Every capture under way is cut short (R411). -/
def Block.acqCut (b : Block) : Block :=
  b.each 16 (fun s b => if (b.csetOf s).cur.isSome then b.truncSeg s 3 else b)

/-- The auxiliary segments after a warm reset: one in SLEEP or in its fail-safe sequence sleeps, any other enabled one is in
STANDBY; the latter's AUXEN goes low after the rest of its hold (R597, R598). -/
def Block.auxWarm (b : Block) (s : Nat) : Block :=
  let x : AuxSeg := b.aux.get (fun _ => {}) s
  let st := b.get (AUXs_STAT_STATE s)
  let fs := st = 4 ∧ x.failSafe = true
  let b := b.set (AUXs_STAT_PLCA_STATUS s) 0
  let b := if st = 0 ∨ st = 5 then b else b.set (AUXs_STAT_STATE s) (if fs then 5 else 1)
  { b with aux := (s, { x with ramp := 0, awake := none, sent := 0, failSafe := false, drainOnWake := false, hold := if fs then some (b.xtal + 100000000) else x.hold }) :: b.aux }

/-- The block after a warm reset (R609, R610). -/
def Block.warmBlock (b0 : Block) : Block :=
  let b := b0.dropLaunches.acqCut.each 8 (fun s b => b.auxWarm s)
  let lost := b.fifo.length
  let fresh : Block := {}
  let w : Block := { fresh with
    member := b.member
    regs := b.regs.map (fun e => (e.1, warmWord e.1 e.2))
    mem := b.mem.filter (fun e => memWarm e.1)
    outs := b.outs
    freeCtr := b.freeCtr
    readData := b.readData
    xtal := b.xtal
    gates := b.gates
    tim := b.tim.warm
    acq := { ({} : Acq) with cset := b.acq.cset.map (fun e => (e.1, { e.2 with en := false, cur := none, queue := [], settle := none, xtEnd := none })), edges := [] }
    aux := b.aux
    hif := { ({} : Hif) with pmeEn := b.hif.pmeEn, pmeStatus := b.hif.pmeStatus, aspm := b.hif.aspm, l1ss := b.hif.l1ss, pasidEn := b.hif.pasidEn, mse := b.hif.mse, bar0 := b.hif.bar0, bar2 := b.hif.bar2, cut := true }
    msixEn := b.msixEn
    msixMask := b.msixMask
    img := { ({} : Img) with bytes := b.img.bytes, subsys := b.img.subsys, slot := b.img.slot }
    nrg := { b.nrg with up := [], down := [], window := [], moving := [], exiting := false, asked := false, sysMhz := 1000, retried := [] }
    seg := b.seg
    rst := { b.rst with rel := false, warm := true, crzDue := none, ridgeAt := [], ridgeHalf := [], who := [], since := [], group := [], ran := false, failed := 0, retried := false, waiting := false, hif := false }
    key := { b.key with rdata := false }
    crn := { b.crn with failing := false } }
  let w := w.wr CRN_RST_LOST (BitVec.ofNat 32 (if lost < 65536 then lost else 65535))
  (w.set RST_START_STAGE 5).set RST_START_STORM (b.get RST_START_STORM)

/-! Which reset governs (R602, R603) -/

/-- Module resets in the storm window of now (R607). -/
def Block.stormCount (b : Block) : Nat :=
  (b.rst.storms.filter (fun t => decide (b.xtal ≤ t + b.get RST_STORM_STORM_MIN * 60000000000))).length

/-- The start begins: its stage, its time, and the storm rule (R607, R613, R617). -/
def Block.beginStart (b : Block) : Block :=
  let b := b.modRst (fun r => { r with asserted := false, held := 0, startAt := b.xtal, slot := 0, failed := 0, retried := false, forceHost := false })
  let b := b.set RST_START_STAGE (if b.rst.level = 2 then 5 else 1)
  let lim := b.get RST_STORM_STORM_LIMIT
  if lim ≠ 0 ∧ lim ≤ b.stormCount then
    ((b.modRst (fun r => { r with forceHost := true })).set RST_START_STORM 1).raise 3
  else b

/-- RST_LAST takes the level and the governing cause (R603). -/
def Block.showLast (b : Block) (lvl c : Nat) : Block := (b.set RST_LAST_LEVEL lvl).set RST_LAST_CAUSE c

/-- A reset of level 0, 1 or 2 reaches the module. -/
def Block.reach (b : Block) (level : Nat) : Block :=
  let b := if level = 2 then b.warmBlock else b.coldBlock
  b.modRst (fun r => { r with asserted := true, level := level })

/-- A module reset with cause c counts (R621). -/
def Block.resetCount (b : Block) (c : Nat) : Block := if 1 ≤ c ∧ c ≤ 13 then b.count (RST_CNTc c) 1 (bitOf RST_CNT_ROLL c) 4 else b

/-- A reset of a level and a cause: a wider one, or the first, reaches the module; every cause is marked; a start begins once
no source holds its reset (R602, R603, R607). -/
def Block.resetBy (b : Block) (lvl c : Nat) (holds : Bool) : Block :=
  let b :=
    if b.rst.asserted then
      let wider := decide (lvl < b.rst.level)
      let governs := wider || (lvl == b.rst.level && decide (c < b.get RST_LAST_CAUSE))
      let b := if wider then (b.reach lvl).resetCount c else b
      let b := b.doIf governs (fun b => b.showLast lvl c)
      b.set (bitOf RST_LAST_ALL c) 1
    else
      let b := b.modRst (fun r => { r with storms := b.xtal :: r.storms.filter (fun t => decide (b.xtal ≤ t + 255 * 60000000000)), held := 0 })
      let b := (b.reach lvl).showLast lvl c
      let b := (b.wr RST_LAST_ALL 0).set (bitOf RST_LAST_ALL c) 1
      b.resetCount c
  let b := b.doIf (c == 2 && holds) (fun b => b.set RST_START_STORM 0)
  let b := b.modRst (fun r => { r with held := r.held ||| (if holds then 2 ^ c else 0) })
  if b.rst.held = 0 then b.beginStart else b

/-- A source of R602 acts. -/
def Block.moduleReset (b : Block) (c : Nat) : Block := b.resetBy (causeLevel c) c (causeHolds c)

/-- A warm reset for an error in checked control state, with the failing address or offset for the RESET record; the error itself
is not recorded before the reset (R44, R602, R675). -/
def Block.controlReset (b : Block) (a : Nat) : Block := (b.modRst (fun r => { r with info := a })).moduleReset 0xB

end Sys2Proof.Machine
end

