-- ==== Sys2Proof/Machine/Hif.lean ====
section
/-! DEFINITION. Queues: contexts and their cache (R469, R470), completions, notifications and their messages (R496 to R499,
R504, R506), and queue errors (R500). -/

namespace Sys2Proof.Machine

open Sys2Proof Sys2Proof.Reg

/-- An element in its place before the first that it does not follow. -/
def insertBy {α : Type} (le : α → α → Bool) (x : α) : List α → List α
  | [] => [x]
  | y :: t => if le x y then x :: y :: t else y :: insertBy le x t

/-- A list in order; equals keep their order. -/
def sortBy {α : Type} (le : α → α → Bool) (l : List α) : List α := l.foldr (insertBy le) []

def Block.modHif (b : Block) (f : Hif → Hif) : Block := { b with hif := f b.hif }
def Block.hifCnt (b : Block) (i : Nat) : Block := b.count (HIF_CNTi i) 1 (bitOf HIF_CNT_ROLL i) 75
def Block.vinCnt (b : Block) (i : Nat) : Block := b.count (VIN_CNTi i) 1 (bitOf VIN_CNT_ROLL i) 104

/-! Contexts -/

/-- A queue context (R469); phase, armed and lost are module state in byte 25. -/
structure QCtx where
  ring : Nat
  sizeLog : Nat
  kind : Nat
  qgen : Nat
  state : Nat
  cq : Nat
  vector : Nat
  head : Nat
  tail : Nat
  igen : Nat
  phase : Bool
  armed : Bool
  lost : Bool
  deriving DecidableEq, Repr

def QCtx.of (l : List Byte) : QCtx :=
  let n := leAt l
  ⟨n 0 8, n 8 1, n 9 1, n 10 1, n 11 1, n 12 2, n 14 2, n 16 4, n 20 4, n 24 1, bit (n 25 1) 0, bit (n 25 1) 1, bit (n 25 1) 2⟩

def QCtx.bytes (c : QCtx) : List Byte :=
  fit 64 (leBytes 8 c.ring ++ leBytes 1 c.sizeLog ++ leBytes 1 c.kind ++ leBytes 1 c.qgen ++ leBytes 1 c.state ++ leBytes 2 c.cq ++
    leBytes 2 c.vector ++ leBytes 4 c.head ++ leBytes 4 c.tail ++ leBytes 1 c.igen ++
    leBytes 1 (c.phase.toNat + 2 * c.armed.toNat + 4 * c.lost.toNat))

/-- Entries of the ring. -/
def QCtx.size (c : QCtx) : Nat := 2 ^ c.sizeLog
/-- Entries written and not yet consumed, and whether the ring is full. -/
def QCtx.used (c : QCtx) : Nat := (c.tail + c.size - c.head % c.size) % c.size
def QCtx.full (c : QCtx) : Bool := (c.tail + 1) % c.size == c.head % c.size

/-- The index of queue q of instance i, and where its context lies. -/
def qIdx (i q : Nat) : Nat := 1024 * i + q
def Block.ctxAddr (b : Block) (idx : Nat) : Nat := b.rd64 VIN_QCTX_BASE_LO + 64 * idx

/-- VIN_CACHE_STAT follows the cache. -/
def Block.showCache (b : Block) : Block :=
  (b.set VIN_CACHE_STAT_VALID b.hif.cache.length).set VIN_CACHE_STAT_DIRTY ((b.hif.cache.filter (fun l => l.dirty)).length)

/-- A line becomes the most recently used; beyond 4,096 the least recently used is written back. -/
def Block.cachePut (b : Block) (l : CtxLine) : Block :=
  let rest := b.hif.cache.filter (fun m => m.idx != l.idx)
  let b := match rest.drop 4095 with
    | [] => b
    | old :: _ => b.doIf old.dirty (fun b => b.dramStore (b.ctxAddr old.idx) old.bytes)
  (b.modHif (fun h => { h with cache := l :: rest.take 4095 })).showCache

/-- A queue enters ERROR (R500). -/
def Block.queueError (b : Block) (idx : Nat) (c : QCtx) : Block :=
  let b := b.cachePut ⟨idx, QCtx.bytes { c with state := 2 }, true⟩
  let b := b.modHif (fun h => { h with turns := h.turns.filter (fun q => q != idx) })
  (b.doIf (decide (idx < 2)) (fun b => b.set HIF_ADMQ_CFG_ERR 1)).raise 71

/-- A context through the cache; a line that fails its CRC puts the queue in ERROR and resets VIN (R469, R470). -/
def Block.ctx (b : Block) (idx : Nat) : QCtx × Block :=
  match b.hif.cache.find? (fun l => l.idx == idx) with
  | some l => (QCtx.of l.bytes, b.cachePut l)
  | none =>
    let b := b.vinCnt 6
    let a := b.ctxAddr idx
    let l := if b.inControl a 64 then b.load .dram a 64 else List.replicate 64 0
    let b := b.doIf (!b.inControl a 64) Block.noRegion
    if b.lineOk a then (QCtx.of l, b.cachePut ⟨idx, l, false⟩)
    else
      let c := { QCtx.of l with state := 2 }
      let b := ((b.crcError a 1).vinCnt 7).queueError idx c
      (c, b.controlFault ⟨.vin, 0⟩)

/-- A context written. -/
def Block.putCtx (b : Block) (idx : Nat) (c : QCtx) : Block := b.cachePut ⟨idx, c.bytes, true⟩

/-! Instances as queues see them -/

def Block.instState (b : Block) (i : Nat) : Nat := b.get (VIN_INSTi_STAT_STATE i)
def Block.instGen (b : Block) (i : Nat) : Nat := b.get (VIN_INSTi_STAT_GEN i)

/-- A stale generation: counted, event 100; one of the instance counts in STALE_INST too (R456, R470). -/
def Block.staleQ (b : Block) (inst : Bool) : Block := ((b.doIf inst (fun b => b.vinCnt 2)).vinCnt 1).raiseEvery 1000 100

/-- A message that a queue owes on its vector; one left pending is remembered as a queue's (R39, R504, R505). -/
def Block.msixQ (b : Block) (v : Nat) : Block :=
  let c := b.send v
  if bit (c.rd (pbaWord v)).toNat (v % 32) then c.modHif (fun h => { h with qpend := v :: h.qpend.filter (fun x => x != v) }) else c

/-! Host memory -/

/-- May the module exchange entries with the host now? -/
def Block.hostReady (b : Block) : Bool := b.released .hif && b.hostOpen

/-- Does host software reach BAR0 and BAR2: Memory Space Enable set, the function in D0 (R493)? -/
def Block.hostIn (b : Block) : Bool := b.hif.mse && b.get HIF_STAT_DSTATE == 0 && !b.on HIF_STAT_PERST

/-- Was a queue not set up again since the host went (R38, R506)? -/
def Block.suspended (b : Block) (idx : Nat) : Bool := b.hif.cut && !(idx ∈ b.hif.fresh)

/-- The link is used: it leaves L1, and its idle time starts anew (R508). -/
def Block.linkUse (b : Block) : Block := (b.modHif (fun h => { h with lastUse := b.xtal })).set HIF_STAT_LSTATE 0

/-- A write to host memory for an instance, under its PASID; the link leaves L1 for it (R466, R508). -/
def Block.hostStore (b : Block) (i a : Nat) (l : List Byte) : Block :=
  ((b.stores .host a l).linkUse).emit (.hostWrite (b.get (VIN_INSTi_STAT_PASID i)) a l)

/-- A read of n bytes of host memory for an instance, under its PASID (R466). -/
def Block.hostLoad (b : Block) (i a n : Nat) : List Byte × Block :=
  (b.load .host a n, b.linkUse.emit (.hostRead (b.get (VIN_INSTi_STAT_PASID i)) a n))

/-- Latency Tolerance Reporting: 1 ms while no queue holds work, 20 µs otherwise; a change is reported (R489). -/
def Block.ltrShow (b : Block) (work : Bool) : Block :=
  if b.hif.busy == work || !b.hostReady then b else (b.modHif (fun h => { h with busy := work })).emit (.ltr (if work then 20 else 1000))

/-! Entries on their way (R496, R497, R499, R504, R506) -/

/-- One entry into its ring where there is room: does it still wait, and the block after. -/
def Block.deliverEntry (b : Block) (e : DueEntry) : Bool × Block :=
  let (c, b) := b.ctx e.idx
  let i := e.idx / 1024
  if c.state = 0 ∨ c.qgen ≠ e.qgen ∨ e.igen ≠ b.instGen i ∨ c.igen ≠ b.instGen i then (false, b.staleQ (e.igen != b.instGen i || c.igen != b.instGen i))
  else if c.state = 2 ∨ b.suspended e.idx = true then (true, b)
  else if c.full then
    if e.notif then (false, b.putCtx e.idx { c with lost := true }) else (true, b)
  else
    let r := if e.notif then (leBytes 2 0, b)
      else (let p := b.ctx (qIdx i (leAt e.bytes 4 2)); (leBytes 2 p.1.head, p.2))
    let b := r.2
    let l := if e.notif then e.bytes else e.bytes.take 6 ++ r.1 ++ e.bytes.drop 8
    let flags := c.phase.toNat + (if e.notif && c.lost then 2 else 0)
    let l := l.take 3 ++ leBytes 1 flags ++ l.drop 4
    let b := b.hostStore i (c.ring + 16 * c.tail) l
    let t := (c.tail + 1) % c.size
    let msg := c.armed && c.vector != 0xFFFF
    let b := b.putCtx e.idx { c with tail := t, phase := (if t = 0 then !c.phase else c.phase), armed := c.armed && !msg, lost := c.lost && !e.notif }
    (false, b.doIf msg (fun b => b.msixQ c.vector))

/-- Every waiting entry that can be written is. -/
def Block.flushDue (b : Block) : Block :=
  if !b.hostReady then b
  else
    let es := b.hif.due
    es.foldl (fun b e => match b.deliverEntry e with
      | (true, b) => b.modHif (fun h => { h with due := h.due ++ [e] })
      | (false, b) => b) (b.modHif (fun h => { h with due := [] }))

/-- An entry falls due: written, or held; beyond 4,096 held entries it is dropped. Due in D3, an armed queue with a vector
is a wake cause (R506, R511). -/
def Block.fallDue (b : Block) (e : DueEntry) : Block :=
  let (c, b) := b.ctx e.idx
  let w := if b.on HIF_WAKE_EN_QUEUE && c.armed && c.vector != 0xFFFF then b.wakeCause 2 (e.idx / 1024) (e.idx % 1024) else (b, ([] : List Nat))
  let b := w.2.foldl (fun b e => b.raise e) w.1
  if !b.hostReady && decide (4096 ≤ b.hif.due.length) then (b.hifCnt 8).raise 74
  else (b.modHif (fun h => { h with due := h.due ++ [e] })).flushDue

/-- The completion of a command of queue sq of instance i (R474, R496). -/
def Block.complete (b : Block) (i sq cid status result : Nat) : Block :=
  let (c, b) := b.ctx (qIdx i sq)
  let (k, b) := b.ctx (qIdx i c.cq)
  b.fallDue ⟨qIdx i c.cq, k.qgen, c.igen, leBytes 2 cid ++ leBytes 1 status ++ [0] ++ leBytes 2 sq ++ [0, 0] ++ leBytes 8 result, false⟩

/-- The generations of a submission queue and of its completion queue (R38). -/
def Block.queueGens (b : Block) (i sq : Nat) : Nat × Block :=
  let (c, b) := b.ctx (qIdx i sq)
  let (k, b) := b.ctx (qIdx i c.cq)
  (256 * c.qgen + k.qgen, b)

/-- A completion of a command accepted under queue generations g; one of an earlier generation is dropped and counted (R38). -/
def Block.completeOf (b : Block) (g i sq cid status result : Nat) : Block :=
  let r := b.queueGens i sq
  if r.1 = g then r.2.complete i sq cid status result else r.2.staleQ false

/-- The notification queues of an instance: those of its queues whose contexts say so. -/
def Block.notifyQueues (b : Block) (i : Nat) : List Nat :=
  (List.range (b.get (VIN_INSTi_QUOTA_QUOTA i))).filter (fun q =>
    let l := match b.hif.cache.find? (fun l => l.idx == qIdx i q) with
      | some l => l.bytes
      | none => b.load .dram (b.ctxAddr (qIdx i q)) 64
    leAt l 9 1 == 2 && leAt l 11 1 != 0)

/-- A notification of instance i to each of its notification queues (R497). -/
def Block.notify (b : Block) (i typ state kind task tick : Nat) : Block :=
  (b.notifyQueues i).foldl (fun b q =>
    let (c, b) := b.ctx (qIdx i q)
    b.fallDue ⟨qIdx i q, c.qgen, c.igen, leBytes 1 typ ++ leBytes 1 state ++ leBytes 1 kind ++ [0] ++ leBytes 2 task ++
      leBytes 1 (b.instGen i) ++ [0] ++ leBytes 8 tick, true⟩) b

/-- A queue set up anew or again: QGEN advances, HEAD and TAIL are reset, its vector is armed, what it held is discarded
(R470, R504, R506). The flag is the new QGEN. -/
def Block.queueSet (b : Block) (idx : Nat) (f : QCtx → QCtx) : Nat × Block :=
  let (c, b) := b.ctx idx
  let g := (c.qgen + 1) % 256
  let c := f { c with qgen := g, head := 0, tail := 0, state := 1, igen := b.instGen (idx / 1024), phase := true, armed := true, lost := false }
  let b := b.modHif (fun h => { h with due := h.due.filter (fun e => e.idx != idx), turns := h.turns.filter (fun q => q != idx), fresh := idx :: h.fresh.filter (fun q => q != idx) })
  (g, b.putCtx idx c)

/-! Links and power states -/

/-- What PERST_N, a Function Level Reset, the loss of the link and a unit reset of HIF do to HIF: the registers of R517 but
for those it names, and the configuration's settings; queues wait until they are set up again (R38, R490, R506, R517). -/
def Block.hifReset (b : Block) : Block :=
  let b := { b with regs := b.regs.map (fun (e : Nat × Word) => if 0x70040 ≤ e.1 ∧ e.1 < 0x80000 ∧ hifKept e.1 = false then (e.1, resetOf e.1) else e), msixEn := false, msixMask := false }
  b.modHif (fun h => { h with pmeEn := false, pmeStatus := false, pmeReq := false, aspm := false, l1ss := 0, pasidEn := false, mse := false, bar0 := 0, bar2 := 0, turns := [], qpend := [], cut := true, fresh := [] })

end Sys2Proof.Machine
end

