-- ==== Sys2Proof/Machine/Publisher.lean ====
section
/-! DEFINITION. The GOOSE publisher (R373 to R379), frames from port 20 in the switch core (R159), and the opening of the
Belay gate (R169, R170). -/

namespace Sys2Proof.Machine

open Sys2Proof Sys2Proof.Reg

/-! The settings a block read on EN 0→1 -/

def Block.pubOf (b : Block) (k : Nat) : Pub := b.pub.get (fun _ => {}) k
def Block.setPub (b : Block) (k : Nat) (x : Pub) : Block := { b with pub := (k, x) :: b.pub }

/-- Word w of the settings: 0 CFG, 1 IMG, 2 TIME, 3 TAL, 4 TPL_LO, 5 TPL_HI, 6 TPL_LEN. -/
def Pub.word (x : Pub) (w : Nat) : Nat := (x.cfg.getD w 0).toNat
def Pub.cls (x : Pub) : Nat := bits (x.word 0) 29 2
def Pub.sim (x : Pub) : Bool := bit (x.word 0) 28
def Pub.ports (x : Pub) : Nat := bits (x.word 0) 0 20
def Pub.tFirst (x : Pub) : Nat := clampN 100 65535 (bits (x.word 2) 0 16)
def Pub.tMax (x : Pub) : Nat := clampN 1 60000 (bits (x.word 2) 16 16)
def Pub.tpl (x : Pub) : Nat := (x.word 4) / 64 * 64 + 2 ^ 32 * x.word 5
def Pub.len (x : Pub) : Nat := bits (x.word 6) 16 11
def Pub.nmem (x : Pub) : Nat := bits (x.word 6) 8 8

/-- gnext of R363. -/
def gnext (x : Nat) : Nat := if x % 2 ^ 32 = 2 ^ 32 - 1 then 1 else x + 1

/-- Where the output image begins in the intake bank, and where block k's entry lies (R373). -/
def Block.goutBase (b : Block) : Nat := b.get SWC_GOUT_BASE_BASE * 65536
def Block.pubEntry (b : Block) (x : Pub) : Nat := b.goutBase + bits (x.word 1) 3 17 * 8

/-! Frames from port 20 in the switch core (R159) -/

/-- A frame is taken out of every queue that holds it, for a reason of R166; one in transmission goes on (R160). -/
def Block.withdraw (b : Block) (id : Nat) (reason : Option Nat) : Block :=
  b.each 23 (fun e b =>
    let p := b.swc.pubQ.get (fun _ => []) e
    let l := b.swc.launch.get (fun _ => []) e
    match b.stored id with
    | none => b
    | some f =>
      if id ∈ p ∨ id ∈ l then
        ((b.modSwc (fun w => { w with pubQ := (e, p.filter (fun i => i != id)) :: w.pubQ
                                      launch := (e, l.filter (fun i => i != id)) :: w.launch })).mirDrop e f reason).release e id
      else b)

/-- A frame of block k falls due while two earlier ones still hold cells: the older is withdrawn (R159). -/
def Block.supersede (b : Block) (k : Nat) : Block :=
  match b.swc.store.filter (fun f => f.blk == some k) with
  | f :: _ :: _ => ((b.withdraw f.id (some 6)).swcCnt 6 1).raise 450
  | _ => b

/-- A frame of block k enters the buffer from port 20, for its ports and both ports of each pair among them, or for its
launch time (R135, R156, R159, R163, R724). The result names it, where a port took it. -/
def Block.pubSend (b : Block) (k : Nat) (f : List Byte) (ports : Nat) (launch : Option Nat) : Option Nat × Block :=
  let b := (b.supersede k).swcCnt 5 1
  let vid := b.lookupVid 20 f
  let b := b.rxMirror 20 f b.stamp
  let x : SwFrame := { id := 0, src := 20, bytes := f, stamp := b.stamp, vid := vid, tagged := frameTagged f, queue := 0,
                       blk := some k, launch := launch }
  let live := b.liveMask x (b.resolveLag f vid (b.expandPairs 20 f ports))
  let n := (List.range 23).foldl (fun n e => if inMask live.1 e then n + 1 else n) 0
  if n = 0 then (none, live.2)
  else
    let sq := live.2.takeSeqs live.1
    let b := sq.2
    let g : SwFrame := { x with id := b.swc.nextId, seqs := sq.1, ports := live.1, refs := n }
    let b := b.modSwc (fun w => { w with store := w.store ++ [g], nextId := w.nextId + 1 })
    let b := b.setFree (b.get SWC_BUF_STAT_FREE - cellsOf f)
    (some g.id, b.each 23 (fun e b => b.doIf (inMask live.1 e) (fun b => b.modSwc (fun w =>
      match launch with
      | some _ => { w with launch := enqueue w.launch e g.id }
      | none => { w with pubQ := enqueue w.pubQ e g.id }))))

/-! Building a frame (R375) -/

/-- A byte string with some bytes replaced from place i on. -/
def patch (f : List Byte) (i : Nat) (l : List Byte) : List Byte := f.take i ++ l ++ f.drop (i + l.length)

/-- The frame of block k's current state at TIM_NOW, before authentication. -/
def Block.pubBytes (b : Block) (k : Nat) (x : Pub) : List Byte :=
  let e := b.pubEntry x
  let off := fun i => b.loadNat .dram (x.tpl + x.len + 2 * i) 2
  let u := b.utcTime (b.loadNat .intake (e + 24) 8)
  let fl := b.loadNat .intake (e + 8) 1
  let bool := fun (v : Bool) => [if v then (1 : Byte) else 0]
  let f := b.load .dram x.tpl x.len
  let f := patch f (off 0) (beBytes 4 u.1 ++ beBytes 3 u.2.1 ++ beBytes 1 u.2.2)
  let f := patch f (off 1) (0 :: beBytes 4 (b.get (SWC_PUBb_STNUM_ST k)))
  let f := patch f (off 2) (0 :: beBytes 4 (b.get (SWC_PUBb_SQNUM_SQ k)))
  let f := patch f (off 3) (0 :: beBytes 4 (x.word 3))
  let f := patch f (off 4) (bool (bit fl 0))
  let f := patch f (off 5) (bool (bit fl 1))
  let f := patch f (off 6) [BitVec.ofNat 8 (putBits (beAt f (off 6) 1) 7 1 (if x.sim then 1 else 0))]
  (List.range x.nmem).foldl (fun f m =>
    let o := off (7 + m)
    patch f o ((b.load .intake (e + 64 + 8 * m) 8).take (beAt f (o - 1) 1))) f

/-- Do all lines of a block's template pass their check (R536)? -/
def Block.tplOk (b : Block) (x : Pub) : Bool :=
  (List.range ((x.len + 14 + 2 * x.nmem + 63) / 64)).all (fun i => b.lineOk (x.tpl + 64 * i))

/-- The first of them whose check fails. -/
def Block.tplBad (b : Block) (x : Pub) : Nat :=
  match (List.range ((x.len + 14 + 2 * x.nmem + 63) / 64)).find? (fun i => !b.lineOk (x.tpl + 64 * i)) with
  | some i => x.tpl + 64 * i
  | none => x.tpl

/-- A security extension appended after the APDU, within the Length field (R659, R661). -/
def withExt (f : List Byte) (alg keyId : Nat) (iv key : List Byte) : List Byte :=
  let at' := etherAt f + 4
  let size := if alg = 1 then 32 else 16
  let head := beBytes 1 alg ++ beBytes 4 keyId ++ beBytes 1 iv.length ++ iv ++ beBytes 1 size
  let g := patch f at' (beBytes 2 (beAt f at' 2 + head.length + size)) ++ head
  g ++ fit size (authTag alg key iv (g.drop (etherAt f + 2)))

/-- The frame as it is built: none where the template's lines fail (TPL_ERR and the unit reset of R44) or no usable key
slot permits its tag (R661). -/
def Block.pubBuild (b : Block) (k : Nat) (x : Pub) : Option (List Byte) × Block :=
  if !b.tplOk x then (none, ((b.set (SWC_PUBb_STAT_TPL_ERR k) 1).crcError (b.tplBad x) 1).controlFault ⟨.swc, 0⟩)
  else
    let f := b.pubBytes k x
    if !b.on (KEY_PUBb_EN k) then (some f, b)
    else
      let n := if b.on (KEY_PUBb_SEL k) then b.get (KEY_PUBb_SLOT_B k) else b.get (KEY_PUBb_SLOT_A k)
      match b.keyUse n 1 with
      | (false, b) => (none, b.keyCnt 7)
      | (true, b) =>
        let alg := b.get (KEY_PUBb_ALG k)
        let iv := b.draw (2 ^ 96)
        let b := if alg = 2 then iv.2 else b
        (some (withExt f alg (b.rd (KEY_SLOTn_KEYID n)).toNat (if alg = 2 then beBytes 12 iv.1 else []) (b.keyMaterial n)), b)

/-- send() of R376: the frame is built and handed to the switch core, at TIM_NOW or with launch time L, which counts as the
time of the send; the module's header bytes of the entry are updated (R373). -/
def Block.pubEmit (b : Block) (k : Nat) (x : Pub) (launch : Option Nat) (first : Bool) : Block :=
  let e := b.pubEntry x
  let b := (b.storeNat .intake (e + 16) 4 (b.get (SWC_PUBb_STNUM_ST k))).storeNat .intake (e + 20) 4 (b.get (SWC_PUBb_SQNUM_SQ k))
  let b := b.storeNat .intake (e + 32) 8 b.ns
  let at' := match launch with | some l => b.extend40 l | none => b.ns
  let r := match b.pubBuild k x with
    | (none, b) => (none, b)
    | (some f, b) => b.pubSend k f x.ports launch
  r.2.setPub k { x with last := at', first := if first then r.1 else x.first }

/-- A block's interval elapses, or a burst sends it: the next retransmission (R376, R379). -/
def Block.pubDue (b : Block) (k : Nat) : Block :=
  let x := b.pubOf k
  let b := b.set (SWC_PUBb_SQNUM_SQ k) (gnext (b.get (SWC_PUBb_SQNUM_SQ k)))
  let iv := if 2 * x.iv ≤ 1000 * x.tMax then 2 * x.iv else 1000 * x.tMax
  b.pubEmit k { x with iv := iv } none false

/-- A change of state of block k (R376, R377). -/
def Block.pubChange (b : Block) (k : Nat) : Block :=
  let x := b.pubOf k
  let e := b.pubEntry x
  let l := b.loadNat .intake e 8
  let b := b.count (SWC_PUBb_CHANGES k) 1 (bitOf (SWC_PUBb_CHANGES k) 32) 454
  let b := (b.set (SWC_PUBb_STNUM_ST k) (gnext (b.get (SWC_PUBb_STNUM_ST k)))).set (SWC_PUBb_SQNUM_SQ k) 0
  let b := (b.storeNat .intake (e + 24) 8 (if l = 0 then b.ns else l)).storeNat .intake e 8 0
  b.pubEmit k { x with iv := x.tFirst } (if l = 0 then none else some (l % 2 ^ 40)) true

/-- The task-written state of block k: byte 8 and the member slots of its entry (R374). -/
def Block.pubState (b : Block) (x : Pub) : List Byte :=
  let e := b.pubEntry x
  b.byte .intake (e + 8) :: b.load .intake (e + 64) (8 * x.nmem)

/-- The changes a commit of the output image made: each enabled block whose state differs from before (R374). -/
def Block.pubCommit (b before : Block) : Block :=
  b.each 4096 (fun k b =>
    let x := b.pubOf k
    b.doIf (x.en && b.pubState x != before.pubState x) (fun b => b.pubChange k))

/-- The burst of R379: one retransmission of every enabled block in class order, but for one whose first frame of the
current state is still waiting. -/
def Block.pubBurst (b : Block) : Block :=
  b.each 4 (fun c b => b.each 4096 (fun k b =>
    let x := b.pubOf k
    let waits := match x.first with
      | some id => (b.stored id).isSome && !(List.range 23).any (fun e => b.swc.sending.get (fun _ => none) e == some id)
      | none => false
    b.doIf (x.en && x.cls == c && !waits) (fun b => b.pubDue k)))

/-- The gate follows the lease and FORCE_CLOSE; an opening raises event 466 and starts the burst (R169, R170, R379). While a reset of the
switch core is under way it stays closed (R183). -/
def Block.gateFollow (b : Block) : Block :=
  if b.leased && !b.on SWC_GATE_FORCE_CLOSE && !b.on (stResetBusy (⟨.swc, 0⟩ : UnitRef).hdr) then
    if b.on SWC_GATE_OPEN then b else ((b.set SWC_GATE_OPEN 1).raise 466).pubBurst
  else b.gateClose

/-- on_enable of R376: the block reads its settings, its curve starts with stNum 1, its first frame is sent. -/
def Block.pubStart (b : Block) (k : Nat) : Block :=
  let ws := [SWC_PUBb_CFG k, SWC_PUBb_IMG k, SWC_PUBb_TIME k, SWC_PUBb_TAL k, SWC_PUBb_TPL_LO k, SWC_PUBb_TPL_HI k,
    SWC_PUBb_TPL_LEN k].map b.rd
  let x : Pub := { en := true, cfg := ws }
  let x := { x with iv := x.tFirst }
  let b := (b.set (SWC_PUBb_STNUM_ST k) 1).set (SWC_PUBb_SQNUM_SQ k) 0
  let b := b.storeNat .intake (b.pubEntry x + 24) 8 b.ns
  b.pubEmit k x none true

/-! The commands -/

/-- R376: EN goes from 0 to 1 in block k's CFG with the fields of v: the block reads its settings, its curve starts with
stNum 1 and its first frame is sent. EN cleared stops the block. -/
def execPubBlockEnable (k : Nat) (v : Word) (s : State) : Host.Outcome State Fault Refusal :=
  runAt .swc (fun b =>
    if 4096 ≤ k then b
    else
      let was := (b.pubOf k).en
      let b := b.wr (SWC_PUBb_CFG k) (v &&& 0xF00FFFFF)
      if !bit v.toNat 31 then b.setPub k { b.pubOf k with en := false }
      else if was then b
      else b.pubStart k) s

/-- R376: block k's retransmission interval elapses. -/
def execGooseFrameDue (k : Nat) (s : State) : Host.Outcome State Fault Refusal :=
  runAt .swc (fun b =>
    let x := b.pubOf k
    if x.en then (b.advanceTo (x.last + x.iv * 1000)).pubDue k else b) s

/-- R379: a write of 1 to RESEND. -/
def execPubResend (s : State) : Host.Outcome State Fault Refusal := runAt .swc Block.pubBurst s

/-- R170: FORCE_CLOSE closes the gate; cleared, it opens the gate if the lease is held. -/
def execGateForceCloseWrite (v : Bool) (s : State) : Host.Outcome State Fault Refusal :=
  runAt .swc (fun b => (b.set SWC_GATE_FORCE_CLOSE (if v then 1 else 0)).gateFollow) s

end Sys2Proof.Machine
end

