-- ==== Sys2Proof/Machine/Thr.lean ====
section
/-! DEFINITION. Threshold comparators (chapter "Thresholds, watermarks and pickup"). -/

namespace Sys2Proof.Machine

open Sys2Proof Sys2Proof.Reg

def Block.thrOf (b : Block) (k : Nat) : Thr := b.sor.thr.get (fun _ => {}) k
def Block.setThr (b : Block) (k : Nat) (x : Thr) : Block := { b with sor := { b.sor with thr := (k, x) :: b.sor.thr } }

/-! The settings (R282) -/

def Thr.word (x : Thr) (w : Nat) : Nat := (x.cfg.getD w 0).toNat
def Thr.under (x : Thr) : Bool := bit (x.word 0) 30
def Thr.src (x : Thr) : Nat := bits (x.word 0) 27 3
def Thr.bin (x : Thr) : Nat := bits (x.word 0) 24 3
def Thr.invAct (x : Thr) : Bool := bit (x.word 0) 23
def Thr.qblock (x : Thr) : Bool := bit (x.word 0) 22
def Thr.crzEdge (x : Thr) : Nat := bits (x.word 0) 20 2
def Thr.acqEn (x : Thr) : Bool := bit (x.word 0) 19
def Thr.acqMode (x : Thr) : Bool := bit (x.word 0) 18
def Thr.acqIn (x : Thr) : Nat := bits (x.word 0) 13 5
def Thr.evt (x : Thr) : Bool := bit (x.word 0) 12
def Thr.hyst (x : Thr) : Int := ((x.word 2 : Nat) : Int)
def Thr.puDly (x : Thr) : Nat := bits (x.word 3) 0 16
def Thr.doDly (x : Thr) : Nat := bits (x.word 3) 16 16

/-- A 32-bit word compared as the source demands: signed for RE, IM and ROCOF (R266). -/
def srcValue (src w : Nat) : Int := if src = 2 ∨ src = 3 ∨ src = 5 then sgn 32 w else ((w % 2 ^ 32 : Nat) : Int)

def liveBit (k : Nat) : Fld := bitOf (THR_LIVEw (k / 32)) (k % 32)
def stickyBit (k : Nat) : Fld := bitOf (THR_STICKYw (k / 32)) (k % 32)

/-- A trigger that a comparator drives (R276): the input, its time in ns, the trigger time in 2⁻¹⁶ ns, whether interpolated. -/
structure ThrHit where
  input : Nat
  ns : Nat
  time : Nat
  interp : Bool

/-- change() of R268. -/
def Block.thrChange (b : Block) (k : Nat) (up : Bool) (tag t : Nat) : Block :=
  let x := b.thrOf k
  let v := if up then 1 else 0
  let first := !b.on (THRk_STAT_STICKY k)
  let b := b.setThr k { x with run := 0, trans := (x.trans + 1) % 65536, first := if first then t else x.first }
  let b := (b.set (THRk_STAT_LIVE k) v).set (liveBit k) v
  let b := b.raiseIf (first && x.evt) (640 + k / 512)
  let b := (b.set (THRk_STAT_STICKY k) 1).set (stickyBit k) 1
  let b := b.set (THRk_STAT_COUNT k) (satAdd 255 (b.get (THRk_STAT_COUNT k)) 1)
  if bit x.crzEdge (if up then 0 else 1) then
    { b with sor := { b.sor with notices := b.sor.notices ++ [(⟨k, up, tag, t⟩ : ThrNotice)] } }
  else b

/-- Settings that a swap handed over, the last of them, hold from the first evaluation at or after their time (R278, R315). -/
def Block.thrLoad (b : Block) (k t : Nat) : Block :=
  match b.crz.loads.reverse.find? (fun l => l.k == k && decide (l.at_ ≤ t)) with
  | none => b
  | some l =>
    let ws := [BitVec.ofNat 32 l.level, BitVec.ofNat 32 l.hyst, BitVec.ofNat 32 l.dly]
    let b := { b with crz := { b.crz with loads := b.crz.loads.filter (fun m => !(m.k == k && decide (m.at_ ≤ t))) } }
    let b := ((b.wr (THRk_LEVEL k) (ws.getD 0 0)).wr (THRk_HYST k) (ws.getD 1 0)).wr (THRk_DLY k) (ws.getD 2 0)
    let x := b.thrOf k
    b.setThr k { x with cfg := x.cfg.take 1 ++ ws }

/-- evaluate() of R268, the pickup-plane entry of R273, and the trigger of R276 and R396. -/
def Block.thrEvaluate (b0 : Block) (k : Nat) (w val tag t : Nat) : Block × List ThrHit :=
  let b := b0.thrLoad k t
  let x := b.thrOf k
  let v := srcValue x.src w
  let lv := srcValue x.src (x.word 1)
  let blk := val == 1 || (x.qblock && val == 3)
  let beyond := if x.under then decide (v ≤ lv) else decide (lv ≤ v)
  let back := if x.under then decide (lv + x.hyst < v) else decide (v < lv - x.hyst)
  let was := b.on (THRk_STAT_BEYOND k)
  let live := b.on (THRk_STAT_LIVE k)
  let now := !blk && beyond
  let b := (b.set (THRk_STAT_BLK k) (if blk then 1 else 0)).set (THRk_STAT_BEYOND k) (if now then 1 else 0)
  let b :=
    if blk then
      if x.invAct then
        let b := b.setThr k { x with run := 0, prev := none }
        if live then b.thrChange k false tag t else b
      else b.setThr k { x with prev := none }
    else
      let run := if (if live then back else beyond) then satAdd 65536 x.run 1 else 0
      let b := b.setThr k { x with run := run, prev := some (v, t) }
      if (if live then x.doDly else x.puDly) < run then b.thrChange k (!live) tag t else b
  let rose := b.on (THRk_STAT_LIVE k) && !live
  let y := b.thrOf k
  let b := b.set (THRk_RUN_RUN k) (if y.run < 65536 then y.run else 65535)
  let flags := (if b.on (THRk_STAT_LIVE k) then 1 else 0) + (if blk then 2 else 0) + (if now then 4 else 0)
  let b := b.stores .intake (b.get THR_CTRL_PLANE_BASE * 65536 + 8 * k)
    (leBytes 4 tag ++ leBytes 1 flags ++ leBytes 1 0 ++ leBytes 2 y.trans)
  let hits :=
    if !x.acqEn then []
    else if !x.acqMode then (if rose then [(⟨x.acqIn, t, t * 65536, false⟩ : ThrHit)] else [])
    else if now && !was then
      match x.prev with
      | some p => [(⟨x.acqIn, t, crossTime (srcValue x.src (b.rd (THRk_LEVEL k)).toNat) p.1 v p.2 t, true⟩ : ThrHit)]
      | none => [(⟨x.acqIn, t, t * 65536, false⟩ : ThrHit)]
    else []
  (b, hits)

/-- A channel switch restarts the channel's comparators (R279). -/
def Block.thrRestart (b : Block) (c : Nat) : Block :=
  b.each 4 (fun j b =>
    let k := 4 * c + j
    let b := b.setThr k { b.thrOf k with run := 0, trans := 0, prev := none }
    (((b.set (THRk_STAT_LIVE k) 0).set (liveBit k) 0).set (THRk_STAT_RESTARTED k) 1).set (THRk_RUN_RUN k) 0)

/-- Does hit h win over hit g of the same input and time: by an earlier trigger time? -/
def ThrHit.beats (h g : ThrHit) : Bool := h.input == g.input && h.ns == g.ns && decide (h.time < g.time)
def ThrHit.same (h g : ThrHit) : Bool := h.input == g.input && h.ns == g.ns && h.time == g.time

/-- The triggers of one instant reach their inputs: those of one input and one time are merged, the earliest trigger time
used (R276, R396). -/
def Block.thrHits (b : Block) (l : List ThrHit) : Block :=
  (l.foldl (fun (p : List ThrHit × Block) h =>
    if p.1.any (fun g => g.same h) || l.any (fun g => g.beats h) then p
    else (h :: p.1, p.2.acqSource 3 h.input h.time h.interp)) ([], b)).2

/-- R271: a 1 written to STICKY of comparator k clears STICKY, COUNT and FIRST. -/
def Block.stickyClear (b : Block) (k : Nat) : Block :=
  (((b.set (THRk_STAT_STICKY k) 0).set (stickyBit k) 0).set (THRk_STAT_COUNT k) 0).setThr k { b.thrOf k with first := 0 }

/-- R271: a write of THR_STICKYw, or of THRk_STAT's STICKY as a word with one bit. -/
def execStickyClear (w : Nat) (v : Word) (s : State) : Host.Outcome State Fault Refusal :=
  runAt .sor (fun b => if 1024 ≤ w then b else b.each 32 (fun i b => b.doIf (bit v.toNat i && decide (32 * w + i < 4 * b.member.channels)) (fun b => b.stickyClear (32 * w + i)))) s

/-- A read of THRk_STAT latches FIRST for the requester (R272). -/
def Block.thrLatch (b : Block) (who : Requester) (k : Nat) : Block :=
  let f := (b.thrOf k).first
  { b with shadow := (shadowKey who (THRk_FIRST_LO k), BitVec.ofNat 32 f) ::
      (shadowKey who (THRk_FIRST_HI k), BitVec.ofNat 32 (f / 2 ^ 32)) :: b.shadow }

/-- R272: a read of THRk_STAT latches FIRST into the requester's shadow. -/
def execThrStatRead (who : Requester) (k : Nat) (s : State) : Host.Outcome State Fault Refusal :=
  runAt .sor (fun b =>
    if 4 * b.member.channels ≤ k then b.answer 0
    else (b.thrLatch who k).answer (b.rd (THRk_STAT k)).toNat) s

/-- R266, R278: EN of comparator k set with the fields of v, or the write discarded. -/
def execComparatorEnable (k : Nat) (v : Word) (s : State) : Host.Outcome State Fault Refusal :=
  runAt .sor (fun b =>
    if 4 * b.member.channels ≤ k then b
    else
      let src := bits v.toNat 27 3
      let ch := b.sor.chan.get (fun _ => {}) (k / 4)
      let nbin := (if ch.en then bits (ch.cfg.getD 0 0).toNat 7 3 else b.get (SOR_CHc_CFG_NBIN (k / 4))) + 1
      if src = 6 ∨ src = 7 ∨ ((src = 0 ∨ src = 2 ∨ src = 3) ∧ nbin ≤ bits v.toNat 24 3) then b
      else
        let b := b.wr (THRk_CFG k) (BitVec.ofNat 32 ((v.toNat &&& 0x7FFFF000) + 2 ^ 31))
        let x := b.thrOf k
        if x.en then b
        else
          let b := b.setThr k { x with en := true, cfg := (List.range 4).map (fun w => b.rd (THRk_CFG k + 4 * w)), run := 0, trans := 0 }
          ((b.set (THRk_STAT_LIVE k) 0).set (liveBit k) 0).set (THRk_RUN_RUN k) 0) s

end Sys2Proof.Machine
end

