-- ==== Sys2Proof/Machine/Sorus.lean ====
section
/-! DEFINITION. Filters, phasors and frequency tracking (chapter "Filter, decimation and phasor front end"). -/

namespace Sys2Proof.Machine

open Sys2Proof Sys2Proof.Reg

def Block.chanOf (b : Block) (c : Nat) : Chan := b.sor.chan.get (fun _ => {}) c
def Block.setChan (b : Block) (c : Nat) (x : Chan) : Block := { b with sor := { b.sor with chan := (c, x) :: b.sor.chan } }
def Block.trkOf (b : Block) (t : Nat) : Trk := b.sor.trk.get (fun _ => {}) t
def Block.setTrk (b : Block) (t : Nat) (x : Trk) : Block := { b with sor := { b.sor with trk := (t, x) :: b.sor.trk } }
def Block.sorCnt (b : Block) (i : Nat) : Block := b.count (SOR_CNTi i) 1 (bitOf SOR_CNT_ROLL i) 613
def Block.laneCnt (b : Block) (l i : Nat) : Block := b.count (SOR_LANEl_CNTi l i) 1 (bitOf (SOR_LANEl_CNT_ROLL l) i) 613

/-! Settings of a channel (R262, R263) and of a tracking group (R261) -/

def Chan.word (x : Chan) (w : Nat) : Nat := (x.cfg.getD w 0).toNat
def Chan.fpAa (x : Chan) : Bool := bit (x.word 0) 30
def Chan.trk (x : Chan) : Nat := bits (x.word 0) 24 6
def Chan.aaSet (x : Chan) : Nat := bits (x.word 0) 18 6
def Chan.aaShift (x : Chan) : Nat := bits (x.word 0) 13 5
def Chan.lsh (x : Chan) : Nat := clampN 0 6 (bits (x.word 0) 10 3)
def Chan.nbin (x : Chan) : Nat := bits (x.word 0) 7 3 + 1
def Chan.nstage (x : Chan) : Nat := bits (x.word 0) 5 2 + 1
def Chan.outShift (x : Chan) : Nat := bits (x.word 1) 18 5
def Chan.outGain (x : Chan) : Nat := bits (x.word 1) 0 18
def Chan.harm (x : Chan) (j : Nat) : Nat := bits (x.word (2 + j / 4)) (8 * (j % 4)) 5
def Chan.tracked (x : Chan) (k : Nat) : Bool := bit (x.word (4 + 2 * k)) 31
def Chan.mdec (x : Chan) (k : Nat) : Nat := bits (x.word (4 + 2 * k)) 23 8 + 1
def Chan.shift (x : Chan) (k : Nat) : Nat := bits (x.word (4 + 2 * k)) 18 5
def Chan.cyc (x : Chan) (k : Nat) : Nat := bits (x.word (4 + 2 * k)) 8 8
def Chan.len (x : Chan) (k : Nat) : Nat := clampN 1 256 (bits (x.word (5 + 2 * k)) 16 9)
def Chan.frac (x : Chan) (k : Nat) : Nat := bits (x.word (5 + 2 * k)) 0 16
/-- M_1 × … × M_k, the rate divisor behind stage k (R234). -/
def Chan.div (x : Chan) (k : Nat) : Nat := (List.range k).foldl (fun p j => p * x.mdec j) 1

def Trk.word (x : Trk) (w : Nat) : Nat := (x.cfg.getD w 0).toNat
def Trk.fnom (x : Trk) : Nat := if bit (x.word 0) 30 then 0x3C000000 else 0x32000000
def Trk.holdEn (x : Trk) : Bool := bit (x.word 0) 29
/-- REF_MODE; 0b11 acts as 0b00 (R241). -/
def Trk.refMode (x : Trk) : Nat := if bits (x.word 0) 27 2 = 3 then 0 else bits (x.word 0) 27 2
def Trk.agrp (x : Trk) : Nat := bits (x.word 0) 23 4
def Trk.kf (x : Trk) : Nat := bits (x.word 0) 19 4
def Trk.kr (x : Trk) : Nat := bits (x.word 0) 15 4
def Trk.rocofD (x : Trk) : Nat := clampN 1 127 (bits (x.word 0) 8 7)
def Trk.lockN (x : Trk) : Nat := clampN 1 255 (bits (x.word 0) 0 8)
def Trk.refA (x : Trk) : List Nat :=
  if x.refMode = 1 then [bits (x.word 1) 0 13] else [bits (x.word 1) 0 13, bits (x.word 1) 16 13, bits (x.word 2) 0 13]
def Trk.refB (x : Trk) : List Nat :=
  if x.refMode = 1 then [bits (x.word 2) 16 13] else [bits (x.word 2) 16 13, bits (x.word 3) 0 13, bits (x.word 3) 16 13]
def Trk.minMag (x : Trk) : Nat := x.word 4
def Trk.lockMhz (x : Trk) : Nat := bits (x.word 5) 0 16

abbrev trkNOMINAL : Nat := 0
abbrev trkLOCKING : Nat := 1
abbrev trkLOCKED : Nat := 2
abbrev trkHOLD : Nat := 3

def Block.decIn (b : Block) (g : Nat) : Nat := clampN 1 32 (b.get (SOR_DECg_DEC_IN g))

/-- A coefficient set: its taps, 64 at most, and the delays of R231 at f_rot (R239, R248). -/
def Block.ntap (b : Block) (s : Nat) : Nat := clampN 0 64 (b.get (SOR_AAs_HDR_NTAP s))
def Block.slopeTerm (b : Block) (s fRot : Nat) : Int :=
  let fnom : Nat := if b.on (SOR_AAs_HDR_FNOM s) then 0x3C000000 else 0x32000000
  rne (sgn 32 (b.rd (SOR_AAs_SLOPE s)).toNat * (((fRot : Nat) : Int) - ((fnom : Nat) : Int))) 24
def Block.phaseDelay (b : Block) (s h fRot : Nat) : Int :=
  if b.ntap s = 0 then 0
  else if b.on (SOR_AAs_HDR_TYPE s) then
    (((b.rd (SOR_AAs_PDh s h)).toNat : Nat) : Int) + (if h = 1 then b.slopeTerm s fRot else 0)
  else (((b.ntap s - 1) * 32768 : Nat) : Int)
def Block.gdAa (b : Block) (s fRot : Nat) : Int :=
  if b.ntap s = 0 then 0
  else if b.on (SOR_AAs_HDR_TYPE s) then (((b.rd (SOR_AAs_GD0 s)).toNat : Nat) : Int) + b.slopeTerm s fRot
  else (((b.ntap s - 1) * 32768 : Nat) : Int)

/-! Lanes (R223, R224) -/

/-- The lane of a block of channels. -/
def Block.laneMap (b : Block) (blk : Nat) : Nat := bits (b.rd64 SOR_LANEMAP_LO) (4 * blk) 4

/-- The blocks of channels that the member has; map entries of others are ignored (R223). -/
def Block.blocks (b : Block) : List Nat := List.range (b.member.units .sor)

/-- The blocks that lane l serves. -/
def Block.laneBlocks (b : Block) (l : Nat) : List Nat := b.blocks.filter (fun k => b.laneMap k == l)

/-- Can lane l process: the member has it, it is not retired, no reset of it is in progress? -/
def Block.laneOk (b : Block) (l : Nat) : Bool :=
  let u : UnitRef := ⟨.sor, l⟩
  b.member.has u && !b.on (stRetired u.hdr) && !b.on (stResetBusy u.hdr)

/-- The channels of block blk that have a context. -/
def Block.blockChans (b : Block) (blk : Nat) : List Nat := (b.sor.chan.map (fun e => e.1)).dedup.filter (fun c => c / 512 == blk)

/-- BLOCK of each lane, as the lane map names it (R260). -/
def Block.showBlocks (b : Block) : Block :=
  b.each (b.member.units .sor) (fun k b => b.set (SOR_LANEl_STAT_BLOCK (b.laneMap k)) k)

/-! Channel switches (R225, R279) -/

/-- A channel switch of channel c. -/
def Block.chanSwitch (b : Block) (c : Nat) : Block :=
  let x := b.chanOf c
  ((b.setChan c { en := x.en, cfg := x.cfg }).set (SOR_CHc_STAT_FILLED c) 0).thrRestart c

/-- A channel switch of every channel that lane l serves. -/
def Block.laneSwitch (b : Block) (l : Nat) : Block :=
  (b.laneBlocks l).foldl (fun b k => (b.blockChans k).foldl (fun b c => b.chanSwitch c) b) b

/-- The entry of SOR_LANEMAP of block k. -/
def laneEntry (k : Nat) : Fld := ⟨if k < 8 then SOR_LANEMAP_LO else SOR_LANEMAP_HI, 4 * (k % 8), 4⟩

/-- A pending move takes effect (R224): the retired lane's block goes to the spare lane; each lane serves exactly one block (R223), so
the spare's own block, which has no enabled channel, takes the retired lane. DEDUCED (notes/assumptions/173). -/
def Block.laneMove (b : Block) (l spare : Nat) : Block :=
  let own := b.laneBlocks spare
  let b := (b.laneBlocks l).foldl (fun b k =>
    let b := (b.set (laneEntry k) spare).set (bitOf SOR_SPARE spare) 0
    let b := ((b.set (SOR_LANEl_STAT_BLOCK spare) k).sorCnt 0).raise 610
    (b.blockChans k).foldl (fun b c => b.chanSwitch c) b) b
  own.foldl (fun b k => (b.set (laneEntry k) l).set (SOR_LANEl_STAT_BLOCK l) k) b

/-- Does group g have channels in block k? -/
def Block.grpInBlock (b : Block) (g k : Nat) : Bool :=
  let x := b.grpOf g
  decide (0 < x.chCount) && decide (x.chFirst < 512 * k + 512) && decide (512 * k < x.chFirst + x.chCount)

/-- The moves of blocks with channels in group g take effect. -/
def Block.laneMoves (b : Block) (g : Nat) : Block :=
  b.sor.moves.foldl (fun b m =>
    if (b.laneBlocks m.1).any (fun k => b.grpInBlock g k) then
      { (b.laneMove m.1 m.2) with sor := { (b.laneMove m.1 m.2).sor with moves := b.sor.moves.filter (fun n => n != m) } }
    else b) b

/-- The worst-instant count of lane l (R256). -/
def Block.laneLoad (b : Block) (l : Nat) : Block :=
  let n := (b.laneBlocks l).foldl (fun n k =>
    (b.blockChans k).foldl (fun n c =>
      let x := b.chanOf c
      if !x.en then n
      else
        let fp := if x.fpAa then 1 else match b.chGroup c with | some g => b.decIn g | none => 1
        n + fp + 1 + x.nbin * (3 + x.nstage)) n) 0
  b.set (SOR_LANEl_LOAD_UPDATES l) (satAdd 65535 0 n)

/-! Tracked lengths and NORM (R235, R236, R238) -/

/-- L, F of stage k at a frequency, and whether they were clamped. -/
def Chan.lenAt (x : Chan) (k f fsD : Nat) : (Nat × Nat) × Bool :=
  if x.tracked k then
    let l16 := (rneDiv ((x.cyc k * fsD * 2 ^ 36 : Nat) : Int) (f * x.div k)).toNat
    let c := clampN 65536 (257 * 65536 - 1) l16
    ((c / 65536, c % 65536), c != l16)
  else ((x.len k, x.frac k), false)

/-- W of R236, with every tracked L at its value for 40 Hz. -/
def Chan.span (x : Chan) (ntap dec fsD : Nat) : Nat :=
  (if ntap = 0 then 1 else ntap) + dec * (List.range x.nstage).foldl (fun n k => n + (x.lenAt k 0x28000000 fsD).1.1 * x.div k) 0

/-- NORM of R238, and whether it saturated. -/
def Chan.normOf (x : Chan) (lens : List (Nat × Nat)) : Nat × Bool :=
  let sh := (List.range x.nstage).foldl (fun n k => n + x.shift k) 0
  let den := lens.foldl (fun p l => p * (65536 * l.1 + l.2)) 1
  let v := (rneDiv ((x.outGain * 2 ^ sh * 65536 ^ x.nstage : Nat) : Int) den).toNat
  if 1048575 < v then (1048575, true) else (v, false)

/-- A frequency comes into use on channel c: L, F and NORM follow (R235, R238, R243). -/
def Block.chanTune (b : Block) (c fRot fsD : Nat) : Block :=
  let x := b.chanOf c
  if x.key = some (fRot, fsD) then b
  else
    let ls := (List.range x.nstage).map (fun k => x.lenAt k fRot fsD)
    let lens := ls.map (fun l => l.1)
    let clamped := ls.any (fun l => l.2)
    let b := (ls.filter (fun l => l.2)).foldl (fun b _ => (b.sorCnt 1).raiseEvery 1000 612) b
    let same := decide (lens = x.lens)
    let nm := if same then (x.norm, x.normSat) else x.normOf lens
    let b := b.doIf (nm.2 && !same) (fun b => (b.sorCnt 2).raiseEvery 1000 612)
    b.setChan c { x with key := some (fRot, fsD), lens := lens, norm := nm.1, lenClamp := clamped, normSat := nm.2 }

/-! Phases (R237, R243) -/

/-- inc of R243. -/
def phaseInc (f fsD : Nat) : Nat := (rneDiv ((f * 2 ^ 24 : Nat) : Int) fsD).toNat

/-- What the group had at instant m, where it is kept. -/
def Trk.at_ (x : Trk) (m : Nat) : Option TrkAt := x.log.find? (fun p => p.n == m)

/-- θ of a group at instant m: kept; that of NOMINAL; or, after the last update, advanced from its θ with f_rot in use since. -/
def Trk.phaseAt (x : Trk) (m fsD : Nat) : Nat :=
  let nom := m * phaseInc x.fnom fsD % 2 ^ 48
  match x.at_ m, x.log with
  | some p, _ => p.theta
  | none, p :: _ =>
    if x.en && p.state != trkNOMINAL && decide (p.n < m) then (p.theta + (m - p.n) * phaseInc p.fEst fsD) % 2 ^ 48 else nom
  | none, [] => nom

/-- f_rot in use at instant n. -/
def Trk.rotAt (x : Trk) (n : Nat) : Nat := match x.at_ n with | some p => p.fRot | none => x.fRot

/-! One channel at one decimated instant (R227 to R250) -/

/-- The rotator of R232 for harmonic h at phase th. -/
def rotate (a : Int) (h th lsh : Nat) : Int × Int :=
  if h = 0 then (a * ((2 ^ lsh : Nat) : Int), 0)
  else
    let t20 := h * th % 2 ^ 48 / 2 ^ 28
    let ang := angleFix t20 1048576
    let cr := rne (cosFix ang * ((sqrt2 : Nat) : Int)) 296
    let sr := rne (sinFix ang * ((sqrt2 : Nat) : Int)) 296
    (rne (a * cr) 16 * ((2 ^ lsh : Nat) : Int), -(rne (a * sr) 16) * ((2 ^ lsh : Nat) : Int))

/-- The trapezoid sum of R234 over inputs, newest first; an input before a channel switch reads 0. -/
def trapezoid (z : List Int) (l f shift : Nat) : Int × Bool :=
  let s := (z.getD 0 0 + z.getD l 0) * ((65536 + f : Nat) : Int)
  satS 40 (rne ((z.drop 1).take (l - 1) |>.foldl (fun s v => s + v * 131072) s) (17 + shift))

/-- NORM, OUT and POLAR of one bin (R238 to R240), and how many words saturated. -/
def chanOut (y : Int × Int) (norm psi outShift : Nat) : (Int × Int × Nat × Nat) × Nat :=
  let t1 := satS 40 (rne (y.1 * ((norm : Nat) : Int)) 17)
  let t2 := satS 40 (rne (y.2 * ((norm : Nat) : Int)) 17)
  let ang := angleFix (psi / 2 ^ 28) 1048576
  let c := clampI (-131072) 131071 (rne (cosFix ang * 131072) 192)
  let s := clampI (-131071) 131071 (rne (sinFix ang * 131072) 192)
  let re := satS 32 (rne (t1.1 * c - t2.1 * s) (17 + outShift))
  let im := satS 32 (rne (t1.1 * s + t2.1 * c) (17 + outShift))
  ((re.1, im.1, nearestSqrt (re.1.natAbs ^ 2 + im.1.natAbs ^ 2), angle32 im.1 re.1), t1.2.toNat + t2.2.toNat + re.2.toNat + im.2.toNat)

/-- The coefficients C and K of R728; none where sin ω is 0, which the spec leaves open. -/
def fpCoeffs (fRot fs : Nat) : Option (Int × Int) :=
  let ang := angleFix fRot (fs * 2 ^ 24)
  let s := sinFix ang
  if 2 * fRot % (fs * 2 ^ 24) = 0 ∨ s = 0 then none
  else
    let k := if 0 < s then rneDiv ((2 ^ 214 : Nat) : Int) s.toNat else -(rneDiv ((2 ^ 214 : Nat) : Int) (-s).toNat)
    some (rne (cosFix ang * ((2 ^ 30 : Nat) : Int)) 192, k)

/-- One fast-path sample of channel c with its tag (R246, R247): the entry's F, FSTAT, and whether F saturated. -/
def Block.fastPath (b : Block) (c : Nat) (v : Int) (st fRot fs tag : Nat) : (Nat × Nat × Bool) × Block :=
  let x := b.chanOf c
  let r : Nat × Block := match x.fp with
    | none => (nearestSqrtHalf (v.natAbs ^ 2), b)
    | some (xp, _) => match fpCoeffs fRot fs with
      | some (cc, kk) =>
        let q := rne ((v * cc - xp * ((2 ^ 30 : Nat) : Int)) * kk) 52
        (nearestSqrtHalf (v.natAbs ^ 2 + q.natAbs ^ 2), b)
      | none => b.draw (2 ^ 32)
  let sat := decide (2 ^ 32 - 1 < r.1)
  let f := if sat then 2 ^ 32 - 1 else r.1
  let sp := match x.fp with | some p => p.2 | none => st
  let bt := fun (d : Bool) (i : Nat) => if d then 2 ^ i else 0
  let fstat := bt x.fp.isNone 15 + bt sat 14 + bt (bit st 15) 13 + bt (bit st 6 || bit sp 6) 12 + worse (st % 4) (sp % 4)
  let b := (r.2.setChan c { x with fp := some (v, st) }).set (SOR_CHc_STAT_FP_SINGLE c) (if x.fp.isNone then 1 else 0)
  let b := b.stores .intake (b.get SOR_CTRL_PLANE_BASE * 65536 + 0x300400 + 8 * c) (leBytes 4 f ++ leBytes 2 fstat ++ leBytes 2 tag)
  ((f, fstat, sat), b)

/-- The status of an input sample joins what the channel has seen (R249). -/
def seenWith (seen : List Nat) (i st : Nat) : List Nat :=
  (List.range 18).map (fun k =>
    let hit := if k < 16 then bit st k else if k = 16 then st % 4 == 1 || st % 4 == 2 else st % 4 == 3
    if hit then i + 1 else seen.getD k 0)

/-- STATUS over the span that ends at input instant i (R249). -/
def statusOver (seen : List Nat) (i w start : Nat) : Nat :=
  let inW := fun (k : Nat) => decide (0 < seen.getD k 0) && decide (start < seen.getD k 0) && decide (i + 1 < seen.getD k 0 + w)
  (List.range 11).foldl (fun s j => if inW (j + 5) then s + 2 ^ (j + 5) else s) 0 + (if inW 16 then 1 else if inW 17 then 3 else 0)

/-- What the stages leave behind: the inputs of the next stage where one was emitted, the histories, each bin's saturation,
the stages that saturated, and how many words saturated. -/
structure StageRun where
  inp : Option (List (Int × Int))
  hist : List (List (List (Int × Int)))
  sats : List Bool
  stg : Nat
  cnt : Nat

/-- Stage k of a channel at decimated instant n (R234, R237). z1 b gives the newest-first inputs of stage 1 for bin b. -/
def Chan.stage (x : Chan) (n k : Nat) (z1 : Nat → Nat → List (Int × Int)) (r : StageRun) : StageRun :=
  match r.inp with
  | none => r
  | some inp =>
    let lf := x.lens.getD k (1, 0)
    let push := fun (j : Nat) => (inp.getD j (0, 0) :: (r.hist.getD (k - 1) []).getD j []).take 257
    let hist := if k = 0 then r.hist else r.hist.set (k - 1) ((List.range x.nbin).map push)
    if n % x.div (k + 1) ≠ 0 then { r with inp := none, hist := hist }
    else
      let ys := (List.range x.nbin).map (fun j =>
        let z := if k = 0 then z1 j lf.1 else (hist.getD (k - 1) []).getD j []
        (trapezoid (z.map (fun p => p.1)) lf.1 lf.2 (x.shift k), trapezoid (z.map (fun p => p.2)) lf.1 lf.2 (x.shift k)))
      let sat := ys.map (fun y => y.1.2 || y.2.2)
      ⟨some (ys.map (fun y => (y.1.1, y.2.1))), hist, List.zipWith (fun a c => a || c) r.sats sat,
        r.stg + (if sat.any id then 2 ^ k else 0), r.cnt + (ys.map (fun y => y.1.2.toNat + y.2.2.toNat)).sum⟩

/-- The channel's raw samples of the instants up to i = n × DEC_IN, with their fast-path samples on the raw input. -/
def Block.chanRaw (b : Block) (c : Nat) (g : Grp) (insts : List Nat) (fRot : Nat) :
    List (Nat × Nat × Nat × Bool) × Block :=
  insts.foldl (fun (p : List (Nat × Nat × Nat × Bool) × Block) i =>
    let b := p.2
    let e := b.ringEntry g c i
    let x := b.chanOf c
    let b := b.setChan c { x with xs := (e.1 :: x.xs).take 64, seen := seenWith x.seen i e.2 }
    if x.fpAa then (p.1, b)
    else
      let f := b.fastPath c e.1 e.2 fRot g.rate i
      (p.1 ++ [(i, f.1)], f.2)) ([], b)

/-- Channel c at decimated instant n of group gi: its stages, outputs, status registers and fast-path samples. -/
def Block.chanRun (b : Block) (gi c n lane : Nat) : Block :=
  let g := b.grpOf gi
  let dec := b.decIn gi
  let i := n * dec
  let fsD := g.rate / dec
  let x := b.chanOf c
  let tk := b.trkOf x.trk
  let fRot := tk.rotAt n
  let start := x.start.getD i
  let ntap := b.ntap x.aaSet
  let b := (b.setChan c { x with start := some start }).chanTune c fRot fsD
  let insts := (List.range dec).filterMap (fun j => let m := i + 1 + j - dec; if start ≤ m ∧ dec ≤ i + 1 + j then some m else none)
  let raw := b.chanRaw c g insts fRot
  let b := raw.2
  let x := b.chanOf c
  -- AA (R230)
  let acc := (List.range ntap).foldl (fun s j => s + x.xs.getD j 0 * sgn 18 (b.get (SOR_AAs_Ci_C x.aaSet j))) (0 : Int)
  let a := if ntap = 0 then (x.xs.getD 0 0, false) else satS 32 (rne acc x.aaShift)
  let st := (b.ringEntry g c i).2
  let fa := if x.fpAa then let f := b.fastPath c a.1 st fRot fsD n; ([(n, f.1)], f.2) else ([], b)
  let fps := raw.1 ++ fa.1
  let b := fa.2
  let x := b.chanOf c
  let x := { x with aa := (a.1 :: x.aa).take 257 }
  -- rotator and stages (R232, R234)
  let z1 := fun (j l : Nat) => (List.range (l + 1)).map (fun m => rotate (x.aa.getD m 0) (x.harm j) (if m ≤ n then tk.phaseAt (n - m) fsD else 0) x.lsh)
  let hist := if x.hist.isEmpty then List.replicate 3 [] else x.hist
  let r := (List.range x.nstage).foldl (fun r k => x.stage n k z1 r)
    (⟨some (List.replicate x.nbin (0, 0)), hist, List.replicate x.nbin a.2, 0, a.2.toNat⟩ : StageRun)
  -- NORM, OUT, POLAR (R238 to R240)
  let outs := match r.inp with
    | none => []
    | some ys => (List.range x.nbin).map (fun j =>
        let h := x.harm j
        let psi := if h = 0 then 0 else
          (rneDiv (((h * fRot * 256 : Nat) : Int) * b.phaseDelay x.aaSet h fRot) g.rate % ((2 ^ 48 : Nat) : Int)).toNat
        chanOut (ys.getD j (0, 0)) x.norm psi x.outShift)
  let emitted := r.inp.isSome
  let sats := if emitted then List.zipWith (fun p o => p || o.2 != 0) r.sats outs else r.sats
  let gd := uns 32 (b.gdAa x.aaSet fRot + ((dec * 32768 * (List.range x.nstage).foldl (fun m k => m + (x.lens.getD k (1, 0)).1 * x.div k) 0 : Nat) : Int))
  let w := x.span ntap dec fsD
  let filled := decide (w ≤ i + 1 - start)
  let x := { x with hist := r.hist, n := some n, emitted := emitted, filled := filled, status := statusOver x.seen i w start, fps := fps }
  let x := if emitted then { x with out := outs.map (fun o => o.1), sat := sats, gd := gd, lastOut := n } else x
  let b := b.setChan c x
  -- status registers (R264) and saturations (R250)
  let b := b.doIf emitted (fun b => b.set (SOR_CHc_STAT_STG_SAT c) r.stg)
  let b := ((b.set (SOR_CHc_STAT_NORM_SAT c) (if x.normSat then 1 else 0)).set (SOR_CHc_STAT_LEN_CLAMP c) (if x.lenClamp then 1 else 0)).set
    (SOR_CHc_STAT_FILLED c) (if filled then 2 ^ x.nbin - 1 else 0)
  let b := (b.set (SOR_CHc_LEN_L c) (x.lens.getD 0 (1, 0)).1).set (SOR_CHc_LEN_F c) (x.lens.getD 0 (1, 0)).2
  let b := ((b.wr (SOR_CHc_GD c) (BitVec.ofNat 32 gd)).wr (SOR_CHc_PD c) (BitVec.ofNat 32 (uns 32 (b.phaseDelay x.aaSet 1 fRot)))).set
    (SOR_CHc_NORM_NORM c) x.norm
  let b := b.set (SOR_CHc_WIN_W c) w
  let cnt := r.cnt + (outs.map (fun o => o.2)).sum + (fps.map (fun f => f.2.2.2.toNat)).sum
  b.doIf (cnt != 0) (fun b => ((b.set (bitOf (SOR_SATk (c / 32)) (c % 32)) 1).count (SOR_LANEl_CNTi lane 1) cnt
    (bitOf (SOR_LANEl_CNT_ROLL lane) 1) 613).raiseEvery 1 (576 + 2 * lane))

/-- BFLAG of a bin of a channel as it stands at n (R250). -/
def Chan.bflag (x : Chan) (j : Nat) (unlocked : Bool) : Nat :=
  let s := x.sat.getD j false
  let v := if !x.filled || x.status % 4 == 1 then 1 else if s || x.status % 4 == 3 || unlocked then 3 else 0
  (if x.filled then 0x8000 else 0) + (if s then 0x4000 else 0) + v

/-! Frequency tracking (R241 to R245) -/

/-- A group's STATE takes a value (R244). -/
def Block.setTrkState (b : Block) (t v : Nat) : Block :=
  if b.get (SOR_TRKt_STAT_STATE t) = v then b
  else
    let b := (b.set (SOR_TRKt_STAT_STATE t) v).set (bitOf (if t < 32 then SOR_TRK_ATTN0 else SOR_TRK_ATTN1) (t % 32)) 1
    (b.setTrk t { b.trkOf t with lockRun := 0, skip := 0 }).raise 608

/-- f_est, f_rot, ROCOF as the registers show them. -/
def Block.showTrk (b : Block) (t : Nat) : Block :=
  let x := b.trkOf t
  ((b.wr (SOR_TRKt_FEST t) (BitVec.ofNat 32 x.fEst)).wr (SOR_TRKt_FROT t) (BitVec.ofNat 32 x.fRot)).wr
    (SOR_TRKt_ROCOF t) (BitVec.ofInt 32 x.rocof)

/-- The reference angle of channels at instant n, where usable (R241). -/
def Block.refAngle (b : Block) (x : Trk) (chans : List Nat) (n : Nat) : Option Nat :=
  let ok := chans.all (fun c =>
    let y := b.chanOf c
    y.en && y.n == some n && y.filled && y.status % 4 != 1)
  let v := fun (j : Nat) => let o := (b.chanOf (chans.getD j 0)).out.getD 0 (0, 0, 0, 0); (o.1, o.2.1)
  if !ok then none
  else if x.refMode = 1 then
    let o := (b.chanOf (chans.getD 0 0)).out.getD 0 (0, 0, 0, 0)
    if x.minMag ≤ o.2.2.1 then some o.2.2.2 else none
  else
    let alpha := fun (z : Int × Int) (s : Int) => (rne (-65536 * z.1 - s * 113512 * z.2) 17, rne (-65536 * z.2 + s * 113512 * z.1) 17)
    let p := alpha (v 1) 1
    let q := alpha (v 2) (-1)
    let re := (v 0).1 + p.1 + q.1
    let im := (v 0).2 + p.2 + q.2
    if (3 * x.minMag) ^ 2 ≤ re.natAbs ^ 2 + im.natAbs ^ 2 then some (angle32 im re) else none

/-- The update of R242 from the reference angles at n − 1 and n. -/
def Block.trkUpdate (b : Block) (t fsD old new : Nat) : Block :=
  let x := b.trkOf t
  let st := b.get (SOR_TRKt_STAT_STATE t)
  let e := rne (sgn 32 (new + 2 ^ 32 - old) * ((fsD : Nat) : Int)) 8
  let fe : Int := ((x.fEst : Nat) : Int)
  let f := fe + rne (((x.fRot : Nat) : Int) + e - fe) x.kf
  let c := clampI 0x28000000 0x46000000 f
  let clamped := c != f
  let rraw := rneDiv ((c - (((((x.log.map (fun p => p.fEst)).getD (x.rocofD - 1) x.fnom : Nat))) : Int)) * ((fsD : Nat) : Int)) (256 * x.rocofD)
  let roc := x.rocof + rne (rraw - x.rocof) x.kr
  let lim := x.lockMhz * 2 ^ 24
  let hit := if st = trkLOCKING then decide (e.natAbs * 1000 ≤ lim) else decide (4 * lim < e.natAbs * 1000)
  let n := if hit then x.lockRun + 1 else 0
  let b := b.setTrk t { x with fEst := c.toNat, fRot := c.toNat, rocof := roc, lockRun := n }
  let b := (b.set (SOR_TRKt_STAT_CLAMP t) (if clamped then 1 else 0)).doIf clamped (fun b => b.raiseEvery 1000 609)
  if x.lockN ≤ n then b.setTrkState t (if st = trkLOCKING then trkLOCKED else trkLOCKING) else b

/-- The transitions of R244 at instant n, with the usable references. -/
def Block.trkStep (b : Block) (t fsD : Nat) (a c : Option Nat) : Block :=
  let x := b.trkOf t
  let st := b.get (SOR_TRKt_STAT_STATE t)
  let twoA := a.isSome && x.prevA.isSome
  let twoB := c.isSome && x.prevB.isSome
  let onB := b.on (SOR_TRKt_STAT_REF_B t)
  if x.refMode = 0 then b
  else if st = trkNOMINAL then (if twoA then b.setTrkState t trkLOCKING else b)
  else if st = trkHOLD then
    if twoA then (b.set (SOR_TRKt_STAT_REF_B t) 0).setTrkState t trkLOCKING
    else if twoB then (b.set (SOR_TRKt_STAT_REF_B t) 1).setTrkState t trkLOCKING
    else b
  else
    match (if onB then c else a), (if onB then x.prevB else x.prevA) with
    | none, _ =>
      if (if onB then a else c).isSome then
        (b.set (SOR_TRKt_STAT_REF_B t) (if onB then 0 else 1)).setTrk t { x with skip := 1 }
      else if x.holdEn then (b.setTrk t { x with rocof := 0 }).setTrkState t trkHOLD
      else (b.setTrk t { x with fEst := x.fnom, fRot := x.fnom, rocof := 0 }).setTrkState t trkNOMINAL
    | some v, some u => if x.skip = 0 then b.trkUpdate t fsD u v else b.setTrk t { x with skip := 0 }
    | some _, none => b.setTrk t { x with skip := 0 }

/-- Tracking group t at decimated instant n: its transition or update, and what it then has (R242 to R244). -/
def Block.trkRun (b : Block) (t n fsD : Nat) : Block :=
  let x := b.trkOf t
  let a := b.refAngle x x.refA n
  let c := b.refAngle x x.refB n
  let th := x.phaseAt n fsD
  let b := b.trkStep t fsD a c
  let y := b.trkOf t
  let at_ : TrkAt := ⟨n, th, x.fRot, y.fEst, y.rocof, b.get (SOR_TRKt_STAT_STATE t), b.get (SOR_TRKt_STAT_REF_B t), b.get (SOR_TRKt_STAT_CLAMP t)⟩
  let b := b.setTrk t { y with prevA := a, prevB := c, log := (at_ :: y.log).take 258 }
  (b.showTrk t).wr64 (SOR_TRKt_PHASE_LO t) th

/-- The record of tracking group t of instant n (R252). -/
def Block.trkRecord (b : Block) (t n : Nat) : Block :=
  match (b.trkOf t).at_ n with
  | some p => b.stores .intake (b.get SOR_CTRL_PLANE_BASE * 65536 + 0x310400 + 32 * t)
      (leBytes 8 n ++ leBytes 4 p.fEst ++ leBytes 4 p.fRot ++ leBytes 4 (uns 32 p.rocof) ++ leBytes 1 p.state ++
        leBytes 1 (p.refB + 2 * p.clamp) ++ leBytes 2 0 ++ leBytes 8 p.theta)
  | none => b

/-! Records and comparators of an instant (R251 to R253, R266, R274) -/

/-- What tracking group t had after instant n; where it has no such instant, what it has now. -/
def Block.trkAfter (b : Block) (t n : Nat) : TrkAt :=
  let x := b.trkOf t
  match x.at_ n with
  | some p => p
  | none => ⟨n, 0, x.fRot, x.fEst, x.rocof, b.get (SOR_TRKt_STAT_STATE t), b.get (SOR_TRKt_STAT_REF_B t), b.get (SOR_TRKt_STAT_CLAMP t)⟩

/-- Is a channel's group unlocked for R250, as it stands after the update at n? -/
def Block.unlocked (b : Block) (x : Chan) (n : Nat) : Bool :=
  (b.trkOf x.trk).refMode != 0 && (b.trkAfter x.trk n).state != trkLOCKED

/-- The record of channel c at n (R252). -/
def Block.chanRecord (b : Block) (c n : Nat) : Block :=
  let x := b.chanOf c
  let t := b.trkAfter x.trk n
  let u := b.unlocked x n
  let cf := (if x.normSat then 8 else 0) + (if x.lenClamp then 4 else 0) + t.state
  let bins := (List.range 8).foldl (fun l j =>
    let o := if j < x.nbin then x.out.getD j (0, 0, 0, 0) else (0, 0, 0, 0)
    l ++ leBytes 4 (uns 32 o.1) ++ leBytes 4 (uns 32 o.2.1) ++ leBytes 4 o.2.2.1 ++ leBytes 4 o.2.2.2) []
  let flags := (List.range 8).foldl (fun l j => l ++ leBytes 2 (if j < x.nbin then x.bflag j u else 0)) []
  b.stores .intake (b.get SOR_CTRL_PLANE_BASE * 65536 + 0x180000 * (n % 2) + 192 * c)
    (leBytes 8 n ++ leBytes 4 x.gd ++ leBytes 2 x.status ++ leBytes 2 cf ++ leBytes 4 t.fEst ++ leBytes 4 (uns 32 t.rocof) ++
      leBytes 8 0 ++ bins ++ flags ++ leBytes 8 x.lastOut ++ leBytes 8 0)

/-- VALIDITY of SRC 0b100 and 0b101 (R266). -/
def Block.trkValidity (b : Block) (t n : Nat) : Nat :=
  match (b.trkAfter t n).state with
  | 2 => 0
  | 0 => if (b.trkOf t).refMode = 0 then 0 else 1
  | _ => 3

/-- The comparators of channel c for instant n of group gi (R265, R266, R274). -/
def Block.chanThr (b : Block) (gi c n : Nat) : Block × List ThrHit :=
  let g := b.grpOf gi
  let dec := b.decIn gi
  let x := b.chanOf c
  (List.range 4).foldl (fun (p : Block × List ThrHit) j =>
    let b := p.1
    let k := 4 * c + j
    let y := b.thrOf k
    let one := fun (q : Block × List ThrHit) (w val tag t : Nat) => let r := q.1.thrEvaluate k w val tag t; (r.1, q.2 ++ r.2)
    let tN := g.tInst (n * dec)
    if !y.en then p
    else if y.src = 1 then
      x.fps.foldl (fun q f => one q f.2.1 (f.2.2.1 % 4) f.1 (if x.fpAa then g.tInst (f.1 * dec) else g.tInst f.1)) p
    else if y.src = 4 ∨ y.src = 5 then
      if (b.trkOf x.trk).en && ((b.trkOf x.trk).at_ n).isSome then
        one p (if y.src = 4 then (b.trkAfter x.trk n).fEst else uns 32 (b.trkAfter x.trk n).rocof) (b.trkValidity x.trk n) n tN
      else p
    else if x.emitted then
      let o := x.out.getD y.bin (0, 0, 0, 0)
      let w := if y.src = 0 then o.2.2.1 else if y.src = 2 then uns 32 o.1 else uns 32 o.2.1
      one p w (x.bflag y.bin (b.unlocked x n) % 4) n tN
    else p) (b, [])

/-! One decimated instant of an alignment group (R253, R274): its channels run; then each tracking group for which the clocking group's
and every reference channel's outputs of the instant stand is updated; then the records, comparators and LATEST of every group
whose tracking groups are updated -/

/-- The enabled channels of group g that a lane can run. -/
def Block.grpChans (b : Block) (g : Nat) : List Nat :=
  let x := b.grpOf g
  (b.sor.chan.map (fun e => e.1)).dedup.filter (fun c =>
    (b.chanOf c).en && decide (x.chFirst ≤ c) && decide (c < x.chFirst + x.chCount) && decide (c < b.member.channels) &&
      b.laneOk (b.laneMap (c / 512)))

/-- Is decimated instant n one of group g's, at decimated rate fsD? -/
def Block.clocks (b : Block) (g n fsD : Nat) : Bool :=
  let x := b.grpOf g
  x.en && x.rate / b.decIn g == fsD && decide (x.start ≤ n * b.decIn g)

/-- The channels that tracking group t refers to. -/
def Trk.refs (x : Trk) : List Nat := if x.refMode = 0 then [] else x.refA ++ x.refB

/-- Is tracking group t one that group g needs at instant n: enabled, clocked at its decimated rate, and g's own, used by a channel of g or
referring to one? -/
def Block.needsTrk (b : Block) (g n t : Nat) : Bool :=
  let x := b.trkOf t
  let fsD := (b.grpOf g).rate / b.decIn g
  let cs := b.grpChans g
  x.en && b.clocks x.agrp n fsD &&
    (x.agrp == g || cs.any (fun c => (b.chanOf c).trk == t || x.refs.contains c))

def Block.trksOf (b : Block) (g n : Nat) : List Nat := (List.range 64).filter (fun t => b.needsTrk g n t)

/-- The next decimated instant of group g that the lanes have not taken, where it is released and the phases of its tracking groups at it
are formed (R229, R237); none before the marker of the last one has been taken, as no entry of a later instant is written before its
snapshot (R297). -/
def Block.nextDecimated (b : Block) (g : Nat) : Option Nat :=
  let x := b.grpOf g
  let dec := b.decIn g
  let m := if x.done < x.start then x.start else x.done
  let n := (m + dec - 1) / dec
  let formed := fun (t : Nat) =>
    let a := (b.trkOf t).agrp
    a == g || decide ((n - 1) * b.decIn a < (b.grpOf a).start) || ((b.trkOf t).at_ (n - 1)).isSome
  if x.en && x.part.isNone && x.mark.isNone && decide (n * dec < b.grpNext g) && (b.trksOf g n).all formed then some n else none

/-- The channels of group g at its instant n. -/
def Block.runChans (b : Block) (g n : Nat) : Block :=
  let b := b.laneMoves g
  let b := (b.grpChans g).foldl (fun b c => b.chanRun g c n (b.laneMap (c / 512))) b
  b.setGrp g { b.grpOf g with part := some n }

/-- Have the channels at instant n run on which the update of tracking group t waits? -/
def Block.trkReady (b : Block) (t n fsD : Nat) : Bool :=
  let x := b.trkOf t
  x.refs.all (fun c => match b.chGroup c with
    | some g => !((b.grpChans g).contains c && b.clocks g n fsD) || (b.grpOf g).part == some n || decide (n * b.decIn g < (b.grpOf g).done)
    | none => true)

/-- The tracking groups of group g whose turn has come. -/
def Block.settleTrks (b : Block) (g : Nat) : Block :=
  match (b.grpOf g).part with
  | none => b
  | some n =>
    let fsD := (b.grpOf g).rate / b.decIn g
    ((List.range 64).filter (fun t => (b.trkOf t).en && (b.trkOf t).agrp == g && ((b.trkOf t).at_ n).isNone)).foldl
      (fun b t => b.doIf (b.trkReady t n fsD) (fun b => b.trkRun t n fsD)) b

/-- The records, comparators and LATEST of the instant of group g under way (R252, R253, R255, R274). -/
def Block.finishGrp (b : Block) (g n : Nat) : Block :=
  let x := b.grpOf g
  let dec := b.decIn g
  let chans := (b.grpChans g).filter (fun c => (b.chanOf c).n == some n)
  let lanes := (chans.map (fun c => b.laneMap (c / 512))).dedup
  let b := chans.foldl (fun b c => b.chanRecord c n) b
  let b := ((List.range 64).filter (fun t => (b.trkOf t).en && (b.trkOf t).agrp == g)).foldl (fun b t => b.trkRecord t n) b
  let th := chans.foldl (fun (p : Block × List ThrHit) c => let r := p.1.chanThr g c n; (r.1, p.2 ++ r.2)) (b, [])
  let b := th.1.thrHits th.2
  let b := b.stores .intake (b.get SOR_CTRL_PLANE_BASE * 65536 + 0x300000 + 64 * g)
    (fit 64 (leBytes 8 n ++ leBytes 8 (x.tInst (n * dec)) ++ leBytes 1 dec))
  -- R255: an instant released meanwhile, and the longest time from release to finish
  let overrun := decide ((n + 1) * dec < b.grpNext g)
  let took := match x.rel.find? (fun r => r.1 == n * dec) with | some r => b.ns - r.2 | none => 0
  let b := lanes.foldl (fun b l =>
    let b := b.doIf overrun (fun b => (b.laneCnt l 0).raiseEvery 1 (577 + 2 * l))
    let m := b.get (SOR_LANEl_STAT_PROC_MAX l)
    b.set (SOR_LANEl_STAT_PROC_MAX l) (if m < took then satAdd 65535 0 took else m)) b
  b.setGrp g { b.grpOf g with part := none, mark := some n, done := n * dec + 1, rel := (b.grpOf g).rel.filter (fun r => decide (n * dec < r.1)) }

/-- Group g's instant is finished where every tracking group that it needs is updated. -/
def Block.settleGrp (b : Block) (g : Nat) : Block :=
  match (b.grpOf g).part with
  | none => b
  | some n => b.doIf ((b.trksOf g n).all (fun t => ((b.trkOf t).at_ n).isSome)) (fun b => b.finishGrp g n)

/-- Everything whose turn has come, in group order (R257). -/
def Block.sorusSettle (b : Block) : Block := (b.each 16 (fun g b => b.settleTrks g)).each 16 (fun g b => b.settleGrp g)

/-- Decimated instant n of group g through the lanes. -/
def Block.sorusInstant (b : Block) (g n : Nat) : Block := (b.runChans g n).sorusSettle

/-! The commands -/

/-- R226, R263, R264: EN of channel c set with the fields of v. -/
def execChannelEnable (c : Nat) (v : Word) (s : State) : Host.Outcome State Fault Refusal :=
  runAt .sor (fun b =>
    if b.member.channels ≤ c then b
    else
      let b := b.wr (SOR_CHc_CFG c) (BitVec.ofNat 32 ((v.toNat &&& 0x7FFFFFE0) + 2 ^ 31))
      if (b.chanOf c).en then b
      else
        let b := b.setChan c { en := true, cfg := (List.range 12).map (fun w => b.rd (SOR_CHc_CFG c + 4 * w)) }
        let b := (List.range 6).foldl (fun b w => b.wr (SOR_CHc_STAT c + 4 * w) (resetOf (SOR_CHc_STAT c + 4 * w))) b
        let x := b.chanOf c
        let b := match b.chGroup c with
          | some g => b.set (SOR_CHc_WIN_W c) (x.span (b.ntap x.aaSet) (b.decIn g) ((b.grpOf g).rate / b.decIn g))
          | none => b
        (b.chanSwitch c).laneLoad (b.laneMap (c / 512))) s

/-- R226, R244: EN of tracking group t takes its value of v, with the fields of v. -/
def execTrkGroupEnable (t : Nat) (v : Word) (s : State) : Host.Outcome State Fault Refusal :=
  runAt .sor (fun b =>
    if 64 ≤ t then b
    else
      let b := b.wr (SOR_TRKt_CFG t) v
      let x := b.trkOf t
      let back := fun (b : Block) => ((b.set (SOR_TRKt_STAT_REF_B t) 0).setTrkState t trkNOMINAL).showTrk t
      if bit v.toNat 31 then
        if x.en then b
        else
          let cfg := (List.range 6).map (fun w => b.rd (SOR_TRKt_CFG t + 4 * w))
          let y : Trk := { en := true, cfg := cfg }
          back (b.setTrk t { y with fEst := y.fnom, fRot := y.fnom })
      else if x.en then
        back (b.setTrk t { x with
          en := false, fEst := x.fnom, fRot := x.fnom, rocof := 0, prevA := none, prevB := none })
      else b) s

/-- R189, R190, R225: EN of slot k set with the fields of v: a channel switch of its channels; a write that would make the
channels of two enabled slots overlap is discarded. -/
def execSlotEnable (k : Nat) (v : Word) (s : State) : Host.Outcome State Fault Refusal :=
  runAt .rhz (fun b =>
    let w := v.toNat &&& 0x7EFF03FF
    if b.member.slots ≤ k then b
    else if (b.slotOf k).en then b.wr (RHZ_SLOTs_CFG k) (BitVec.ofNat 32 (w + 2 ^ 31))
    else
      match b.overlapOf k with
      | some _ => (b.wr (RHZ_SLOTs_CFG k) (BitVec.ofNat 32 w)).mismatch 3 k
      | none =>
        let b := (b.wr (RHZ_SLOTs_CFG k) (BitVec.ofNat 32 (w + 2 ^ 31))).slotEnable k
        let x := b.slotOf k
        (List.range x.nch).foldl (fun b c => b.doIf (b.chanOf (x.chBase + c)).en (fun b => b.chanSwitch (x.chBase + c))) b) s

end Sys2Proof.Machine
end

