-- ==== Sys2Proof/Machine/Instances.lean ====
section
/-! DEFINITION. Instances: their states and Crozier's copy (R456 to R464), the publication blocks they own (R460, R480,
R481), their faults, and the tick actions (R458). -/

namespace Sys2Proof.Machine

open Sys2Proof Sys2Proof.Reg

def Block.modVin (b : Block) (f : Vin → Vin) : Block := { b with vin := f b.vin }
def Block.modCrz (b : Block) (f : Crz → Crz) : Block := { b with crz := f b.crz }
def Block.crzCnt (b : Block) (i n : Nat) : Block := b.count (CRZ_CNTi i) n (bitOf CRZ_CNT_ROLL i) 721
def Block.tblCnt (b : Block) (x i n : Nat) : Block := b.count (CRZ_TBLx_CNTi x i) n (bitOf (CRZ_TBLx_CNT_ROLL x) i) 721

/-- The states of an instance (R458, R486). -/
abbrev iFREE : Nat := 0
abbrev iCONFIGURED : Nat := 1
abbrev iRUNNING : Nat := 2
abbrev iFREEZING : Nat := 3
abbrev iFROZEN : Nat := 4
abbrev iFAULTED : Nat := 5

/-! Windows (R461, R487) -/

/-- Where window w of instance i reads. -/
def winAt (i w : Nat) : Nat := 0x4120000 + 0x100 * i + 0x10 * w

/-- The 16 windows of an instance as (FIRST, LAST). -/
def Block.windows (b : Block) (i : Nat) : List (Nat × Nat) :=
  (List.range 16).map (fun w => (b.rd64 (winAt i w), b.rd64 (winAt i w + 8)))

def Block.setWindows (b : Block) (i : Nat) (ws : List (Nat × Nat)) : Block :=
  b.each 16 (fun w b => (b.wr64 (winAt i w) (ws.getD w (0, 0)).1).wr64 (winAt i w + 8) (ws.getD w (0, 0)).2)

def winSpace (w : Nat × Nat) : Nat := bits w.1 60 4
def winIn (w : Nat × Nat) : Bool := bit w.1 56
def winOut (w : Nat × Nat) : Bool := bit w.1 57
def winShared (w : Nat × Nat) : Bool := bit w.1 58
def winHostw (w : Nat × Nat) : Bool := bit w.1 59
def winUsed (w : Nat × Nat) : Bool := bits w.1 56 4 != 0
def winLo (w : Nat × Nat) : Nat := bits w.1 0 56
def winHi (w : Nat × Nat) : Nat := bits w.2 0 56
/-- Do two windows of one SPACE share a unit? -/
def winMeet (v w : Nat × Nat) : Bool :=
  winUsed v && winUsed w && winSpace v == winSpace w && decide (winLo v ≤ winHi w) && decide (winLo w ≤ winHi v)
/-- Does a window hold the extent of n units from a unit on? -/
def winHolds (w : Nat × Nat) (space lo n : Nat) : Bool :=
  winUsed w && winSpace w == space && decide (winLo w ≤ lo) && decide (lo + n ≤ winHi w + 1)

/-- Where translation entry e reads (R487). -/
def tuAt (e : Nat) : Nat := 0x4200000 + 0x10 * e

/-! The shadow of descriptors and translation entries (R483, R485): 512 bytes for each instance from the base on, then 16 bytes for each
entry (DESIGN CHOICE, notes/assumptions/177.md) -/

def Block.shadowInst (b : Block) (i : Nat) : Nat := b.rd64 VIN_SHADOW_BASE_LO / 4096 * 4096 + 512 * i
def Block.shadowTu (b : Block) (e : Nat) : Nat := b.rd64 VIN_SHADOW_BASE_LO / 4096 * 4096 + 0x20000 + 16 * e

/-- Bytes of the shadow, where it lies in a CONTROL region. -/
def Block.shadowStore (b : Block) (a : Nat) (l : List Byte) : Block := if b.inControl a l.length then b.dramStore a l else b

/-- The descriptor of an instance goes to the shadow. -/
def Block.shadowDesc (b : Block) (i : Nat) : Block :=
  b.shadowStore (b.shadowInst i) (fit 64 ((List.range 8).foldl (fun l w => l ++ leBytes 4 (b.rd (VIN_INSTi_STAT i + 4 * w)).toNat) []) ++
    (b.windows i).foldl (fun l w => l ++ leBytes 8 w.1 ++ leBytes 8 w.2) [])

/-- Translation entries f to f+n−1 go to the shadow. -/
def Block.shadowMap (b : Block) (f n : Nat) : Block :=
  b.each n (fun k b => b.shadowStore (b.shadowTu (f + k)) ((List.range 4).foldl (fun l w => l ++ leBytes 4 (b.rd (tuAt (f + k) + 4 * w)).toNat) []))

/-- Crozier's copy of an instance's STATE, windows and generation is written, and the shadow of its descriptor (R464, R483). -/
def Block.copyInst (b : Block) (i : Nat) : Block :=
  (b.shadowDesc i).modCrz (fun c => { c with inst := (i, (⟨b.instState i, b.instGen i, b.windows i⟩ : CInst)) :: c.inst })

/-- Crozier's copy. -/
def Block.cinst (b : Block) (i : Nat) : CInst := b.crz.inst.get (fun _ => {}) i

/-- An instance changes its state (R458). -/
def Block.setInst (b : Block) (i st : Nat) : Block :=
  let n := b.lastTick
  let b := ((b.set (VIN_INSTi_STAT_STATE i) st).wr64 (VIN_INSTi_TICK_LO i) n).copyInst i
  ((b.set (bitOf (VIN_ATTNk (i / 32)) (i % 32)) 1).raise 96).notify i 1 st 0 0 n

/-! Publication blocks of an instance (R460) -/

/-- The offset and length of block k's entry in the output image. -/
def Block.pubExtent (b : Block) (k : Nat) : Nat × Nat :=
  let x := b.pubOf k
  if x.en then (bits (x.word 1) 3 17 * 8, 64 + 8 * x.nmem)
  else (bits (b.rd (SWC_PUBb_IMG k)).toNat 3 17 * 8, 64 + 8 * bits (b.rd (SWC_PUBb_TPL_LEN k)).toNat 8 8)

/-- The blocks an instance owns: those whose entry lies inside an OUT window of space 3. -/
def Block.owned (b : Block) (i : Nat) : List Nat :=
  let ws := (b.windows i).filter (fun w => winSpace w == 3 && winOut w)
  if ws.isEmpty then []
  else (List.range 4096).filter (fun k => let e := b.pubExtent k; ws.any (fun w => winHolds w 3 e.1 e.2))

/-- Owned blocks that do not run are enabled (R458). -/
def Block.enableOwned (b : Block) (i : Nat) : Block :=
  (b.owned i).foldl (fun b k => if (b.pubOf k).en then b else (b.set (SWC_PUBb_CFG_EN k) 1).pubStart k) b

/-- Owned blocks are disabled (R480). -/
def Block.disableOwned (b : Block) (i : Nat) : Block :=
  (b.owned i).foldl (fun b k => (b.set (SWC_PUBb_CFG_EN k) 0).setPub k { b.pubOf k with en := false }) b

/-- Frames of owned blocks that fell due before a time are sent first (R480). -/
def Block.dueOwned (b : Block) (i ns : Nat) : Block :=
  (b.owned i).foldl (fun b k => b.doIf ((b.pubOf k).en && decide ((b.pubOf k).last + (b.pubOf k).iv * 1000 < ns)) (fun b => b.pubDue k)) b

/-- The due times before a time replayed without sending (R481): the fuel bounds the intervals. -/
def replay (tMaxUs untilNs : Nat) : Nat → Nat × Nat × Nat → Nat × Nat × Nat
  | 0, p => p
  | n + 1, (sq, iv, last) =>
    if last + iv * 1000 < untilNs then
      replay tMaxUs untilNs n (gnext sq, (if 2 * iv ≤ tMaxUs then 2 * iv else tMaxUs), last + iv * 1000)
    else (sq, iv, last)

/-- A restored block takes its place on the wire (R481). -/
def Block.pubResume (b : Block) (r : List Byte) (tickNs : Nat) : Block :=
  let k := leAt r 0 2
  if (b.pubOf k).en || b.on (SWC_PUBb_CFG_EN k) then b.vinCnt 5
  else
    let b := b.set (SWC_PUBb_CFG_EN k) 1
    let ws := [SWC_PUBb_CFG k, SWC_PUBb_IMG k, SWC_PUBb_TIME k, SWC_PUBb_TAL k, SWC_PUBb_TPL_LO k, SWC_PUBb_TPL_HI k,
      SWC_PUBb_TPL_LEN k].map b.rd
    let x : Pub := { en := true, cfg := ws }
    let last := leAt r 16 8
    let p := replay (1000 * x.tMax) tickNs ((tickNs - last) / 100000 + 1) (leAt r 8 4, leAt r 12 4, last)
    let b := (b.set (SWC_PUBb_STNUM_ST k) (leAt r 4 4)).set (SWC_PUBb_SQNUM_SQ k) p.1
    let b := b.storeNat .intake (b.pubEntry x + 24) 8 (leAt r 24 8)
    (b.setPub k { x with iv := p.2.1, last := p.2.2 }).pubDue k

/-! Faults (R458, R460) -/

/-- An instance faults in a task: kind 1 a stage fault, 2 a task fault. -/
def Block.instFault (b : Block) (i kind task : Nat) : Block :=
  let st := b.instState i
  if st = iRUNNING ∨ st = iFREEZING ∨ st = iFROZEN then
    let b := ((b.set (VIN_INSTi_FAULT_VALID i) 1).set (VIN_INSTi_FAULT_KIND i) kind).set (VIN_INSTi_FAULT_TASK i) task
    let b := (b.setInst i iFAULTED).raise 97
    let b := b.notify i 2 iFAULTED kind task b.lastTick
    if b.on (VIN_INSTi_STAT_FAULT_PUB i) then
      let ks := (b.owned i).filter (fun k => (b.pubOf k).en)
      let b := b.modVin (fun v => { v with stopped := (i, ks) :: v.stopped })
      ks.foldl (fun b k => b.setPub k { b.pubOf k with en := false }) b
    else b
  else b

/-- Blocks that FAULT_PUB stopped go on with one retransmission of their held state (R460). -/
def Block.resumeStopped (b : Block) (i : Nat) : Block :=
  let ks := b.vin.stopped.get (fun _ => []) i
  let b := b.modVin (fun v => { v with stopped := (i, []) :: v.stopped })
  ks.foldl (fun b k =>
    let x := b.pubOf k
    let b := b.set (SWC_PUBb_SQNUM_SQ k) (gnext (b.get (SWC_PUBb_SQNUM_SQ k)))
    b.pubEmit k { x with en := true, iv := x.tFirst } none false) b

/-- What the shadow gives back after a unit reset of VIN: an instance whose descriptor's line fails its check has no windows and is
FAULTED; a translation entry whose line fails is not valid, and its instance FAULTED (R483). -/
def Block.shadowReload (b : Block) : Block :=
  let broken := fun (b : Block) (a n : Nat) => (List.range ((a % 64 + n + 63) / 64)).any (fun k => !b.lineOk (a + 64 * k))
  let lose := fun (i : Nat) (b : Block) => b.doIf (b.instState i != iFREE && b.instState i != iFAULTED) (fun b => (b.setInst i iFAULTED).raise 97)
  let b := b.each 256 (fun i b =>
    b.doIf (b.instState i != iFREE && broken b (b.shadowInst i) 320) (fun b => lose i (b.setWindows i [])))
  let es := (b.regs.filter (fun e => decide (0x4200000 ≤ e.1) && decide (e.1 < 0x4240000) && e.1 % 16 == 8 && bit e.2.toNat 16)).map (fun e => (e.1 - 0x4200008) / 16)
  es.foldl (fun b k =>
    b.doIf (broken b (b.shadowTu k) 16) (fun b => lose (bits (b.rd (tuAt k + 8)).toNat 0 8) (b.set ⟨tuAt k + 8, 16, 1⟩ 0))) b

/-! Tick actions (R458, R473) -/

/-- Is a task of the instance outstanding (R307)? -/
def Block.instBusy (b : Block) (i : Nat) : Bool := b.crz.runs.any (fun r => bits (r.desc.getD 0 0) 12 8 == i)

/-- A freezing instance without outstanding tasks is frozen. -/
def Block.freezeCheck (b : Block) (i : Nat) : Block :=
  if b.instState i = iFREEZING ∧ b.instBusy i = false then (b.setInst i iFROZEN).raise 98 else b

/-- VIN_INSTi_PEND follows the pending actions. -/
def Block.showPend (b : Block) (i : Nat) : Block :=
  b.set (VIN_INSTi_PEND_COUNT i) ((b.vin.acts.filter (fun a => a.inst == i)).length)

/-- A tick action takes effect at an issued tick, or fails on the instance's state. -/
def Block.applyAct (b : Block) (n ns : Nat) (a : TickAct) : Block :=
  let st := b.instState a.inst
  let done := fun (b : Block) (status : Nat) => b.completeOf a.qgen 0 a.sq a.cid status (if status = 0 then n else 0)
  match a.kind with
  | 0 =>
    if st = iCONFIGURED then done ((b.setInst a.inst iRUNNING).enableOwned a.inst) 0
    else if st = iFROZEN then
      let data := b.vin.pub.get (fun _ => []) a.inst
      let b := b.setInst a.inst iRUNNING
      let b := (List.range (data.length / 32)).foldl (fun b j => b.pubResume (slice data (32 * j) 32) ns) b
      done (b.modVin (fun v => { v with pub := (a.inst, []) :: v.pub })) 0
    else done b 1
  | 1 =>
    if st = iRUNNING then
      let b := (b.setInst a.inst iFREEZING).modVin (fun v => { v with freezeTick := (a.inst, a.tick) :: v.freezeTick })
      done (b.freezeCheck a.inst) 0
    else done b 1
  | 2 => if st = iFAULTED then done ((b.setInst a.inst iRUNNING).resumeStopped a.inst) 0 else done b 1
  | _ =>
    if st = iRUNNING ∨ st = iFREEZING ∨ st = iFROZEN ∨ st = iFAULTED then
      done ((((b.dueOwned a.inst ns).disableOwned a.inst).setInst a.inst iCONFIGURED).raise 101) 0
    else done b 1

/-- The pending actions of ticks up to n, in tick order, at the issue of n (R458, R483). -/
def Block.tickActions (b : Block) (n ns : Nat) : Block :=
  let due := b.vin.acts.filter (fun a => decide (a.tick ≤ n))
  let b := b.modVin (fun v => { v with acts := v.acts.filter (fun a => decide (n < a.tick)) })
  let b := (sortBy (fun (a c : TickAct) => decide (a.tick ≤ c.tick)) due).foldl (fun b a => b.applyAct n ns a) b
  (due.map (fun a => a.inst)).foldl (fun b i => b.showPend i) b

/-- R458: the last outstanding task of a freezing instance has ended. -/
def execFreezeComplete (inst : Nat) (s : State) : Host.Outcome State Fault Refusal :=
  runAt .vin (fun b => if inst < 256 then b.freezeCheck inst else b) s

end Sys2Proof.Machine
end

