-- ==== Sys2Proof/Machine/Access.lean ====
section
/-! DEFINITION. What a software write leaves in a register by the access codes of its fields (R10, R11, R12). -/

namespace Sys2Proof.Machine

open Sys2Proof Sys2Proof.Reg

/-- One field after a write: the word with the field as its access code says; locked: the image lock is set (R10). A WO field holds
what was written for the unit that acts on it; reads return 0 (Block.readWord). -/
def fieldAfter (locked : Bool) (old v : Nat) (w : Nat) (f : FieldRow) : Nat :=
  let n := f.hi + 1 - f.lo
  let o := bits old f.lo n
  let x := bits v f.lo n
  match f.acc with
  | .rw => putBits w f.lo n x
  | .rwl => if locked then w else putBits w f.lo n x
  | .w1c => putBits w f.lo n (o - (o &&& x))
  | .w1s => putBits w f.lo n (o ||| x)
  | .wo => putBits w f.lo n x
  | _ => w

/-- Registers whose EN a command of its own sets and a plain write clears (R263, R278, R179). -/
def clearsOnly (r : RegRow) : Bool :=
  r.base == SOR_CHc_CFG 0 || r.base == THRk_CFG 0 || r.base == STNs_TXSAa_CTRL 0 0 || r.base == STNs_RXSCc_SAa_CTRL 0 0 0

/-- The word that a software write of v leaves in the register at offset a, where the fields whose writes are commands of
their own are left out, or only cleared, unless all is set. -/
def Block.written (b : Block) (all : Bool) (a : Nat) (v : Word) : Word :=
  match rowOf a with
  | none => b.rd a
  | some r =>
    let old := (b.rd a).toNat
    BitVec.ofNat 32 (r.fields.foldl (fun w f =>
      if all || !f.step then fieldAfter b.imgLock old v.toNat w f
      else if clearsOnly r then fieldAfter b.imgLock old (old &&& v.toNat) w f
      else w) old)

end Sys2Proof.Machine
end

