-- ==== Sys2Proof/Machine/Power.lean ====
section
/-! DEFINITION. Requests for the power of domains (R549 to R553), and the pressure on M and B work (R567, R568). -/

namespace Sys2Proof.Machine

open Sys2Proof Sys2Proof.Reg

def Block.modNrg (b : Block) (f : Nrg → Nrg) : Block := { b with nrg := f b.nrg }
def Block.nrgCnt (b : Block) (i : Nat) : Block := b.count (NRG_CNTi i) 1 (bitOf NRG_CNT_ROLL i) 31

/-- The states of a domain (R549). -/
abbrev dOFF : Nat := 0
abbrev dRET : Nat := 1
abbrev dON : Nat := 2
abbrev dSWITCHING : Nat := 3

def Block.domState (b : Block) (d : Nat) : Nat := b.get (NRG_DOMd_CFG_STATE d)

/-- QUEUED of a domain and of the governor follow the queues. -/
def Block.showQueue (b : Block) (d : Nat) : Block :=
  (b.set (NRG_DOMd_CFG_QUEUED d) (if (b.nrg.up ++ b.nrg.down).any (fun r => r.dom == d) then 1 else 0)).set NRG_RAMP_STAT_QUEUED
    (satAdd 255 0 (b.nrg.up.length + b.nrg.down.length))

/-- A request that has waited longer than 20 µs counts (R553). -/
def Block.rampWaited (b : Block) (r : PowerReq) : Block :=
  if 20000 < b.xtal - r.since then (b.nrgCnt 3).raiseEvery 1 24 else b

/-- The requests of domain d leave a queue that an opposite one cancels; long waits among them count. -/
def Block.rampCancel (b : Block) (d : Nat) : Block :=
  let b := ((b.nrg.up ++ b.nrg.down).filter (fun r => r.dom == d)).foldl (fun b r => b.rampWaited r) b
  b.modNrg (fun n => { n with up := n.up.filter (fun r => r.dom != d), down := n.down.filter (fun r => r.dom != d) })

/-- A request that a domain go ON, or to RET or OFF, joins its queue; it cancels an opposite one not yet admitted. An opposite to an
admitted transition joins when that is complete: DOMAIN_ON then asks for the state that R550 gives (R553). -/
def Block.powerReq (b : Block) (d want : Nat) : Block :=
  let same := fun (r : PowerReq) => r.dom == d && r.want == want
  if (b.nrg.up ++ b.nrg.down).any same then b.showQueue d
  else
    let b := b.rampCancel d
    if b.nrg.moving.any (fun r => r.dom == d) || b.domState d == want then b.showQueue d
    else if want = dON then (b.modNrg (fun n => { n with up := n.up ++ [⟨d, dON, b.xtal⟩] })).showQueue d
    else (b.modNrg (fun n => { n with down := n.down ++ [⟨d, want, b.xtal⟩] })).showQueue d

/-- Is a task of class M or B of an instance shed at the present pressure (R568)? -/
def Block.sheds (b : Block) (cls i : Nat) : Bool :=
  let lim := fun (f : Fld) => if b.get f = 0 then 3 else b.get f
  b.on NRG_CTRL_GOV_EN &&
    ((cls == 2 && decide (lim (NRG_INSTi_GOV_SHED_M i) ≤ b.get NRG_STATUS_PL)) ||
      (cls == 3 && decide (lim (NRG_INSTi_GOV_SHED_B i) ≤ b.get NRG_STATUS_PL)))

end Sys2Proof.Machine
end

