-- ==== Sys2Proof/Machine/Tables.lean ====
section
/-! DEFINITION. What Crozier reads: cycle tables (R283, R284, R287), descriptors (R291), stage-list elements (R293 to R296),
the windows and regions that bound them (R462, R535), and the units that the P table names (R319). -/

namespace Sys2Proof.Machine

open Sys2Proof Sys2Proof.Reg

/-! CRC-64 (R443) -/

def crc64Byte (c : Nat) (x : Byte) : Nat :=
  (List.range 8).foldl (fun c _ => if bit c 63 then (c * 2 % 2 ^ 64) ^^^ 0x42F0E1EBA9EA3693 else c * 2 % 2 ^ 64)
    (c ^^^ (x.toNat * 2 ^ 56))

/-- The CRC-64 of R443: most significant bit first, initial value all ones, the result inverted. -/
def crc64 (l : List Byte) : Nat := l.foldl crc64Byte (2 ^ 64 - 1) ^^^ (2 ^ 64 - 1)

/-! Cycle tables -/

def tblBank (x : Nat) : Fld := CRZ_TBLx_STAT_BANK x

/-- PERIOD and PHASE of bank k of table x (R283). -/
def Block.tblPeriod (b : Block) (x k : Nat) : Nat :=
  clampN 1 4096 (b.get (if k = 0 then CRZ_TBLx_CFGA_PERIOD x else CRZ_TBLx_CFGB_PERIOD x))
def Block.tblPhase (b : Block) (x k : Nat) : Nat :=
  b.get (if k = 0 then CRZ_TBLx_CFGA_PHASE x else CRZ_TBLx_CFGB_PHASE x) % b.tblPeriod x k

/-- The offset at which base tick n lies (R283). -/
def Block.tblOffset (b : Block) (x k n : Nat) : Nat :=
  (n + b.tblPeriod x k - b.tblPhase x k) % b.tblPeriod x k

/-- A table entry: its index, task, offset and KIND (R284). -/
structure TblEntry where
  idx : Nat
  task : Nat
  off : Nat
  kind : Nat
  deriving DecidableEq, Repr

/-- The entries of bank k of table x. -/
def Block.tblEntries (b : Block) (x k : Nat) : List TblEntry :=
  let n := clampN 0 16384 (b.get (if k = 0 then CRZ_TBLx_LEN_LEN_A x else CRZ_TBLx_LEN_LEN_B x))
  (List.range n).map (fun i =>
    let w := b.loadNat .seq (0x20000 * x + 0x10000 * k + 4 * i) 4
    ⟨i, bits w 16 16, bits w 4 12, bits w 2 2⟩)

/-- The entries of the active bank of table x. -/
def Block.activeEntries (b : Block) (x : Nat) : List TblEntry := b.tblEntries x (b.get (tblBank x))

/-- A trigger entry: its index, SOURCE, ACTION and task (R304). -/
structure TrigEntry where
  idx : Nat
  source : Nat
  action : Nat
  task : Nat
  deriving DecidableEq, Repr

/-- The entries of trigger bank k. -/
def Block.trigEntries (b : Block) (k : Nat) : List TrigEntry :=
  let n := clampN 0 4096 (b.get (if k = 0 then CRZ_TRIG_LEN_LEN_A else CRZ_TRIG_LEN_LEN_B))
  (List.range n).map (fun i =>
    let l := b.load .seq (0x80000 + 0x8000 * k + 8 * i) 8
    ⟨i, leAt l 0 2, leAt l 2 1, leAt l 4 2⟩)
def Block.activeTrig (b : Block) : List TrigEntry := b.trigEntries (b.get CRZ_STATUS_TRIG_BANK)

/-- The ranges of the active snapshot list as (first comparator, count, group, place of the first entry in the snapshot bank);
the list has the trigger list's bank bit of the last swap. -/
def Block.snapRanges (b : Block) : List (Nat × Nat × Nat × Nat) :=
  let k := b.crz.snapBank
  let n := clampN 0 256 (b.get (if k = 0 then CRZ_SNAP_LEN_LEN_A else CRZ_SNAP_LEN_LEN_B))
  ((List.range n).foldl (fun (p : List (Nat × Nat × Nat × Nat) × Nat) i =>
    let l := b.load .seq (0xB0000 + 0x800 * k + 8 * i) 8
    (p.1 ++ [(leAt l 0 2, leAt l 2 2, leAt l 4 1, p.2)], p.2 + 8 * leAt l 2 2)) ([], 0)).1

/-! Descriptors -/

/-- n bytes of a CONTROL region that Crozier reads, where every line passes its check (R288). -/
def Block.control (b : Block) (a n : Nat) : Option (List Byte) :=
  if b.inControl a n ∧ (List.range ((a % 64 + n + 63) / 64)).all (fun i => b.lineOk (a + 64 * i)) = true then some (b.load .dram a n)
  else none

def Block.descAddr (b : Block) (d : Nat) : Nat := b.rd64 CRZ_DESC_BASE_LO / 4096 * 4096 + 32 * d
def Block.elemAddr (b : Block) (e : Nat) : Nat := b.rd64 CRZ_ELEM_BASE_LO / 4096 * 4096 + 16 * e

/-- The eight words of descriptor d. -/
def Block.desc (b : Block) (d : Nat) : Option (List Nat) :=
  match b.control (b.descAddr d) 32 with
  | none => none
  | some l => some ((List.range 8).map (fun w => leAt l (4 * w) 4))

def dWord (d : List Nat) (w : Nat) : Nat := d.getD w 0
def dValid (d : List Nat) : Bool := bit (dWord d 0) 31
def dClass (d : List Nat) : Nat := bits (dWord d 0) 29 2
def dEvent (d : List Nat) : Bool := bit (dWord d 0) 28
def dGen (d : List Nat) : Nat := bits (dWord d 0) 20 8
def dInst (d : List Nat) : Nat := bits (dWord d 0) 12 8
def dLcore (d : List Nat) : Nat := bits (dWord d 0) 0 7
def dEntry (d : List Nat) : Nat := bits (dWord d 1) 16 16
def dSettle (d : List Nat) : Nat := bits (dWord d 1) 8 8
def dBudget (d : List Nat) : Nat := clampN 1000 16777215 (bits (dWord d 2) 0 24)
def dInFirst (d : List Nat) : Nat := bits (dWord d 3) 12 20
def dInCount (d : List Nat) : Nat := bits (dWord d 3) 0 12
def dOutFirst (d : List Nat) : Nat := bits (dWord d 4) 12 20
def dOutCount (d : List Nat) : Nat := bits (dWord d 4) 0 12
def dSig (d : List Nat) : Nat := dWord d 6 + 2 ^ 32 * dWord d 7

/-- A line of a descriptor or an element failed its check: R44 resets the module, which is not recorded before the reset (R288, R537, R542, R675). -/
def Block.crzFail (b : Block) (a : Nat) : Block :=
  (b.crcLatch a).controlReset (a / 64 * 64)

/-! Elements -/

def Elem.of (l : List Byte) : Elem := ⟨leAt l 0 8, leAt l 8 2, leAt l 10 2, leAt l 12 1, leAt l 13 3⟩
def Elem.space (e : Elem) : Nat := bits e.far 60 4
def Elem.lag (e : Elem) : Nat := bits e.far 56 4
def Elem.loc (e : Elem) : Nat := bits e.far 0 56

/-- n elements from index e on, or the address of a line that fails. -/
def Block.elems (b : Block) (e n : Nat) : Option (List Elem) :=
  if n = 0 then some []
  else match b.control (b.elemAddr e) (16 * n) with
    | none => none
    | some l => some ((List.range n).map (fun i => Elem.of (slice l (16 * i) 16)))

/-- The alignment group of an element of space 6, 7 or 8. -/
def Block.elemGroup (b : Block) (e : Elem) : Option Nat :=
  match e.space with
  | 6 => if bit e.loc 55 then some (b.trkOf (e.loc % 64)).agrp else b.chGroup (e.loc % 8192)
  | 7 => b.chGroup (e.loc % 32768 / 4)
  | 8 => b.chGroup (e.loc % 8192)
  | _ => none

/-- The target instant of group g for a cyclic task due at tick n (R295). -/
def Block.cycTarget (b : Block) (g n : Nat) : Nat :=
  (((b.grpOf g).firstFrom (tickNs b.tickRate n + 1) - 1) / b.decIn g) - 1

/-- The target instant of group g for a task in hand (R295, R367). -/
def Block.target (b : Block) (r : TaskRun) (g : Nat) : Nat :=
  match r.ready.dec with
  | some (_, d) => d
  | none => b.cycTarget g r.ready.tick

/-- Can an element be read (R296, R440)? -/
def Block.elemReady (b : Block) (r : TaskRun) (e : Elem) : Bool :=
  match b.elemGroup e with
  | some g =>
    if e.space = 8 then decide (b.target r g * b.decIn g - e.lag < b.grpNext g)
    else
      -- the snapshot of space 7 stands once the instant's marker has been taken (R297)
      let m := b.target r g - e.lag
      decide (m * b.decIn g + 1 ≤ (b.grpOf g).done) && !(e.space == 7 && (b.grpOf g).mark == some m)
  | none =>
    if e.space = 4 ∧ b.following = true then decide (r.ready.tick < b.rope.flipDone) else true

/-- The physical tuft of a logical tuft (R312). -/
def Block.tuftOf (b : Block) (t : Nat) : Nat := b.get (CRZ_TUFTMAPt_PHYS t)

/-- Where the bytes of an element lie; none for the input image. -/
def Block.farAt (b : Block) (r : TaskRun) (e : Elem) : Option (Space × Nat) :=
  let plane := b.get SOR_CTRL_PLANE_BASE * 65536
  let m := match b.elemGroup e with | some g => b.target r g - e.lag | none => 0
  match e.space with
  | 1 => some (.intake, e.loc)
  | 2 => some (.tuft (b.tuftOf (bits e.loc 52 4)), bits e.loc 0 22)
  | 3 => some (.intake, b.goutBase + e.loc)
  | 5 => some (.dram, bits e.loc 0 37)
  | 6 => some (.intake, if bit e.loc 55 then plane + 0x310400 + 32 * (e.loc % 64) else plane + 0x180000 * (m % 2) + 192 * (e.loc % 8192))
  | 7 =>
    let k := e.loc % 32768
    match b.snapRanges.find? (fun s => decide (s.1 ≤ k) && decide (k < s.1 + s.2.1)) with
    | some s => some (.seq, 0xB1000 + 0x8000 * (m % 2) + s.2.2.2 + 8 * (k - s.1))
    | none => some (.seq, 0xB1000 + 0x8000 * (m % 2))
  | 8 =>
    match b.elemGroup e with
    | some g => some (.intake, (b.grpOf g).entryAt (e.loc % 8192) (b.target r g * b.decIn g - e.lag))
    | none => some (.intake, 0)
  | 9 => some (.timer, e.loc)
  | _ => none

/-- n bytes of the input image from an offset on: each byte from the current copy of its entry (R355, R357). -/
def Block.ginRead (b : Block) (a n : Nat) : List Byte :=
  (List.range n).map (fun i =>
    let o := a + i
    match (b.gin.sub.map (fun s => s.1)).find? (fun s =>
        let x := b.subOf s
        x.en && decide (x.offset ≤ o) && decide (o < x.offset + 64 + 8 * x.nmem)) with
    | some s => b.byte .intake (b.ginAt (b.subOf s) (b.get (ginCur s)) + (o - (b.subOf s).offset))
    | none => b.byte .intake (b.get RHZ_GIN_BASE_BASE * 65536 + o))

/-- Do n bytes touch a segment without backing (R529)? -/
def Block.unbacked (b : Block) (sp : Space) (a n : Nat) : Bool :=
  match segOf sp a, segOf sp (a + n - 1) with
  | some s, some t => (List.range (t + 1 - s)).any (fun i => b.seg.get (fun _ => 0) (s + i) == 2)
  | _, _ => false

/-- Does the region map permit instance i n bytes of DRAM, and to write them (R535)? -/
def Block.regionAllows (b : Block) (a n i : Nat) (write : Bool) : Bool :=
  match b.regionOfRange a n with
  | none => false
  | some r =>
    let f := b.get (THL_RGNr_CFG_INST_FIRST r)
    let l := b.get (THL_RGNr_CFG_INST_LAST r)
    (match b.get (THL_RGNr_CFG_ACCESS r) with
      | 1 => i == f
      | 2 => decide (f ≤ i) && decide (i ≤ l)
      | 3 => true
      | _ => false) && (!write || !b.on (THL_RGNr_CFG_INST_RO r))

/-- Units of an element's extent (R462). -/
def Elem.units (e : Elem) : Nat :=
  match e.space with
  | 6 => if bit e.loc 55 then e.len / 32 else e.len / 192
  | 7 => e.len / 8
  | 8 => e.len / 8
  | _ => e.len

/-- Do SPACE, direction, LAG and LEN fit R293 and R294? -/
def Elem.shapeOk (e : Elem) (out : Bool) : Bool :=
  e.rest == 0 && decide (e.flags < 2) &&
  match e.space with
  | 1 => !out && e.lag == 0
  | 2 => e.lag == 0
  | 3 => e.lag == 0
  | 4 => !out && e.lag == 0
  | 5 => e.lag == 0
  | 6 => !out && decide (e.lag ≤ 1) && e.len % (if bit e.loc 55 then 32 else 192) == 0
  | 7 => !out && decide (e.lag ≤ 1)
  | 8 => !out
  | 9 => e.lag == 0
  | _ => false

/-- Why an element of instance i fails, as CRZ_FAULT_INFO.CAUSE; 0 where it passes (R298, R322, R462, R529). -/
def Block.elemCause (b : Block) (r : TaskRun) (i limit : Nat) (out : Bool) (e : Elem) : Nat :=
  if !e.shapeOk out then 3
  else if e.near % 8 ≠ 0 ∨ e.near < 0x40 ∨ e.len % 8 ≠ 0 ∨ e.len < 8 ∨ 32768 < e.len ∨ limit < e.near + e.len then 4
  else if !(b.cinst i).windows.any (fun w => winHolds w e.space e.loc e.units && (if out then winOut w else winIn w)) then 1
  else if e.space = 5 ∧ b.regionAllows (bits e.loc 0 37) e.len i out = false then 2
  else match b.farAt r e with
    | some (sp, a) => if b.unbacked sp a e.len then 1 else 0
    | none => 0

/-- The bytes of an element as stage-in reads them. -/
def Block.farRead (b : Block) (r : TaskRun) (e : Elem) : List Byte :=
  match b.farAt r e with
  | some (sp, a) => b.load sp a e.len
  | none => b.ginRead e.loc e.len

/-! The dispatch store (R289) -/

/-- A read of n bytes of descriptors or elements at an address that fails: outside a CONTROL region, or in a line whose check fails
(R44, R288). -/
def Block.badRead (b : Block) (a n : Nat) : Block := if b.inControl a n then b.crzFail a else b.noRegion

/-- A copy of a task's descriptor and elements, or the address and length of a read that fails. -/
def Block.readCopy (b : Block) (task : Nat) : Sum (Nat × Nat) TaskCopy :=
  match b.desc task with
  | none => .inl (b.descAddr task, 32)
  | some d =>
    if !dValid d then .inr { task := task, desc := d }
    else match b.elems (dInFirst d) (dInCount d), b.elems (dOutFirst d) (dOutCount d) with
      | some i, some o => .inr ⟨task, d, i, o⟩
      | none, _ => .inl (b.elemAddr (dInFirst d), 16 * dInCount d)
      | _, none => .inl (b.elemAddr (dOutFirst d), 16 * dOutCount d)

/-- Copies of some tasks, read in order, and the block after; a read that fails ends it. -/
def Block.readCopies (b : Block) (ts : List Nat) : List TaskCopy × Block :=
  ts.foldl (fun p t => match b.readCopy t with
    | .inr c => (p.1 ++ [c], p.2)
    | .inl a => (p.1, p.2.badRead a.1 a.2)) ([], b)

/-- The tasks that pinned copies are held of: those of the active trigger list, and moves. -/
def Block.pinTasks (b : Block) : List Nat :=
  (b.activeTrig.map (fun e => e.task) ++ (List.range 4).foldl (fun l x =>
    l ++ ((b.activeEntries x).filter (fun e => e.kind == 1)).map (fun e => e.task)) []).dedup

/-- The pinned copies are loaded, at start and at each applied swap. -/
def Block.pinCopies (b : Block) : Block :=
  let r := b.readCopies b.pinTasks
  { r.2 with crz := { r.2.crz with pinned := r.1 } }

/-- The banks of table x that the lookahead of tick n prepares: the active one, and for an armed swap the other from S on (R316). -/
def Block.lookBanks (b : Block) (x n : Nat) : List Nat :=
  let k := b.get (tblBank x)
  let st := b.get CRZ_SWAP_CTRL_STATE
  k :: (if (st = 1 ∨ st = 3) ∧ bit (b.get CRZ_SWAP_CTRL_TABLES) x = true ∧ b.crz.swapAt ≤ n then [1 - k] else [])

/-- The copies of the entries of bank k of table x due at tick n. -/
def Block.lookSet (b : Block) (x k n : Nat) : List LookEntry × Block :=
  let es := (b.tblEntries x k).filter (fun e => e.off == b.tblOffset x k n)
  es.foldl (fun p e =>
    if e.kind ≠ 0 then (p.1 ++ [⟨n, x, k, e.idx, e.task, e.kind, none⟩], p.2)
    else match b.readCopy e.task with
      | .inr c => (p.1 ++ [⟨n, x, k, e.idx, e.task, e.kind, some c⟩], p.2)
      | .inl a => (p.1, p.2.badRead a.1 a.2)) ([], b)

/-- The lookahead of tick n: what is not yet in the store is read into it, and the copies of the ticks before now go. -/
def Block.lookahead (b : Block) (now n : Nat) : Block :=
  (List.range 4).foldl (fun b x => (b.lookBanks x n).foldl (fun b k =>
    if b.crz.looked.contains (n, x, k) then b
    else
      let r := b.lookSet x k n
      { r.2 with crz := { r.2.crz with looked := r.2.crz.looked ++ [(n, x, k)], look := r.2.crz.look ++ r.1 } }) b)
    { b with crz := { b.crz with looked := b.crz.looked.filter (fun l => decide (now ≤ l.1)), look := b.crz.look.filter (fun l => decide (now ≤ l.tick)) } }

/-- The pinned copy of a task. -/
def Block.pinOf (b : Block) (task : Nat) : Option TaskCopy := b.crz.pinned.find? (fun c => c.task == task)

/-! What the active program uses (R319, R347, R525) -/

/-- Descriptors of the tasks of the active bank of table x. -/
def Block.activeDescs (b : Block) (x : Nat) : List (Nat × List Nat) :=
  (b.activeEntries x).filterMap (fun e =>
    if e.kind = 0 then match b.desc e.task with
      | some d => if dValid d then some (e.task, d) else none
      | none => none
    else none)

/-- The physical core of a logical core (R312). -/
def Block.coreOf (b : Block) (l : Nat) : Nat := b.get (CRZ_LCMAPl_PHYS l)

/-- The units that the running P table names (R319). -/
def Block.named (b : Block) : List UnitRef :=
  if b.get (CRZ_TBLx_STAT_STATE 0) = 0 then []
  else
    let ds := b.activeDescs 0
    let cores := (ds.map (fun d => b.coreOf (dLcore d.2))).dedup
    let ins := ds.foldl (fun l d => l ++ ((b.elems (dInFirst d.2) (dInCount d.2)).getD [])) ([] : List Elem)
    let outs := ds.foldl (fun l d => l ++ ((b.elems (dOutFirst d.2) (dOutCount d.2)).getD [])) ([] : List Elem)
    let chans := (ins.foldl (fun (l : List Nat) e => l ++
      (match e.space with
        | 6 => if bit e.loc 55 then [] else (List.range e.units).map (fun i => e.loc % 8192 + i)
        | 7 => (List.range e.units).map (fun i => (e.loc % 32768 + i) / 4)
        | 8 => (List.range e.units).map (fun i => e.loc % 8192 + i)
        | _ => [])) []).dedup
    let lanes := (chans.map (fun c => b.laneMap (c / 512))).dedup
    let slots := (List.range 1024).filter (fun s =>
      let x := b.slotOf s
      x.en && chans.any (fun c => decide (x.chBase ≤ c) && decide (c < x.chBase + x.nch)))
    let engs := (slots.foldl (fun l s => l ++ [(b.slotOf s).engA, (b.slotOf s).engB]) []).dedup.filter (fun e => decide (e < 17))
    cores.map (fun c => ⟨.frond, c⟩) ++ ((cores.map (fun c => c / 8)).dedup.map (fun t => ⟨.tuft, t⟩)) ++ lanes.map (fun l => ⟨.sor, l⟩) ++
      engs.map (fun e => ⟨.rhz, e⟩) ++ (engs.filter (fun e => decide (e < 16))).map (fun p => ⟨.prt, p⟩) ++
      (if outs.any (fun e => e.space == 3) then [⟨.swc, 0⟩] else []) ++ [⟨.crz, 0⟩]

/-- Is a unit one that the running P table names? -/
def Block.isNamed (b : Block) (u : UnitRef) : Bool := u ∈ b.named

/-- The P and C tasks that the active banks hold: of their tables, and of the trigger list (R25, R352, R550). -/
def Block.pcDescs (b : Block) : List (Nat × List Nat) :=
  b.activeDescs 0 ++ b.activeDescs 1 ++ b.activeTrig.filterMap (fun e =>
    match b.desc e.task with
    | some d => if dValid d && decide (dClass d < 2) then some (e.task, d) else none
    | none => none)

/-- PC_MAPPED of each tuft: its logical tuft holds a P or C task of an active bank (R352). -/
def Block.showPcMapped (b : Block) : Block :=
  let ts := (b.pcDescs.map (fun d => b.coreOf (dLcore d.2) / 8)).dedup
  b.each 16 (fun t b => b.set (FRD_TUFTt_STAT_PC_MAPPED t) (if t ∈ ts then 1 else 0))

end Sys2Proof.Machine
end

