-- ==== Sys2Proof/Machine/RopeLink.lean ====
section
/-! DEFINITION. The pair's roles, lease and authority (R419 to R431), a module fault (R311), the frames that the module sends
to its partner (R432 to R437), and releases and flips on a module's own decisions (R212, R357, R453). -/

namespace Sys2Proof.Machine

open Sys2Proof Sys2Proof.Reg

def Block.modRope (b : Block) (f : Rope → Rope) : Block := { b with rope := f b.rope }
def Block.ropeCnt (b : Block) (i : Nat) : Block := b.count (ROPE_CNTi i) 1 (bitOf ROPE_CNT_ROLL i) 920

/-- The roles of R434 and R455. -/
abbrev rSOLO : Nat := 0
abbrev rSYNCING : Nat := 1
abbrev rSTANDBY : Nat := 2
abbrev rACTIVE : Nat := 3
abbrev rFAULTED : Nat := 4

def Block.hasRope (b : Block) : Bool := b.member.has ⟨.rope, 0⟩
/-- Does the module run paired (R419)? -/
def Block.paired (b : Block) : Bool := b.hasRope && b.on ROPE_CFG_PAIRED
/-- The role; a module without ROPE, or not paired, is SOLO. -/
def Block.role (b : Block) : Nat :=
  if b.paired then b.get ROPE_ROLE_ROLE else if b.on CRZ_STATUS_FAULTED then rFAULTED else rSOLO
def Block.ropeUp (b : Block) : Bool := b.on ROPE_ROLE_ROPE_UP

/-! Own decisions -/

/-- A release of the group's NEXT is noted for the ledger of a pair with the Rope up (R442). -/
def Block.noteRelease (b : Block) : Block :=
  let rs := b.rhz.recs.map (fun r => (⟨r.group, r.instant, r.entries⟩ : RelRecord))
  let b := { b with rhz := { b.rhz with recs := [] } }
  if b.paired && b.ropeUp then b.modRope (fun p => { p with applied := p.applied ++ rs }) else b

/-- NEXT of group g is released at ref of R212, and its row goes to the acquisition engine. -/
def Block.releaseOwn (b : Block) (g : Nat) : Block :=
  let i := b.grpNext g
  let r := b.releaseRef g
  ((b.release1 g r.1 r.2).acqInstant g i).noteRelease

/-- The body of a GIN_LEDGER frame of tick n for the entries that flipped last (R435, R440). -/
def Block.ginLedger (b : Block) (n : Nat) : List Byte :=
  beBytes 8 n ++ beBytes 2 b.gin.flipped.length ++ [0, 0] ++
    b.gin.flipped.foldl (fun l e => l ++ beBytes 2 e ++ [0, 0] ++ b.load .intake (b.ginAt (b.subOf e) (b.get (ginCur e))) (64 + 8 * (b.subOf e).nmem)) []

/-- A flip of tick n is noted. -/
def Block.noteFlip (b : Block) (n : Nat) (body : List Byte) : Block :=
  b.modRope (fun p => { p with flipDone := n + 1, ledgerGin := if b.paired && b.ropeUp then p.ledgerGin ++ [(n, body)] else [] })

/-- The flip of tick n on own decisions (R357). -/
def Block.flipOwn (b : Block) (n : Nat) : Block :=
  let b := b.ginFlip n
  b.noteFlip n (b.ginLedger n)

/-- Releases and flips that wait for the partner's records are made on own decisions (R441, R453). -/
def Block.settleWaits (b : Block) : Block :=
  let ws := b.rope.waits
  ws.foldl (fun b w => if w.1 < 16 then (if b.grpNext w.1 = w.2.1 then b.releaseOwn w.1 else b) else b.flipOwn w.2.1)
    (b.modRope (fun p => { p with waits := [], rels := [], flips := [] }))

/-- The role changes; event 896; entering SYNCING restarts the ALONE wait and clears JOINED (R421). Nothing waits for the
partner outside STANDBY. -/
def Block.setRole (b : Block) (r : Nat) : Block :=
  if !b.hasRope then b
  else
    let b := b.doIf (b.get ROPE_ROLE_ROLE != r) (fun b => (b.set ROPE_ROLE_ROLE r).raise 896)
    let b := b.modRope (fun p => { p with handover := none, pDigests := [], joinFor := none, joinCap := [] })
    let b := if r = rSYNCING then
        (b.modRope (fun p => { p with aloneFrom := b.xtal, joinTick := none, joinReq := none, joinGot := [], joinBuf := [], claim := false, won := false })).set ROPE_JOIN_JOINED 0
      else b
    if r = rSTANDBY then b else b.settleWaits

/-- The Rope goes down (R433): event 903, ROPE_LOST, and the handshake starts again; the module decides alone (R441). -/
def Block.ropeDown (b : Block) : Block :=
  let b := b.modRope (fun p => { p with pHello := false, handover := none, joinTick := none, joinReq := none, joinGot := [], joinBuf := [], joinFor := none, joinCap := [] })
  if b.ropeUp then (((b.set ROPE_ROLE_ROPE_UP 0).set ROPE_ROLE_ROPE_LOST 1).raise 903).settleWaits else b

/-! Frames (R434, R436) -/

/-- The GMAC tag of a frame from its EtherType to the end of its body, of the sender with a PAIR_ID, a SESSION and a SEQ; none
where the key store refuses the slot, which clears AUTH_OK. -/
def Block.ropeTag (b : Block) (l : List Byte) (pair session seq : Nat) : Option (List Byte) × Block :=
  let n := b.get ROPE_CFG_KEY_SLOT
  match b.keyUse n 4 with
  | (false, b) => (none, b.modRope (fun p => { p with authOk := false }))
  | (true, b) => let b := b.modRope (fun p => { p with authOk := true }); (some (Config.gcmSeal (b.keyMaterial n) (beBytes 4 session ++ beBytes 1 pair ++ [0, 0, 0] ++ beBytes 4 seq) l []), b)

/-- A frame of a TYPE with a body leaves on both lanes, filled with zeros to 60 octets and its check sequence. -/
def Block.ropeSend (b : Block) (typ : Nat) (body : List Byte) : Block :=
  if !b.paired || !b.released .rope then b
  else
    let seq := b.rope.seqTx % 2 ^ 32
    let pair := b.get ROPE_ID_PAIR_ID
    let head := beBytes 2 0x88B5 ++ beBytes 1 (b.get ROPE_CFG_LEVEL) ++ beBytes 1 typ ++ beBytes 2 body.length ++ beBytes 4 seq ++
      beBytes 1 (b.get ROPE_ROLE_EPOCH) ++ beBytes 1 (b.get ROPE_ROLE_ROLE + 128 * pair) ++
      beBytes 2 (b.rope.lease.toNat + 2 * b.get ROPE_ROLE_ROPE_LOST) ++ beBytes 8 b.lastTick
    let t := if b.on ROPE_CFG2_AUTH then b.ropeTag (head ++ body) pair b.rope.session seq else (some [], b)
    match t with
    | (none, b) => b.ropeDown
    | (some tag, b) =>
      let dst := if typ = 1 then 0xFFFFFFFFFFFF else b.rope.pMac
      let l := beBytes 6 dst ++ beBytes 6 (Config.ownMac % 2 ^ 48) ++ head ++ body ++ tag
      let b := b.modRope (fun p => { p with seqTx := p.seqTx + 1, lastTx := b.xtal })
      (b.ropeCnt 15).emit (.rope typ (l ++ List.replicate (60 - l.length) 0))

/-- A frame that only a Rope that is up carries. -/
def Block.ropeSay (b : Block) (typ : Nat) (body : List Byte) : Block := if b.ropeUp then b.ropeSend typ body else b

/-! Lease and authority -/

def Block.leaseMs (b : Block) : Nat := clampN 4 64 (b.get ROPE_LEASE_LEASE_MS)

/-- The lease timer is loaded; a lease newly taken asserts the line and opens the gate (R425, R428). -/
def Block.leaseTake (b : Block) : Block :=
  let b := b.modRope (fun p => { p with lease := true, leaseEnd := b.xtal + b.leaseMs * 1000000 })
  ((b.set ROPE_LEASE_REMAIN_MS b.leaseMs).setIf b.hasRope ROPE_ROLE_BELAY_OUT 1).gateFollow

/-- Is epoch x higher than y (R430)? -/
def epochAbove (x y : Nat) : Bool := let d := (x + 256 - y % 256) % 256; decide (0 < d) && decide (d < 128)

/-- The module takes authority (R428, R430); a resolution under way is abandoned (R453). -/
def Block.takeAuthority (b : Block) : Block :=
  let own := b.get ROPE_ROLE_EPOCH
  let top := match b.rope.pEpoch with
    | some e => if epochAbove e own then e else own
    | none => own
  let b := b.set ROPE_ROLE_EPOCH ((top + 1) % 256)
  let b := (b.wr64 ROPE_TAKEOVER_TICK_LO b.lastTick).ropeCnt 0
  let b := (b.modRope (fun p => { p with resolves := [] })).set ROPE_RESOLVE_STATE 0
  ((b.setRole rACTIVE).leaseTake).raise 897

/-- The units that the P table names, none in FAULT, and no P or C core without a physical core (R426). -/
def Block.unitsSound (b : Block) : Bool :=
  !b.named.any (fun u => b.on (stFault u.hdr)) &&
    !b.pcDescs.any (fun d => b.on (CRZ_LCMAPl_NOCORE (dLcore d.2)))

/-- Did the P table's latest boundary start a cycle, and has Crozier acted on it (R426)? -/
def Block.pCycles (b : Block) : Bool :=
  b.get (CRZ_TBLx_STAT_STATE 0) == 1 && !b.crz.ticks.any (fun n => b.tblOffset 0 (b.get (tblBank 0)) n == 0)

/-- The checks of R426 in their order, bit 0 the first. -/
def Block.leaseChecks (b : Block) : Nat :=
  (!b.on CRZ_STATUS_FAULTED).toNat + 2 * b.pCycles.toNat + 4 * b.unitsSound.toNat + 8 * (b.role == rSOLO || b.role == rACTIVE).toNat +
    16 * (!b.rope.claim).toNat

/-- Healthy: every check but the one on the role (R421). -/
def Block.healthy (b : Block) : Bool := b.leaseChecks % 8 == 7 && !b.rope.claim

/-- A module fault: FAULTED, the P table in FAULT, the line dropped and the gate closed, the role FAULTED, a record (R311,
R421). -/
def Block.moduleFault (b : Block) : Block :=
  if b.on CRZ_STATUS_FAULTED then b
  else
    let b := ((b.set CRZ_STATUS_FAULTED 1).set CRZ_STATUS_STATE (putBits (b.get CRZ_STATUS_STATE) 0 2 3)).set (CRZ_TBLx_STAT_STATE 0) 3
    let b := b.leaseDrop.setRole rFAULTED
    b.report 0x0F 708 (⟨.crz, 0⟩ : UnitRef).id 0 ((leBytes 4 (b.rd CRZ_STATUS).toNat).map (fun x => x.toNat))

/-! The conditions of R421 -/

/-- ALONE_MS, twice as long on B, in ns (R421, R455). -/
def Block.aloneNs (b : Block) : Nat :=
  clampN 100 4095 (b.get ROPE_TIMING_ALONE_MS) * 1000000 * (if b.on ROPE_ID_PAIR_ID then 2 else 1)

/-- Does the Rope report the partner in a role? -/
def Block.partnerIs (b : Block) (r : Nat) : Bool := b.ropeUp && b.get ROPE_ROLE_PROLE == r

/-- A join request (R450): event 916. -/
def Block.joinStart (b : Block) : Block :=
  let b := b.modRope (fun p => { p with joinReq := some b.xtal, joinTick := none, joinGot := [], joinBuf := [] })
  (b.raise 916).ropeSay 0xB [0, 0, 0, 0]

/-- What R421 asks for as the state now stands: a join, or a takeover while the partner's line is inactive (R41, R428, R429). -/
def Block.ropeEval (b : Block) : Block :=
  if !b.paired || !b.rst.ran || b.on CRZ_STATUS_FAULTED then b
  else
    let r := b.role
    let line := b.on ROPE_ROLE_BELAY_IN
    let b := b.doIf (line && b.ropeUp && b.get ROPE_ROLE_PROLE != rACTIVE && (r == rSYNCING || r == rSTANDBY) && !b.on ROPE_ROLE_BELAY_STUCK)
      (fun b => (b.set ROPE_ROLE_BELAY_STUCK 1).raise 918)
    let may := !line && !b.on ROPE_ROLE_PAIR_ID_CONFLICT && b.healthy
    if r = rSTANDBY ∧ may = true then b.takeAuthority
    else if r = rSYNCING then
      if b.partnerIs rACTIVE then (if b.rope.joinReq.isNone then b.joinStart else b)
      else if may && ((b.partnerIs rSYNCING && !b.on ROPE_ID_PAIR_ID) || decide (b.rope.aloneFrom + b.aloneNs ≤ b.xtal)) then b.takeAuthority
      else b
    else b

end Sys2Proof.Machine
end

