-- ==== Sys2Proof/Machine/AuxSegs.lean ====
section
/-! DEFINITION. The auxiliary segments (chapter "Auxiliary segments: wake, sleep and bay peripherals"). -/

namespace Sys2Proof.Machine

open Sys2Proof Sys2Proof.Reg

/-! States of R585 -/

abbrev axDISABLED : Nat := 0
abbrev axSTANDBY : Nat := 1
abbrev axNORMAL : Nat := 2
abbrev axLISTEN : Nat := 3
abbrev axDRAINING : Nat := 4
abbrev axSLEEP : Nat := 5
abbrev axWAKING : Nat := 6

def Block.auxOf (b : Block) (s : Nat) : AuxSeg := b.aux.get (fun _ => {}) s
def Block.setAux (b : Block) (s : Nat) (x : AuxSeg) : Block := { b with aux := (s, x) :: b.aux }
def Block.auxState (b : Block) (s : Nat) : Nat := b.get (AUXs_STAT_STATE s)

/-- PAIR_SHARED and FS_MODE as read on EN 0→1 (R593); a reserved FS_MODE acts as the nearest. -/
def AuxSeg.pairShared (x : AuxSeg) : Bool := bit x.cfg.toNat 29
def AuxSeg.fsMode (x : AuxSeg) : Nat := clampN 0 2 (bits x.cfg.toNat 27 2)

/-- Event e of segment s, with its cause (R599). -/
def Block.auxCause (b : Block) (s cause e : Nat) : Block := (b.set (bitOf (AUXs_EVT_CAUSE s) cause) 1).raise (928 + 4 * s + e)

/-- Counter i of segment s (R600, R68). -/
def Block.auxCnt (b : Block) (s i n : Nat) : Block :=
  let c := bumped (b.rd (AUXs_CNTi s i)).toNat n
  let b := b.wr (AUXs_CNTi s i) (BitVec.ofNat 32 c.1)
  if c.2 then (b.set (bitOf (AUXs_CNT_ROLL s) i) 1).auxCause s 9 3 else b

/-- A segment changes state (R586). -/
def Block.auxTo (b : Block) (s st : Nat) : Block :=
  if b.auxState s = st then b else (b.set (AUXs_STAT_STATE s) st).auxCause s 0 0

/-- The report of a segment's condition (R590, R595): its cause register. -/
def Block.auxRecord (b : Block) (s : Nat) : Block :=
  b.report 0x0F (930 + 4 * s) (UnitRef.id ⟨.aux, s⟩) 0 ((leBytes 4 (b.rd (AUXs_EVT_CAUSE s)).toNat).map (fun x => x.toNat))

/-! The transmit queue -/

/-- The waiting descriptors of segment s complete unsent (R586, R591). -/
def Block.txFlush (b : Block) (s : Nat) : Block :=
  let n := clampN 0 (2 ^ b.tqLog (s + 1)) (b.txWaiting (s + 1))
  if b.on (RIDGE_TQq_CFG_EN (s + 1)) then b.each n (fun _ b => b.txDone (s + 1) 4) else b

/-! Transitions (R586) -/

/-- AUXEN[s] takes a level; a hold still running is over. -/
def Block.auxen (b : Block) (s v : Nat) : Block := (b.set (AUXs_STAT_AUXEN s) v).setAux s { b.auxOf s with hold := none }

/-- A wake: latched with its time where no cause is (R592). -/
def Block.auxWake (b : Block) (s src : Nat) : Block :=
  if b.on (AUXs_WAKE_CAUSE_VALID s) then b
  else ((b.set (AUXs_WAKE_CAUSE_VALID s) 1).set (AUXs_WAKE_CAUSE_SRC s) src).wr64 (AUXs_WAKE_TIME_LO s) b.ns

/-- STANDBY with the PHY powered, AUXEN high and the ramp timer running. -/
def Block.auxStart (b : Block) (s src : Nat) : Block :=
  let b := ((b.auxTo s axSTANDBY).powerReq (203 + s) dON).auxen s 1
  let b := b.setAux s { b.auxOf s with ramp := b.xtal + clampN 1 255 (b.get (AUXs_CFG_AUXEN_RAMP_MS s)) * 1000000, drainOnWake := false }
  b.auxWake s src

/-- NORMAL: the awake timer starts; from STANDBY a wake burst is sent (R587). -/
def Block.auxNormal (b : Block) (s : Nat) (burst : Bool) : Block :=
  let m := b.get (AUXs_SLEEP_AWAKE_MAX_S s)
  let b := (b.auxTo s axNORMAL).setAux s { b.auxOf s with ramp := 0, awake := if m = 0 then none else some (b.xtal + m * 1000000000) }
  if burst then b.emit (.wakeBurst s) else b

/-- DRAINING: the sleep sequence begins with its first frame due now (R591, R596). -/
def Block.auxDrain (b : Block) (s reason : Nat) : Block :=
  let x := b.auxOf s
  let b := (b.auxTo s axDRAINING).set (AUXs_STAT_REASON s) reason
  b.setAux s { x with ramp := 0, awake := none, sent := 0, failSafe := reason == 2, next := b.xtal, drainOnWake := false }

/-- SLEEP: the PHY goes off, AUXEN goes low after its hold; a completed sleep flushes the queue (R591, R596). -/
def Block.auxSleep (b : Block) (s : Nat) : Block :=
  let x := b.auxOf s
  let legacy := x.failSafe && x.fsMode == 2
  let h := if legacy then some (b.xtal + 100000000)
    else if b.on (AUXs_CFG_AUXEN_SLEEP s) then none else some (b.xtal + b.get (AUXs_SLEEP_AUXEN_HOLD_MS s) * 1000000)
  let b := b.doIf (b.auxState s == axDRAINING) (fun b => b.txFlush s)
  let b := ((b.auxTo s axSLEEP).set (AUXs_STAT_PLCA_STATUS s) 0).powerReq (203 + s) dOFF
  b.setAux s { x with hold := h, sent := 0, failSafe := false, drainOnWake := false, awake := none }

/-- A wake is confirmed (R586, R589). -/
def Block.auxConfirm (b : Block) (s : Nat) : Block :=
  let drain := (b.auxOf s).drainOnWake
  let b := ((b.auxCnt s 13 1).auxWake s 1).auxCause s 1 1
  if drain then b.auxDrain s 3
  else if b.on (AUXs_CFG_AUTO_NORMAL s) then b.auxNormal s false
  else b.auxTo s axLISTEN

/-- A sleep is abandoned before its third frame ends (R586, R598); the fail-safe sequence is not
(notes/assumptions/133). -/
def Block.auxAbort (b : Block) (s : Nat) : Block :=
  let x := b.auxOf s
  if x.failSafe ∨ 3 ≤ x.sent then b
  else ((b.setAux s { x with sent := 0 }).auxNormal s false).set (AUXs_STAT_REASON s) 4

/-- WAKE_LOCK clears at any WAKE or GO_NORMAL command (R590). -/
def Block.auxUnlock (b : Block) (s : Nat) : Block := b.set (AUXs_STAT_WAKE_LOCK s) 0

/-- The WAKE command, and GO_NORMAL but for LISTEN (R586, R597). -/
def Block.auxGo (b : Block) (s : Nat) : Block :=
  let b := b.auxUnlock s
  let st := b.auxState s
  if st = axSLEEP ∧ b.on (AUXs_STAT_FS_LATCHED s) = false then b.auxStart s 2
  else if st = axDRAINING then b.auxAbort s
  else if st = axSTANDBY ∧ (b.auxOf s).ramp = 0 then
    if b.on (AUXs_STAT_AUXEN s) then ((b.powerReq (203 + s) dON).auxNormal s true).auxWake s 2 else b.auxStart s 2
  else b

/-- The fail-safe timer restarts where its mode runs it (R595). -/
def Block.fsRestart (b : Block) (s : Nat) : Block :=
  let x := b.auxOf s
  b.setAux s { x with fsEnd := if x.fsMode = 0 ∨ b.auxState s = axDISABLED then none
                               else some (b.xtal + clampN 10 65535 (b.get (AUXs_FS_TIMEOUT_MS s)) * 1000000) }

/-- A command in segment s while its units are released. -/
def auxRun (s : Nat) (f : Block → Block) : State → Host.Outcome State Fault Refusal :=
  runAt .aux (fun b => if s < b.member.units .aux then f b else b)

/-! Commands -/

/-- R586, R593: EN goes from 0 to 1 in AUXs_CFG, the other fields of v written with it; the segment reads its settings. -/
def execAuxEnable (s : Nat) (v : Word) (st : State) : Host.Outcome State Fault Refusal :=
  auxRun s (fun b =>
    if b.auxState s ≠ axDISABLED then b
    else
      let b := (b.wr (AUXs_CFG s) (b.written true (AUXs_CFG s) v)).set (AUXs_CFG_EN s) 1
      let b := b.setAux s { ({} : AuxSeg) with cfg := b.rd (AUXs_CFG s), plca := b.rd (AUXs_PLCA s), plca2 := b.rd (AUXs_PLCA2 s) }
      (b.auxStart s 3).fsRestart s) st

/-- R586: EN clears: the PHY goes off and AUXEN low at once, no sleep frame is sent, the queues are flushed. -/
def execAuxDisable (s : Nat) (st : State) : Host.Outcome State Fault Refusal :=
  auxRun s (fun b =>
    if b.auxState s = axDISABLED then b.set (AUXs_CFG_EN s) 0
    else
      let b := ((b.txFlush s).set (AUXs_CFG_EN s) 0).auxTo s axDISABLED
      let b := ((b.set (AUXs_STAT_PLCA_STATUS s) 0).powerReq (203 + s) dOFF).auxen s 0
      b.setAux s {}) st

/-- R586, R587: the ramp timer elapses: a wake burst, medium access, the awake timer. -/
def execAuxenRampDone (s : Nat) (st : State) : Host.Outcome State Fault Refusal :=
  auxRun s (fun b =>
    let x := b.auxOf s
    if b.auxState s = axSTANDBY ∧ x.ramp ≠ 0 then (b.advanceXtal x.ramp).auxNormal s true else b) st

/-- Does a segment receive (R585)? -/
def Block.auxHears (b : Block) (s : Nat) : Bool :=
  let st := b.auxState s
  (st == axNORMAL || st == axLISTEN || st == axDRAINING || st == axWAKING) && !b.on (ctlQuiesce (UnitRef.hdr ⟨.aux, s⟩))

/-- R580, R581, R589: a frame ends on segment s: the MAC checks, the Ridge queue, and the confirmation of a wake. -/
def execAuxFrameReceived (s : Nat) (f : RxFrame) (st : State) : Host.Outcome State Fault Refusal :=
  auxRun s (fun b =>
    if b.auxHears s = false then b
    else
    let b := b.advanceTo (f.stamp / 65536)
    match macFault f with
      | some (i, _) => b.auxCnt s i 1
      | none =>
        let b := (b.auxCnt s 0 1).auxCnt s 1 (f.bytes.length + 4)
        if beAt f.bytes 12 2 = 0x88A8 ∨ beAt f.bytes (afterVlan f.bytes) 2 = 0x8808 then b
        else
          let b := b.ridgeRx (s + 1) (0x20 + s) f.bytes f.stamp false
          if b.auxState s = axWAKING ∧ etherType f.bytes = 0x88B6 ∧ beAt (payload f.bytes) 0 1 ≠ 0x7F then b.auxConfirm s else b) st

/-- R586: GO_LISTEN takes a segment in NORMAL to LISTEN. -/
def execGoListen (s : Nat) (st : State) : Host.Outcome State Fault Refusal :=
  auxRun s (fun b => if b.auxState s = axNORMAL then b.auxTo s axLISTEN else b) st

/-- R586, R590, R597: GO_NORMAL takes a segment to NORMAL from LISTEN, DRAINING, STANDBY or SLEEP. -/
def execGoNormal (s : Nat) (st : State) : Host.Outcome State Fault Refusal :=
  auxRun s (fun b => if b.auxState s = axLISTEN then (b.auxUnlock s).auxNormal s false else b.auxGo s) st

/-- R586, R594: SLEEP begins orderly sleep; with the lease held, a segment with P_C_FEED refuses it. -/
def execSleep (s : Nat) (st : State) : Host.Outcome State Fault Refusal :=
  auxRun s (fun b =>
    if b.on (AUXs_CFG_P_C_FEED s) ∧ b.leased = true then (b.set (AUXs_STAT_REFUSED s) 1).auxCause s 5 2
    else if b.auxState s = axNORMAL ∨ b.auxState s = axLISTEN then b.auxDrain s 0
    else b) st

/-- R586, R590: WAKE takes a segment from SLEEP to STANDBY, or abandons a sleep. -/
def execWake (s : Nat) (st : State) : Host.Outcome State Fault Refusal := auxRun s (fun b => b.auxGo s) st

/-- R586: STAY restarts the awake timer. -/
def execStay (s : Nat) (st : State) : Host.Outcome State Fault Refusal :=
  auxRun s (fun b =>
    let x := b.auxOf s
    let m := b.get (AUXs_SLEEP_AWAKE_MAX_S s)
    if b.auxState s = axNORMAL ∨ b.auxState s = axLISTEN then
      b.setAux s { x with awake := if m = 0 then none else some (b.xtal + m * 1000000000) }
    else b) st

/-- R586: the awake timer expires. -/
def execAwakeTimerExpiry (s : Nat) (st : State) : Host.Outcome State Fault Refusal :=
  auxRun s (fun b => match (b.auxOf s).awake with
    | some e => if b.auxState s = axNORMAL ∨ b.auxState s = axLISTEN then (b.advanceXtal e).auxDrain s 1 else b
    | none => b) st

/-- The SLEEP frame of R591. -/
def Block.sleepFrame (b : Block) (s : Nat) : List Byte :=
  fit 60 (beBytes 6 0x034742000001 ++ beBytes 6 Config.ownMac ++ beBytes 2 0x88B6 ++ [1, 1] ++ beBytes 2 (b.get (AUXs_SLEEP_SLEEP_DLY_MS s)) ++
    beBytes 1 s ++ beBytes 1 (b.get (AUXs_STAT_REASON s)))

/-- The legacy frame of R596. -/
def legacyFrame : List Byte :=
  fit 60 (beBytes 6 0xFFFFFFFFFFFF ++ beBytes 6 Config.ownMac ++ beBytes 2 0x88B6 ++ [0x7F, 0, 0x46, 0x53])

/-- A frame leaves on segment s, with its check sequence. -/
def Block.auxSend (b : Block) (s : Nat) (f : List Byte) : Block :=
  let g := padded f
  ((b.emit (.aux s g)).auxCnt s 6 1).auxCnt s 7 (g.length + 4)

/-- R582, R591: the next of the three SLEEP frames; on a shared segment it is discarded without the lease. -/
def execSleepFrameTx (s : Nat) (st : State) : Host.Outcome State Fault Refusal :=
  auxRun s (fun b =>
    let x := b.auxOf s
    if b.auxState s ≠ axDRAINING ∨ x.failSafe = true ∨ 3 ≤ x.sent then b
    else
      let b := b.advanceXtal x.next
      let b := if x.pairShared && !b.leased then b.auxCnt s 8 1 else b.auxSend s (b.sleepFrame s)
      b.setAux s { x with sent := x.sent + 1, next := b.xtal + (if x.sent = 2 then b.get (AUXs_SLEEP_SLEEP_DLY_MS s) else 1) * 1000000 }) st

/-- R591: SLEEP_DLY_MS after the third frame the segment sleeps. -/
def execSleepDelayDone (s : Nat) (st : State) : Host.Outcome State Fault Refusal :=
  auxRun s (fun b =>
    let x := b.auxOf s
    if b.auxState s = axDRAINING ∧ x.sent = 3 then (b.advanceXtal x.next).auxSleep s else b) st

/-- R591, R596: the hold after SLEEP ends and AUXEN goes low. -/
def execAuxenHoldExpiry (s : Nat) (st : State) : Host.Outcome State Fault Refusal :=
  auxRun s (fun b => match (b.auxOf s).hold with
    | some e => (b.advanceXtal e).auxen s 0
    | none => b) st

/-- R586, R588: line activity of us microseconds on a sleeping segment; the detector fires after WAKE_MIN_US. -/
def execWakeDetect (s us : Nat) (st : State) : Host.Outcome State Fault Refusal :=
  auxRun s (fun b =>
    if b.auxState s ≠ axSLEEP ∨ b.on (AUXs_CFG_WAKE_EN s) = false ∨ us < clampN 20 255 (b.get (AUXs_WAKE_WAKE_MIN_US s)) then b
    else if b.on (AUXs_STAT_WAKE_LOCK s) || b.on (AUXs_STAT_FS_LATCHED s) then b.auxCnt s 15 1
    else
      let b := ((b.auxTo s axWAKING).powerReq (203 + s) dON).auxen s 1
      b.setAux s { b.auxOf s with window := b.xtal + b.get (AUXs_WAKE_FW_WIN_MS s) * 1000000 }) st

/-- R586, R590: FW_WIN_MS passes without a confirmation. -/
def execWakeWindowExpiry (s : Nat) (st : State) : Host.Outcome State Fault Refusal :=
  auxRun s (fun b =>
    if b.auxState s ≠ axWAKING then b
    else
      let b := b.advanceXtal (b.auxOf s).window
      let b := ((b.auxCnt s 14 1).auxCause s 2 1).auxSleep s
      let x := b.auxOf s
      let p := b.get (AUXs_FW_FW_PERIOD_MIN s) * 60000000000
      let fw := b.xtal :: x.falseWakes.filter (fun t => decide (b.xtal ≤ t + p))
      let b := b.setAux s { x with falseWakes := fw }
      if clampN 1 255 (b.get (AUXs_FW_FW_LIMIT s)) ≤ fw.length then
        let b := (b.set (AUXs_STAT_WAKE_LOCK s) 1).setAux s { x with falseWakes := fw, lockEnd := b.xtal + b.get (AUXs_FW_FW_LOCK_S s) * 1000000000 }
        (b.auxCause s 4 2).auxRecord s
      else b) st

/-- R590: WAKE_LOCK clears after FW_LOCK_S. -/
def execWakeLockExpiry (s : Nat) (st : State) : Host.Outcome State Fault Refusal :=
  auxRun s (fun b => if b.on (AUXs_STAT_WAKE_LOCK s) then (b.advanceXtal (b.auxOf s).lockEnd).auxUnlock s else b) st

/-- R595: KICK restarts the fail-safe timer. -/
def execAuxFsKick (s : Nat) (st : State) : Host.Outcome State Fault Refusal := auxRun s (fun b => b.fsRestart s) st

/-- R596: CLEAR clears FS_LATCHED and restarts the timer. -/
def execAuxFsClear (s : Nat) (st : State) : Host.Outcome State Fault Refusal :=
  auxRun s (fun b => (b.set (AUXs_STAT_FS_LATCHED s) 0).fsRestart s) st

/-- R595, R598: the fail-safe timer expires: FS_LATCHED, and outside SLEEP the fail-safe sequence in place of any other. -/
def execFailsafeTimeout (s : Nat) (st : State) : Host.Outcome State Fault Refusal :=
  auxRun s (fun b => match (b.auxOf s).fsEnd with
    | none => b
    | some e =>
      let b := b.advanceXtal e
      let b := (b.set (AUXs_STAT_FS_LATCHED s) 1).setAux s { b.auxOf s with fsEnd := none }
      if b.auxState s = axSLEEP then b
      else
        let b := if b.auxState s = axDRAINING ∧ (b.auxOf s).failSafe = true then b else b.auxDrain s 2
        (b.auxCause s 3 2).auxRecord s) st

/-- R596: the next frame of the fail-safe sequence, whoever holds the lease. -/
def execFailsafeFrameTx (s : Nat) (st : State) : Host.Outcome State Fault Refusal :=
  auxRun s (fun b =>
    let x := b.auxOf s
    if b.auxState s ≠ axDRAINING ∨ x.failSafe = false ∨ 3 ≤ x.sent then b
    else
      let b := b.advanceXtal x.next
      let legacy := x.fsMode == 2
      let b := b.auxSend s (if legacy then legacyFrame else b.sleepFrame s)
      let gap := if x.sent = 2 then b.get (AUXs_SLEEP_SLEEP_DLY_MS s) else if legacy then 10 else 1
      let b := b.setAux s { x with sent := x.sent + 1, next := b.xtal + gap * 1000000 }
      if legacy ∧ x.sent = 2 then b.auxSleep s else b) st

/-- R579: the PLCA status of segment s changes: to false, the fall back to CSMA/CD, or to true. -/
def execPlcaStatusChange (s : Nat) (v : Bool) (st : State) : Host.Outcome State Fault Refusal :=
  auxRun s (fun b =>
    if bit (b.auxOf s).cfg.toNat 30 && b.auxHears s && b.on (AUXs_STAT_PLCA_STATUS s) != v then
      (b.set (AUXs_STAT_PLCA_STATUS s) (if v then 1 else 0)).auxCause s 6 3
    else b) st

/-- R580: the jabber function ends a transmission. -/
def execJabber (s : Nat) (st : State) : Host.Outcome State Fault Refusal :=
  auxRun s (fun b => if b.auxHears s then (b.auxCnt s 12 1).auxCause s 7 3 else b) st

/-- R589, R598: sixteen wake words: a wake confirmed, a sleep abandoned before its third frame ends; after it, counted only. -/
def execWakeBurstDecoded (s : Nat) (st : State) : Host.Outcome State Fault Refusal :=
  auxRun s (fun b =>
    if b.auxState s = axWAKING then b.auxConfirm s
    else if b.auxState s = axDRAINING then (if 3 ≤ (b.auxOf s).sent then b.auxCnt s 13 1 else b.auxAbort s)
    else b) st

end Sys2Proof.Machine
end

