-- ==== Sys2Proof/Machine/TcmPort.lean ====
section
/-! DEFINITION. The TCM port of a tuft (R350, R353) and the PMP ranges that it respects (R332). -/

namespace Sys2Proof.Machine

open Sys2Proof Sys2Proof.Reg

def Block.frdCnt (b : Block) (c i : Nat) : Block := b.count (FRDc_CNTi c i) 1 (bitOf (FRDc_CNT_ROLL c) i) (768 + 4 * (c / 8) + 3)
def Block.tuftCnt (b : Block) (t i : Nat) : Block := b.count (FRD_TUFTt_CNTi t i) 1 (bitOf (FRD_TUFTt_CNT_ROLL t) i) (768 + 4 * t + 3)

/-- The task in hand on a physical core, started and not ended. -/
def Block.onCore (b : Block) (c : Nat) : Option TaskRun := b.crz.runs.find? (fun r => r.st != .pending && r.core == c)

/-- The PMP entries of an instance's block, L bits cleared (R301, R332). -/
def Block.pmpOf (b : Block) (i : Nat) : List Nat × List Nat :=
  let at' := 0x90000 + 0x100 * i
  ((List.range 16).map (fun k => b.loadNat .seq (at' + k) 1 % 128), (List.range 16).map (fun k => b.loadNat .seq (at' + 16 + 8 * k) 8))

/-- The range of PMP entry i: first byte and one more than the last, none where OFF (R332). -/
def Core.pmpRange (k : Core) (i : Nat) : Option (Nat × Nat) :=
  let a := k.pmpaddr.getD i 0 % 2 ^ 54
  match bits (k.pmpcfg.getD i 0) 3 2 with
  | 1 => some ((if i = 0 then 0 else k.pmpaddr.getD (i - 1) 0 % 2 ^ 54) * 4 / 8 * 8, a * 4 / 8 * 8)
  | 2 => some (a * 4 / 8 * 8, a * 4 / 8 * 8 + 8)
  | 3 =>
    let n := ((List.range 54).find? (fun j => !bit a j)).getD 54
    some (a / 2 ^ n * 2 ^ n * 4, a / 2 ^ n * 2 ^ n * 4 + 2 ^ (n + 3))
  | _ => none

/-! The TCM port (R353) -/

/-- Does a word of core c's TCM lie in a PMP region of an instance with a task in an active P or C bank on that core? -/
def Block.tcmGuarded (b : Block) (c addr : Nat) : Bool :=
  (b.activeDescs 0 ++ b.activeDescs 1).any (fun d =>
    b.coreOf (dLcore d.2) == c &&
      (let p := b.pmpOf (dInst d.2)
       let k : Core := { pmpcfg := p.1, pmpaddr := p.2 }
       (List.range 16).any (fun i => match k.pmpRange i with
         | some (lo, hi) => decide (addr < hi) && decide (lo < addr + 4)
         | none => false)))

/-- The port of tuft t: the core, the TCM and the byte offset that TCM_CTRL names. -/
def Block.tcmTarget (b : Block) (t : Nat) : Nat × Space × Nat :=
  let c := 8 * t + b.get (FRD_TUFTt_TCM_CTRL_CORE t)
  let o := 4 * b.get (FRD_TUFTt_TCM_CTRL_WORD t)
  (c, if b.on (FRD_TUFTt_TCM_CTRL_SPACE t) then .dtcm c else .itcm c, o)

/-- The access that TCM_CTRL of tuft t describes. -/
def Block.tcmAccess (b : Block) (t : Nat) : Block :=
  let x := b.tcmTarget t
  let b := b.set (FRD_TUFTt_TCM_CTRL_BUSY t) 0
  if 0x10000 < x.2.2 + 4 then b.set (FRD_TUFTt_TCM_CTRL_RESULT t) 2
  else if b.on (FRD_TUFTt_TCM_CTRL_WRITE t) then
    let addr := x.2.2 + (if b.on (FRD_TUFTt_TCM_CTRL_SPACE t) then 0x10000 else 0)
    if b.leased && b.tcmGuarded x.1 addr then ((b.set (FRD_TUFTt_TCM_CTRL_RESULT t) 1).tuftCnt t 1).raise (768 + 4 * t + 1)
    else b.stores x.2.1 x.2.2 (leBytes 4 (b.rd (FRD_TUFTt_TCM_DATA t)).toNat)
  else b.wr (FRD_TUFTt_TCM_DATA t) (BitVec.ofNat 32 (b.loadNat x.2.1 x.2.2 4))

/-- An access that waits runs once its core is idle, before the core's next start (R350). -/
def Block.tcmSettle (b : Block) (t : Nat) : Block :=
  if b.on (FRD_TUFTt_TCM_CTRL_BUSY t) && (b.onCore (b.tcmTarget t).1).isNone then b.tcmAccess t else b

/-- GO with the fields of v: an access waits, BUSY, while the core's task runs. -/
def Block.tcmGo (b : Block) (t : Nat) (v : Nat) (write : Bool) : Block :=
  let keep := bits v 23 4 * 2 ^ 23 + (if write then 2 ^ 27 else 0) + bits v 2 14 * 4
  ((b.wr (FRD_TUFTt_TCM_CTRL t) (BitVec.ofNat 32 keep)).set (FRD_TUFTt_TCM_CTRL_BUSY t) 1).tcmSettle t

end Sys2Proof.Machine
end

