-- ==== Sys2Proof/Machine/Crozier.lean ====
section
/-! DEFINITION. Crozier (chapter "Crozier sequencer and cyclic execution"): tasks in hand, staging, commits and digests, table
cycles, event-driven tasks, moves and program swaps. -/

namespace Sys2Proof.Machine

open Sys2Proof Sys2Proof.Reg

def Block.coreSt (b : Block) (c : Nat) : Core := b.frd.core.get (fun _ => {}) c
def Block.setCore (b : Block) (c : Nat) (x : Core) : Block := { b with frd := { b.frd with core := (c, x) :: b.frd.core } }

/-- The states of FRDc_STAT (R354). -/
abbrev cIDLE : Nat := 0
abbrev cRUNNING : Nat := 2
abbrev cOVER : Nat := 3
abbrev cCOMMIT : Nat := 4

/-! Tasks in hand -/

def TaskRun.inst (r : TaskRun) : Nat := dInst r.desc
def TaskRun.lcore (r : TaskRun) : Nat := dLcore r.desc

/-- The order of R301: class, ready tick, cyclic before event-driven, entry index. -/
def TaskRun.before (r q : TaskRun) : Bool :=
  decide (r.cls < q.cls) || (r.cls == q.cls && (decide (r.ready.tick < q.ready.tick) || (r.ready.tick == q.ready.tick &&
    ((!r.ev && q.ev) || (r.ev == q.ev && decide (r.ord ≤ q.ord))))))

def sameRun (r q : TaskRun) : Bool := r.task == q.task && r.ev == q.ev && r.ord == q.ord && r.ready.tick == q.ready.tick

/-- A task in hand replaced. -/
def Block.putRun (b : Block) (r q : TaskRun) : Block :=
  b.modCrz (fun c => { c with runs := c.runs.map (fun x => if sameRun x r then q else x) })

/-! Digests (R443, R444) -/

/-- NC of a task's record on this module (R444). -/
def Block.ncOf (b : Block) (r : TaskRun) : Nat :=
  if b.role = rSOLO ∨ b.ropeUp = false then 1
  else if dSig r.desc = 0 then 2
  else if r.settle then 3
  else if r.late ∨ r.mism ≠ 0 then 4
  else if r.ev ∧ r.ready.cause / 4096 = 8 then 5
  else if r.ready.tick < b.rope.cmpTick then 6
  else if r.ready.tick ∈ b.rope.ledgerBad then 7
  else 0

/-- A digest record is formed: STATUS 0 complete, 1 aborted, 2 stage fault, 3 withdrawn. -/
def Block.digest (b : Block) (r : TaskRun) (status : Nat) (outs : List Byte) : Block :=
  let v := if status = 0 then crc64 (leBytes 8 r.ready.tick ++ leBytes 2 r.task ++ leBytes 4 (dWord r.desc 6) ++ leBytes 4 (dWord r.desc 7) ++ outs) else 0
  let d : Digest := ⟨r.task, status, b.ncOf r, r.ready.tick, v, dSig r.desc, b.lastTick⟩
  let own := b.role == rSTANDBY && b.ropeUp
  b.modCrz (fun c => { c with digests := if own then c.digests ++ [d] else [], unsent := c.unsent ++ [d] })

/-! The end of a task -/

/-- A task leaves the hands of Crozier; its core is idle; a queued rerun becomes pending; a freezing instance may be frozen
(R306, R307, R458). -/
def Block.endRun (b : Block) (r : TaskRun) : Block :=
  let b := b.modCrz (fun c => { c with runs := c.runs.filter (fun x => !sameRun x r) ++
    (match r.rerun with
      | some (rd, m) => [{ r with ready := rd, merged := m, st := .pending, rerun := none, late := false, woken := false, mism := 0, settle := false, first := false }]
      | none => []) })
  let b := b.doIf (r.st != .pending) (fun b =>
    { (b.set (FRDc_STAT_STATE r.core) cIDLE) with frd := { b.frd with idleAt := (r.core, b.xtal) :: b.frd.idleAt } }.tcmSettle (r.core / 8))
  b.freezeCheck r.inst

/-- The TASK record of R673: kind 1 abort, 2 stage fault, 3 task fault, with a word and eight bytes. -/
def Block.taskRecord (b : Block) (source : Nat) (r : TaskRun) (kind : Nat) (w : Word) (tail : List Byte) : Block :=
  b.report 0x04 source (⟨.crz, 0⟩ : UnitRef).id 0
    ((leBytes 2 r.task ++ leBytes 1 r.gen ++ leBytes 1 kind ++ leBytes 4 w.toNat ++ fit 8 tail).map (fun x => x.toNat))

/-- A stage fault: element e of a list failed with a CAUSE; the task ends, its instance faults (R298). -/
def Block.stageFault (b : Block) (r : TaskRun) (cause e far : Nat) : Block :=
  let b := ((b.set CRZ_FAULT_INFO_CAUSE cause).set CRZ_FAULT_INFO_ELEMENT e).set CRZ_FAULT_INFO_TASK r.task
  let b := (b.wr64 CRZ_FAULT_FAR_LO far).crzCnt 4 1
  let b := (b.raise 711).taskRecord 711 r 2 (b.rd CRZ_FAULT_INFO) (leBytes 8 far)
  ((b.digest r 2 []).instFault r.inst 1 r.task).endRun { r with rerun := none }

/-- A task is aborted: its core halts, nothing is committed (R307). kind 1 abort, 3 task fault. -/
def Block.abortRun (b : Block) (r : TaskRun) (kind : Nat) : Block :=
  let b := (b.tblCnt r.cls 2 1).raise 710
  let b := b.taskRecord 710 r kind (b.rd (FRDc_FAULT r.core)) (leBytes 4 (b.rd (FRDc_FAULT_PC r.core)).toNat ++ leBytes 4 (b.rd (FRDc_FAULT_TVAL r.core)).toNat)
  let b := (b.set (FRDc_EXIT_VALID r.core) 0).setCore r.core { b.coreSt r.core with halted := false, haltReq := false }
  (b.digest r 1 []).endRun r

/-! Becoming pending -/

/-- A readiness becomes a task in hand: an instance not RUNNING withdraws it (R459), pressure sheds M and B work (R568), a
logical core without a physical one misses it (R314). -/
def Block.makePending (b : Block) (r : TaskRun) : Block :=
  if (b.cinst r.inst).state ≠ iRUNNING then b.vinCnt 4
  else if b.sheds r.cls r.inst then
    (b.nrgCnt (if r.cls = 2 then 0 else 1)).modCrz (fun c => { c with ran := c.ran.filter (fun t => t != r.task) })
  else if b.on (CRZ_LCMAPl_NOCORE r.lcore) ∨ b.on (CRZ_LCMAPl_EN r.lcore) = false then (b.tblCnt r.cls 3 1).raise 719
  else
    let core := b.coreOf r.lcore
    let b := b.doIf (!r.ev && b.crz.runs.any (fun q => (q.st != .pending && q.core == core) || (q.st == .pending && b.coreOf q.lcore == core)))
      (fun b => b.tblCnt r.cls 4 1)
    let b := b.modCrz (fun c => { c with runs := c.runs ++ [r] })
    b.doIf (decide (2 ≤ r.cls) && b.domState core != dON) (fun b => (b.powerReq (128 + core / 8) dON).powerReq core dON)

/-! Starting a task (R296, R300, R301) -/

/-- The pending task at the head of core c's queue. -/
def Block.coreHead (b : Block) (c : Nat) : Option TaskRun :=
  (b.crz.runs.filter (fun r => r.st == .pending && b.coreOf r.lcore == c)).foldl
    (fun h r => match h with | none => some r | some q => if r.before q then some r else h) none

/-- Must a task wait with its stage-in because a write at a tick not after its own waits for the stage-in of an earlier tick's task of its
instance, the next on another core (R472)? -/
def Block.writesAhead (b : Block) (c : Nat) (r : TaskRun) : Bool :=
  b.vin.writes.any (fun w => w.inst == r.inst && decide (w.tick ≤ r.ready.tick) &&
    (List.range 128).any (fun d => d != c && match b.coreHead d with
      | some q => q.inst == r.inst && decide (q.ready.tick < w.tick)
      | none => false))

/-- Do the start conditions of R301 hold for the head of a core's queue? -/
def Block.couldStart (b : Block) (c : Nat) (r : TaskRun) : Bool :=
  b.takes ⟨.crz, 0⟩ && b.takes ⟨.tuft, c / 8⟩ && b.takes ⟨.frond, c⟩ && (b.onCore c).isNone && (b.cinst r.inst).state == iRUNNING && !b.on (CRZ_LCMAPl_NOCORE r.lcore) &&
    !b.frd.changing.get (fun _ => false) (c / 8) &&
    b.get (FRDc_STAT_STATE c) == cIDLE && (r.late || r.ins.all (fun e => b.elemReady r e)) && !b.writesAhead c r

/-- The same, and an M or B task's core is ON (R551). -/
def Block.canStart (b : Block) (c : Nat) (r : TaskRun) : Bool := b.couldStart c r && (decide (r.cls < 2) || b.domState c == dON)

/-- The task that tuft t's stage engine takes next. -/
def Block.tuftHead (b : Block) (t : Nat) : Option (Nat × TaskRun) :=
  (List.range 8).foldl (fun h k =>
    let c := 8 * t + k
    match b.coreHead c with
    | none => h
    | some r =>
      if b.canStart c r then
        match h with
        | none => some (c, r)
        | some (_, q) => if r.before q then some (c, r) else h
      else h) none

/-- The stage-in of one element into the data TCM of core c: the records of space 6 whose TAG differs are counted, and the
element is marked (R296). -/
def Block.stageIn (b : Block) (c : Nat) (r : TaskRun) (e : Elem) : Block × Bool :=
  let l := b.farRead r e
  let size := if bit e.loc 55 then 32 else 192
  let m := match b.elemGroup e with | some g => b.target r g - e.lag | none => 0
  let bad := if e.space = 6 then (List.range e.units).filter (fun i => leAt l (size * i) 8 != m) else []
  let b := b.stores (.dtcm c) e.near l
  (b.doIf (!bad.isEmpty) (fun b => b.crzCnt 7 bad.length), !bad.isEmpty)

/-- The task header (R300). -/
def Block.taskHeader (b : Block) (r : TaskRun) (es : List Elem) : List Byte :=
  let tgt := match es.find? (fun e => e.space == 6 || e.space == 7 || e.space == 8) with
    | some e => (match b.elemGroup e with | some g => b.target r g | none => 0)
    | none => 0
  fit 64 (leBytes 8 r.ready.tick ++ leBytes 8 tgt ++ leBytes 2 r.task ++ leBytes 1 r.gen ++ leBytes 1 (r.cls + 4 * r.ev.toNat) ++
    leBytes 2 (if r.ev then r.ready.cause else 0xFFFF) ++
    leBytes 1 (r.late.toNat + 2 * (r.mism != 0).toNat + 4 * r.first.toNat + 8 * r.merged.toNat) ++ [0] ++ leBytes 8 r.mism ++
    leBytes 8 (tickNs b.tickRate r.ready.tick))

/-- Writes held for ticks up to one are applied to an instance's memory (R472): each is one commit. -/
def Block.applyWrites (b : Block) (i n : Nat) : Block :=
  let due := sortBy (fun (w v : PendWrite) => decide (w.tick ≤ v.tick)) (b.vin.writes.filter (fun w => w.inst == i && decide (w.tick ≤ n)))
  let b := b.modVin (fun v => { v with writes := v.writes.filter (fun w => !(w.inst == i && decide (w.tick ≤ n))) })
  due.foldl (fun b w =>
    if w.gen ≠ b.instGen i then b.vinCnt 2
    else
      let b := if w.dram then b.dramStore w.addr w.data
        else b.stores (.tuft ((w.addr - 0x8000000) / 0x400000)) (w.addr % 0x400000) w.data
      (b.vinCnt 9).completeOf w.qgen i w.sq w.cid 0 w.tick) b

/-- The head of core c's queue starts: writes of its tick are applied, PMP loaded, the stage-in list run, the header written,
the core started (R301, R336, R472). -/
def Block.startTask (b : Block) (c : Nat) (r : TaskRun) : Block :=
  let b := b.applyWrites r.inst r.ready.tick
  let es := r.ins
  match (List.range es.length).find? (fun i => b.elemCause r r.inst 65536 false (es.getD i ⟨0, 0, 0, 0, 0⟩) != 0) with
    | some i =>
      let e := es.getD i ⟨0, 0, 0, 0, 0⟩
      let b := (es.take i).foldl (fun b e => (b.stageIn c r e).1) b
      b.stageFault r (b.elemCause r r.inst 65536 false e) i e.far
    | none =>
      let p := (List.range es.length).foldl (fun (p : Block × Nat) i =>
        match p.1.stageIn c r (es.getD i ⟨0, 0, 0, 0, 0⟩) with
        | (b, true) => (b, putBits p.2 (if i < 63 then i else 63) 1 1)
        | (b, false) => (b, p.2)) (b, 0)
      let b := p.1
      let first := !(r.task ∈ b.crz.ran)
      let left := if first then dSettle r.desc + 1 else b.crz.settle.get (fun _ => 0) r.task
      let q := { r with st := .running, core := c, start := b.elapsedNs, first := first, settle := decide (0 < left), mism := p.2 }
      let b := (b.putRun r q).modCrz (fun z => { z with ran := if first then r.task :: z.ran else z.ran, settle := (r.task, left - 1) :: z.settle })
      let b := b.stores (.dtcm c) 0 (b.taskHeader q es)
      let pmp := b.pmpOf r.inst
      let x : Core := { x := [(10, BitVec.ofNat 64 (dWord r.desc 5)), (11, 0x10000), (12, BitVec.ofNat 64 (r.gen * 65536 + r.task))],
                        pc := BitVec.ofNat 64 (dEntry r.desc), pmpcfg := pmp.1, pmpaddr := pmp.2, time := tickNs b.tickRate r.ready.tick }
      let b := ((b.setCore c x).wr (FRDc_STAT c) (BitVec.ofNat 32 (cRUNNING * 2 ^ 24 + r.gen * 65536 + r.task))).frdCnt c 0
      let took := b.ns - tickNs b.tickRate r.ready.tick
      b.set (CRZ_TBLx_DISP_MAX_NS r.cls) (if b.get (CRZ_TBLx_DISP_MAX_NS r.cls) < took then satAdd 65535 0 took else b.get (CRZ_TBLx_DISP_MAX_NS r.cls))

/-! Commits (R299, R307) -/

/-- Does a byte of the output image belong to the module: bytes 16 to 63 of an enabled block's entry (R373)? -/
def Block.moduleOwned (b : Block) (a : Nat) : Bool :=
  (b.pub.map (fun e => e.1)).any (fun k =>
    let x := b.pubOf k
    let e := b.pubEntry x
    x.en && decide (e + 16 ≤ a) && decide (a < e + 64))

/-- One stage-out element written: the module's bytes of the output image and of the timer block keep their values. -/
def Block.stageOut (b : Block) (r : TaskRun) (e : Elem) (l : List Byte) : Block :=
  match e.space with
  | 3 =>
    let base := b.goutBase + e.loc
    (List.range l.length).foldl (fun b i => if b.moduleOwned (base + i) then b else b.store .intake (base + i) (l.getD i 0)) b
  | 5 => b.dramStore (bits e.loc 0 37) l
  | 9 => (List.range l.length).foldl (fun b i => if timerTaskByte (e.loc + i) then b.store .timer (e.loc + i) (l.getD i 0) else b) b
  | _ => match b.farAt r e with
    | some (sp, a) => b.stores sp a l
    | none => b

/-- All elements of a stage-out list written as one commit from where src reads them, or the index of the first that fails
(R299, R300). -/
def Block.commitOut (b : Block) (r : TaskRun) (i limit : Nat) (es : List Elem) (src : Elem → List Byte) : Option Nat × Block :=
  match (List.range es.length).find? (fun j => b.elemCause r i limit true (es.getD j ⟨0, 0, 0, 0, 0⟩) != 0) with
  | some j => (some j, b)
  | none =>
    let c := es.foldl (fun b e => b.stageOut r e (src e)) b
    (none, if es.any (fun e => e.space == 3) then c.pubCommit b else c)

/-- Is the handle of a task stale: its descriptor has another GEN by now (R292)? -/
def Block.staleRun (b : Block) (r : TaskRun) : Bool :=
  match b.desc r.task with
  | some d => dGen d != r.gen
  | none => false

/-- A task that has exited commits, forms its digest and is complete (R299, R307, R443); the completion of a stale handle is dropped
(R292). -/
def Block.commitTask (b : Block) (r : TaskRun) : Block :=
  let es := r.outs
  if b.staleRun r then (b.crzCnt 9 1).endRun r
  else
    match b.commitOut r r.inst 65536 es (fun e => b.load (.dtcm r.core) e.near e.len) with
    | (some j, b) => b.stageFault r 5 j (es.getD j ⟨0, 0, 0, 0, 0⟩).far
    | (none, c) =>
      let outs := (es.filter (fun e => e.flags % 2 == 0)).foldl (fun l e => l ++ b.load (.dtcm r.core) e.near e.len) []
      ((c.tblCnt r.cls 5 1).digest r 0 outs).endRun r

/-- A move entry: its stage-in into the move buffer, its stage-out as one commit (R285). -/
def Block.moveEntry (b : Block) (n : Nat) (c : TaskCopy) : Block :=
  let task := c.task
  let d := c.desc
  let ins := c.ins
  let outs := c.outs
  let r : TaskRun := { task := task, gen := dGen d, cls := dClass d, ev := false, ord := 0, ready := ⟨n, 0xFFFF, none⟩, desc := d, st := .pending }
  match (List.range ins.length).find? (fun i => b.elemCause r (dInst d) 16384 false (ins.getD i ⟨0, 0, 0, 0, 0⟩) != 0) with
    | some i => b.stageFault r (b.elemCause r (dInst d) 16384 false (ins.getD i ⟨0, 0, 0, 0, 0⟩)) i (ins.getD i ⟨0, 0, 0, 0, 0⟩).far
    | none =>
      let buf : Sparse Byte := ins.foldl (fun m e => ((List.range e.len).map (fun i => (e.near + i, (b.farRead r e).getD i 0))).reverse ++ m) []
      match b.commitOut r (dInst d) 16384 outs (fun e => (List.range e.len).map (fun i => buf.get (fun _ => 0) (e.near + i))) with
      | (some j, b) => b.stageFault r 5 j (outs.getD j ⟨0, 0, 0, 0, 0⟩).far
      | (none, c) => c

/-! Table cycles (R285, R286, R308, R309) -/

/-- CRZ_STATUS and the table's register show a state. -/
def Block.setTblState (b : Block) (x st : Nat) : Block :=
  (b.set CRZ_STATUS_STATE (putBits (b.get CRZ_STATUS_STATE) (2 * x) 2 st)).set (CRZ_TBLx_STAT_STATE x) st
def Block.tblState (b : Block) (x : Nat) : Nat := b.get (CRZ_TBLx_STAT_STATE x)

/-- Pending cyclic tasks of table x are withdrawn; those withdrawn at a boundary count in MISS and as outstanding. -/
def Block.withdrawPending (b : Block) (x : Nat) (boundary : Bool) : Block :=
  let rs := b.crz.runs.filter (fun r => r.st == .pending && !r.ev && r.cls == x)
  rs.foldl (fun b r =>
    let b := b.doIf boundary (fun b => (b.tblCnt x 3 1).raiseEvery 1 712)
    (b.digest r 3 []).endRun r) b

/-- Has the last started cycle of table x a task outstanding? -/
def Block.outstanding (b : Block) (x : Nat) : Bool :=
  b.crz.runs.any (fun r => !r.ev && r.cls == x && r.cycle == b.rd64 (CRZ_TBLx_CYCLES_LO x))

/-- The first P cycle of a start: STAGE 0xF, START_MS, event 0, the watchdog armed, a paired module in SYNCING (R421, R605,
R613). -/
def Block.firstP (b : Block) : Block :=
  if b.rst.ran then b
  else
    let b := b.modRst (fun r => { r with ran := true, crzDue := some (b.xtal + clampN 1 255 (b.get RST_WDOG_CRZ_MS) * 1000000) })
    let b := (b.set RST_START_STAGE 0xF).set RST_START_START_MS (satAdd 65535 0 ((b.xtal - b.rst.startAt) / 1000000))
    let b := (b.raiseIf (b.get RST_START_POLICY != 2) 0).modCrz (fun c => { c with renewAt := b.elapsedNs + 2000000 })
    if b.paired then b.setRole rSYNCING else b.setIf b.hasRope ROPE_ROLE_ROLE rSOLO

/-- A table starts a cycle. -/
def Block.startCycle (b : Block) (x : Nat) : Block :=
  let b := ((b.setTblState x 1).count64 ⟨.crz, 0⟩ (CRZ_TBLx_CYCLES_LO x)).set (CRZ_TBLx_STAT_CONSEC x) 0
  if x = 0 then b.firstP else b

/-- A boundary of table x (R308, R309). -/
def Block.boundary (b : Block) (x : Nat) : Block :=
  match b.tblState x with
  | 0 => b.startCycle x
  | 3 => b
  | _ =>
    let late := b.crz.runs.any (fun r => r.st == .pending && !r.ev && r.cls == x)
    let out := late || b.outstanding x
    let b := b.withdrawPending x true
    if out then
      let n := satAdd 255 (b.get (CRZ_TBLx_STAT_CONSEC x)) 1
      let b := (((b.setTblState x 2).set (CRZ_TBLx_STAT_CONSEC x) n).tblCnt x 0 1).raise (704 + x)
      if x = 0 ∧ clampN 1 255 (b.get CRZ_CTRL_P_SKIP_LIMIT) ≤ n then (b.raise 708).moduleFault else b
    else b.startCycle x

/-- A copy that was not complete when its task fell due: counted, with event 713 (R289). -/
def Block.lookLate (b : Block) : Block := (b.crzCnt 5 1).raiseEvery 1 713

/-- What a task's pinned copy gives; where there is none it is read now, late. -/
def Block.withPin (b : Block) (task : Nat) (f : TaskCopy → Block → Block) : Block :=
  match b.pinOf task with
  | some c => f c b
  | none => match b.readCopy task with
    | .inr c => f c b.lookLate
    | .inl a => b.badRead a.1 a.2

/-- An entry of table x due at tick n is made ready from its copy (R285). -/
def Block.entryDue (b : Block) (x n : Nat) (e : LookEntry) : Block :=
  if !b.released .crz then b
  else if e.kind = 1 then
    b.withPin e.task (fun c b =>
      if !dValid c.desc then b else if (b.cinst (dInst c.desc)).state = iRUNNING then b.moveEntry n c else b.vinCnt 4)
  else match e.copy with
    | some c =>
      if !dValid c.desc then b
      else b.makePending { task := e.task, gen := dGen c.desc, cls := x, ev := false, ord := e.idx, ready := ⟨n, 0xFFFF, none⟩,
                           cycle := b.rd64 (CRZ_TBLx_CYCLES_LO x), desc := c.desc, ins := c.ins, outs := c.outs }
    | none => b

/-- The entries of table x due at tick n, from the dispatch store; entries that the lookahead has not prepared are read now, and their
tasks count as late (R289). DESIGN CHOICE (notes/assumptions/174): the wait takes no time. -/
def Block.entriesDue (b : Block) (x n : Nat) : Block :=
  let k := b.get (tblBank x)
  if b.crz.looked.contains (n, x, k) then
    (b.crz.look.filter (fun e => e.tick == n && e.tbl == x && e.bank == k)).foldl (fun b e => b.entryDue x n e) b
  else
    let r := b.lookSet x k n
    r.1.foldl (fun b e => (b.doIf (e.kind == 0) Block.lookLate).entryDue x n e) r.2

/-- Table x at tick n: its boundary, then the entries of its offset. -/
def Block.tableTick (b : Block) (x n : Nat) : Block :=
  if !b.released .crz ∨ b.on CRZ_STATUS_FAULTED ∨ bit (b.get CRZ_CTRL_TBL_EN) x = false then b
  else
    let o := b.tblOffset x (b.get (tblBank x)) n
    let b := b.set (CRZ_TBLx_STAT_OFFSET x) o
    let b := if o = 0 then b.boundary x else b
    if b.tblState x = 1 ∧ b.on CRZ_STATUS_FAULTED = false then
      b.entriesDue x n
    else b

/-- How many ticks up to t lie at offset o of a bank. -/
def ticksAt (period phase o t : Nat) : Nat :=
  let f := (phase + o) % period
  if t < f then 0 else (t - f) / period + 1

/-- Entries of the ticks skipped between the last and n count in CRZ_TICK_GAP (R286). -/
def Block.tickGap (b : Block) (last n : Nat) : Block :=
  let k := (List.range 4).foldl (fun k x =>
    if b.tblState x = 1 ∨ b.tblState x = 2 then
      let bank := b.get (tblBank x)
      (b.activeEntries x).foldl (fun k e =>
        k + (ticksAt (b.tblPeriod x bank) (b.tblPhase x bank) e.off (n - 1) - ticksAt (b.tblPeriod x bank) (b.tblPhase x bank) e.off last)) k
    else k) 0
  if k = 0 then b else b.crzCnt 8 k

/-! Event-driven tasks (R304 to R306) -/

/-- A notice at a fence: its SOURCE, whether a pickup (comparators), and the group and instant of its decision. -/
structure Notice where
  source : Nat
  pickup : Bool
  dec : Option (Nat × Nat)
  deriving DecidableEq, Repr

/-- Does a trigger entry match a notice? -/
def TrigEntry.matches (e : TrigEntry) (x : Notice) : Bool :=
  e.source == x.source && (decide (0x8000 ≤ e.source) || bit e.action (if x.pickup then 0 else 1))

/-- The fence of ready tick n decides one task with matched entries. -/
def Block.decide1 (b : Block) (n task : Nat) (es : List TrigEntry) (xs : List Notice) : Block :=
  let hit := es.filter (fun e => e.task == task && xs.any (fun x => e.matches x))
  let ready := hit.find? (fun e => !bit e.action 2)
  let cancel := hit.any (fun e => bit e.action 2)
  let cur := b.crz.runs.find? (fun r => r.ev && r.task == task)
  match ready, cancel, cur with
  | some _, true, _ => b.crzCnt 0 1
  | none, true, none => b.crzCnt 2 1
  | none, true, some _ => (b.crzCnt 1 1).raiseEvery 1000 723
  | none, false, _ => b
  | some e, false, cur =>
    let rd : Ready := ⟨n, e.source, match xs.find? (fun x => e.matches x) with | some x => x.dec | none => none⟩
    match cur with
    | none => b.withPin task (fun c b =>
        if dValid c.desc then b.makePending { task := task, gen := dGen c.desc, cls := dClass c.desc, ev := true, ord := e.idx, ready := rd,
                                              desc := c.desc, ins := c.ins, outs := c.outs } else b)
    | some r =>
      if r.st = .pending then (b.putRun r { r with merged := true }).crzCnt 3 1
      else match r.rerun with
        | none => b.putRun r { r with rerun := some (rd, false) }
        | some (q, _) => (b.putRun r { r with rerun := some (q, true) }).crzCnt 3 1

/-- A fence: every task whose trigger entries match its notices is decided (R306). -/
def Block.fence (b : Block) (n : Nat) (xs : List Notice) : Block :=
  if xs.isEmpty ∨ b.on CRZ_STATUS_FAULTED ∨ !b.released .crz then b
  else
    let es := b.activeTrig
    let tasks := ((es.filter (fun e => xs.any (fun x => e.matches x))).map (fun e => e.task)).dedup
    tasks.foldl (fun b t => b.decide1 n t es xs) b

/-- The decision instant of a comparator's notice in its group (R305): the tag of a fine source, ⌈I / DEC_IN⌉ of a coarse one. -/
def Block.noticeDec (b : Block) (x : ThrNotice) : Option (Nat × Nat) :=
  match b.chGroup (x.k / 4) with
  | none => none
  | some g =>
    let c := b.chanOf (x.k / 4)
    let coarse := (b.thrOf x.k).src == 1 && !c.fpAa
    some (g, if coarse then (x.tag + b.decIn g - 1) / b.decIn g else x.tag)

/-- The time of decimated instant m of group g. -/
def Block.decNs (b : Block) (g m : Nat) : Nat := (b.grpOf g).tInst (m * b.decIn g)

/-- The marker of instant m of group g: the snapshot is copied, and the fences whose last instant of g is m are decided, in
the order of their ready ticks (R297, R305). -/
def Block.instantMarker (b : Block) (g m : Nat) : Block :=
  let b := (b.snapRanges.filter (fun s => s.2.2.1 == g)).foldl (fun b s =>
    b.stores .seq (0xB1000 + 0x8000 * (m % 2) + s.2.2.2) (b.load .intake (b.get THR_CTRL_PLANE_BASE * 65536 + 8 * s.1) (8 * s.2.1))) b
  let last := latestTick b.tickRate (b.decNs g (m + 1) - 1)
  let tickOf := fun (x : ThrNotice) => match b.noticeDec x with
    | some (h, d) => if h = g then some (latestTick b.tickRate (b.decNs g d)) else none
    | none => none
  let due := b.sor.notices.filterMap (fun x => match tickOf x with
    | some n => if n < last ∨ (n = last ∧ tickNs b.tickRate (last + 1) ≤ b.decNs g (m + 1)) then some (n, x) else none
    | none => none)
  let b := { b with sor := { b.sor with notices := b.sor.notices.filter (fun x => !(due.map (fun d => d.2)).contains x) } }
  (sortBy (fun (x y : Nat) => decide (x ≤ y)) (due.map (fun d => d.1)).dedup).foldl (fun b n =>
    b.fence n ((due.filter (fun d => d.1 == n)).map (fun d => (⟨d.2.k, d.2.pickup, b.noticeDec d.2⟩ : Notice)))) b

/-- The fence of the subscription changes of tick n, at its flip (R367). -/
def Block.ginFence (b : Block) (n : Nat) : Block :=
  let due := b.gin.notices.filter (fun x => decide (x.2 ≤ n))
  let b := { b with gin := { b.gin with notices := b.gin.notices.filter (fun x => decide (n < x.2)) } }
  b.fence n (due.map (fun x => (⟨0x9000 + x.1, true, none⟩ : Notice)))

/-- The fence of the event inputs active at a tick (R75, R304). -/
def Block.evtFence (b : Block) (n : Nat) : Block :=
  let es := b.crzEvt
  ({ b with crzEvt := [] }).fence n (es.map (fun e => (⟨0x8000 + e, true, none⟩ : Notice)))

/-! Program swaps (R315 to R318) -/

def Block.swapState (b : Block) : Nat := b.get CRZ_SWAP_CTRL_STATE
def Block.swapHas (b : Block) (x : Nat) : Bool := bit (b.get CRZ_SWAP_CTRL_TABLES) x

/-- Is tick n a boundary of every table in TABLES under both banks? -/
def Block.swapBoundary (b : Block) (n : Nat) : Bool :=
  (List.range 4).all (fun x => !b.swapHas x || (b.tblOffset x 0 n == 0 && b.tblOffset x 1 n == 0))

/-- The next tick from n on that is such a boundary; the fuel is one more than the ticks tried. -/
def Block.swapNext (b : Block) (n : Nat) : Nat → Nat
  | 0 => n
  | k + 1 => if b.swapBoundary n then n else b.swapNext (n + 1) k

/-- A SWAP frame with the S, TABLES and TRIG of this module (R435, R451). -/
def Block.swapSay (b : Block) : Block :=
  b.ropeSay 0xD (beBytes 8 b.crz.swapAt ++ beBytes 1 (b.get CRZ_SWAP_CTRL_TABLES) ++ beBytes 1 (b.get CRZ_SWAP_CTRL_TRIG) ++ [0, 0] ++
    beBytes 8 (b.rd64 IMG_STAGED_ID_LO))

/-- A swap is deferred to the next common boundary, or abandoned once RETRY deferrals are used (R318). -/
def Block.swapDefer (b : Block) (n : Nat) : Block :=
  if b.get CRZ_SWAP_CTRL_RETRY ≤ b.get CRZ_SWAP_CTRL_DEFERRALS then (b.set CRZ_SWAP_CTRL_STATE 4).raise 717
  else
    let per := (List.range 4).foldl (fun p x => if b.swapHas x then Nat.lcm p (Nat.lcm (b.tblPeriod x 0) (b.tblPeriod x 1)) else p) 1
    let b := b.modCrz (fun c => { c with swapAt := b.swapNext (n + 1) (per + 1) })
    (((b.set CRZ_SWAP_CTRL_STATE 3).set CRZ_SWAP_CTRL_DEFERRALS (b.get CRZ_SWAP_CTRL_DEFERRALS + 1)).raise 716).swapSay

/-- The instances that own a task of a bank which an armed swap makes active: those whose state a carry entry serves (R462). -/
def Block.carryInsts (b : Block) : List Nat :=
  let ts := (List.range 4).foldl (fun l x => if b.swapHas x then l ++ (b.tblEntries x (1 - b.get (tblBank x))).map (fun e => e.task) else l) [] ++
    (if b.on CRZ_SWAP_CTRL_TRIG then (b.trigEntries (1 - b.get CRZ_STATUS_TRIG_BANK)).map (fun e => e.task) else [])
  (ts.dedup.filterMap (fun t => (b.desc t).map dInst)).dedup

/-- Why a carry entry fails, as CRZ_FAULT_INFO.CAUSE, with the FAR at fault: a space that R315 does not allow it, no instance of the
program whose windows hold both of its ends, or DRAM that the region map does not permit that instance (R315, R462); 0 where it
passes. The entry does not name its instance: any that it could serve will do (DEDUCED, notes/assumptions/202.md). -/
def Block.carryCause (b : Block) (op : Nat) (src dst : Elem) : Nat × Nat :=
  let held := fun (i : Nat) (e : Elem) (out : Bool) =>
    (b.cinst i).windows.any (fun w => winHolds w e.space e.loc e.len && (winOut w || (!out && winIn w)))
  let mapped := fun (i : Nat) (e : Elem) (out : Bool) => e.space != 5 || b.regionAllows (bits e.loc 0 37) e.len i out
  let is := b.carryInsts
  if op ≠ 1 ∧ !([1, 2, 3, 5, 9].contains src.space) then (3, src.far)
  else if op ≠ 2 ∧ !([2, 3, 5, 9].contains dst.space) then (3, dst.far)
  else
    let us := is.filter (fun i => op == 1 || held i src false)
    let vs := us.filter (fun i => op == 2 || held i dst true)
    if us.isEmpty then (1, src.far)
    else if vs.isEmpty then (1, dst.far)
    else if vs.any (fun i => (op == 1 || mapped i src false) && (op == 2 || mapped i dst true)) then (0, 0)
    else (2, if vs.any (fun i => op == 1 || mapped i src false) then dst.far else src.far)

/-- One carry entry (R315); the bytes it counts. One that fails its check moves nothing and is recorded as a stage fault is (R298,
R462). -/
def Block.carryEntry (b : Block) (n i : Nat) : Block × Nat :=
  let l := b.load .seq (0xA0000 + 32 * i) 32
  let len := leAt l 16 4
  let r : TaskRun := { task := 0, gen := 0, cls := 0, ev := false, ord := 0, ready := ⟨n, 0xFFFF, none⟩, desc := [] }
  let src : Elem := ⟨leAt l 0 8, 0, len, 0, 0⟩
  let dst : Elem := ⟨leAt l 8 8, 0, len, 0, 0⟩
  let k := b.carryCause (leAt l 20 1) src dst
  if k.1 ≠ 0 ∧ leAt l 20 1 < 3 then
    let b := (b.set CRZ_FAULT_INFO_CAUSE k.1).set CRZ_FAULT_INFO_ELEMENT i
    (((b.wr64 CRZ_FAULT_FAR_LO k.2).crzCnt 4 1).raise 711, 0)
  else match leAt l 20 1 with
  | 0 => (b.stageOut r dst (b.farRead r src), len)
  | 1 => (b.stageOut r dst (List.replicate len 0), len)
  | 2 =>
    -- settings lie at SRC, 16 bytes a comparator, from the comparator that DST names
    let rec' := b.farRead r src
    let k0 := bits (leAt l 8 8) 0 15
    let loads := (List.range (len / 16)).map (fun j =>
      (⟨k0 + j, leAt rec' (16 * j) 4, leAt rec' (16 * j + 4) 4, leAt rec' (16 * j + 8) 2 + 65536 * leAt rec' (16 * j + 10) 2,
        tickNs b.tickRate n⟩ : ThrLoad))
    (b.modCrz (fun c => { c with loads := c.loads ++ loads }), len)
  | _ => (b, 0)

/-- Tick S: the swap is checked, its carry applied, the banks flipped (R317). -/
def Block.swapApply (b : Block) (n : Nat) : Block :=
  let trig := b.on CRZ_SWAP_CTRL_TRIG
  let busy := (List.range 4).any (fun x => b.swapHas x && b.outstanding x) || (trig && b.crz.runs.any (fun r => r.ev))
  if busy then b.swapDefer n
  else
    let p := (List.range (clampN 0 2048 (b.get CRZ_SWAP_CTRL_CARRY_COUNT))).foldl
      (fun (p : Block × Nat) i => let r := p.1.carryEntry n i; (r.1, p.2 + r.2)) (b, 0)
    let b := p.1
    let old := (List.range 4).foldl (fun l x => if b.swapHas x then l ++ (b.activeEntries x).map (fun e => e.task) else l) []
    let oldTrig := if trig then b.activeTrig.map (fun e => e.task) else []
    let b := b.each 4 (fun x b => b.doIf (b.swapHas x) (fun b =>
      (b.set (tblBank x) (1 - b.get (tblBank x))).set (CRZ_TBLx_STAT_CONSEC x) 0))
    let b := b.doIf trig (fun b => b.set CRZ_STATUS_TRIG_BANK (1 - b.get CRZ_STATUS_TRIG_BANK))
    let new := (List.range 4).foldl (fun l x => if b.swapHas x then l ++ (b.activeEntries x).map (fun e => e.task) else l) [] ++
      (if trig then b.activeTrig.map (fun e => e.task) else [])
    let b := b.modCrz (fun c => { c with snapBank := 1 - c.snapBank, ran := c.ran.filter (fun t => (old ++ oldTrig).contains t || !new.contains t) })
    let ns := 500 + (p.2 + 31) / 32
    let b := ((b.wr64 CRZ_SWAP_DONE_LO n).set CRZ_SWAP_STAT_CARRY_NS (satAdd 65535 0 ns)).set CRZ_SWAP_CTRL_STATE 2
    (b.raise 715).pinCopies.showPcMapped

/-- A swap due at a tick, or one whose tick was skipped (R317, R318). -/
def Block.swapTick (b : Block) (n : Nat) : Block :=
  if b.swapState = 1 ∨ b.swapState = 3 then
    if n = b.crz.swapAt then b.swapApply n else if b.crz.swapAt < n then b.swapDefer n else b
  else b

/-! A tick (R285, R286) -/

/-- The digests formed since the last tick leave in one frame (R443). -/
def Block.sendDigests (b : Block) (n : Nat) : Block :=
  let ds := b.crz.unsent
  let b := b.modCrz (fun c => { c with unsent := [] })
  if ds.isEmpty then b
  else b.ropeSay 7 (beBytes 8 (n - 1) ++ beBytes 2 ds.length ++ [0, 0] ++
    ds.foldl (fun l d => l ++ beBytes 2 d.task ++ beBytes 1 d.status ++ beBytes 1 d.nc ++ beBytes 4 d.tick ++ beBytes 8 d.value) [])

/-- Crozier acts on tick number n. -/
def Block.crzTick (b : Block) (n : Nat) : Block :=
  let b := b.sendDigests n
  let b := match b.crz.last with
    | some l => b.doIf (decide (l + 1 < n)) (fun b => b.tickGap l n)
    | none => b
  let b := b.modCrz (fun c => { c with last := some n })
  let b := b.doIf b.rst.crzDue.isSome (fun b =>
    b.modRst (fun r => { r with crzDue := some (b.xtal + clampN 1 255 (b.get RST_WDOG_CRZ_MS) * 1000000) }))
  let b := if b.on CRZ_STATUS_FAULTED then b else b.swapTick n
  let b := b.evtFence n
  let b := b.each 4 (fun x b => b.tableTick x n)
  -- R289: during tick n Crozier reads what is due at tick n + 2
  if b.released .crz then b.lookahead n (n + 2) else b

/-! The commands -/

/-- Tuft t's stage engine takes the next pending task whose start conditions hold (R301). An M or B task that waits only for its core to be ON
counts in WAKE_LATE once (R551). -/
def Block.taskStart (t : Nat) (b : Block) : Block :=
  if 16 ≤ t then b
  else match b.tuftHead t with
    | some (c, r) => b.startTask c r
    | none =>
      b.each 8 (fun k b => match b.coreHead (8 * t + k) with
        | some r => b.doIf (b.couldStart (8 * t + k) r && !b.canStart (8 * t + k) r && !r.woken)
            (fun b => (((b.putRun r { r with woken := true }).nrgCnt 2).raiseEvery 1 25))
        | none => b)

/-- R285: Crozier acts on the oldest tick number it has not acted on. -/
def execCrzTick (s : State) : Host.Outcome State Fault Refusal :=
  runAt .crz (fun b =>
    match b.crz.ticks with
    | [] => b
    | n :: rest => ((b.modCrz (fun c => { c with ticks := rest })).crzTick n).ropeEval) s

/-- R296: the hold limit of the task at the head of core c's queue passes; it starts with what the locations hold. -/
def execHoldLimitExpiry (c : Nat) (s : State) : Host.Outcome State Fault Refusal :=
  runAt .crz (fun b =>
    match b.coreHead c with
    | none => b
    | some r =>
      let met := r.ins.all (fun e => b.elemReady r e)
      if met || r.late then b
      else
        let b := b.advanceTo (tickNs b.tickRate r.ready.tick + b.get (CRZ_TBLx_HOLD_HOLD_US r.cls) * 1000)
        ((b.putRun r { r with late := true }).crzCnt 6 1).raise 720) s

/-- The budget of a running task passes (R307). -/
def Block.overrun (b : Block) (r : TaskRun) : Block :=
  let b := (b.putRun r { r with st := .over }).set (FRDc_STAT_STATE r.core) cOVER
  (b.tblCnt r.cls 1 1).raiseEvery 1 709

/-- A task exits with the low byte of a0 (R307, R320, R337). -/
def Block.exitTask (b : Block) (c : Nat) : Block :=
  match b.onCore c with
  | none => b
  | some r =>
    if r.st = .commit ∨ r.st = .pending then b
    else if 2 * dBudget r.desc ≤ b.elapsedNs - r.start then b.abortRun r 1
    else
      let b := if r.st = .running ∧ dBudget r.desc < b.elapsedNs - r.start then b.overrun r else b
      let r := { r with st := if dBudget r.desc < b.elapsedNs - r.start then .over else r.st }
      let x := b.coreSt c
      let b := (b.set (FRDc_EXIT_VALID c) 1).set (FRDc_EXIT_STATUS c) (x.x.get (fun _ => 0) 10).toNat
      let cyc := satAdd (2 ^ 32 - 1) 0 x.cycles
      let b := b.wr (FRDc_CYC_LAST c) (BitVec.ofNat 32 cyc)
      let b := b.doIf (decide ((b.rd (FRDc_CYC_MAX c)).toNat < cyc)) (fun b => b.wr (FRDc_CYC_MAX c) (BitVec.ofNat 32 cyc))
      (b.putRun r { r with st := .commit }).set (FRDc_STAT_STATE c) cCOMMIT

/-- R307, R337: the task on core c exits. -/
def execTaskExit (c : Nat) (s : State) : Host.Outcome State Fault Refusal :=
  runAt .crz (fun b => b.exitTask c) s

/-- R307: BUDGET of the task on core c elapses. -/
def execBudgetExpiry (c : Nat) (s : State) : Host.Outcome State Fault Refusal :=
  runAt .crz (fun b =>
    match b.onCore c with
    | some r => if r.st = .running then (b.advanceElapsed (r.start + dBudget r.desc)).overrun r else b
    | none => b) s

/-- R307: twice BUDGET of the task on core c elapses. -/
def execTaskAbort (c : Nat) (s : State) : Host.Outcome State Fault Refusal :=
  runAt .crz (fun b =>
    match b.onCore c with
    | some r => if r.st = .over then (b.advanceElapsed (r.start + 2 * dBudget r.desc)).abortRun r 1 else b
    | none => b) s

/-- R310, R425, R426: a renewal point of the lease. -/
def execLeaseRenewal (s : State) : Host.Outcome State Fault Refusal :=
  runAt .crz (fun b =>
    if !b.rst.ran then b
    else
      let b := b.advanceElapsed b.crz.renewAt
      let b := b.modCrz (fun c => { c with renewAt := c.renewAt + 2000000 })
      let k := b.leaseChecks
      let b := b.setIf b.hasRope ROPE_HEALTH_CHECKS k
      let owed := b.role == rSOLO || b.rope.lease
      (if k = 31 ∧ owed then b.leaseTake else b).ropeEval) s

/-- R316: ARM. -/
def execSwapArm (v : Word) (s : State) : Host.Outcome State Fault Refusal :=
  runAt .crz (fun b =>
    let b := (((b.set CRZ_SWAP_CTRL_RETRY (bits v.toNat 23 4)).set CRZ_SWAP_CTRL_TABLES (bits v.toNat 15 4)).set CRZ_SWAP_CTRL_TRIG
      (bits v.toNat 14 1)).set CRZ_SWAP_CTRL_CARRY_COUNT (bits v.toNat 0 13)
    if s.block.swapState = 1 ∨ s.block.swapState = 3 ∨ bit v.toNat 31 = false then s.block
    else
      let t := b.rd64 CRZ_SWAP_TICK_LO
      if b.lastTick + 3 ≤ t ∧ b.swapBoundary t = true ∧ b.get CRZ_SWAP_CTRL_CARRY_COUNT ≤ 2048 then
        let b := ((b.modCrz (fun c => { c with swapAt := t })).set CRZ_SWAP_CTRL_STATE 1).set CRZ_SWAP_CTRL_DEFERRALS 0
        b.doIf (b.role == rACTIVE) Block.swapSay
      else (b.set CRZ_SWAP_CTRL_STATE 5).raise 714) s

/-- R316: CANCEL. -/
def execSwapCancel (s : State) : Host.Outcome State Fault Refusal :=
  runAt .crz (fun b => if b.swapState = 1 then b.set CRZ_SWAP_CTRL_STATE 0 else b) s

/-- R291, R322: the descriptor that CRZ_DESC_IDX names is read into CRZ_DESC_DATA0–7. -/
def execDescRead (s : State) : Host.Outcome State Fault Refusal :=
  runAt .crz (fun b =>
    let d := b.get CRZ_DESC_IDX_INDEX
    match b.desc d with
    | some ws => (b.each 8 (fun w b => b.wr (CRZ_DESC_DATAw w) (BitVec.ofNat 32 (dWord ws w)))).set CRZ_DESC_CMD_RESULT 0
    | none => if b.inControl (b.descAddr d) 32 then b.crzFail (b.descAddr d) else b.noRegion.set CRZ_DESC_CMD_RESULT 2) s

/-- Is descriptor d named by an active table entry, an active trigger entry or a pinned copy (R289, R292)? -/
def Block.descInUse (b : Block) (d : Nat) : Bool :=
  (List.range 4).any (fun x => (b.activeEntries x).any (fun e => e.task == d)) || b.activeTrig.any (fun e => e.task == d) ||
    b.crz.pinned.any (fun c => c.task == d) || ((b.swapState == 1 || b.swapState == 3) &&
      ((List.range 4).any (fun x => b.swapHas x && (b.tblEntries x (1 - b.get (tblBank x))).any (fun e => e.task == d)) ||
        (b.on CRZ_SWAP_CTRL_TRIG && (b.trigEntries (1 - b.get CRZ_STATUS_TRIG_BANK)).any (fun e => e.task == d))))

/-- A descriptor written, with GEN one more than it was: its RESULT; refused in use or with a content that is not valid (R473:
an instance that is FREE). -/
def Block.descPut (b : Block) (d : Nat) (ws : List Nat) : Nat × Block :=
  let a := b.descAddr d
  if b.descInUse d then (1, b)
  else if b.instState (dInst ws) = iFREE ∨ b.inControl a 32 = false ∨ bits (dWord ws 0) 7 5 ≠ 0 ∨ bits (dWord ws 1) 0 8 ≠ 0 ∨
      bits (dWord ws 2) 24 8 ≠ 0 ∨ bits (dWord ws 2) 0 24 < 1000 then (2, b)
  else
    let gen := (b.loadNat .dram a 4 / 2 ^ 20 % 256 + 1) % 256
    let w0 := putBits (dWord ws 0) 20 8 gen
    (0, b.dramStore a (leBytes 4 w0 ++ (ws.drop 1).foldl (fun l w => l ++ leBytes 4 w) []))

/-- R292: a descriptor is written from CRZ_DESC_DATA0–7. -/
def execDescWrite (s : State) : Host.Outcome State Fault Refusal :=
  runAt .crz (fun b =>
    let d := b.get CRZ_DESC_IDX_INDEX
    let r := b.descPut d ((List.range 8).map (fun w => (b.rd (CRZ_DESC_DATAw w)).toNat))
    if r.1 = 0 ∧ b.lineOk (b.descAddr d) = false then b.crzFail (b.descAddr d) else r.2.set CRZ_DESC_CMD_RESULT r.1) s

/-- R309, R322: a write of TBL_EN. Clearing bit 0 or 1 under the lease is discarded; a table disabled goes to IDLE, its pending
tasks withdrawn. -/
def execTblEnWrite (who : Requester) (v : Nat) (s : State) : Host.Outcome State Fault Refusal :=
  runAt .crz (fun b =>
    let old := b.get CRZ_CTRL_TBL_EN
    if b.leased ∧ (old % 4) &&& v % 4 ≠ old % 4 then b.rootErr who CRZ_CTRL ROOT_ERR_REFUSED
    else
      let b := b.set CRZ_CTRL_TBL_EN v
      (b.each 4 (fun x b =>
        b.doIf (bit old x && !bit v x && (b.tblState x == 1 || b.tblState x == 2)) (fun b => (b.withdrawPending x false).setTblState x 0))).showPcMapped) s

end Sys2Proof.Machine
end

