-- ==== Sys2Proof/Machine/Frond.lean ====
section
/-! DEFINITION. The Frond cores (chapter "Frond cores and task programming model"): their address map and PMP, task faults,
Xgfrond, debug halts, the TCM port and the tuft clock. -/

namespace Sys2Proof.Machine

open Sys2Proof Sys2Proof.Reg

/-- A 64-bit word of a core. -/
abbrev DWord := BitVec 64

/-! Registers of a core -/

def Core.rx (k : Core) (r : Nat) : DWord := if r = 0 then 0 else k.x.get (fun _ => 0) r
def Core.wx (k : Core) (r : Nat) (v : DWord) : Core := if r = 0 then k else { k with x := Sparse.put (fun _ => 0) r v k.x }
def Core.rf (k : Core) (r : Nat) : DWord := k.f.get (fun _ => 0) r
def Core.wf (k : Core) (r : Nat) (v : DWord) : Core := { k with f := Sparse.put (fun _ => 0) r v k.f, fs := 3 }

/-! Cycles (R346) -/

/-- An instruction that issues for n cycles once its sources are ready, and whose result is ready l cycles after its issue. -/
def Core.spend (k : Core) (n l : Nat) (srcs : List Nat) (dst : Option Nat) : Core :=
  let go := srcs.foldl (fun t r => let a := k.readyAt.get (fun _ => 0) r; if t < a then a else t) k.cycles
  { k with cycles := go + n, readyAt := match dst with
      | some d => Sparse.put (fun _ => 0) d (go + l) k.readyAt
      | none => k.readyAt }

/-! Memory as a task sees it (R328, R329, R332) -/

/-- Kinds of access. -/
inductive Access
  | fetch | load | store
  deriving DecidableEq, Repr

/-- The access-fault and misaligned causes of a kind. -/
def Access.fault : Access → Nat
  | .fetch => 1 | .load => 5 | .store => 7
def Access.misaligned : Access → Nat
  | .fetch => 0 | .load => 4 | .store => 6

/-- Does PMP allow user mode an access of n bytes: the lowest entry that holds any of them must hold them all and permit it? -/
def Core.pmpOk (k : Core) (a n : Nat) (kind : Access) : Bool :=
  match (List.range 16).find? (fun i => match k.pmpRange i with
      | some (lo, hi) => decide (a < hi) && decide (lo < a + n)
      | none => false) with
  | none => false
  | some i =>
    match k.pmpRange i with
    | none => false
    | some (lo, hi) => decide (lo ≤ a) && decide (a + n ≤ hi) &&
        bit (k.pmpcfg.getD i 0) (match kind with | .fetch => 2 | .load => 0 | .store => 1)

/-- Where n bytes at an address lie for user mode: a TCM and its offset, or the cause of the exception. aligned says that the
access must be aligned whatever the memory. -/
def Core.place (k : Core) (c a n : Nat) (kind : Access) (aligned : Bool) : Sum Nat (Space × Nat) :=
  let mis := a % n != 0
  if mis && (aligned || decide (a < 0x10000)) then .inl kind.misaligned
  else if a + n ≤ 0x10000 then
    if kind = .store ∨ k.pmpOk a n kind = false then .inl kind.fault else .inr (.itcm c, a)
  else if 0x10000 ≤ a ∧ a + n ≤ 0x20000 then
    if kind = .fetch ∨ k.pmpOk a n kind = false then .inl kind.fault else .inr (.dtcm c, a - 0x10000)
  else .inl kind.fault

/-! Task faults (R343) -/

/-- An exception taken from user mode on core c ends its task. -/
def Block.taskFault (b : Block) (c cause : Nat) (tval : DWord) : Block :=
  match b.onCore c with
  | none => b
  | some r =>
    if r.st = .commit then b
    else
      let k := b.coreSt c
      let b := b.setCore c { k with mcause := cause, mepc := k.pc, mtval := tval, resv := none }
      let b := b.wr (FRDc_FAULT c) (BitVec.ofNat 32 (2 ^ 31 + k.gstart * 65536 + cause % 256))
      let b := (b.wr (FRDc_FAULT_PC c) (k.pc.setWidth 32)).wr (FRDc_FAULT_TVAL c) (tval.setWidth 32)
      let b := ((b.frdCnt c 1).tuftCnt (c / 8) 0).raise (768 + 4 * (c / 8))
      (b.abortRun r 3).instFault r.inst 2 r.task

/-- ECALL: the exit of the task with a7 = 0, else a task fault, with mtval 0: PRESUMED (R337, R343,
notes/assumptions/204). -/
def Block.ecall (b : Block) (c : Nat) : Block :=
  if (b.coreSt c).rx 17 = 0 then b.exitTask c else b.taskFault c 0x18 0

/-! Xgfrond (R339 to R342) -/

/-- Is core c ready to execute an instruction of its task: running, not halted? -/
def Block.running (b : Block) (c : Nat) : Bool :=
  match b.onCore c with
  | some r => (r.st == .running || r.st == .over) && !(b.coreSt c).halted
  | none => false

/-- The scalar operand of a register (s32). -/
def q31 (v : DWord) : Int := sgn 32 v.toNat
/-- The real and imaginary parts of a packed register. -/
def cRe (v : DWord) : Int := sgn 32 v.toNat
def cIm (v : DWord) : Int := sgn 32 (v.toNat / 2 ^ 32)
/-- pack of R340. -/
def packC (re im : Int) : DWord := BitVec.ofNat 64 (uns 32 re + 2 ^ 32 * uns 32 im)
/-- sext of R340. -/
def sext32 (v : Int) : DWord := BitVec.ofInt 64 v

/-- An Xgfrond instruction of R340: the integer result, if any, and the core after. -/
inductive XgOp
  | qadd | qsub | qmul | qneg | qshl | qrshr | cmul | cmulc | cmac | cmacc | caccrd | cacclr | cmag | cang
  deriving DecidableEq, Repr

/-- xfsat collects the flags of an instruction. -/
def Core.sticky (k : Core) (q acc : Bool) : Core := { k with sat := k.sat ||| (q.toNat + 2 * acc.toNat) }

/-- The effect of R340 on the registers of a core. -/
def XgOp.run (o : XgOp) (k : Core) (rd rs1 rs2 : Nat) : Core :=
  let v1 := k.rx rs1
  let v2 := k.rx rs2
  let a := q31 v1
  let c := q31 v2
  let scalar := fun (x : Int) => let s := satS 32 x; (k.wx rd (sext32 s.1)).sticky s.2 false
  let conj := o == .cmulc || o == .cmacc
  let br := cRe v2
  let bi := if conj then -(cIm v2) else cIm v2
  let pr := cRe v1 * br - cIm v1 * bi
  let pi := cRe v1 * bi + cIm v1 * br
  let packed := fun (x y : Int) => let s := satS 32 x; let t := satS 32 y; (k.wx rd (packC s.1 t.1)).sticky (s.2 || t.2) false
  let accum := let s := satS 80 (k.accRe + pr); let t := satS 80 (k.accIm + pi)
    ({ k with accRe := s.1, accIm := t.1 }).sticky false (s.2 || t.2)
  match o with
  | .qadd => scalar (a + c)
  | .qsub => scalar (a - c)
  | .qmul => scalar (rne (a * c) 31)
  | .qneg => scalar (-a)
  | .qshl => scalar (a * ((2 ^ (v2.toNat % 32) : Nat) : Int))
  | .qrshr => k.wx rd (sext32 (sgn 32 (uns 32 (rne a (v2.toNat % 32)))))
  | .cmul => packed (rne pr 31) (rne pi 31)
  | .cmulc => packed (rne pr 31) (rne pi 31)
  | .cmac => accum
  | .cmacc => accum
  | .caccrd => packed (rne k.accRe (v1.toNat % 64)) (rne k.accIm (v1.toNat % 64))
  | .cacclr => { k with accRe := 0, accIm := 0 }
  | .cmag => k.wx rd (BitVec.ofNat 64 (nearestSqrt (cRe v1 * cRe v1 + cIm v1 * cIm v1).toNat))
  | .cang => k.wx rd (sext32 (sgn 32 (angle32 (cIm v1) (cRe v1))))

/-- Its cycles: issue, latency, sources and destination (R346). -/
def XgOp.cost (o : XgOp) (rd rs1 rs2 : Nat) : Nat × Nat × List Nat × Option Nat :=
  match o with
  | .qmul => (1, 3, [rs1, rs2], some rd)
  | .cmul | .cmulc => (1, 4, [rs1, rs2], some rd)
  | .cmac | .cmacc => (1, 4, [rs1, rs2], some 64)
  | .caccrd => (1, 3, [rs1, 64], some rd)
  | .cacclr => (1, 1, [], some 64)
  | .cmag => (6, 6, [rs1], some rd)
  | .cang => (12, 12, [rs1], some rd)
  | .qneg => (1, 1, [rs1], some rd)
  | _ => (1, 1, [rs1, rs2], some rd)

/-- An instruction's effect, its cycles, and pc past its four bytes. -/
def XgOp.step (o : XgOp) (k : Core) (rd rs1 rs2 : Nat) : Core :=
  let t := o.cost rd rs1 rs2
  let d := match t.2.2.2 with | some 0 => none | x => x
  let k := (o.run k rd rs1 rs2).spend t.1 t.2.1 t.2.2.1 d
  { k with pc := k.pc + 4 }

/-- An Xgfrond instruction on core c. -/
def Block.xg (b : Block) (o : XgOp) (c rd rs1 rs2 : Nat) : Block :=
  if c < 128 ∧ b.running c = true then b.setCore c (o.step (b.coreSt c) (rd % 32) (rs1 % 32) (rs2 % 32)) else b

/-- How one element of a GLD16 went: an exception with its cause and address, or the word stored. -/
inductive GatherStep
  | fault (cause : Nat) (tval : DWord)
  | done (b : Block)

/-- Element i of a GLD16 (R341). -/
def Block.gather1 (b : Block) (c : Nat) (dst base ix : DWord) (i : Nat) : GatherStep :=
  let k := b.coreSt c
  let ai := (ix + BitVec.ofNat 64 (2 * i))
  match k.place c ai.toNat 2 .load true with
  | .inl e => .fault e ai
  | .inr (sp, o) =>
    let as := base + BitVec.ofNat 64 (4 * b.loadNat sp o 2)
    match k.place c as.toNat 4 .load true with
    | .inl e => .fault e as
    | .inr (sp', o') =>
      let v := b.loadNat sp' o' 4
      let ad := dst + BitVec.ofNat 64 (4 * i)
      match k.place c ad.toNat 4 .store true with
      | .inl e => .fault e ad
      | .inr (sd, od) => .done (b.storeNat sd od 4 v)

/-- The elements of a GLD16 from xfgstart on: fuel many are left. A requested debug halt is taken between two elements (R342,
R350), and after the last one: DEDUCED (notes/assumptions/203). -/
def Block.gatherFrom (b : Block) (c : Nat) (dst base ix : DWord) (n : Nat) : Nat → Block
  | 0 =>
    let k := b.coreSt c
    let b := b.setCore c { k with gstart := 0, pc := k.pc + 4, halted := k.halted || k.haltReq, haltReq := false }
    b.doIf k.haltReq (fun b => b.set (FRDc_STAT_STATE c) 6)
  | fuel + 1 =>
    let k := b.coreSt c
    let i := n - (fuel + 1)
    let b := b.setCore c { k with gstart := i }
    match b.gather1 c dst base ix i with
    | .fault e a => b.taskFault c e a
    | .done b =>
      if k.haltReq ∧ fuel ≠ 0 then
        (b.setCore c { k with gstart := i + 1, halted := true, haltReq := false }).set (FRDc_STAT_STATE c) 6
      else b.gatherFrom c dst base ix n fuel

/-- GLD16 on core c (R341). -/
def Block.gld16 (b : Block) (c rd rs1 rs2 n : Nat) : Block :=
  let k := b.coreSt c
  let b := b.setCore c (k.spend (2 + 2 * n) (2 + 2 * n) [rd, rs1, rs2] none)
  b.gatherFrom c (k.rx rd) (k.rx rs1) (k.rx rs2) n (n - k.gstart)

/-! The Xgfrond commands: one instruction at the core's pc, with its register operands -/

def execQadd (c rd rs1 rs2 : Nat) (s : State) : Host.Outcome State Fault Refusal := runUnit ⟨.frond, c⟩ (fun b => b.xg .qadd c rd rs1 rs2) s
def execQsub (c rd rs1 rs2 : Nat) (s : State) : Host.Outcome State Fault Refusal := runUnit ⟨.frond, c⟩ (fun b => b.xg .qsub c rd rs1 rs2) s
def execQmul (c rd rs1 rs2 : Nat) (s : State) : Host.Outcome State Fault Refusal := runUnit ⟨.frond, c⟩ (fun b => b.xg .qmul c rd rs1 rs2) s
def execQneg (c rd rs1 : Nat) (s : State) : Host.Outcome State Fault Refusal := runUnit ⟨.frond, c⟩ (fun b => b.xg .qneg c rd rs1 0) s
def execQshl (c rd rs1 rs2 : Nat) (s : State) : Host.Outcome State Fault Refusal := runUnit ⟨.frond, c⟩ (fun b => b.xg .qshl c rd rs1 rs2) s
def execQrshr (c rd rs1 rs2 : Nat) (s : State) : Host.Outcome State Fault Refusal := runUnit ⟨.frond, c⟩ (fun b => b.xg .qrshr c rd rs1 rs2) s
def execCmul (c rd rs1 rs2 : Nat) (s : State) : Host.Outcome State Fault Refusal := runUnit ⟨.frond, c⟩ (fun b => b.xg .cmul c rd rs1 rs2) s
def execCmulc (c rd rs1 rs2 : Nat) (s : State) : Host.Outcome State Fault Refusal := runUnit ⟨.frond, c⟩ (fun b => b.xg .cmulc c rd rs1 rs2) s
def execCmac (c rs1 rs2 : Nat) (s : State) : Host.Outcome State Fault Refusal := runUnit ⟨.frond, c⟩ (fun b => b.xg .cmac c 0 rs1 rs2) s
def execCmacc (c rs1 rs2 : Nat) (s : State) : Host.Outcome State Fault Refusal := runUnit ⟨.frond, c⟩ (fun b => b.xg .cmacc c 0 rs1 rs2) s
def execCaccrd (c rd rs1 : Nat) (s : State) : Host.Outcome State Fault Refusal := runUnit ⟨.frond, c⟩ (fun b => b.xg .caccrd c rd rs1 0) s
def execCaccclr (c : Nat) (s : State) : Host.Outcome State Fault Refusal := runUnit ⟨.frond, c⟩ (fun b => b.xg .cacclr c 0 0 0) s
def execCmag (c rd rs1 : Nat) (s : State) : Host.Outcome State Fault Refusal := runUnit ⟨.frond, c⟩ (fun b => b.xg .cmag c rd rs1 0) s
def execCang (c rd rs1 : Nat) (s : State) : Host.Outcome State Fault Refusal := runUnit ⟨.frond, c⟩ (fun b => b.xg .cang c rd rs1 0) s

/-- R341: GLD16 of n words, 1 to 16, on core c. -/
def execGld16 (c rd rs1 rs2 n : Nat) (s : State) : Host.Outcome State Fault Refusal :=
  runUnit ⟨.frond, c⟩ (fun b => if c < 128 ∧ b.running c = true then b.gld16 c (rd % 32) (rs1 % 32) (rs2 % 32) (clampN 1 16 n) else b) s

/-! Debug (R342, R350, R354) -/

/-- R342: a debug halt of core c; within a GLD16 it is taken between two elements. -/
def execDebugHalt (c : Nat) (inGather : Bool) (s : State) : Host.Outcome State Fault Refusal :=
  runUnit ⟨.frond, c⟩ (fun b =>
    if 128 ≤ c ∨ b.on KEY_STATUS_DEBUG = false ∨ b.running c = false then b
    else if inGather then b.setCore c { b.coreSt c with haltReq := true }
    else (b.setCore c { b.coreSt c with halted := true }).set (FRDc_STAT_STATE c) 6) s

/-- R342: the core goes on from where it halted; its budget timer never stopped. -/
def execDebugResume (c : Nat) (s : State) : Host.Outcome State Fault Refusal :=
  runUnit ⟨.frond, c⟩ (fun b =>
    match b.onCore c with
    | some r =>
      if (b.coreSt c).halted then
        (b.setCore c { b.coreSt c with halted := false }).set (FRDc_STAT_STATE c) (if r.st = .over then cOVER else cRUNNING)
      else b
    | none => b) s

/-! The TCM port (R353) -/

/-- R353: a read of a TCM word into TCM_DATA. -/
def execTcmRead (t : Nat) (v : Word) (s : State) : Host.Outcome State Fault Refusal :=
  runUnit ⟨.tuft, t⟩ (fun b => if t < 16 ∧ b.on (FRD_TUFTt_TCM_CTRL_BUSY t) = false then b.tcmGo t v.toNat false else b) s

/-- R353: a write of a TCM word from TCM_DATA. -/
def execTcmWrite (t : Nat) (v : Word) (s : State) : Host.Outcome State Fault Refusal :=
  runUnit ⟨.tuft, t⟩ (fun b => if t < 16 ∧ b.on (FRD_TUFTt_TCM_CTRL_BUSY t) = false then b.tcmGo t v.toNat true else b) s

/-! The tuft clock (R347, R348, R554, R555) -/

/-- The target of tuft t's PLL in MHz (R554, R569). -/
def Block.tuftTarget (b : Block) (t : Nat) : Nat :=
  let fmin := b.get (FRD_TUFTt_CLK_FMIN_MHZ t)
  let f := clampN 200 1600 (b.get (FRD_TUFTt_CLK_FREQ_MHZ t))
  let f := if bit (b.get NRG_TUFT_CAP_CAPPED) t then fmin else f
  let a := 25 * (f / 25)
  let c := 25 * ((fmin + 24) / 25)
  if a < c then c else a

/-- A change to the target waits until no core of the tuft is at work (R348). -/
def Block.tuftRetune (b : Block) (t : Nat) : Block :=
  let f := b.tuftTarget t
  { b with frd := { b.frd with freq := (t, if f = b.get (FRD_TUFTt_STAT_CUR_MHZ t) then none else some f) :: b.frd.freq } }

/-- R347: a write of FREQ_MHZ; one to a tuft that holds a P or C task of an active bank is discarded. -/
def execTuftFreqWrite (t : Nat) (v : Word) (s : State) : Host.Outcome State Fault Refusal :=
  runUnit ⟨.tuft, t⟩ (fun b =>
    if 16 ≤ t then b
    else
      let b := b.showPcMapped
      if b.on (FRD_TUFTt_STAT_PC_MAPPED t) then (b.set (FRD_TUFTt_STAT_FREQ_REFUSED t) 1).raise (768 + 4 * t + 2)
      else (b.set (FRD_TUFTt_CLK_FREQ_MHZ t) (v.toNat % 65536)).tuftRetune t) s

/-- R348, R555: the waiting change of tuft t starts, on the safe clock, once no core of it is at work; or the one under way
ends, done after its hold. -/
def execTuftClockChange (t : Nat) (done : Bool) (s : State) : Host.Outcome State Fault Refusal :=
  runUnit ⟨.tuft, t⟩ (fun b =>
    if 16 ≤ t then b
    else match b.frd.freq.get (fun _ => none) t, b.frd.changing.get (fun _ => false) t, done with
      | some f, false, false =>
        if (List.range 8).any (fun k => (b.onCore (8 * t + k)).isSome) then b
        else
          let old := b.get (FRD_TUFTt_STAT_CUR_MHZ t)
          let m := if old < f then old else f
          let safe := if m = 0 then 0 else 1000 / ((1000 + m - 1) / m)
          let b := ((b.set (FRD_TUFTt_STAT_SAFE_CLK t) 1).set (FRD_TUFTt_STAT_CUR_MHZ t) safe).set (FRD_TUFTt_STAT_LOCK t) 0
          let b := b.set (bitOf NRG_CLK_LOCK t) 0
          { b with frd := { b.frd with changing := (t, true) :: b.frd.changing } }
      | some f, true, true =>
        let b := ((b.set (FRD_TUFTt_STAT_SAFE_CLK t) 0).set (FRD_TUFTt_STAT_CUR_MHZ t) f).set (FRD_TUFTt_STAT_LOCK t) 1
        let b := { b with frd := { b.frd with changing := (t, false) :: b.frd.changing, freq := (t, none) :: b.frd.freq } }
        let b := b.modNrg (fun n => { n with retried := (t, false) :: n.retried })
        ((b.set (bitOf NRG_CLK_LOCK t) 1).tuftCnt t 2).raise (768 + 4 * t + 2)
      | _, _, _ => b) s

end Sys2Proof.Machine
end

