-- ==== Sys2Proof/Machine/Vin.lean ====
section
/-! DEFINITION. Queue commands (R471 to R474, R502): the translation unit (R467, R468), the commands of instances, their saved
images (R476 to R479), and the slices (R465). -/

namespace Sys2Proof.Machine

open Sys2Proof Sys2Proof.Reg

/-! The statuses of R474 -/

abbrev qOK : Nat := 0
abbrev qSTATE : Nat := 1
abbrev qLATE : Nat := 2
abbrev qRANGE : Nat := 3
abbrev qOVERLAP : Nat := 4
abbrev qSHAPE : Nat := 5
abbrev qSIG : Nat := 6
abbrev qCHECK : Nat := 7
abbrev qIN_USE : Nat := 8
abbrev qNO_PASID : Nat := 9
abbrev qQUOTA : Nat := 10
abbrev qTU_FAULT : Nat := 11
abbrev qBUSY : Nat := 13

/-- How a command ends: its status and RESULT, or later at its tick, or never. -/
inductive Ending
  | done (status result : Nat)
  | later
  | never

/-! Submission entries (R495, R502) -/

/-- The parameter bytes that R502 names, as (first, count). -/
def namedParams (op : Nat) : List (Nat × Nat) :=
  match op with
  | 0x01 => [(8, 8), (16, 8), (24, 4)]
  | 0x02 => [(8, 8), (16, 8), (24, 4), (40, 8)]
  | 0x10 => [(8, 3), (12, 4), (16, 2), (18, 2), (20, 2), (22, 2), (24, 2), (32, 8)]
  | 0x11 => [(8, 1), (32, 8)]
  | 0x12 => [(8, 1), (16, 2), (18, 2), (32, 8)]
  | 0x13 => [(8, 1), (16, 2), (18, 2)]
  | 0x14 | 0x15 | 0x18 | 0x19 => [(8, 1), (40, 8)]
  | 0x16 | 0x17 => [(8, 1), (24, 4), (32, 8)]
  | 0x1A | 0x1B => [(8, 1)]
  | 0x20 => [(8, 3), (12, 2), (14, 2), (16, 2), (32, 8)]
  | 0x21 | 0x22 => [(8, 1), (12, 2)]
  | _ => []

/-- Are all bytes 0 that neither R495 nor R502 names? -/
def paramsClean (e : List Byte) : Bool :=
  let named := namedParams (leAt e 0 1)
  (1 :: 6 :: 7 :: List.range' 8 56).all (fun i => leAt e i 1 == 0 || named.any (fun r => decide (r.1 ≤ i) && decide (i < r.1 + r.2)))

/-! The translation unit (R467, R468) -/


/-- The page size of instance i in bytes. -/
def Block.tuPage (b : Block) (i : Nat) : Nat :=
  match b.get (VIN_INSTi_TU_PAGE i) with | 0 => 4096 | 1 => 65536 | _ => 2 ^ 21

/-- An access of n bytes at an instance address, needing bit 1 (R) or 2 (W) of ACCESS: the target address with bit 63 as in
TARGET, or the CAUSE of VIN_FAULT_INFO and whether a stale generation was met. -/
def Block.translate (b : Block) (i ia n need : Nat) : Sum (Nat × Bool) Nat :=
  let p := b.tuPage i
  if b.get (VIN_INSTi_TU_COUNT i) ≤ ia / p then .inl (1, false)
  else
    let a := tuAt (b.get (VIN_INSTi_TU_FIRST i) + ia / p)
    let w := (b.rd (a + 8)).toNat
    if !bit w 16 then .inl (2, false)
    else if bits w 0 8 ≠ i then .inl (3, false)
    else if bits w 8 8 ≠ b.instGen i then .inl (3, true)
    else if !bit w (16 + need) then .inl (4, false)
    else if p < ia % p + n then .inl (5, false)
    else .inr (b.rd64 a + ia % p)

/-- A refused translation: latched, counted, event 99 (R467). -/
def Block.tuFault (b : Block) (i ia cause : Nat) (stale : Bool) : Block :=
  let b := b.wr VIN_FAULT_INFO (BitVec.ofNat 32 (cause * 2 ^ 28 + i * 2 ^ 20))
  (((b.wr64 VIN_FAULT_IA_LO ia).doIf stale (fun b => b.vinCnt 2)).vinCnt 3).raiseEvery 1 99

/-- The bank and byte that a BAR0 offset within the Thallus windows names (R519). -/
def thlSpace (o : Nat) : Option (Space × Nat) :=
  if o < 0x8000000 then none
  else if o < 0xC000000 then some (.tuft ((o - 0x8000000) / 0x400000), o % 0x400000)
  else if o < 0xD800000 then some (.intake, o - 0xC000000)
  else if o < 0xDE00000 then some (.acq, o - 0xD800000)
  else none

/-- Does a page lie wholly in a window of the instance that a test accepts: its target as in TARGET, n bytes? -/
def Block.pageIn (b : Block) (i target n : Nat) (ok : (Nat × Nat) → Bool) : Bool :=
  let ws := (b.windows i).filter (fun w => winUsed w && ok w)
  if !bit target 63 then ws.any (fun w => winHolds w 5 (target % 2 ^ 37) n) && decide (target < 2 ^ 37)
  else match thlSpace (target % 2 ^ 63) with
    | some (.tuft t, o) => ws.any (fun w => b.tuftOf (bits w.1 52 4) == t && winHolds w 2 (bits w.1 52 4 * 2 ^ 52 + o) n)
    | some (.intake, o) => ws.any (fun w => winHolds w 1 o n ||
        (decide (b.goutBase ≤ o) && winHolds w 3 (o - b.goutBase) n) ||
        (decide (b.get RHZ_GIN_BASE_BASE * 65536 ≤ o) && winHolds w 4 (o - b.get RHZ_GIN_BASE_BASE * 65536) n))
    | _ => false

/-- Is an entry of INST_MAP one that R468 accepts? -/
def Block.mapOk (b : Block) (i : Nat) (l : List Byte) : Bool :=
  let t := leAt l 0 8
  let acc := leAt l 10 1
  let p := b.tuPage i
  decide (acc < 8) && t % p == 0 && leAt l 11 5 == 0 &&
    (!bit acc 0 ||
      ((!bit acc 1 || b.pageIn i t p (fun w => decide (1 ≤ winSpace w) && decide (winSpace w ≤ 5))) &&
        (!bit acc 2 || b.pageIn i t p (fun w => winHostw w && (winSpace w == 2 || winSpace w == 5))) &&
        (bit t 63 || b.regionAllows (t % 2 ^ 37) p i (bit acc 2) ||
          (i == 0 && !bit acc 2 && (b.regionOfRange (t % 2 ^ 37) p).isSome))))

/-! Data commands (R471, R472) -/

/-- n bytes at a translated target. -/
def Block.tuLoad (b : Block) (target n : Nat) : List Byte :=
  if !bit target 63 then b.load .dram (target % 2 ^ 37) n
  else match thlSpace (target % 2 ^ 63) with
    | some (sp, o) => b.load sp o n
    | none => List.replicate n 0

/-- Does a line of n bytes of DRAM fail its check: its address (R537)? -/
def Block.badLine (b : Block) (a n : Nat) : Option Nat :=
  ((List.range ((a % 64 + n + 63) / 64)).find? (fun k => !b.lineOk (a + 64 * k))).map (fun k => a + 64 * k)

/-- READ: n bytes from an instance address to host memory. -/
def Block.cmdRead (b : Block) (i : Nat) (e : List Byte) : Ending × Block :=
  let ia := leAt e 8 8
  let n := leAt e 24 4
  if 2 ^ 20 < n then (.done qRANGE 0, b)
  else match b.translate i ia n 1 with
    | .inl (c, st) => (.done qTU_FAULT 0, b.tuFault i ia c st)
    | .inr t =>
      match (if bit t 63 then none else b.badLine (t % 2 ^ 37) n) with
      | some a => (.never, (b.crcError a 1).controlFault ⟨.vin, 0⟩)
      | none => (.done qOK 0, b.hostStore i (leAt e 16 8) (b.tuLoad t n))

/-- The tick limits of R472. -/
def Block.tickLimit (b : Block) (t : Nat) : Option Nat :=
  if t < b.lastTick + 2 then some qLATE else if b.lastTick + 2 ^ 24 < t then some qRANGE else none

/-- WRITE_AT_TICK: the data is read at once and waits for its tick. -/
def Block.cmdWrite (b : Block) (i q : Nat) (e : List Byte) : Ending × Block :=
  let ia := leAt e 16 8
  let n := leAt e 24 4
  let t := leAt e 40 8
  if 65536 < n then (.done qRANGE 0, b)
  else match b.tickLimit t with
    | some st => (.done st 0, b)
    | none =>
      match b.translate i ia n 2 with
      | .inl (c, st) => (.done qTU_FAULT 0, b.tuFault i ia c st)
      | .inr a =>
        if 262144 < (b.vin.writes.map (fun w => w.data.length)).sum + n then (.done qBUSY 0, b)
        else
          let r := b.queueGens i q
          let b := r.2
          let d := b.hostLoad i (leAt e 8 8) n
          let b := d.2
          let w : PendWrite := ⟨i, b.instGen i, q, leAt e 2 2, t, !bit a 63, a % 2 ^ 63, d.1, r.1⟩
          (.later, b.modVin (fun v => { v with writes := v.writes ++ [w] }))

/-! Instances (R458, R460, R463, R503) -/

/-- The 16 windows in a byte list. -/
def windowsOf (l : List Byte) : List (Nat × Nat) := (List.range 16).map (fun w => (leAt l (16 * w) 8, leAt l (16 * w + 8) 8))

/-- Are windows well-formed by R461? -/
def windowsShape (ws : List (Nat × Nat)) : Bool :=
  ws.all (fun w => !winUsed w || (bits w.2 56 8 == 0 && decide (winLo w ≤ winHi w) &&
    (winSpace w != 2 || bits (winLo w) 52 4 == bits (winHi w) 52 4)))

/-- Do windows of instance i break R463? -/
def Block.windowsOverlap (b : Block) (i : Nat) (ws : List (Nat × Nat)) : Bool :=
  let bad := fun (v w : Nat × Nat) => (winOut v || winHostw v) && winMeet v w && !(winShared v && winIn w && !winOut w && !winHostw w)
  ws.any (fun w => winOut w && winHostw w) ||
    (List.range 16).any (fun x => (List.range x).any (fun y => winMeet (ws.getD x (0, 0)) (ws.getD y (0, 0)))) ||
    (List.range 256).any (fun j => j != i && b.instState j != iFREE &&
      (b.windows j).any (fun v => ws.any (fun w => bad v w || bad w v)))

/-- Do two ranges of first and count share a number? -/
def rangesMeet (f n g m : Nat) : Bool := decide (0 < n) && decide (0 < m) && decide (f < g + m) && decide (g < f + n)

/-- The 256 bytes of an instance's PMP block. -/
def pmpAt (i : Nat) : Nat := 0x90000 + 0x100 * i

/-- An instance set up from the parameters e of INST_CREATE and l, its 256 bytes of windows and its PMP block. -/
def Block.createFrom (b : Block) (e l : List Byte) : Ending × Block :=
  let i := leAt e 8 1
  let pasid := leAt e 12 4
  let quota := leAt e 16 2
  let vf := leAt e 18 2
  let vn := leAt e 20 2
  let tf := leAt e 22 2
  let tn := leAt e 24 2
  let page := leAt e 10 1
  let ws := windowsOf l
  let others := (List.range 256).filter (fun j => j != i && b.instState j != iFREE)
  if b.member.instances ≤ i then (.done qRANGE 0, b)
  else if b.instState i ≠ iFREE then (.done qSTATE 0, b)
  else if 2 < page ∨ 2 ^ 20 ≤ pasid ∨ 1024 < quota ∨ 2048 < vf + vn ∨ 16384 < tf + tn ∨ windowsShape ws = false ∨
      others.any (fun j => rangesMeet vf vn (b.get (VIN_INSTi_VEC_FIRST j)) (b.get (VIN_INSTi_VEC_COUNT j)) ||
        rangesMeet tf tn (b.get (VIN_INSTi_TU_FIRST j)) (b.get (VIN_INSTi_TU_COUNT j))) = true then (.done qRANGE 0, b)
  else if b.windowsOverlap i ws then (.done qOVERLAP 0, b)
  else
    let g := (b.instGen i + 1) % 256
    let b := b.wr (VIN_INSTi_STAT i) (BitVec.ofNat 32 (g * 2 ^ 24 + bits (leAt e 9 1) 0 1 * 2 ^ 20 + (if i = 0 then 0 else pasid)))
    let b := b.wr (VIN_INSTi_QUOTA i) (BitVec.ofNat 32 quota)
    let b := b.wr (VIN_INSTi_TU i) (BitVec.ofNat 32 (page * 2 ^ 30 + tn * 2 ^ 15 + tf))
    let b := b.wr (VIN_INSTi_VEC i) (BitVec.ofNat 32 (vf * 2 ^ 16 + vn))
    let b := (b.setWindows i ws).stores .seq (pmpAt i) (l.drop 256)
    (.done qOK g, b.setInst i iCONFIGURED)

/-- INST_CREATE. -/
def Block.cmdCreate (b : Block) (e : List Byte) : Ending × Block :=
  if leAt e 8 1 < b.member.instances ∧ b.instState (leAt e 8 1) ≠ iFREE then (.done qSTATE 0, b)
  else
    let l := b.hostLoad 0 (leAt e 32 8) 512
    l.2.createFrom e l.1

/-- INST_SET_WINDOWS. -/
def Block.cmdWindows (b : Block) (e : List Byte) : Ending × Block :=
  let i := leAt e 8 1
  if b.instState i ≠ iCONFIGURED ∧ b.instState i ≠ iFROZEN then (.done qSTATE 0, b)
  else
    let r := b.hostLoad 0 (leAt e 32 8) 512
    let b := r.2
    let l := r.1
    let ws := windowsOf l
    if windowsShape ws = false then (.done qRANGE 0, b)
    else if b.windowsOverlap i ws then (.done qOVERLAP 0, b)
    else (.done qOK 0, ((b.setWindows i ws).stores .seq (pmpAt i) (l.drop 256)).copyInst i)

/-- Do entries f to f+n−1 lie in the instance's range? -/
def Block.tuOwns (b : Block) (i f n : Nat) : Bool :=
  decide (b.get (VIN_INSTi_TU_FIRST i) ≤ f) && decide (f + n ≤ b.get (VIN_INSTi_TU_FIRST i) + b.get (VIN_INSTi_TU_COUNT i))

/-- INST_MAP and INST_UNMAP. -/
def Block.cmdMap (b : Block) (e : List Byte) (map : Bool) : Ending × Block :=
  let i := leAt e 8 1
  let f := leAt e 16 2
  let n := leAt e 18 2
  if b.instState i = iFREE then (.done qSTATE 0, b)
  else if !b.tuOwns i f n then (.done qRANGE 0, b)
  else if map then
    let r := b.hostLoad 0 (leAt e 32 8) (16 * n)
    let b := r.2
    let l := r.1
    if (List.range n).all (fun k => b.mapOk i (slice l (16 * k) 16)) then
      (.done qOK 0, b.each n (fun k b =>
        let x := slice l (16 * k) 16
        (b.wr64 (tuAt (f + k)) (leAt x 0 8)).wr (tuAt (f + k) + 8)
          (BitVec.ofNat 32 (i + 256 * b.instGen i + 65536 * leAt x 10 1))) |>.shadowMap f n)
    else (.done qRANGE 0, b)
  else (.done qOK 0, (b.each n (fun k b => b.set ⟨tuAt (f + k) + 8, 16, 1⟩ 0)).shadowMap f n)

/-- A command that names a tick: 0 start, 1 freeze, 2 restart, 3 migrate out (R473). -/
def Block.cmdTick (b : Block) (e : List Byte) (kind : Nat) : Ending × Block :=
  let i := leAt e 8 1
  let t := leAt e 40 8
  let st := b.instState i
  let allowed := match kind with
    | 0 => st == iCONFIGURED || st == iFROZEN
    | 1 => st == iRUNNING
    | 2 => st == iFAULTED
    | _ => st == iRUNNING || st == iFREEZING || st == iFROZEN || st == iFAULTED
  if !allowed then (.done qSTATE 0, b)
  else match b.tickLimit t with
    | some s => (.done s 0, b)
    | none =>
      if 2 ≤ (b.vin.acts.filter (fun a => a.inst == i)).length then (.done qBUSY 0, b)
      else
        let r := b.queueGens 0 0
        (.later, (r.2.modVin (fun v => { v with acts := v.acts ++ [⟨i, kind, t, leAt e 2 2, 0, r.1⟩] })).showPend i)

/-- INST_CANCEL. -/
def Block.cmdCancel (b : Block) (e : List Byte) : Ending × Block :=
  let i := leAt e 8 1
  if (b.vin.acts.filter (fun a => a.inst == i)).isEmpty then (.done qSTATE 0, b)
  else (.done qOK 0, (b.modVin (fun v => { v with acts := v.acts.filter (fun a => a.inst != i) })).showPend i)

/-- Does an active table or trigger entry name a task of the instance? -/
def Block.instUsed (b : Block) (i : Nat) : Bool :=
  let hit := fun (t : Nat) => match b.desc t with | some d => dValid d && dInst d == i | none => false
  (List.range 4).any (fun x => (b.activeEntries x).any (fun en => hit en.task)) || b.activeTrig.any (fun en => hit en.task)

/-- A queue is deleted. -/
def Block.queueDrop (b : Block) (idx : Nat) : Block :=
  let (c, b) := b.ctx idx
  let b := b.putCtx idx { c with state := 0 }
  b.modHif (fun h => { h with due := h.due.filter (fun x => x.idx != idx), turns := h.turns.filter (fun q => q != idx) })

/-- INST_DESTROY. -/
def Block.cmdDestroy (b : Block) (e : List Byte) : Ending × Block :=
  let i := leAt e 8 1
  let st := b.instState i
  if (st ≠ iCONFIGURED ∧ st ≠ iFROZEN ∧ st ≠ iFAULTED) ∨ b.instUsed i = true then (.done qSTATE 0, b)
  else
    let quota := b.get (VIN_INSTi_QUOTA_QUOTA i)
    let b := b.setInst i iFREE
    let b := (List.range quota).foldl (fun b q => if i = 0 ∧ q < 2 then b else b.queueDrop (qIdx i q)) b
    let b := ((b.wr (VIN_INSTi_QUOTA i) 0).wr (VIN_INSTi_VEC i) 0).wr (VIN_INSTi_TU i) 0
    let b := (b.setWindows i []).copyInst i
    let n := (b.vin.writes.filter (fun w => w.inst == i)).length
    let b := b.modVin (fun v => { v with acts := v.acts.filter (fun a => a.inst != i), writes := v.writes.filter (fun w => w.inst != i), pub := (i, []) :: v.pub, stopped := (i, []) :: v.stopped })
    (.done qOK 0, (b.each n (fun _ b => b.vinCnt 2)).showPend i)

/-! Saved images (R476 to R479) -/

/-- The indices and words of the valid descriptors of instance i. -/
def Block.instDescs (b : Block) (i : Nat) : List (Nat × List Nat) :=
  (List.range 65536).filterMap (fun d => match b.desc d with
    | some ws => if dValid ws && dInst ws == i then some (d, ws) else none
    | none => none)

/-- SIGSET. -/
def Block.sigSet (b : Block) (i : Nat) : Nat :=
  crc64 ((b.instDescs i).foldl (fun l d => l ++ leBytes 2 d.1 ++ leBytes 8 (dSig d.2)) [])

/-- A section: TYPE, window index or core, offset, data. -/
structure Section where
  typ : Nat
  idx : Nat
  off : Nat
  data : List Byte
  deriving DecidableEq, Repr

def Section.bytes (x : Section) : List Byte :=
  leBytes 1 x.typ ++ leBytes 1 x.idx ++ [0, 0] ++ leBytes 4 x.data.length ++ leBytes 8 x.off ++ x.data

/-- Where a window of space 2, 3, 5 or 9 begins. -/
def Block.winBase (b : Block) (w : Nat × Nat) : Option (Space × Nat) :=
  match winSpace w with
  | 2 => some (.tuft (b.tuftOf (bits w.1 52 4)), bits w.1 0 22)
  | 3 => some (.intake, b.goutBase + winLo w)
  | 5 => some (.dram, bits w.1 0 37)
  | 9 => some (.timer, winLo w)
  | _ => none

/-- The section type of a window, where it is saved (R477). -/
def winSection (w : Nat × Nat) : Option Nat :=
  match winSpace w with
  | 2 | 5 => if winOut w || winHostw w then some 2 else none
  | 3 => if winOut w then some 3 else none
  | 9 => if winOut w then some 4 else none
  | _ => none

def winSize (w : Nat × Nat) : Nat := winHi w + 1 - winLo w

/-- The parts of a writable PMP region of instance i that lie in data TCM from offset 0x40 on: first offset and length. -/
def Block.pmpTcm (b : Block) (i r : Nat) : Option (Nat × Nat) :=
  let p := b.pmpOf i
  let k : Core := { pmpcfg := p.1, pmpaddr := p.2 }
  match k.pmpRange r with
  | some (lo, hi) =>
    let lo' := if lo < 0x10040 then 0x10040 else lo
    let hi' := if 0x20000 < hi then 0x20000 else hi
    if bit (p.1.getD r 0) 1 && decide (lo' < hi') then some (lo' - 0x10000, hi' - lo') else none
  | none => none

/-- The sections of an instance's image. -/
def Block.sections (b : Block) (i : Nat) : List Section :=
  let ws := b.windows i
  let inst : Section := ⟨1, 0, 0, leBytes 4 (b.get (VIN_INSTi_STAT_FAULT_PUB i)) ++ leBytes 4 (b.get (VIN_INSTi_QUOTA_QUOTA i)) ++
    leBytes 4 (b.get (VIN_INSTi_TU_PAGE i)) ++ leBytes 4 (b.get (VIN_INSTi_TU_COUNT i)) ++ b.load .seq (pmpAt i) 256 ++
    ws.foldl (fun l w => l ++ leBytes 8 w.1 ++ leBytes 8 w.2) []⟩
  let ofType := fun (t : Nat) => (List.range 16).filterMap (fun k =>
    let w := ws.getD k (0, 0)
    match winSection w, b.winBase w with
    | some t', some (sp, a) => if t' = t then some (⟨t, k, 0, b.load sp a (winSize w)⟩ : Section) else none
    | _, _ => none)
  let cores := sortBy (fun (x y : Nat) => decide (x ≤ y)) (((b.instDescs i).map (fun d => dLcore d.2)).dedup)
  let tcm := cores.foldl (fun l c => l ++ (List.range 16).filterMap (fun r => match b.pmpTcm i r with
    | some (o, n) => some (⟨5, c, r * 2 ^ 32, b.load (.dtcm (b.coreOf c)) o n⟩ : Section)
    | none => none)) []
  let blocks := (b.owned i).filter (fun k => (b.pubOf k).en)
  let pub := blocks.foldl (fun l k =>
    let x := b.pubOf k
    l ++ leBytes 2 k ++ [0, 0] ++ leBytes 4 (b.get (SWC_PUBb_STNUM_ST k)) ++ leBytes 4 (b.get (SWC_PUBb_SQNUM_SQ k)) ++ leBytes 4 x.iv ++
      leBytes 8 x.last ++ b.load .intake (b.pubEntry x + 24) 8) []
  [inst] ++ ofType 2 ++ ofType 3 ++ ofType 4 ++ tcm ++ (if blocks.isEmpty then [] else [⟨6, 0, 0, pub⟩])

/-- The saved image. -/
def Block.savedImage (b : Block) (i : Nat) : List Byte :=
  let ss := b.sections i
  let body := ss.foldl (fun l x => l ++ x.bytes) []
  let head := leBytes 2 1 ++ leBytes 2 ss.length ++ leBytes 1 i ++ leBytes 1 (b.instGen i) ++ leBytes 1 (b.get HIF_SLOT_SLOT_ID) ++ [0] ++
    leBytes 8 (b.vin.freezeTick.get (fun _ => 0) i) ++ leBytes 8 (b.sigSet i) ++ leBytes 4 (64 + body.length) ++ List.replicate 28 0
  head ++ leBytes 8 (crc64 (head ++ List.replicate 8 0 ++ body)) ++ body

/-- INST_SAVE. -/
def Block.cmdSave (b : Block) (e : List Byte) : Ending × Block :=
  let i := leAt e 8 1
  if b.instState i ≠ iFROZEN then (.done qSTATE 0, b)
  else
    let img := b.savedImage i
    if leAt e 24 4 < img.length then (.done qRANGE img.length, b)
    else (.done qOK img.length, b.hostStore 0 (leAt e 32 8) img)

/-- The sections in a byte list, as far as they parse; the fuel is one more than their number. -/
def parseSections : Nat → List Byte → Option (List Section)
  | 0, l => if l.isEmpty then some [] else none
  | n + 1, l =>
    if l.isEmpty then some []
    else
      let len := leAt l 4 4
      if l.length < 16 + len then none
      else match parseSections n (l.drop (16 + len)) with
        | some r => some (⟨leAt l 0 1, leAt l 1 1, leAt l 8 8, slice l 16 len⟩ :: r)
        | none => none

/-- Does a section fit the target (R478)? -/
def Block.sectionFits (b : Block) (i : Nat) (srcWs : List (Nat × Nat)) (x : Section) : Bool :=
  let ws := b.windows i
  let w := ws.getD x.idx (0, 0)
  match x.typ with
  | 1 => true
  | 2 | 3 | 4 => decide (x.idx < 16) && winSection w == some x.typ && winSpace w == winSpace (srcWs.getD x.idx (0, 0)) &&
      x.off + x.data.length == winSize w
  | 5 => decide (x.idx < 128) && (match b.pmpTcm i (x.off / 2 ^ 32) with
      | some (_, n) => decide (x.off % 2 ^ 32 + x.data.length ≤ n)
      | none => false)
  | 6 => x.data.length % 32 == 0
  | _ => false

/-- A section is written into the target's window or TCM region. -/
def Block.putSection (b : Block) (i : Nat) (x : Section) : Block :=
  match x.typ with
  | 2 | 3 | 4 =>
    (match b.winBase ((b.windows i).getD x.idx (0, 0)) with
      | some (.dram, a) => b.dramStore (a + x.off) x.data
      | some (sp, a) => b.stores sp (a + x.off) x.data
      | none => b)
  | 5 => (match b.pmpTcm i (x.off / 2 ^ 32) with
      | some (o, _) => b.stores (.dtcm (b.coreOf x.idx)) (o + x.off % 2 ^ 32) x.data
      | none => b)
  | 6 => b.modVin (fun v => { v with pub := (i, x.data) :: v.pub })
  | _ => b

/-- INST_RESTORE. -/
def Block.cmdRestore (b : Block) (e : List Byte) : Ending × Block :=
  let i := leAt e 8 1
  let a := leAt e 32 8
  let len := leAt e 24 4
  let st := b.instState i
  if st ≠ iFROZEN ∧ st ≠ iCONFIGURED then (.done qSTATE 0, b)
  else
    let r := b.hostLoad 0 a 64
    let h := r.1
    let b := r.2
    let total := leAt h 24 4
    if len < 64 ∨ len < total then (.done qRANGE 0, b)
    else
      let r := b.hostLoad 0 a total
      let img := r.1
      let b := r.2
      if total < 64 ∨ leAt img 0 2 ≠ 1 ∨ leAt img 4 1 ≠ i ∨
          crc64 (img.take 56 ++ List.replicate 8 0 ++ img.drop 64) ≠ leAt img 56 8 then (.done qCHECK 0, b)
      else if leAt img 16 8 ≠ b.sigSet i then (.done qSIG 0, b)
      else match parseSections (leAt img 2 2) (img.drop 64) with
        | none => (.done qCHECK 0, b)
        | some ss =>
          match ss.find? (fun x => x.typ == 1) with
          | none => (.done qSHAPE 0, b)
          | some inst =>
            let srcWs := windowsOf (inst.data.drop 272)
            let same := (List.range 16).all (fun k =>
              let w := srcWs.getD k (0, 0)
              let v := (b.windows i).getD k (0, 0)
              winUsed w == winUsed v && (!winUsed w || (bits w.1 56 8 == bits v.1 56 8 && winSize w == winSize v)))
            if !same || !ss.all (fun x => b.sectionFits i srcWs x) then (.done qSHAPE 0, b)
            else
              let b := b.modVin (fun v => { v with pub := (i, []) :: v.pub })
              let b := ss.foldl (fun b x => b.putSection i x) b
              (.done qOK 0, if st = iCONFIGURED then b.setInst i iFROZEN else b)

/-! Queues (R470, R473, R501) -/

/-- May queue q of instance i use a vector (R470, R503)? -/
def Block.vectorOk (b : Block) (i v : Nat) : Bool :=
  v == 0xFFFF ||
    (if i = 0 then decide (v < 2048) && !(List.range 255).any (fun k =>
        b.instState (k + 1) != iFREE && rangesMeet v 1 (b.get (VIN_INSTi_VEC_FIRST (k + 1))) (b.get (VIN_INSTi_VEC_COUNT (k + 1))))
      else rangesMeet v 1 (b.get (VIN_INSTi_VEC_FIRST i)) (b.get (VIN_INSTi_VEC_COUNT i)))

/-- QUEUE_CREATE. -/
def Block.cmdQueueCreate (b : Block) (e : List Byte) : Ending × Block :=
  let i := leAt e 8 1
  let kind := leAt e 9 1
  let size := leAt e 10 1
  let q := leAt e 12 2
  let cq := leAt e 14 2
  let v := leAt e 16 2
  let ring := leAt e 32 8
  if b.instState i = iFREE then (.done qSTATE 0, b)
  else if i ≠ 0 ∧ b.hif.pasidEn = false then (.done qNO_PASID 0, b)
  else if i = 0 ∧ q < 2 then (.done qIN_USE 0, b)
  else if b.get (VIN_INSTi_QUOTA_QUOTA i) ≤ q then (.done qQUOTA 0, b)
  else
    let (c, b) := b.ctx (qIdx i q)
    let (k, b) := if kind = 0 then b.ctx (qIdx i (cq % 1024)) else (c, b)
    if c.state ≠ 0 ∧ c.igen = b.instGen i then (.done qIN_USE 0, b)
    else if 2 < kind ∨ size < 4 ∨ 16 < size ∨ ring % 4096 ≠ 0 ∨ b.vectorOk i v = false ∨
        (kind = 0 ∧ (1024 ≤ cq ∨ k.kind ≠ 1 ∨ k.state = 0 ∨ k.igen ≠ b.instGen i)) then (.done qRANGE 0, b)
    else
      let (g, b) := b.queueSet (qIdx i q) (fun c => { c with ring := ring, sizeLog := size, kind := kind, cq := cq, vector := v })
      (.done qOK g, b.set (VIN_INSTi_QUOTA_QUSED i) (b.get (VIN_INSTi_QUOTA_QUSED i) + 1))

/-- QUEUE_DELETE and QUEUE_REINIT. -/
def Block.cmdQueue (b : Block) (e : List Byte) (delete : Bool) : Ending × Block :=
  let i := leAt e 8 1
  let q := leAt e 12 2
  if i = 0 ∧ q < 2 then (.done qIN_USE 0, b)
  else if b.instState i = iFREE ∨ 1024 ≤ q then (.done qSTATE 0, b)
  else
    let (c, b) := b.ctx (qIdx i q)
    if c.state = 0 ∨ c.igen ≠ b.instGen i then (.done qSTATE 0, b)
    else if delete then
      (.done qOK 0, (b.queueDrop (qIdx i q)).set (VIN_INSTi_QUOTA_QUSED i) (b.get (VIN_INSTi_QUOTA_QUSED i) - 1))
    else
      let (g, b) := b.queueSet (qIdx i q) id
      (.done qOK g, b)

/-! Starting a command (R495, R498, R500, R502) -/

/-- What a command does; only the admin queue takes opcodes 0x10 to 0x22. -/
def Block.command (b : Block) (i q : Nat) (e : List Byte) : Ending × Block :=
  let op := leAt e 0 1
  let known := op == 1 || op == 2 || op == 3 || (i == 0 && q == 0 && ((decide (0x10 ≤ op) && decide (op ≤ 0x1B)) || (decide (0x20 ≤ op) && decide (op ≤ 0x22))))
  if !known then (.done qSTATE 0, b)
  else if !paramsClean e then (.done qRANGE 0, b)
  else match op with
    | 0x01 => b.cmdRead i e
    | 0x02 => b.cmdWrite i q e
    | 0x03 => (.done qOK 0, b)
    | 0x10 => b.cmdCreate e
    | 0x11 => b.cmdWindows e
    | 0x12 => b.cmdMap e true
    | 0x13 => b.cmdMap e false
    | 0x14 => b.cmdTick e 0
    | 0x15 => b.cmdTick e 1
    | 0x16 => b.cmdSave e
    | 0x17 => b.cmdRestore e
    | 0x18 => b.cmdTick e 2
    | 0x19 => b.cmdTick e 3
    | 0x1A => b.cmdCancel e
    | 0x1B => b.cmdDestroy e
    | 0x20 => b.cmdQueueCreate e
    | 0x21 => b.cmdQueue e true
    | _ => b.cmdQueue e false

/-- The entry e of submission queue q of instance i is started; a stale one is dropped (R470, R495). -/
def Block.startEntry (b : Block) (i q : Nat) (e : List Byte) : Block :=
  let (c, b) := b.ctx (qIdx i q)
  let g := b.instGen i
  if c.igen ≠ g ∨ leAt e 5 1 ≠ g then b.staleQ true
  else if leAt e 4 1 ≠ c.qgen ∨ c.state ≠ 1 then b.staleQ false
  else
    let b := if i = 0 ∧ q = 0 then b.hifCnt 7 else b
    match b.command i q e with
    | (.done st res, b) => b.complete i q (leAt e 2 2) st res
    | (.later, b) => b
    | (.never, b) => b

/-- A command of a row of the table: the entry that its queue's next fetch brings, with the row's opcode in byte 0. -/
def Block.queueRow (b : Block) (i q op : Nat) (e : List Byte) : Block :=
  if b.hostReady ∧ i < 256 ∧ q < 1024 then b.startEntry i q (leBytes 1 op ++ fit 63 (e.drop 1)) else b

/-! The commands -/

def execRead (i q : Nat) (e : List Byte) (s : State) : Host.Outcome State Fault Refusal := runAt .vin (fun b => b.queueRow i q 0x01 e) s
def execWriteAtTick (i q : Nat) (e : List Byte) (s : State) : Host.Outcome State Fault Refusal := runAt .vin (fun b => b.queueRow i q 0x02 e) s
def execNop (i q : Nat) (e : List Byte) (s : State) : Host.Outcome State Fault Refusal := runAt .vin (fun b => b.queueRow i q 0x03 e) s
def execInstCreate (e : List Byte) (s : State) : Host.Outcome State Fault Refusal := runAt .vin (fun b => b.queueRow 0 0 0x10 e) s
def execInstSetWindows (e : List Byte) (s : State) : Host.Outcome State Fault Refusal := runAt .vin (fun b => b.queueRow 0 0 0x11 e) s
def execInstMap (e : List Byte) (s : State) : Host.Outcome State Fault Refusal := runAt .vin (fun b => b.queueRow 0 0 0x12 e) s
def execInstUnmap (e : List Byte) (s : State) : Host.Outcome State Fault Refusal := runAt .vin (fun b => b.queueRow 0 0 0x13 e) s
def execInstStart (e : List Byte) (s : State) : Host.Outcome State Fault Refusal := runAt .vin (fun b => b.queueRow 0 0 0x14 e) s
def execInstFreeze (e : List Byte) (s : State) : Host.Outcome State Fault Refusal := runAt .vin (fun b => b.queueRow 0 0 0x15 e) s
def execInstSave (e : List Byte) (s : State) : Host.Outcome State Fault Refusal := runAt .vin (fun b => b.queueRow 0 0 0x16 e) s
def execInstRestore (e : List Byte) (s : State) : Host.Outcome State Fault Refusal := runAt .vin (fun b => b.queueRow 0 0 0x17 e) s
def execInstRestart (e : List Byte) (s : State) : Host.Outcome State Fault Refusal := runAt .vin (fun b => b.queueRow 0 0 0x18 e) s
def execInstMigrateOut (e : List Byte) (s : State) : Host.Outcome State Fault Refusal := runAt .vin (fun b => b.queueRow 0 0 0x19 e) s
def execInstCancel (e : List Byte) (s : State) : Host.Outcome State Fault Refusal := runAt .vin (fun b => b.queueRow 0 0 0x1A e) s
def execInstDestroy (e : List Byte) (s : State) : Host.Outcome State Fault Refusal := runAt .vin (fun b => b.queueRow 0 0 0x1B e) s
def execQueueCreate (e : List Byte) (s : State) : Host.Outcome State Fault Refusal := runAt .vin (fun b => b.queueRow 0 0 0x20 e) s
def execQueueDelete (e : List Byte) (s : State) : Host.Outcome State Fault Refusal := runAt .vin (fun b => b.queueRow 0 0 0x21 e) s
def execQueueReinit (e : List Byte) (s : State) : Host.Outcome State Fault Refusal := runAt .vin (fun b => b.queueRow 0 0 0x22 e) s

/-- R472, R483: the writes of instance i for its next due tick are applied, once no task of the instance with an earlier tick
waits for its stage-in. -/
def execWriteAtTickApply (i : Nat) (s : State) : Host.Outcome State Fault Refusal :=
  runAt .vin (fun b =>
    let due := (b.vin.writes.filter (fun w => w.inst == i && decide (w.tick ≤ b.lastTick))).map (fun w => w.tick)
    match sortBy (fun (x y : Nat) => decide (x ≤ y)) due with
    | [] => b
    | t :: _ =>
      if b.crz.runs.any (fun r => r.st == .pending && r.inst == i && decide (r.ready.tick < t)) then b
      else b.applyWrites i t) s

/-- R465: a write through a slice window is discarded and counted. -/
def execSliceWrite (addr : Nat) (s : State) : Host.Outcome State Fault Refusal :=
  runAt .vin (fun b =>
    if 0x4908000 ≤ addr ∧ addr < 0x4900000 + 256 * 0x8000 then (b.vinCnt 0).raiseEvery 1000 103 else b) s

/-- R498, R499: the module fetches and starts the next entry: the admin queue's first, then those of the other queues in
turn; a queue whose completion queue is full waits. -/
def execSqEntryFetch (s : State) : Host.Outcome State Fault Refusal :=
  runAt .vin (fun b =>
    let peek := fun (idx : Nat) => QCtx.of (match b.hif.cache.find? (fun l => l.idx == idx) with
      | some l => l.bytes
      | none => b.load .dram (b.ctxAddr idx) 64)
    let able := fun (idx : Nat) => b.takes ⟨.vin, 0⟩ && b.takes ⟨.hif, 0⟩ &&
      let c := peek idx
      c.state == 1 && c.kind == 0 && c.used != 0 && !(peek (qIdx (idx / 1024) c.cq)).full
    let admin := b.on HIF_ADMQ_CFG_EN && able 0
    match (if !b.hostReady then none else if admin then some 0 else b.hif.turns.find? able) with
    | none => b
    | some idx =>
      let (c, b) := b.ctx idx
      let e := b.hostLoad (idx / 1024) (c.ring + 64 * c.head) 64
      let b := e.2
      let c := { c with head := (c.head + 1) % c.size }
      let b := b.putCtx idx c
      let b := b.modHif (fun h => { h with turns := h.turns.filter (fun q => q != idx) ++ (if idx ≠ 0 ∧ c.used ≠ 0 then [idx] else []) })
      (b.startEntry (idx / 1024) (idx % 1024) e.1).ltrShow (c.used != 0 || !b.hif.turns.isEmpty || idx != 0 && (peek 0).used != 0)) s

end Sys2Proof.Machine
end

