-- ==== Sys2Proof/Machine/Thl.lean ====
section
/-! DEFINITION. On-chip banks and external memory: the host and Ridge windows (R519, R523 to R525, R534, R535, R539), segment
spares (R529), and the DDR controllers at work (R532, R571). -/

namespace Sys2Proof.Machine

open Sys2Proof Sys2Proof.Reg

def Block.thlCnt (b : Block) (i : Nat) : Block := b.count (THL_CNTi i) 1 (bitOf THL_CNT_ROLL i) 47

/-! Windows -/

/-- The instances that a task of an active P or C bank belongs to (R525). -/
def Block.leasedInsts (b : Block) : List Nat := ((b.activeDescs 0 ++ b.activeDescs 1).map (fun d => dInst d.2)).dedup

/-- The windows of spaces 2, 5 and 9 that R525 protects. -/
def Block.guarded (b : Block) : List (Nat × Nat) :=
  b.leasedInsts.foldl (fun l i => l ++ (b.windows i).filter (fun w => winUsed w && (winSpace w == 2 || winSpace w == 5 || winSpace w == 9))) []

/-- Does a byte of a tuft bank, or of DRAM, lie in one of them? -/
def Block.inGuard (b : Block) (ws : List (Nat × Nat)) (sp : Space) (a : Nat) : Bool :=
  match sp with
  | .tuft t => ws.any (fun w => b.tuftOf (bits w.1 52 4) == t && winHolds w 2 (bits w.1 52 4 * 2 ^ 52 + a) 1)
  | _ => ws.any (fun w => winHolds w 5 a 1)

/-- A refused write: THL_ERR.REFUSED and HOST_REFUSED; event 42 where the lease refused it. -/
def Block.thlRefuse (b : Block) (event : Bool) : Block :=
  let b := (b.set THL_ERR_REFUSED 1).thlCnt 2
  if event then b.raiseEvery 1000 42 else b

/-- Bytes written to a tuft bank or to DRAM one by one, but for those the lease protects (R525). -/
def Block.guardedStore (b : Block) (sp : Space) (a : Nat) (l : List Byte) : Block :=
  let ws := if b.leased then b.guarded else []
  let no := (List.range l.length).filter (fun i => b.inGuard ws sp (a + i))
  let c := (List.range l.length).foldl (fun b i =>
    if i ∈ no then b else match sp with
      | .dram => b.dramStore (a + i) [l.getD i 0]
      | _ => b.store sp (a + i) (l.getD i 0)) b
  c.doIf (!no.isEmpty) (fun b => b.thlRefuse true)

/-- The enabled region that holds a DRAM byte, its CRC area included. -/
def Block.regionAny (b : Block) (a : Nat) : Option Nat :=
  (List.range 64).find? (fun r => b.on (THL_RGNr_CFG_EN r) && decide (b.get (THL_RGNr_BASE_MIB r) * 2 ^ 20 ≤ a) &&
    decide (a < (b.get (THL_RGNr_BASE_MIB r) + b.get (THL_RGNr_SIZE_MIB r)) * 2 ^ 20))

/-- The partial lines of a write: those of which it replaces only a part (R537). -/
def partLines (a n : Nat) : List Nat :=
  (if a % 64 ≠ 0 ∨ n < 64 then [a] else []) ++ (if (a + n) % 64 ≠ 0 ∧ a / 64 < (a + n - 1) / 64 then [a + n - 1] else [])

/-- An access through the DRAM aperture (R534 to R537, R539). -/
def Block.aperture (b : Block) (who : Requester) (o n : Nat) (write : Bool) (data : List Byte) : Block :=
  let a := (b.rd64 THL_DWIN_BASE_LO / 2 ^ 25 * 2 ^ 25 + o) % 2 ^ 37
  if b.ddrHeld a n then { b with hostWait := b.hostWait ++ [(Requester.code who, Requester.core who, n, write, b.xtal)] }
  else match b.regionAny a, write with
    | none, true => b.noRegion
    | none, false => b.noRegion.answer (2 ^ (8 * n) - 1)
    | some r, true =>
      if b.on (THL_RGNr_CFG_HOST_WR r) = false then b.thlRefuse false
      else if (b.regionOf a).isNone then b
      else match (partLines a n).find? (fun x => !b.lineOk x) with
        | some x => (b.crcError x 1).controlFault ⟨.thl, 0⟩
        | none => b.guardedStore .dram a data
    | some _, false =>
      if (b.regionOf a).isNone then b.answer (b.loadNat .dram a n)
      else match b.badLine a n with
        | some x => (b.crcError x 1).controlFault ⟨.thl, 0⟩
        | none => b.answer (b.loadNat .dram a n)

/-- R519, R523, R525, R610: n bytes at a BAR0 offset above the registers, read, or written with data. Nothing answers while
memory space is closed to the host; between a warm reset and step 4 of R608, and in the recovery state of R616, reads return zero and writes are discarded. -/
def execHostWindowAccess (who : Requester) (addr n : Nat) (write : Bool) (data : List Byte) (s : State) : Host.Outcome State Fault Refusal :=
  run (fun b =>
    let data := fit n data
    if b.rst.off ∨ addr < 0x8000000 ∨ 0x10000000 ≤ addr ∨ n = 0 ∨ (Requester.code who = 0 ∧ b.hostIn = false) then b
    else if b.released .thl = false ∨ b.on IMG_STATUS_RECOVERY = true then (if write then b else b.answer 0)
    else if addr / 4096 ≠ (addr + n - 1) / 4096 then b.rootErr who addr ROOT_ERR_WIDTH
    else if 0xE000000 ≤ addr then b.aperture who (addr - 0xE000000) n write data
    else match thlSpace addr with
      | none => (if write then b else b.answer 0).rootErr who addr ROOT_ERR_UNMAPPED
      | some (.tuft t, o) =>
        if b.member.has ⟨.tuft, t⟩ = false then (if write then b.rootErr who addr ROOT_ERR_UNMAPPED else b.answer 0)
        else if write then b.guardedStore (.tuft t) o data
        else b.answer (b.loadNat (.tuft t) o n)
      | some (sp, o) => if write then b.thlCnt 2 else b.answer (b.loadNat sp o n)) s

/-- R524: the oldest waiting access of a requester, of n bytes, has waited for THL_HOST_TMO: for the host, a read returns all ones and a
write is discarded; a Ridge core takes an access fault. -/
def execHostWindowTimeout (who : Requester) (n : Nat) (write : Bool) (s : State) : Host.Outcome State Fault Refusal :=
  runAt .thl (fun b =>
    match b.hostWait.find? (fun w => w.1 == Requester.code who && w.2.1 == Requester.core who && w.2.2.1 == n && w.2.2.2.1 == write) with
    | none => b
    | some w =>
      let b := { b with hostWait := b.hostWait.erase w }.advanceXtal (w.2.2.2.2 + clampN 1 1000 (b.get THL_HOST_TMO_US) * 1000)
      if Requester.code who = 1 then
        let c : RidgeCore := { b.ridge.core.get (fun _ => ({} : RidgeCore)) (Requester.core who) with fault := some (if write then 7 else 5) }
        { b with ridge := { b.ridge with core := Sparse.put (fun _ => {}) (Requester.core who) c b.ridge.core } }
      else
        let b := ((b.set THL_ERR_HOST_TMO 1).thlCnt 1).raiseEvery 1 41
        if write then b else b.answer (2 ^ (8 * n) - 1)) s

/-! Segment spares (R529) -/

/-- Segment g of a bank (tuft bank 0–15, the intake bank 16) as the index of State's table of segments. -/
def segKey (bank g : Nat) : Nat := if bank < 16 then 64 * bank + g else 1024 + g

/-- A segment of a bank is retired: its range, or the range that it serves as a spare, goes to the lowest spare that is left,
or has no backing. The flags are the spare's segment, and whether none was left. -/
def Block.segRetire (b : Block) (bank g : Nat) : Option Nat × Bool × Block :=
  let mine := (List.range 4).find? (fun s => b.on (THL_SPAREb_s_VALID bank s) && b.get (THL_SPAREb_s_SEGMENT bank s) == g)
  let range := match mine with
    | some s => if b.on (THL_SPAREb_s_USED bank s) then some (b.get (THL_SPAREb_s_RETIRED bank s)) else none
    | none => some g
  match range with
  | none => (none, false, b)
  | some x =>
    match (List.range 4).find? (fun s => b.on (THL_SPAREb_s_VALID bank s) && !b.on (THL_SPAREb_s_USED bank s) &&
        !b.isRetired (1238 + segKey bank (b.get (THL_SPAREb_s_SEGMENT bank s)))) with
    | some s =>
      let b := (b.set (THL_SPAREb_s_USED bank s) 1).set (THL_SPAREb_s_RETIRED bank s) x
      (some (b.get (THL_SPAREb_s_SEGMENT bank s)), false, (b.thlCnt 3).raise 43)
    | none =>
      let b := (b.set THL_ERR_NO_SPARE 1).raise 43
      (none, true, { b with seg := (segKey bank x, 2) :: b.seg })

/-! DDR at work (R532, R533, R571) -/

def Block.ddrLive (b : Block) (c : Nat) : Bool :=
  decide (c < 2) && b.on (THL_DDRc_STAT_TRAINED c) && !b.on (THL_DDRc_STAT_SELF_REFRESH c)

/-- R532: the ZQ calibration of channel c; the spec names nothing that software sees of it. -/
def execDdrZqCalibration (c : Nat) (s : State) : Host.Outcome State Fault Refusal := runUnit ⟨.ddr, c⟩ (fun b => if b.ddrLive c then b else b) s

/-- R532: the DQS interval oscillators of channel c are read; each of the ranks that drifted too far retrains. -/
def execDdrDqsOscCheck (c drifted : Nat) (s : State) : Host.Outcome State Fault Refusal :=
  runUnit ⟨.ddr, c⟩ (fun b => if b.ddrLive c then b.each (clampN 0 2 drifted) (fun _ b => (b.thlCnt 4).raise 45) else b) s

/-- R532: MR4 of channel c is read: a device reports above 85 °C, one above its operating limit. -/
def execDdrMr4Read (c : Nat) (hot above : Bool) (s : State) : Host.Outcome State Fault Refusal :=
  runUnit ⟨.ddr, c⟩ (fun b =>
    if b.ddrLive c then
      let b := (b.set (THL_DDRc_STAT_REFRESH_2X c) hot.toNat).set (THL_DDRc_STAT_TEMP_HIGH c) above.toNat
      b.raiseIf above 44
    else b) s

/-- R571: in Bivouac the controller of channel c enters self-refresh. -/
def execDdrSelfRefreshEntry (c : Nat) (s : State) : Host.Outcome State Fault Refusal :=
  runUnit ⟨.ddr, c⟩ (fun b => if b.ddrLive c ∧ b.on NRG_STATUS_BIVOUAC = true then b.set (THL_DDRc_STAT_SELF_REFRESH c) 1 else b) s

end Sys2Proof.Machine
end

