-- ==== Sys2Proof/Machine/ImageMap.lean ====
section
/-! DEFINITION. The Ohmeb image as bytes (R623, R624): its header, its section table, the image cache (R617), and the parts of
the cached image that Crozier loads again (R313). -/

namespace Sys2Proof.Machine

open Sys2Proof Sys2Proof.Reg

/-- Where an image's bytes lie: a memory and the address of byte 0. -/
structure ImgAt where
  sp : Space
  base : Nat
  deriving DecidableEq, Repr

/-- The little-endian number in bytes o .. o+n-1 of an image. -/
def Block.imgNat (b : Block) (m : ImgAt) (o n : Nat) : Nat := b.loadNat m.sp (m.base + o) n
def Block.imgBytes (b : Block) (m : ImgAt) (o n : Nat) : List Byte := b.load m.sp (m.base + o) n

/-- A section table entry (R624). -/
structure Sect where
  typ : Nat
  unit : Nat
  len : Nat
  off : Nat
  dest : Nat
  zero : Bool
  deriving DecidableEq, Repr

def Sect.of (l : List Byte) : Sect :=
  ⟨leAt l 0 1, leAt l 2 2, leAt l 4 4, leAt l 8 4, leAt l 16 8, leAt l 1 1 == 0 && leAt l 12 4 == 0 && leAt l 24 8 == 0⟩

/-- The section table of an image. -/
def Block.sects (b : Block) (m : ImgAt) : List Sect :=
  (List.range (b.imgNat m 16 2)).map (fun k => Sect.of (b.imgBytes m (192 + 32 * k) 32))

/-- The DRAM of the populated channels in bytes (R545). -/
def Block.dramTop (b : Block) : Nat :=
  ((if b.on (THL_DDRc_CFG_EN 0) then b.get (THL_DDRc_SIZE_MIB 0) else 0) +
    (if b.on (THL_DDRc_CFG_EN 1) then b.get (THL_DDRc_SIZE_MIB 1) else 0)) * 2 ^ 20

/-- The image cache: the image's size, rounded up to 1 MiB, at the top of DRAM (R617). -/
def Block.cacheAt (b : Block) (bytes : Nat) : ImgAt := ⟨.dram, b.dramTop - (bytes + 2 ^ 20 - 1) / 2 ^ 20 * 2 ^ 20⟩
def Block.cache (b : Block) : ImgAt := b.cacheAt b.img.bytes

/-- The cached image's sections of a TYPE and UNIT, put in a memory. -/
def Block.loadSects (b : Block) (typ unit : Nat) (sp : Space) : Block :=
  ((b.sects b.cache).filter (fun s => s.typ == typ && s.unit == unit)).foldl
    (fun b s => b.stores sp s.dest (b.imgBytes b.cache s.off s.len)) b

/-- The TCM pair of physical core c takes the image's copy of logical core l. -/
def Block.loadTcm (b : Block) (l c : Nat) : Block := (b.loadSects 3 l (.itcm c)).loadSects 4 l (.dtcm c)

/-- The bank of physical tuft t takes the image's initial contents of logical tuft u. -/
def Block.loadTuft (b : Block) (u t : Nat) : Block := b.loadSects 5 u (.tuft t)

end Sys2Proof.Machine
end

