-- ==== Sys2Proof/Machine/Retire.lean ====
section
/-! DEFINITION. Retired channels (R680 to R686): what retiring each kind of channel does (R224, R313, R314, R390, R529), golden
vectors (R226), and faults of a core (R343). -/

namespace Sys2Proof.Machine

open Sys2Proof Sys2Proof.Reg

/-- SPARE of UNIT_CAPS (R50). -/
def capsSpare (h : Nat) : Fld := ⟨h + 4, 28, 1⟩

/-- Every UNIT_CAPS.SPARE follows the spare maps (R224, R312). -/
def Block.showSpares (b : Block) : Block :=
  let b := b.each 16 (fun l b => b.set (capsSpare (UnitRef.hdr ⟨.sor, l⟩)) (if b.on (bitOf SOR_SPARE l) then 1 else 0))
  let b := b.each 16 (fun t b => b.set (capsSpare (UnitRef.hdr ⟨.tuft, t⟩))
    (if (List.range 16).any (fun u => b.on (CRZ_TUFTMAPt_SPARE_EN u) && b.get (CRZ_TUFTMAPt_SPARE u) == t) then 1 else 0))
  b.each 128 (fun c b => b.set (capsSpare (UnitRef.hdr ⟨.frond, c⟩))
    (if (List.range 128).any (fun l => b.on (CRZ_LCMAPl_SPARE_EN l) && b.get (CRZ_LCMAPl_SPARE l) == c) then 1 else 0))

/-! Cores and tufts (R313, R314) -/

/-- Tasks on physical core p are aborted without commit. -/
def Block.abortCore (b : Block) (p : Nat) : Block :=
  match b.onCore p with
  | some r => b.abortRun r 1
  | none => b

/-- The tasks of logical core l start anew. -/
def Block.freshCore (b : Block) (l : Nat) : Block :=
  let ts := (b.activeDescs 0 ++ b.activeDescs 1 ++ b.activeDescs 2 ++ b.activeDescs 3).filterMap (fun d => if dLcore d.2 = l then some d.1 else none)
  let es := b.activeTrig.filterMap (fun e => match b.desc e.task with
    | some d => if dValid d ∧ dLcore d = l then some e.task else none
    | none => none)
  b.modCrz (fun c => { c with ran := c.ran.filter (fun t => !(ts ++ es).contains t) })

/-- Logical core l has no physical core left. -/
def Block.noCore (b : Block) (l : Nat) : Block :=
  let b := (b.set (CRZ_LCMAPl_NOCORE l) 1).raise 719
  if b.pcDescs.any (fun d => dLcore d.2 == l) then b.moduleFault else b

/-- The logical cores on physical core p. -/
def Block.logicalOn (b : Block) (p : Nat) : List Nat :=
  (List.range 128).filter (fun l => b.on (CRZ_LCMAPl_EN l) && !b.on (CRZ_LCMAPl_NOCORE l) && b.coreOf l == p)

/-- A core is retired. -/
def Block.retireCore (p : Nat) (b : Block) : Retired :=
  let ls := b.logicalOn p
  let was := b.on CRZ_STATUS_FAULTED
  let b := (b.set (stRetired (UnitRef.hdr ⟨.frond, p⟩)) 1).abortCore p
  let moved := ls.find? (fun l => b.on (CRZ_LCMAPl_SPARE_EN l))
  let sp := moved.map (fun l => b.get (CRZ_LCMAPl_SPARE l))
  let b := ls.foldl (fun b l =>
    if b.on (CRZ_LCMAPl_SPARE_EN l) then
      let c := b.get (CRZ_LCMAPl_SPARE l)
      let b := (((b.loadTcm l c).set (CRZ_LCMAPl_PHYS l) c).set (CRZ_LCMAPl_SPARE_EN l) 0).set (capsSpare (UnitRef.hdr ⟨.frond, c⟩)) 0
      (b.freshCore l).raise 718
    else b.noCore l) b
  ⟨sp, ls.any (fun l => b.on (CRZ_LCMAPl_NOCORE l)), !was && b.on CRZ_STATUS_FAULTED, b⟩

/-- The work of physical tuft t moves to the spare tuft; the flag says that none was left. The indices of the cores stay. -/
def Block.moveTuft (b : Block) (t : Nat) : Option Nat × Bool × Block :=
  let b := b.each 8 (fun k b => b.abortCore (8 * t + k))
  match (List.range 16).find? (fun u => b.on (CRZ_TUFTMAPt_EN u) && !b.on (CRZ_TUFTMAPt_NOTUFT u) && b.tuftOf u == t) with
  | none => (none, false, b)
  | some u =>
    let ls := (List.range 8).map (fun k => 8 * u + k)
    if b.on (CRZ_TUFTMAPt_SPARE_EN u) then
      let sp := b.get (CRZ_TUFTMAPt_SPARE u)
      let b := (((b.set (CRZ_TUFTMAPt_PHYS u) sp).set (CRZ_TUFTMAPt_SPARE_EN u) 0).set (capsSpare (UnitRef.hdr ⟨.tuft, sp⟩)) 0).loadTuft u sp
      let b := ls.foldl (fun b l =>
        let c := 8 * sp + b.coreOf l % 8
        let b := (b.set (CRZ_LCMAPl_PHYS l) c).set (CRZ_LCMAPl_SPARE l) (8 * sp + b.get (CRZ_LCMAPl_SPARE l) % 8)
        (b.loadTcm l c).freshCore l) b
      (some sp, false, b.raise 718)
    else
      let b := b.set (CRZ_TUFTMAPt_NOTUFT u) 1
      (none, true, ls.foldl (fun b l => if b.on (CRZ_LCMAPl_EN l) then b.noCore l else b) b)

/-- A tuft is retired. -/
def Block.retireTuft (t : Nat) (b : Block) : Retired :=
  let was := b.on CRZ_STATUS_FAULTED
  match (b.set (stRetired (UnitRef.hdr ⟨.tuft, t⟩)) 1).moveTuft t with
  | (sp, no, b) => ⟨sp.map (fun s => 128 + s), no, !was && b.on CRZ_STATUS_FAULTED, b⟩

/-! Sorus lanes and stream slots (R224, R684) -/

/-- The channels that an element reads. -/
def Elem.chans (e : Elem) : List Nat :=
  match e.space with
  | 6 => if bit e.loc 55 then [] else (List.range e.units).map (fun i => e.loc % 8192 + i)
  | 7 => (List.range e.units).map (fun i => (e.loc % 32768 + i) / 4)
  | 8 => (List.range e.units).map (fun i => e.loc % 8192 + i)
  | _ => []

/-- The tasks that read one of some channels start anew (R684). -/
def Block.freshChans (b : Block) (ok : Nat → Bool) : Block :=
  let reads := fun (t : Nat) => match b.desc t with
    | some d => ((b.elems (dInFirst d) (dInCount d)).getD []).any (fun e => e.chans.any ok)
    | none => false
  b.modCrz (fun c => { c with ran := c.ran.filter (fun t => !reads t) })

/-- The spare lane for a block: the lowest that can serve and is not already asked for. -/
def Block.spareLane (b : Block) : Option Nat :=
  (List.range 16).find? (fun l => b.on (bitOf SOR_SPARE l) && b.laneOk l && !(b.sor.moves.any (fun m => m.2 == l)))

/-- A lane is retired: the blocks it serves, or was to serve, move to a spare. -/
def Block.retireSor (l : Nat) (b : Block) : Retired :=
  let wanted := b.isNamed ⟨.sor, l⟩
  let spare := b.on (bitOf SOR_SPARE l)
  let from' := (if !spare && !(b.laneBlocks l).isEmpty then [l] else []) ++
    (b.sor.moves.filter (fun m => m.2 == l)).map (fun m => m.1)
  let b := (b.set (stRetired (UnitRef.hdr ⟨.sor, l⟩)) 1).set (bitOf SOR_SPARE l) 0
  let b := { b with sor := { b.sor with moves := b.sor.moves.filter (fun m => m.2 != l) } }
  match from', b.spareLane with
  | [], _ => ⟨none, false, false, b⟩
  | x :: _, some sp =>
    let b := { b with sor := { b.sor with moves := b.sor.moves ++ [(x, sp)] } }
    ⟨some (144 + sp), false, false, b.set (capsSpare (UnitRef.hdr ⟨.sor, sp⟩)) 0⟩
  | _ :: _, none =>
    let b := b.raise 611
    if wanted then ⟨none, true, !b.on CRZ_STATUS_FAULTED, b.moduleFault⟩ else ⟨none, true, false, b⟩

/-- A stream slot is retired: the lowest spare slot takes its configuration and channels. -/
def Block.retireSlot (k : Nat) (b : Block) : Retired :=
  let x := b.slotOf k
  let cfg := (List.range 8).map (fun w => b.rd (RHZ_SLOTs_CFG k + 4 * w))
  let ids := (List.range 16).map (fun w => b.rd (RHZ_SLOTs_SVIDw k w))
  let used := x.en
  let b := b.slotOff k
  let spare := (List.range 16).find? (fun j => b.on (CRN_SLOTSPAREk_VALID j) && !b.on (CRN_SLOTSPAREk_USED j) &&
    b.get (CRN_SLOTSPAREk_SLOT j) != k && !b.isRetired (214 + b.get (CRN_SLOTSPAREk_SLOT j)))
  match used, spare with
  | false, _ => ⟨none, false, false, b⟩
  | true, none => ⟨none, true, false, b⟩
  | true, some j =>
    let n := b.get (CRN_SLOTSPAREk_SLOT j)
    let b := b.set (CRN_SLOTSPAREk_USED j) 1
    let b := b.each 8 (fun w b => b.wr (RHZ_SLOTs_CFG n + 4 * w) (cfg.getD w 0))
    let b := b.each 16 (fun w b => b.wr (RHZ_SLOTs_SVIDw n w) (ids.getD w 0))
    let b := (b.set (RHZ_SLOTs_CFG_EN n) 1).slotEnable n
    let y := b.slotOf n
    let b := (List.range y.nch).foldl (fun b c => b.doIf (b.chanOf (y.chBase + c)).en (fun b => b.chanSwitch (y.chBase + c))) b
    ⟨some (214 + n), false, false, b.freshChans (fun c => decide (y.chBase ≤ c) && decide (c < y.chBase + y.nch))⟩

/-! Any channel (R680) -/

/-- A SerDes lane of the Rope is retired: it loses its link; the Rope is down once both have (R433, R683). -/
def Block.retireRope (k : Nat) (b : Block) : Retired :=
  let b := b.set (stRetired (UnitRef.hdr ⟨.rope, 0⟩)) 1
  let b := if b.on (ROPE_LANEk_STAT_LINK k) then
      ((b.set (ROPE_LANEk_STAT_LINK k) 0).set (ROPE_LANEk_STAT_FEC_LOCK k) 0).raise 904
    else b
  ⟨none, true, false, if b.on (ROPE_LANEk_STAT_LINK (1 - k)) then b else b.ropeDown⟩

/-- A bank segment is retired (R529). -/
def Block.retireSeg (bank g : Nat) (b : Block) : Retired :=
  match b.segRetire bank g with
  | (sp, no, b) => ⟨sp.map (fun s => 1238 + segKey bank s), no, false, b⟩

/-- The unit of a channel. -/
def channelUnit (c : Nat) : UnitRef :=
  if c < 128 then ⟨.frond, c⟩ else if c < 144 then ⟨.tuft, c - 128⟩ else if c < 160 then ⟨.sor, c - 144⟩
  else if c < 176 then ⟨.prt, c - 160⟩ else if c < 180 then ⟨.stn, c - 176⟩ else if c < 182 then ⟨.rope, 0⟩
  else if c < 214 then ⟨.acq, 0⟩ else if c < 1238 then ⟨.rhzGroup, 0⟩ else ⟨.thl, 0⟩

/-- Does the member have a channel? -/
def Block.hasChannel (b : Block) (c : Nat) : Bool :=
  if c < 182 then b.member.has (channelUnit c)
  else if c < 214 then b.hasFei
  else if c < 1238 then decide (c - 214 < b.member.slots)
  else if c < 2262 then b.member.has ⟨.tuft, (c - 1238) / 64⟩
  else decide (c < 2646)

/-- What retiring a channel does. -/
def Block.retireAct (c : Nat) (b : Block) : Retired :=
  if c < 128 then b.retireCore c
  else if c < 144 then b.retireTuft (c - 128)
  else if c < 160 then b.retireSor (c - 144)
  else if c < 180 then b.retireLane (c - 160)
  else if c < 182 then b.retireRope (c - 180)
  else if c < 214 then b.retireTdc ((c - 182) / 2) (c % 2 == 1)
  else if c < 1238 then b.retireSlot (c - 214)
  else if c < 2262 then b.retireSeg ((c - 1238) / 64) ((c - 1238) % 64)
  else b.retireSeg 16 (c - 2262)

/-- An event of a channel, classified (R682). -/
def Block.channelEvent (b : Block) (c kind : Nat) (perm : Bool) (reason : Nat) : Block :=
  b.classify c kind (channelUnit c).id perm reason (Block.retireAct c) (byHistory := decide (c < 182) || decide (214 ≤ c))

/-- Is a channel one that R319 names? -/
def Block.channelNamed (b : Block) (c : Nat) : Bool := decide (c < 180) && b.isNamed (channelUnit c)

/-- Has a channel a spare? -/
def Block.channelSpare (b : Block) (c : Nat) : Bool :=
  if c < 128 then (b.logicalOn c).all (fun l => b.on (CRZ_LCMAPl_SPARE_EN l))
  else if c < 144 then (List.range 16).any (fun u => b.on (CRZ_TUFTMAPt_EN u) && b.tuftOf u == c - 128 && b.on (CRZ_TUFTMAPt_SPARE_EN u))
  else if c < 160 then (match b.spareLane with | some l => l != c - 144 | none => false)
  else false

/-- R686: Ridge firmware or the admin instance 0 retires a channel. -/
def execRetireCmd (channel : Nat) (s : State) : Host.Outcome State Fault Refusal :=
  runAt .crn (fun b =>
    let c := channel % 4096
    let b := b.set CRN_RETIRE_CHANNEL c
    if b.hasChannel c = false then b.set CRN_RETIRE_RESULT 2
    else if b.isRetired c then b.set CRN_RETIRE_RESULT 3
    else if b.leased && b.channelNamed c && !b.channelSpare c then b.set CRN_RETIRE_RESULT 1
    else (b.retireWith c 4 (channelUnit c).id (Block.retireAct c)).set CRN_RETIRE_RESULT 0) s

/-! Golden vectors (R226) and lanes at work -/

/-- Does lane l run golden vectors: its stage units are powered (R548), and a context of it is not enabled? -/
def Block.laneTests (b : Block) (l : Nat) : Bool :=
  b.on SOR_CTRL_GV_EN && b.laneOk l && b.domState (144 + 2 * l) == dON &&
    (b.laneBlocks l).all (fun k => decide (((b.blockChans k).filter (fun c => (b.chanOf c).en)).length < 512))

/-- One golden-vector run. -/
def Block.goldenRun (b : Block) (l : Nat) (ok : Bool) : Block :=
  let b := b.laneCnt l 2
  if ok then b else (b.sorCnt 3).raise 614

/-- R226, R681: a golden-vector run of lane l; where it does not agree it is repeated, again with or without agreement. -/
def execGoldenVectorRun (l : Nat) (ok again : Bool) (s : State) : Host.Outcome State Fault Refusal :=
  runUnit ⟨.sor, l⟩ (fun b =>
    if 16 ≤ l ∨ b.laneTests l = false then b
    else
      let b := b.goldenRun l ok
      let b := if ok then b else b.goldenRun l again
      -- R448: part of the continuous self-test
      let fail := !ok && !again
      let b := b.doIf (b.hasRope && b.on ROPE_CFG2_SELFTEST) (fun b =>
        (b.modRope (fun p => { p with runs := p.runs + (if ok then 1 else 2), fails := p.fails + (if fail then 1 else 0) })).doIf fail
          (fun b => (b.ropeCnt 8).raise 913))
      if ok then b else b.channelEvent (144 + l) 4 (!again) 2) s

/-- R253, R224, R684: the lanes run the next released decimated instant of group g and finish every instant whose tracking groups are
updated; tasks that read the channels of a block
that moved start anew. -/
def execSorusInstantDone (g : Nat) (s : State) : Host.Outcome State Fault Refusal :=
  runAt .sor (fun b =>
    if 16 ≤ g then b
    else match b.nextDecimated g with
      | some n =>
        let c := b.sorusInstant g n
        let ks := b.blocks.filter (fun k => b.laneMap k != c.laneMap k && b.grpInBlock g k)
        if ks.isEmpty then c else c.freshChans (fun x => (x / 512) ∈ ks)
      | none => b.sorusSettle) s

/-! Faults of a core (R343) -/

/-- R343: an exception ends the task on core c; one in machine mode, a hardware failure, retires the core. -/
def execTaskFault (c cause : Nat) (tval : BitVec 64) (machine : Bool) (s : State) : Host.Outcome State Fault Refusal :=
  runUnit ⟨.frond, c⟩ (fun b =>
    if 128 ≤ c then b
    else if machine then (if b.member.has ⟨.frond, c⟩ then b.channelEvent c 2 true 3 else b)
    else if b.running c then b.taskFault c cause tval else b) s

end Sys2Proof.Machine
end

