-- ==== Sys2Proof/Machine/Flash.lean ====
section
/-! DEFINITION. The two flash devices (R622): the erase journal (R630 to R634) and the boot control records (R628, R629). -/

namespace Sys2Proof.Machine

open Sys2Proof Sys2Proof.Reg

def Block.modImg (b : Block) (f : Img → Img) : Block := { b with img := f b.img }
def Block.imgCnt (b : Block) (i n : Nat) : Block := b.count (IMG_CNTi i) n (bitOf IMG_CNT_ROLL i) 11

/-- Bytes of a sector, the first sector of a slot, and the bytes of a slot on the 2 Gbit devices of this model (R622). -/
abbrev sectorBytes : Nat := 0x10000
abbrev slotSector : Nat := 16
abbrev slotBytes : Nat := 4080 * 0x10000

/-- n bytes at an address of device d. -/
def Block.flashRead (b : Block) (d a n : Nat) : List Byte := b.load (.flash d) a n

/-- Sectors first .. first+count−1 of device d read 0xFF. -/
def Block.eraseSectors (b : Block) (d first count : Nat) : Block :=
  let lo := (Space.flash d).key (first * sectorBytes)
  { b with mem := b.mem.filter (fun c => decide (c.1 < lo) || decide (lo + count * sectorBytes ≤ c.1)) }

/-- Is sector s of device d suspect (R633)? -/
def Block.suspect (b : Block) (d s : Nat) : Bool := decide (s < 4096) && b.on (bitOf (IMG_SUSPECTd_w d (s / 32)) (s % 32))

/-- Sectors first .. first+count−1 marked suspect, or no longer. -/
def Block.markSuspect (b : Block) (d first count : Nat) (v : Bool) : Block :=
  b.each count (fun k b => b.doIf (decide (first + k < 4096)) (fun b =>
    b.set (bitOf (IMG_SUSPECTd_w d ((first + k) / 32)) ((first + k) % 32)) (if v then 1 else 0)))

/-- Is x later than y under serial comparison? -/
def serialAfter (x y : Nat) : Bool := let d := (x + 2 ^ 32 - y) % 2 ^ 32; decide (0 < d) && decide (d < 2 ^ 31)

/-! 32-byte records with a CRC at byte 28 -/

def recOk (l : List Byte) : Bool := leAt l 28 4 == crc32 (l.take 28)
def recOf (l : List Byte) : List Byte := let x := fit 28 l; x ++ leBytes 4 (crc32 x)

/-- Record k of a sector; its valid records in order; its first erased place. -/
def Block.recAt (b : Block) (d s k : Nat) : List Byte := b.flashRead d (s * sectorBytes + 32 * k) 32
def Block.recs (b : Block) (d s : Nat) : List (List Byte) := ((List.range 2048).map (fun k => b.recAt d s k)).filter recOk
def Block.freeRec (b : Block) (d s : Nat) : Option Nat :=
  (List.range 2048).find? (fun k => (b.recAt d s k).all (fun x => x == 0xFF))

/-! The journal -/

abbrev jHEAD : Nat := 1
abbrev jINTENT : Nat := 2
abbrev jDONE : Nat := 3

/-- A journal entry. -/
structure JEntry where
  seq : Nat
  typ : Nat
  dev : Nat := 0
  first : Nat := 0
  count : Nat := 0
  deriving DecidableEq, Repr

def JEntry.bytes (e : JEntry) : List Byte :=
  recOf (leBytes 4 e.seq ++ leBytes 1 e.typ ++ leBytes 1 e.dev ++ [0, 0] ++ leBytes 4 e.first ++ leBytes 4 e.count)
def JEntry.of (l : List Byte) : JEntry := ⟨leAt l 0 4, leAt l 4 1, leAt l 5 1, leAt l 8 4, leAt l 12 4⟩

/-- The SEQ of the HEAD that begins a sector. -/
def Block.headSeq (b : Block) (d s : Nat) : Option Nat :=
  let l := b.recAt d s 0
  if recOk l && leAt l 4 1 == jHEAD then some (leAt l 0 4) else none

/-- The current sector of journal copy d (R631). -/
def Block.jSector (b : Block) (d : Nat) : Option Nat :=
  match b.headSeq d 1, b.headSeq d 2 with
  | some x, some y => some (if serialAfter y x then 2 else 1)
  | some _, none => some 1
  | none, some _ => some 2
  | none, none => none

/-- The entries of copy d. -/
def Block.journal (b : Block) (d : Nat) : List JEntry :=
  match b.jSector d with
  | some s => (b.recs d s).map JEntry.of
  | none => []

/-- The open intents among entries: no DONE has their SEQ (R633). -/
def openIntents (es : List JEntry) : List JEntry :=
  (es.filter (fun e => e.typ == jINTENT && !es.any (fun x => x.typ == jDONE && x.seq == e.seq))).dedup

/-- An entry stored in copy d, which has room. -/
def Block.jPut (b : Block) (d : Nat) (e : JEntry) : Block :=
  match b.jSector d with
  | none => b
  | some s => match b.freeRec d s with
    | some k => b.stores (.flash d) (s * sectorBytes + 32 * k) e.bytes
    | none => b

/-- Room for an entry in copy d: a full sector, or none, leaves the other one erased, with a HEAD and the open intents (R631). -/
def Block.jRoom (b : Block) (d : Nat) : Block :=
  let full := match b.jSector d with
    | none => true
    | some s => (b.freeRec d s).isNone
  if !full then b
  else
    let intents := openIntents (b.journal 0 ++ b.journal 1)
    let s := match b.jSector d with
      | some 1 => 2
      | _ => 1
    let seq := ((b.rd IMG_JSEQ).toNat + 1) % 2 ^ 32
    let b := (b.eraseSectors d s 1).wr IMG_JSEQ (BitVec.ofNat 32 seq)
    let b := b.stores (.flash d) (s * sectorBytes) (JEntry.bytes { seq := seq, typ := jHEAD })
    intents.foldl (fun b e => b.jPut d e) b

/-- An INTENT for a range, to copy 0 and then to copy 1: its SEQ (R630). -/
def Block.intent (b : Block) (dev first count : Nat) : Nat × Block :=
  let b := (b.jRoom 0).jRoom 1
  let seq := ((b.rd IMG_JSEQ).toNat + 1) % 2 ^ 32
  let e : JEntry := ⟨seq, jINTENT, dev, first, count⟩
  (seq, ((b.jPut 0 e).jPut 1 e).wr IMG_JSEQ (BitVec.ofNat 32 seq))

/-- The DONE of an intent, to copy 0 and then to copy 1. -/
def Block.intentDone (b : Block) (seq dev first count : Nat) : Block :=
  let e : JEntry := ⟨seq, jDONE, dev, first, count⟩
  (((b.jRoom 0).jRoom 1).jPut 0 e).jPut 1 e

/-- An erase that the module itself needs, journalled, and over in the same command. -/
def Block.eraseNow (b : Block) (dev first count : Nat) : Block :=
  let r := b.intent dev first count
  ((r.2.eraseSectors dev first count).intentDone r.1 dev first count).imgCnt 0 1

/-- Both devices reset, and the journal read: suspect sectors marked, IMG_JSEQ the last SEQ found, event 10 (R633). -/
def Block.readJournal (b : Block) (ok0 ok1 : Bool) : Block :=
  let b := b.modImg (fun m => { m with erase := none, scrub := none, scrubs := [] })
  let b := b.each 256 (fun w b => b.wr (IMG_SUSPECTd_w (w / 128) (w % 128)) 0)
  let es := (if ok0 then b.journal 0 else []) ++ (if ok1 then b.journal 1 else [])
  let b := match es with
    | [] => b
    | e :: t => b.wr IMG_JSEQ (BitVec.ofNat 32 (t.foldl (fun (m : Nat) (x : JEntry) => if serialAfter x.seq m then x.seq else m) e.seq))
  let b := (b.set IMG_STATUS_JOURNAL_DEGRADED (if ok0 != ok1 then 1 else 0)).set IMG_STATUS_JOURNAL_LOST (if !ok0 && !ok1 then 1 else 0)
  let is := openIntents es
  let b := is.foldl (fun b e => b.markSuspect (e.dev % 2) e.first e.count true) b
  b.raiseIf (!is.isEmpty || !ok0 || !ok1) 10

/-! Boot control (R628) -/

/-- Is BCR copy d in use (R634)? -/
def Block.bcrUsed (b : Block) (d : Nat) : Bool := !b.suspect d 3 && !b.suspect d 4

/-- The valid record of the highest SEQ among records, as (SEQ, ACTIVE); of two with one SEQ the first. -/
def latest (l : List (List Byte)) : Option (Nat × Nat) :=
  l.foldl (fun (m : Option (Nat × Nat)) x =>
    let r := (leAt x 0 4, leAt x 4 1)
    match m with
    | none => some r
    | some y => if serialAfter r.1 y.1 then some r else m) none

def Block.bcrRecs (b : Block) (d : Nat) : List (List Byte) := if b.bcrUsed d then b.recs d 3 ++ b.recs d 4 else []

/-- The latest boot record, and the slot it names. -/
def Block.bcr (b : Block) : Option (Nat × Nat) := latest (b.bcrRecs 0 ++ b.bcrRecs 1)
def Block.bcrSlot (b : Block) : Nat := match b.bcr with | some r => r.2 % 2 | none => 0

/-- A record put in copy d: in its current sector, or in the other one where that is full. -/
def Block.bcrPut (b : Block) (d : Nat) (l : List Byte) : Block :=
  if !b.bcrUsed d then b
  else
    let cur := match latest (b.recs d 3), latest (b.recs d 4) with
      | some x, some y => if serialAfter y.1 x.1 then 4 else 3
      | none, some _ => 4
      | _, none => 3
    match b.freeRec d cur with
    | some k => b.stores (.flash d) (cur * sectorBytes + 32 * k) l
    | none => (b.eraseNow d (7 - cur) 1).stores (.flash d) ((7 - cur) * sectorBytes) l

/-- A new record naming a slot, to copy 0 and then to copy 1. -/
def Block.bcrWrite (b : Block) (slot : Nat) : Block :=
  let seq := match b.bcr with | some r => (r.1 + 1) % 2 ^ 32 | none => 1
  let l := recOf (leBytes 4 seq ++ leBytes 1 slot)
  ((b.bcrPut 0 l).bcrPut 1 l).set IMG_STATUS_BCR_SLOT slot

/-! The scrub (R634) -/

/-- The runs of suspect sectors of device d among sectors lo .. hi−1 as (first, count). -/
def Block.suspectRuns (b : Block) (d lo n : Nat) : List (Nat × Nat) :=
  (List.range n).foldl (fun (rs : List (Nat × Nat)) k =>
    let s := lo + k
    if !b.suspect d s then rs
    else match rs.reverse with
      | (f, c) :: t => if f + c = s then (t.reverse ++ [(f, c + 1)]) else rs ++ [(s, 1)]
      | [] => [(s, 1)]) []

/-- The next range of the scrub begins, if none is under way. -/
def Block.scrubNext (b : Block) : Block :=
  if b.img.scrub.isSome then b
  else match b.img.scrubs with
    | [] => b.set IMG_STATUS_SCRUB_BUSY 0
    | (d, f, c) :: t =>
      let r := b.intent d f c
      (r.2.modImg (fun m => { m with scrubs := t, scrub := some ⟨d, f, c, r.1, false⟩ })).set IMG_STATUS_SCRUB_BUSY 1

/-- After stage 9 every suspect sector outside the slot the image was loaded from is scrubbed. -/
def Block.scrubStart (b : Block) (loaded : Nat) : Block :=
  let runs : Nat → List (Nat × Nat × Nat) := fun d => (b.suspectRuns d 0 (if d = loaded then slotSector else 4096)).map (fun r => (d, r.1, r.2))
  (b.modImg (fun m => { m with scrubs := runs 0 ++ runs 1 })).scrubNext

end Sys2Proof.Machine
end

