-- ==== Sys2Proof/Machine/HostLink.lean ====
section
/-! DEFINITION. The host link (chapter "Host interface and link power states"): doorbells, the admin queue, configuration
requests, MSI-X, link and device power states, and wake (R38, R39, R488 to R514). -/

namespace Sys2Proof.Machine

open Sys2Proof Sys2Proof.Reg

/-! MSI-X (R39, R505) -/

/-- Does a pending message still have its cause: a queue's, or an event source still pending that routes to the vector? -/
def Block.vecLive (b : Block) (v : Nat) : Bool :=
  v ∈ b.hif.qpend || (List.range 1024).any (fun n =>
    bit (b.rd (EVT_PEND_k (n / 32))).toNat (n % 32) && b.on (EVT_ROUTE_n_MSIX_EN n) && b.get (EVT_ROUTE_n_VECTOR n) == v)

/-- A pending vector that can be sent is: one message, or none where its cause is gone. -/
def Block.msixTry (b : Block) (v : Nat) : Block :=
  let f := bitOf (pbaWord v) (v % 32)
  if !b.on f then b
  else if !b.vecLive v then b.set f 0
  else if b.hostOpen && b.msixEn && !b.msixMask && !bit (b.rd (msixWord v 3)).toNat 0 then
    ((b.set f 0).send v).modHif (fun h => { h with qpend := h.qpend.filter (fun x => x != v) })
  else b

/-- Every pending vector is tried. -/
def Block.msixFlush (b : Block) : Block := b.each 2048 (fun v b => b.msixTry v)

/-- Every event source still pending whose route has a message makes its vector pending (R39). -/
def Block.msixOwed (b : Block) : Block :=
  b.each 32 (fun k b =>
    let w := (b.rd (EVT_PEND_k k)).toNat
    if w = 0 then b
    else b.each 32 (fun i b =>
      b.doIf (bit w i && b.on (EVT_ROUTE_n_MSIX_EN (32 * k + i))) (fun b =>
        let v := b.get (EVT_ROUTE_n_VECTOR (32 * k + i))
        b.set (bitOf (pbaWord v) (v % 32)) 1)))

/-- R39, R505: MSI-X Enable and Function Mask are written; enabled anew, one message goes out for each vector with an event that is
still pending. -/
def execMsixEnable (en mask : Bool) (s : State) : Host.Outcome State Fault Refusal :=
  runAt .hif (fun b => (({ b with msixEn := en, msixMask := mask } : Block).doIf (en && !b.msixEn) Block.msixOwed).msixFlush) s

/-- R505: the mask of vector v is cleared. -/
def execMsixUnmask (v : Nat) (s : State) : Host.Outcome State Fault Refusal :=
  runAt .hif (fun b => if v < 2048 then (b.set (bitOf (msixWord v 3) 0) 0).msixTry v else b) s

/-! Doorbells (R61, R470, R494, R504) -/

/-- A discarded doorbell write: counter 0 DB_DROP or 1 DB_BAD, event 70. -/
def Block.dbLost (b : Block) (i : Nat) : Block := (b.hifCnt i).raiseEvery 1000 70

/-- R494: a write to BAR2 of a number of bytes. -/
def execDoorbellWrite (addr bytes : Nat) (v : Word) (s : State) : Host.Outcome State Fault Refusal :=
  runAt .hif (fun b =>
    let i := addr / 0x10000
    let q := addr % 0x10000 / 0x40
    let w := v.toNat
    if !b.hostIn || decide (0x1000000 ≤ addr) then b
    else if b.member.instances ≤ i ∨ (i ≠ 0 ∧ b.instState i = 0) ∨ (b.get (VIN_INSTi_QUOTA_QUOTA i) ≤ q ∧ (i ≠ 0 ∨ 2 ≤ q)) then b.dbLost 0
    else
      let (c, b) := b.ctx (qIdx i q)
      if c.state = 0 then b.dbLost 0
      else if addr % 0x40 ≠ 0 ∨ bytes ≠ 4 then b.dbLost 1
      else if bits w 24 8 ≠ c.qgen ∨ c.igen ≠ b.instGen i then b.staleQ (c.igen != b.instGen i)
      else if c.state = 2 then b.dbLost 1
      else if c.size ≤ bits w 0 16 then (b.dbLost 1).queueError (qIdx i q) c
      else if c.kind = 0 then
        let c := { c with tail := bits w 0 16 }
        let b := (b.putCtx (qIdx i q) c).ltrShow (b.hif.busy || c.used != 0)
        if i = 0 ∧ q = 0 ∨ c.used = 0 ∨ qIdx i q ∈ b.hif.turns then b
        else b.modHif (fun h => { h with turns := h.turns ++ [qIdx i q] })
      else
        let c := { c with head := bits w 0 16, armed := c.armed || bit w 23 }
        let now := bit w 23 && c.used != 0 && c.vector != 0xFFFF
        let b := b.putCtx (qIdx i q) { c with armed := c.armed && !now }
        (b.doIf now (fun b => b.msixQ c.vector)).flushDue) s

/-- R501: a write of HIF_ADMQ_CFG; EN from 0 to 1 sets both admin queues up again, EN cleared deletes them. -/
def execAdmqEnable (v : Word) (s : State) : Host.Outcome State Fault Refusal :=
  runAt .hif (fun b =>
    let was := b.on HIF_ADMQ_CFG_EN
    let en := bit v.toNat 31
    let b := (((b.set HIF_ADMQ_CFG_EN (bits v.toNat 31 1)).set HIF_ADMQ_CFG_VECTOR (bits v.toNat 16 11)).set HIF_ADMQ_CFG_CQ_SIZE_LOG
      (bits v.toNat 5 5)).set HIF_ADMQ_CFG_SQ_SIZE_LOG (bits v.toNat 0 5)
    if en ∧ was = false then
      let sq := b.rd64 HIF_ADMQ_SQ_BASE_LO / 4096 * 4096
      let cq := b.rd64 HIF_ADMQ_CQ_BASE_LO / 4096 * 4096
      let ns := clampN 4 16 (b.get HIF_ADMQ_CFG_SQ_SIZE_LOG)
      let nc := clampN 4 16 (b.get HIF_ADMQ_CFG_CQ_SIZE_LOG)
      let (g, b) := b.queueSet 0 (fun c => { c with ring := sq, sizeLog := ns, kind := 0, cq := 1, vector := 0xFFFF })
      let (h, b) := b.queueSet 1 (fun c => { c with ring := cq, sizeLog := nc, kind := 1, vector := b.get HIF_ADMQ_CFG_VECTOR })
      ((b.set HIF_ADMQ_STAT_SQ_QGEN g).set HIF_ADMQ_STAT_CQ_QGEN h).set HIF_ADMQ_CFG_ERR 0
    else if was ∧ en = false then
      let (c, b) := b.ctx 0
      let b := b.putCtx 0 { c with state := 0 }
      let (c, b) := b.ctx 1
      let b := b.putCtx 1 { c with state := 0 }
      b.modHif (fun h => { h with due := h.due.filter (fun e => decide (2 ≤ e.idx)) })
    else b) s

/-- R500: a read of the ring of queue q of instance i, or of the data of the command last fetched from it, ends in a completion
timeout or an unsuccessful completion. -/
def execCompletionTimeout (i q : Nat) (s : State) : Host.Outcome State Fault Refusal :=
  runAt .hif (fun b =>
    if 256 ≤ i ∨ 1024 ≤ q then b
    else
      let (c, b) := b.ctx (qIdx i q)
      if c.state ≠ 1 then b
      else ((b.hifCnt 2).raiseEvery 1 72).queueError (qIdx i q) c) s

/-! The link (R38, R490, R506, R508, R510) -/

/-- A latched cause's PME not yet sent is withdrawn (R513). -/
def Block.pmeWithdraw (b : Block) : Block :=
  if b.hif.pmeReq then
    (((b.modHif (fun h => { h with pmeReq := false })).set HIF_WAKE_CAUSE_WITHDRAWN 1).hifCnt 5).raise 68
  else b

/-- R38: PERST_N asserts. In L2 the function is then in D3cold and its wake logic, in the always-on domain, goes on (R510,
R511, R513). -/
def execPerstAssert (s : State) : Host.Outcome State Fault Refusal :=
  run (fun b =>
    if b.rst.off ∨ b.on HIF_STAT_PERST then b
    else
      let l2 := b.get HIF_STAT_LSTATE == 4
      let h := b.hif
      let w := b.rd HIF_WAKE_EN
      let c := b.rd HIF_CTRL
      let up := b.on HIF_STAT_LINK_UP
      let d := b.get HIF_STAT_DSTATE
      let b := b.hifReset.raiseIf up 64
      let b := b.raiseIf (d != (if l2 then 2 else 0)) 66
      let b := b.doIf l2 (fun b =>
        let b := (((b.set HIF_STAT_DSTATE 2).set HIF_STAT_LSTATE 4).wr HIF_WAKE_EN w).wr HIF_CTRL c
        b.modHif (fun x => { x with pmeEn := h.pmeEn, pmeStatus := h.pmeStatus, pmeReq := h.pmeReq, pmeOwed := h.pmeOwed, wakeN := h.wakeN }))
      (b.set HIF_STAT_PERST 1).raise 69) s

/-- R38, R512, R513: PERST_N deasserts; WAKE_N is released; training begins, and from L2 it withdraws a PME not yet sent. -/
def execPerstDeassert (s : State) : Host.Outcome State Fault Refusal :=
  run (fun b =>
    if b.rst.off ∨ b.on HIF_STAT_PERST = false then b
    else
      let b := ((b.set HIF_STAT_PERST 0).modHif (fun h => { h with wakeN := false })).raise 69
      let b := if b.get HIF_STAT_LSTATE = 4 then b.pmeWithdraw else b
      b.set HIF_STAT_LSTATE 5) s

/-- R490: a Function Level Reset acts as PERST_N; the link stays as it is. -/
def execFunctionLevelReset (s : State) : Host.Outcome State Fault Refusal :=
  runAt .hif (fun b =>
    let v := b.rd HIF_STAT
    ((b.hifReset.wr HIF_STAT v).set HIF_STAT_DSTATE 0).raiseIf (b.get HIF_STAT_DSTATE != 0) 66) s

/-- R506: the link goes down without PERST_N, with a number of posted writes in flight. -/
def execLinkDlDown (lost : Nat) (s : State) : Host.Outcome State Fault Refusal :=
  runAt .hif (fun b =>
    if b.on HIF_STAT_LINK_UP = false then b
    else
      let b := (b.hifReset.hifCnt 3).count (HIF_CNTi 9) lost (bitOf HIF_CNT_ROLL 9) 75
      b.raise 64) s

/-- R512, R516: the data link comes up after training, or has retrained; a PM_PME owed is sent. -/
def execDataLinkUp (speed width : Nat) (s : State) : Host.Outcome State Fault Refusal :=
  runAt .hif (fun b =>
    if b.on HIF_STAT_PERST then b
    else
      let was := b.on HIF_STAT_LINK_UP
      let b := (((b.set HIF_STAT_LINK_UP 1).set HIF_STAT_LSTATE 0).set HIF_STAT_SPEED speed).set HIF_STAT_WIDTH width
      let b := (b.raiseIf (!was) 64).raiseIf (decide (speed < 5) || decide (width < 8)) 65
      let b := if b.hif.pmeOwed then (b.modHif (fun h => { h with pmeOwed := false })).emit .pme else b
      b.msixFlush.flushDue) s

/-- R508: after L1_IDLE_US of idleness the link enters L1, or a substate that is enabled where CLKREQ_N is released. -/
def execAspmL1Entry (clkreq : Bool) (s : State) : Host.Outcome State Fault Refusal :=
  runAt .hif (fun b =>
    if b.hif.aspm && b.hostOpen && b.get HIF_STAT_LSTATE == 0 then
      (b.advanceXtal (b.hif.lastUse + clampN 1 255 (b.get HIF_CTRL_L1_IDLE_US) * 1000)).set HIF_STAT_LSTATE (if clkreq ∧ bit b.hif.l1ss 1 then 3 else if clkreq ∧ bit b.hif.l1ss 0 then 2 else 1)
    else b) s

/-- R509: the host moves the function to D3hot, or to D0. -/
def execDStateChange (d3 : Bool) (s : State) : Host.Outcome State Fault Refusal :=
  runAt .hif (fun b =>
    let to' := if d3 then 3 else 0
    if b.on HIF_STAT_PERST ∨ b.get HIF_STAT_DSTATE = to' then b
    else
      let b := (b.set HIF_STAT_DSTATE to').raise 66
      if d3 then b else b.msixFlush.flushDue) s

/-- R510: PME_Turn_Off is answered, and the link goes to L2; the module holds its entries from then on. -/
def execPmeTurnOff (s : State) : Host.Outcome State Fault Refusal :=
  runAt .hif (fun b =>
    if b.on HIF_STAT_LINK_UP = false ∨ b.get HIF_STAT_LSTATE = 4 then b
    else
      let b := (b.emit .pmeToAck).set HIF_STAT_LSTATE 4
      ((b.set HIF_STAT_LINK_UP 0).modHif (fun h => { h with cut := true, fresh := [] })).raise 64) s

/-- R512: a requested PME is sent: from D3hot at the start of L1 exit, from L2 by WAKE_N. -/
def execPmeSend (s : State) : Host.Outcome State Fault Refusal :=
  run (fun b =>
    if b.rst.off ∨ b.hif.pmeReq = false ∨ b.hif.pmeStatus then b
    else
      let sent := fun (b : Block) => ((b.modHif (fun h => { h with pmeReq := false, pmeStatus := true })).set HIF_WAKE_CAUSE_SENT 1).hifCnt 4
      let l := b.get HIF_STAT_LSTATE
      if b.get HIF_STAT_DSTATE = 3 ∧ b.on HIF_STAT_LINK_UP = true ∧ l < 4 then (sent (b.set HIF_STAT_LSTATE 0)).emit .pme
      else if l = 4 ∧ b.on HIF_CTRL_WAKE_N_EN = true then
        (sent b).modHif (fun h => { h with wakeN := true, pmeOwed := true })
      else b) s

/-- R513: the host begins to train the link from L1; a PME not yet sent is withdrawn. -/
def execLinkTrainingStart (s : State) : Host.Outcome State Fault Refusal :=
  runAt .hif (fun b =>
    let l := b.get HIF_STAT_LSTATE
    if 1 ≤ l ∧ l ≤ 3 then b.pmeWithdraw.set HIF_STAT_LSTATE 0 else b) s

/-! Configuration space (R488, R489, R491, R514) -/

/-- The device identity of a member. -/
def deviceId (m : Member) : Nat :=
  match m with | .ny9640 => 0x9640 | .ny9620 => 0x9620 | .ny9610 => 0x9610 | .ny9602 => 0x9602

/-- What a register of configuration space reads as. The capabilities hold the settings of R489, laid out as PCI Express lays them out
(PRESUMED, notes/assumptions/176.md). BAR0 (256 MiB) and BAR2 (16 MiB) are 64-bit and non-prefetchable (R59, R61):
their low words read type 0b0100 in the low bits and the address bits above the size, as PCI Express has it. -/
def Block.cfgRead (b : Block) (r : CfgReg) : Nat :=
  match r with
  | .id => deviceId b.member * 65536 + 0x1D7A
  | .command => 2 * b.hif.mse.toNat
  | .classRev => 0x11800001
  | .header | .bar4 | .bar5 | .rom => 0
  | .pmCap => 3 + 2 ^ 14 + 2 ^ 15
  | .devCap => 2 + 2 ^ 15 + 2 ^ 28
  | .devCap2 => 15 + 2 ^ 4 + 2 ^ 11 + 2 ^ 16 + 2 ^ 17
  | .linkCap => 5 + 8 * 2 ^ 4 + 2 * 2 ^ 10 + 2 * 2 ^ 15
  | .linkStat => b.get HIF_STAT_SPEED + 2 ^ 4 * b.get HIF_STAT_WIDTH
  | .msixTable => 0x78000
  | .msixPba => 0x77F00
  | .serialLo => Config.serial % 2 ^ 32
  | .serialHi => Config.serial / 2 ^ 32 % 2 ^ 32
  | .pasidCap => 20 * 2 ^ 8
  | .l1ssCap => 31 + 20 * 2 ^ 8 + 2 ^ 16 + 7 * 2 ^ 19
  | .vsecHead => 0x0001 + 2 ^ 16
  | .bar0Lo => b.hif.bar0 % 2 ^ 32 + 4
  | .bar0Hi => b.hif.bar0 / 2 ^ 32
  | .bar2Lo => b.hif.bar2 % 2 ^ 32 + 4
  | .bar2Hi => b.hif.bar2 / 2 ^ 32
  | .subsystem => b.img.subsys
  | .intPin => 0
  | .pm => (if b.get HIF_STAT_DSTATE = 3 then 3 else 0) + 8 + 256 * b.hif.pmeEn.toNat + 32768 * b.hif.pmeStatus.toNat
  | .link => 2 * b.hif.aspm.toNat
  | .msix => 2047 + 16384 * b.msixMask.toNat + 32768 * b.msixEn.toNat
  | .pasid => b.hif.pasidEn.toNat
  | .l1ss => 8 * bits b.hif.l1ss 0 1 + 4 * bits b.hif.l1ss 1 1
  | .vsec => deviceId b.member * 65536 + b.get ROPE_ROLE_ROLE * 256 + b.get ROPE_CFG_PAIRED * 128 + b.rst.pairId * 64 + b.rst.slotId

/-- A write of the enables that the module acts on; other bits are not kept. -/
def Block.cfgWrite (b : Block) (r : CfgReg) (v : Nat) : Block :=
  match r with
  | .command => b.modHif (fun h => { h with mse := bit v 1 })
  | .bar0Lo => b.modHif (fun h => { h with bar0 := h.bar0 / 2 ^ 32 * 2 ^ 32 + v % 2 ^ 32 / 2 ^ 28 * 2 ^ 28 })
  | .bar0Hi => b.modHif (fun h => { h with bar0 := h.bar0 % 2 ^ 32 + v % 2 ^ 32 * 2 ^ 32 })
  | .bar2Lo => b.modHif (fun h => { h with bar2 := h.bar2 / 2 ^ 32 * 2 ^ 32 + v % 2 ^ 32 / 2 ^ 24 * 2 ^ 24 })
  | .bar2Hi => b.modHif (fun h => { h with bar2 := h.bar2 % 2 ^ 32 + v % 2 ^ 32 * 2 ^ 32 })
  | .pm => b.modHif (fun h => { h with pmeEn := bit v 8, pmeStatus := h.pmeStatus && !bit v 15 })
  | .link => b.modHif (fun h => { h with aspm := bit v 1 })
  | .pasid => b.modHif (fun h => { h with pasidEn := bit v 0 })
  | .l1ss => b.modHif (fun h => { h with l1ss := bits v 3 1 + 2 * bits v 2 1 })
  | _ => b

/-- R491: a configuration request; retry status until the always-on stage of the start is complete. -/
def execConfigRequest (r : CfgReg) (write : Bool) (v : Word) (s : State) : Host.Outcome State Fault Refusal :=
  run (fun b =>
    if b.rst.off ∨ b.on HIF_STAT_PERST then b
    else if b.rst.asserted = false ∧ b.rst.level ≠ 2 ∧ b.released .hif = false then b.emit .cfgRetry
    else if write then b.cfgWrite r v.toNat
    else b.answer (b.cfgRead r)) s

end Sys2Proof.Machine
end

