-- ==== Sys2Proof/Machine/Egress.lean ====
section
/-! DEFINITION. Egress (R95, R116, R126, R135, R156, R160, R161, R169): how a frame starts and ends at a port. -/

namespace Sys2Proof.Machine

open Sys2Proof Sys2Proof.Reg

/-- The frame as a port of a redundancy pair sends it (R135, R136). -/
def Block.pairEdit (b : Block) (e : Nat) (f : SwFrame) : List Byte :=
  match b.pairOf e with
  | none => f.bytes
  | some (m, q) =>
    match f.seqs.find? (fun x => x.1 == (if q < e then q else e)) with
    | none => f.bytes
    | some (_, seq) =>
      if m = 1 then withRct f.bytes seq (if bit (b.prt e).red.toNat 3 then 0xB else 0xA)
      else withHsr f.bytes (pathOf e q) seq

/-- The transparent-clock correction of a forwarded Sync or Follow_Up (R95), and the origin time stamp of a one-step Sync
that Ridge firmware sends (R92). -/
def Block.ptpEdit (b : Block) (e : Nat) (f : SwFrame) (g : List Byte) : List Byte :=
  let o := etherAt g + 2
  let m := beAt g o 1 % 16
  let tc := fun p => bit (b.get TIM_TC_PORTS_MASK) p && !b.secNoPtp p
  if etherType g ≠ 0x88F7 then g
  else if f.src < 20 then
    if (m = 0 ∨ m = 8) ∧ tc f.src = true ∧ tc e = true then
      let res : Int := ((b.egressRaw e : Nat) : Int) - (((f.stamp : Nat) : Int) + b.portAsym f.src)
      let add := res + ((b.get (TIM_PORTp_LINKDLY_DLY f.src) * 4096 : Nat) : Int) + b.portAsym f.src
      patch g (o + 8) (beBytes 8 (uns 64 (sgn 64 (beAt g (o + 8) 8) + add)))
    else g
  else if f.src = 21 ∧ m = 0 ∧ bit (beAt g (o + 6) 1) 1 = false ∧ b.on TIM_PTP_MODE_ONE_STEP = true ∧ b.secNoPtp e = false then
    let ns := b.egressStamp e / 65536
    let g := patch g (o + 34) (beBytes 6 (ns / 1000000000) ++ beBytes 4 (ns % 1000000000))
    patch g (o + 8) (beBytes 8 (beAt g (o + 8) 8 + b.egressStamp e % 65536))
  else g

/-- Frame f starts at port e: the edits of R161, the size limit of R126, the time stamps, the capture; or it is discarded
at the closed gate or by an edit. -/
def Block.startFrame (b : Block) (e : Nat) (f : SwFrame) : Block :=
  if gated f && !b.on SWC_GATE_OPEN then (b.gateDiscard e f).release e f.id
  else
    let g := b.ptpEdit e f (b.pairEdit e f)
    if 1518 < b.outSize e g then
      let b := if e < 16 then b.prtCnt e 22 1 else if e < 20 then b.stnCnt (e - 16) 15 1 else b
      ((b.mirDrop e f (some 8)).txMark f.id 3).release e f.id
    else
      match (if 16 ≤ e ∧ e < 20 then b.secProtect (e - 16) g else (some g, b)) with
      | (none, b) =>
        let r := b.draw 256
        ((r.2.mirDrop e f (some 7)).txMark f.id r.1).release e f.id
      | (some g, b) =>
        let g := padded g
        let stamp := b.egressStamp e
        let b := b.doIf f.tsReq (fun b => b.pushTsf ⟨e, beAt f.bytes (etherAt f.bytes + 2) 1 % 16,
          beAt f.bytes (etherAt f.bytes + 32) 2, stamp⟩)
        let b := b.mirror e g false true (some 0) stamp f.vid f.queue
        b.modSwc (fun w => { w with sending := (e, some f.id) :: w.sending, wire := (e, g) :: w.wire })

/-- Removal of the head of a queue of ids. -/
def dequeue (m : Sparse (List Nat)) (k : Nat) : Sparse (List Nat) := (k, (m.get (fun _ => []) k).drop 1) :: m

/-- The next frame of port e that is not a launch: from port 20, then queue 7 down to queue 0 (R156), with the block after
it has left its queue. -/
def Block.nextFrame (b : Block) (e : Nat) : Option (SwFrame × Block) :=
  match b.swc.pubQ.get (fun _ => []) e with
  | id :: _ => (b.stored id).map (fun f => (f, b.modSwc (fun w => { w with pubQ := dequeue w.pubQ e })))
  | [] =>
    match ([7, 6, 5, 4, 3, 2, 1, 0] : List Nat).find? (fun q => !(b.swc.queues.get (fun _ => []) (8 * e + q)).isEmpty) with
    | none => none
    | some q =>
      (b.stored ((b.swc.queues.get (fun _ => []) (8 * e + q)).headD 0)).map (fun f =>
        (f, b.modSwc (fun w => { w with queues := dequeue w.queues (8 * e + q) })))

/-- A station port leaves low-power idle, and TIM_NOW reaches the end of its wake time (R175). -/
def Block.awake (b : Block) (e : Nat) : Block :=
  if 16 ≤ e ∧ e < 20 then
    let b := b.eeeWake (e - 16)
    b.advanceTo (b.swc.wakeAt.get (fun _ => 0) (e - 16))
  else b

/-! The commands -/

/-- R156, R169: the frame at the head of port e starts, or is discarded at the closed gate. A frame that the ring or the interlink
forwarded waits behind port 20's, so that one the module builds waits for one frame at most (R137), and goes before the queues
(DESIGN CHOICE, notes/assumptions/167.md). -/
def execEgressFrameStart (port : Nat) (s : State) : Host.Outcome State Fault Refusal :=
  runAt .swc (fun b =>
    if 23 ≤ port ∨ b.portFree port = false then b
    else match (if (b.swc.pubQ.get (fun _ => []) port).isEmpty then b.swc.direct.get (fun _ => []) port else []) with
    | (g, bad) :: rest =>
      if b.clearOfLaunch port g then (b.modSwc (fun w => { w with direct := (port, rest) :: w.direct })).directOut port g bad else b
    | [] =>
      match b.nextFrame port with
      | none => b
      | some (f, b') => if b.clearOfLaunch port f.bytes then b'.awake port |>.startFrame port f else b) s

/-- R160: the frame in transmission at port e ends: counted, and its reference released. Of what becomes of a frame that leaves by port 21
or 22 the spec says nothing: it is an output of the block and no more (DESIGN CHOICE, notes/assumptions/168.md). -/
def execEgressFrameEnd (port : Nat) (s : State) : Host.Outcome State Fault Refusal :=
  runAt .swc (fun b =>
    match b.swc.sending.get (fun _ => none) port with
    | none => b
    | some id =>
      let g := b.swc.wire.get (fun _ => []) port
      let b := b.emit (.frame port g false)
      let b := if port < 16 then (b.prtCnt port 15 1).prtCnt port 16 (g.length + 4)
        else if port < 20 then (b.stnCnt (port - 16) 12 1).stnCnt (port - 16) 13 (g.length + 4) else b
      (b.release port id).modSwc (fun w => { w with sending := (port, none) :: w.sending, wire := (port, []) :: w.wire })) s

/-- R116, R117, R47, R175: the head of port e's launch queue reaches the time at which it starts, or has passed its launch time. -/
def execFrameLaunch (port : Nat) (s : State) : Host.Outcome State Fault Refusal :=
  runAt .swc (fun b =>
    match b.swc.launch.get (fun _ => []) port with
    | [] => b
    | id :: _ =>
      if b.portFree port = false then b
      else match b.stored id with
        | none => b
        | some f =>
          let l := match f.launch with | some l => l | none => 0
          let late : Int := tdiff40 b.ns l
          let at' := b.launchStart port l
          let b := b.doIf (decide (16 ≤ port) && decide (port < 20)) (fun b => b.eeeWake (port - 16))
          let b := if late < 0 then b.advanceTo at' else b
          let b := b.modSwc (fun w => { w with launch := dequeue w.launch port })
          if ((b.get TIM_LAUNCH_LATE_WIN : Nat) : Int) < late then
            let b := (b.count TIM_LAUNCH_LATE 1 (bitOf TIM_LAUNCH_LATE 32) 62).raise 60
            let b := match f.blk with | some k => b.set (SWC_PUBb_STAT_LAUNCH_LATE k) 1 | none => b
            if b.on TIM_LAUNCH_LATE_POLICY then b.launchDrop port id else (b.awake port).startFrame port f
          else (b.awake port).startFrame port f) s

end Sys2Proof.Machine
end

