-- ==== Sys2Proof/Machine/RidgeTx.lean ====
section
/-! DEFINITION. Frames that Ridge firmware sends (R72, R581, R582). -/

namespace Sys2Proof.Machine

open Sys2Proof Sys2Proof.Reg

/-- A transmit descriptor (R72). -/
structure TxDesc where
  buf : Nat
  len : Nat
  flags : Nat
  ports : Nat
  launch : Nat
  rest : Nat
  deriving DecidableEq, Repr

def TxDesc.of (l : List Byte) : TxDesc := ⟨leAt l 0 8, leAt l 8 2, leAt l 10 1, leAt l 12 4, leAt l 16 8, leAt l 26 6⟩

/-- Does a descriptor of queue q keep the table of R72? -/
def Block.txValid (b : Block) (q : Nat) (d : TxDesc) : Bool :=
  decide (60 ≤ d.len) && decide (d.len ≤ 1518) && (b.regionOfRange d.buf d.len).isSome && bits d.flags 4 3 == 0 && d.rest == 0 &&
    (if q = 0 then !bit d.flags 3 && (if bit d.flags 2 then d.ports == 0 else d.ports != 0 && decide (d.ports < 2 ^ 20))
     else !bit d.flags 1 && !bit d.flags 2 && d.ports == 0)

/-- The address of the descriptor k places after CONS. -/
def Block.txDescAt (b : Block) (q k : Nat) : Nat :=
  b.rd64 (RIDGE_TQq_BASE_LO q) / 4096 * 4096 + 32 * (((b.rd (RIDGE_TQq_CONS q)).toNat + k) % 2 ^ b.tqLog q)

/-- The entry of a descriptor that reaches its end at once: it completes when those before it have. -/
def Block.txGone (b : Block) (status : Nat) : Block := b.txComplete (b.swc.txRing ++ [(b.swc.nextId, status, true)])

/-- Queue 0: the frame enters the switch core at port 21, by its PORTS or by the lookup of R154; the descriptor completes when
the frame is gone from every port. -/
def Block.txSwitch (b : Block) (d : TxDesc) (f : List Byte) : Block :=
  let at' : Option Nat := if bit d.flags 1 then some (d.launch % 2 ^ 40) else none
  let x : SwFrame := { id := 0, src := 21, bytes := f, stamp := b.stamp, tsReq := bit d.flags 0, launch := at' }
  let id := b.swc.nextId
  let b := b.rxMirror 21 f x.stamp
  let r :=
    if bit d.flags 2 then b.forward x
    else
      let vid := b.lookupVid 21 f
      let y : SwFrame := { x with vid := vid, tagged := frameTagged f, queue := b.queueOf 21 f }
      let e := b.expandPairs 21 f d.ports
      if (List.range 20).any (fun p => bit e p && b.linkUp p) then
        let r := b.takeIn y e
        if r.1 = 0 then r else (r.1, (r.2.swcCnt 0 1).swcCnt 1 (f.length + 4))
      else (2 ^ 23, (b.liveMask y e).2)
  if r.1 = 2 ^ 23 then r.2.txGone 4
  else if r.1 = 0 then ((r.2.swcCnt 10 1).raise 468).txGone 1
  else r.2.modSwc (fun w => { w with txRing := w.txRing ++ [(id, 0, false)] })

/-- Queue 1 + s: the frame goes out on segment s, after coll collisions; without the lease a gated one is discarded. -/
def Block.txAux (b : Block) (k coll : Nat) (d : TxDesc) (f : List Byte) : Block :=
  let plca := bit (b.auxOf k).cfg.toNat 30 && b.on (AUXs_STAT_PLCA_STATUS k)
  if bit d.flags 3 && !b.leased then (b.auxCnt k 8 1).txDone (k + 1) 2
  else
    let n := if plca then coll else clampN 0 16 coll
    let b := if n = 0 then b else b.auxCnt k 9 n
    let b := if plca && n != 0 then b.auxCnt k 11 n else b
    if !plca && decide (16 ≤ coll) then
      let r := b.draw 256
      (r.2.auxCnt k 10 1).txDone (k + 1) r.1
    else
      let stamp := b.stamp
      let b := b.auxSend k f
      let b := b.doIf (bit d.flags 0) (fun b => b.dramStore (b.txDesc (k + 1) + 16) (leBytes 8 (stamp / 65536) ++ leBytes 2 stamp))
      b.txDone (k + 1) 0

/-- R72, R579, R581, R582: the module takes the next descriptor of queue q; on a segment its frame meets coll collisions. -/
def execRidgeTxDescriptor (q coll : Nat) (s : State) : Host.Outcome State Fault Refusal :=
  runAt .ridge (fun b =>
    let k := if q = 0 then b.swc.txRing.length else 0
    if 9 ≤ q ∨ b.on (RIDGE_TQq_CFG_EN q) = false ∨ b.txWaiting q ≤ k ∨ (q ≠ 0 ∧ b.auxState (q - 1) ≠ axNORMAL) then b
    else
      let d := TxDesc.of (b.load .dram (b.txDescAt q k) 32)
      let f := b.load .dram d.buf d.len
      if !b.txValid q d then (if q = 0 then b.txGone 6 else b.txDone q 6)
      else if q = 0 then b.txSwitch d f
      else b.txAux (q - 1) coll d f) s

end Sys2Proof.Machine
end

