-- ==== Sys2Proof/Machine/Rope.lean ====
section
/-! DEFINITION. The Rope link (R432 to R437), takeover and double claims (R421 to R431), and in-step execution (R438 to
R442). -/

namespace Sys2Proof.Machine

open Sys2Proof Sys2Proof.Reg

/-! The lanes: process ports 0–15, station ports 16–19, Rope lanes 20 and 21 (R120, R164, R432) -/

/-- Rope lane k gains its link. -/
def Block.ropeLaneUp (b : Block) (k : Nat) : Block :=
  if !b.hasRope || b.on (ROPE_LANEk_STAT_LINK k) || b.on (ROPE_LANEk_CFG_PRBS k) || b.isRetired (180 + k) || !b.released .rope then b
  else ((b.set (ROPE_LANEk_STAT_LINK k) 1).set (ROPE_LANEk_STAT_FEC_LOCK k) 1).raise 904

/-- Rope lane k loses its link; with neither lane the Rope is down (R433). -/
def Block.ropeLaneLoss (b : Block) (k : Nat) : Block :=
  if b.on (ROPE_LANEk_STAT_LINK k) then
    let b := ((b.set (ROPE_LANEk_STAT_LINK k) 0).set (ROPE_LANEk_STAT_FEC_LOCK k) 0).raise 904
    b.doIf (!b.on (ROPE_LANEk_STAT_LINK (1 - k))) Block.ropeDown
  else b

/-- R120, R173: port p gains its link; an SGMII port at the reported speed, a station port with or without agreement on
EEE. -/
def execLinkUp (p speed : Nat) (eee : Bool) (s : State) : Host.Outcome State Fault Refusal :=
  run (fun b =>
    if p = 20 ∨ p = 21 then b.ropeLaneUp (p - 20)
    else if b.released .prt ∧ b.member.has (portUnit p) = true then b.portLinkUp p speed eee else b) s

/-- R122, R149, R164, R433: a port loses its link, by a fault that its partner reports or by its own loss of lock. -/
def execLinkLoss (l : LinkLost) (s : State) : Host.Outcome State Fault Refusal :=
  run (fun b =>
    let p := l.port
    if p = 20 ∨ p = 21 then b.ropeLaneLoss (p - 20)
    else if p < 20 ∧ b.released .prt = true ∧ b.member.has (portUnit p) = true ∧ (b.prt p).en = true then
      (if l.remote then (b.linkDrop p).setFaults p (b.get (localFault p)) 1 else (b.linkDrop p).setFaults p 1 (b.get (remoteFault p)))
    else b) s

/-- R124: port p restores its lane without host action: event 12, and an event of its channel. -/
def execLaneRetrain (p : Nat) (s : State) : Host.Outcome State Fault Refusal :=
  run (fun b =>
    if p = 20 ∨ p = 21 then (if b.hasRope && b.released .rope then b.channelEvent (160 + p) 5 false 0 else b)
    else if p < 20 ∧ b.released .prt = true ∧ b.member.has (portUnit p) = true ∧ (b.prt p).en = true then (b.raise (portEvt p 12)).channelEvent (160 + p) 5 false 0 else b) s

/-! Claims (R431) -/

/-- A pending double claim is decided: with the Rope up by the epochs that both report, else for A; one whose partner holds authority
no more is over. -/
def Block.claimSettle (b : Block) : Block :=
  let ended := b.ropeUp && b.get ROPE_ROLE_PROLE != rACTIVE && !b.on ROPE_ROLE_BELAY_IN
  if ended then b.modRope (fun r => { r with claim := false, won := false })
  else if !b.rope.claim then b
  else
    let own := b.get ROPE_ROLE_EPOCH
    let p := match b.rope.pEpoch with | some e => e | none => 0
    let isA := !b.on ROPE_ID_PAIR_ID
    let win := if b.ropeUp then epochAbove own p || (!epochAbove p own && isA) else isA
    if b.ropeUp && b.get ROPE_ROLE_PROLE != rACTIVE then b
    else if win then (b.modRope (fun r => { r with claim := false, won := true })).ropeCnt 1
    else
      let b := (b.modRope (fun r => { r with claim := false, won := false })).leaseDrop
      (b.raise 901).setRole rSYNCING

/-- A double claim is seen: event 900 once for each, and a CLAIM frame. -/
def Block.claimSeen (b : Block) : Block :=
  if b.role ≠ rACTIVE then b
  else if b.rope.claim || b.rope.won then b.claimSettle
  else (((b.modRope (fun r => { r with claim := true })).raise 900).ropeSay 9 []).claimSettle

/-- What follows from the state of the pair: claims, joins, takeovers, and the fence of a flip just made on own decisions
(R367). -/
def Block.ropeFollow (b : Block) : Block :=
  let b := b.claimSettle.ropeEval
  let n := b.rope.flipDone - 1
  if !b.following && b.gin.notices.any (fun x => decide (x.2 ≤ n)) then b.ginFence n else b

/-! Received frames (R432, R434 to R436) -/

/-- The header, body and tag of a Rope frame, and what the tag covers. -/
structure RopeFrame where
  src : Nat
  level : Nat
  typ : Nat
  seq : Nat
  epoch : Nat
  role : Nat
  pairId : Nat
  flags : Nat
  tick : Nat
  body : List Byte
  covered : List Byte
  tag : List Byte
  deriving DecidableEq

/-- A frame, from its destination address to the octet before its check sequence. -/
def ropeParse (auth : Bool) (l : List Byte) : Option RopeFrame :=
  let n := beAt l 16 2
  if beAt l 12 2 = 0x88B5 ∧ 60 ≤ l.length ∧ 34 + n + (if auth then 16 else 0) ≤ l.length ∧ l.length ≤ 1518 then
    some ⟨beAt l 6 6, beAt l 14 1, beAt l 15 1, beAt l 18 4, beAt l 22 1, beAt l 23 1 % 8, beAt l 23 1 / 128, beAt l 24 2, beAt l 26 8,
      slice l 34 n, slice l 12 (22 + n), slice l (34 + n) 16⟩
  else none

/-- SESSION of a HELLO. -/
def RopeFrame.session (f : RopeFrame) : Nat := beAt f.body 16 4

/-- Does a frame's tag agree (R436)? -/
def Block.ropeAuth (b : Block) (f : RopeFrame) : Bool × Block :=
  if !b.on ROPE_CFG2_AUTH then (true, b)
  else match b.ropeTag f.covered f.pairId (if f.typ = 1 then f.session else b.rope.pSession) f.seq with
    | (none, b) => (false, b.ropeDown)
    | (some t, b) => if t.take 16 = f.tag then (true, b) else (false, (b.ropeCnt 9).raiseEvery 1 907)

/-- A frame of one of some types is taken from a lane: the link, the tag, the first copy of its SEQ; its header is noted, and
the first frame after the handshake brings the Rope up (R432, R433, R436). -/
def Block.ropeTake (b : Block) (lane : Nat) (l : List Byte) (typ : Nat → Bool) : Option RopeFrame × Block :=
  if !b.paired || !b.released .rope || !b.takes ⟨.rope, 0⟩ || decide (2 ≤ lane) || !b.on (ROPE_LANEk_STAT_LINK lane) then (none, b)
  else match ropeParse (b.on ROPE_CFG2_AUTH) l with
    | none => (none, b)
    | some f =>
      if !typ f.typ then (none, b)
      else match b.ropeAuth f with
        | (false, b) => (none, b)
        | (true, b) =>
          let hello := f.typ == 1
          let again := hello && (b.rope.seqRx.isNone || f.session != b.rope.pSession)
          let newer := match b.rope.seqRx with
            | none => true
            | some q => decide (0 < sgn 32 (f.seq + 2 ^ 32 - q))
          if !again && !newer then (none, b.ropeCnt 10)
          else if !hello && !b.rope.pHello then (none, b)
          else
            let b := b.modRope (fun r => { r with seqRx := some f.seq, lastRx := b.xtal, pEpoch := some f.epoch, pAsserted := bit f.flags 0 })
            let b := ((b.set ROPE_ROLE_PROLE f.role).set ROPE_ROLE_PLEVEL f.level).ropeCnt 14
            if hello || b.ropeUp then (some f, b)
            else
              let b := b.modRope (fun r => { r with pHealthAt := b.xtal })
              (some f, ((b.set ROPE_ROLE_ROPE_UP 1).set ROPE_ROLE_ROPE_LOST 0).raise 902)

/-- A frame of one type acts. -/
def ropeFrame (typ lane : Nat) (l : List Byte) (act : RopeFrame → Block → Block) (s : State) : Host.Outcome State Fault Refusal :=
  run (fun b => match b.ropeTake lane l (fun t => t == typ) with
    | (none, b) => b
    | (some f, b) => (act f b).ropeFollow) s

/-! The handshake (R433, R437) -/

/-- LEVEL_MIN of a module. -/
def levelMin (n : Nat) : Nat := if n ≤ 1 then 1 else n - 1

/-- A HELLO with a SESSION drawn for it. -/
def Block.helloSend (b : Block) : Block :=
  let r := b.draw (2 ^ 32)
  let b := r.2.modRope (fun p => { p with session := r.1 })
  b.ropeSend 1 (beBytes 2 (deviceId b.member) ++ beBytes 1 (levelMin (b.get ROPE_CFG_LEVEL)) ++ [0] ++ beBytes 8 (b.rd64 IMG_RUN_ID_LO) ++
    beBytes 2 b.tickRate ++ beBytes 1 b.leaseMs ++ [0] ++ beBytes 4 r.1)

/-- The checks of R437 on an accepted HELLO; one that passes is answered. -/
def Block.helloJudge (b : Block) (f : RopeFrame) : Block :=
  let ses := f.session
  let broken := b.rope.joinReq.isSome && b.rope.pHello && ses != b.rope.pSession
  let b := b.modRope (fun r => { r with pSession := ses, pMac := f.src, pMember := beAt f.body 0 2, pLevelMin := beAt f.body 2 1,
                                        pImage := beAt f.body 4 8, pRate := beAt f.body 12 2 })
  let own := b.get ROPE_CFG_LEVEL
  let mm := b.rope.pMember != deviceId b.member || b.rope.pRate != b.tickRate
  let conf := f.pairId == b.get ROPE_ID_PAIR_ID
  let bad := if f.level ≤ own then decide (f.level < levelMin own) else decide (own < b.rope.pLevelMin)
  let b := ((b.set ROPE_ROLE_MISMATCH (if mm then 1 else 0)).set ROPE_ROLE_PAIR_ID_CONFLICT (if conf then 1 else 0)).set
    ROPE_ROLE_LEVEL_ERR (if bad then 1 else 0)
  let b := (b.raiseIf (mm || bad) 905).raiseIf conf 906
  if mm || conf || bad then b.ropeDown
  else
    let b := (b.modRope (fun r => { r with pHello := true })).ropeSend 2 []
    b.doIf (broken && b.role == rSYNCING) Block.joinStart

/-- R437: a HELLO frame. -/
def execHello (lane : Nat) (f : List Byte) (s : State) : Host.Outcome State Fault Refusal :=
  ropeFrame 1 lane f (fun f b => b.helloJudge f) s

/-- R433: a KEEPALIVE frame. -/
def execKeepalive (lane : Nat) (f : List Byte) (s : State) : Host.Outcome State Fault Refusal :=
  ropeFrame 2 lane f (fun _ b => b) s

/-- R435: a frame of an unknown TYPE. -/
def execUnknownRopeFrame (lane : Nat) (f : List Byte) (s : State) : Host.Outcome State Fault Refusal :=
  run (fun b => match b.ropeTake lane f (fun t => t == 0 || decide (14 < t)) with
    | (none, b) => b
    | (some _, b) => b.ropeCnt 11) s

/-- R433, R431: 100 µs passed in which no frame was sent. -/
def execKeepaliveTx (s : State) : Host.Outcome State Fault Refusal :=
  runAt .rope (fun b =>
    if !b.paired then b
    else
      let b := b.advanceXtal (b.rope.lastTx + 100000)
      if !b.ropeUp then b.helloSend
      else b.ropeSend (if b.role = rACTIVE ∧ (b.rope.claim || b.rope.won) = true then 9 else 2) []) s

/-- R433: no valid frame arrived within TMO_US. -/
def execRopeTimeout (s : State) : Host.Outcome State Fault Refusal :=
  runAt .rope (fun b =>
    if b.ropeUp then ((b.advanceXtal (b.rope.lastRx + clampN 200 1023 (b.get ROPE_TIMING_TMO_US) * 1000)).ropeDown).ropeFollow else b) s

/-! The line, the lease and authority -/

/-- R425, R421: the lease reaches zero. -/
def execLeaseExpiry (s : State) : Host.Outcome State Fault Refusal :=
  run (fun b =>
    if !b.rope.lease then b
    else
      let b := (b.advanceXtal b.rope.leaseEnd).leaseDrop
      if b.role = rACTIVE then
        (((b.set ROPE_ROLE_LEASE_EXPIRED 1).raise 898).raise 899).setRole rSYNCING |>.ropeEval
      else b.raiseIf b.hasRope 899) s

/-- R421, R428: the ALONE wait of a syncing module ends. -/
def execAloneTimeout (s : State) : Host.Outcome State Fault Refusal :=
  run (fun b =>
    if b.paired && b.rst.ran && b.role == rSYNCING && !b.on ROPE_ROLE_BELAY_IN then
      (b.advanceXtal (b.rope.aloneFrom + b.aloneNs)).ropeEval
    else b) s

/-- R431: the partner's line has been asserted for 1 µs while this module holds authority. -/
def execDoubleClaim (s : State) : Host.Outcome State Fault Refusal :=
  run (fun b => if b.paired && b.on ROPE_ROLE_BELAY_IN then b.claimSeen else b) s

/-- R431: a CLAIM frame of a partner that reports ACTIVE. -/
def execClaim (lane : Nat) (f : List Byte) (s : State) : Host.Outcome State Fault Refusal :=
  ropeFrame 9 lane f (fun f b => if f.role = rACTIVE then b.claimSeen else b) s

/-! Ledgers (R442) -/

/-- The body of a RELEASE frame (R438). -/
def RelRecord.body (r : RelRecord) : List Byte :=
  beBytes 1 r.g ++ [0] ++ beBytes 2 r.entries.length ++ beBytes 8 r.i ++ r.entries.foldl (fun l e => l ++ beBytes 4 e) []

/-- A RELEASE body read back. -/
def relOf (l : List Byte) : RelRecord := ⟨beAt l 0 1, beAt l 4 8, (List.range (beAt l 2 2)).map (fun k => beAt l (12 + 4 * k) 4)⟩

/-- Are the releases of every instant before tick n applied? -/
def Block.ledgerReady (b : Block) (n : Nat) : Bool :=
  (List.range 16).all (fun g => !(b.grpOf g).en || decide (tickNs b.tickRate n ≤ (b.grpOf g).tInst (b.grpNext g)))

/-- The digests of tick n are compared once both are known: a standby whose ledger differs rejoins. -/
def Block.ledgerCompare (b : Block) (n : Nat) : Block :=
  match b.rope.ledgers.find? (fun x => x.1 == n), b.rope.pLedgers.find? (fun x => x.1 == n) with
  | some x, some y =>
    let b := b.modRope (fun r => { r with ledgers := r.ledgers.filter (fun e => decide (n < e.1)), pLedgers := r.pLedgers.filter (fun e => decide (n < e.1)) })
    if x.2 = y.2 then b
    else
      let b := b.modRope (fun r => { r with ledgerBad := (n :: r.ledgerBad).take 64 })
      if b.role = rSTANDBY then ((b.ropeCnt 3).raise 908).setRole rSYNCING else b
  | _, _ => b

/-- Ledgers whose records are all applied are digested and sent, oldest tick first; the fuel is their number. -/
def Block.ledgerPump (b : Block) : Nat → Block
  | 0 => b
  | fuel + 1 =>
    match b.rope.ledgerGin with
    | [] => b
    | (n, gin) :: rest =>
      if !b.ledgerReady n then b
      else
        let lo := tickNs b.tickRate (n - 1)
        let hi := tickNs b.tickRate n
        let t := fun (r : RelRecord) => (b.grpOf r.g).tInst r.i
        let rs := sortBy (fun (x y : RelRecord) => decide (x.g < y.g ∨ (x.g = y.g ∧ x.i ≤ y.i)))
          (b.rope.applied.filter (fun r => decide (lo ≤ t r) && decide (t r < hi)))
        let d := crc64 (rs.foldl (fun l r => l ++ r.body) [] ++ gin)
        let b := b.modRope (fun r => { r with ledgerGin := rest, applied := r.applied.filter (fun x => decide (hi ≤ t x)),
                                              ledgers := ((r.ledgers ++ [(n, d)]).reverse.take 64).reverse })
        ((b.ropeSay 8 (beBytes 8 n ++ beBytes 8 d)).ledgerCompare n).ledgerPump fuel

def Block.ledgerRun (b : Block) : Block := b.ledgerPump b.rope.ledgerGin.length

/-- R442: a LEDGER frame. -/
def execLedger (lane : Nat) (f : List Byte) (s : State) : Host.Outcome State Fault Refusal :=
  ropeFrame 8 lane f (fun f b =>
    let n := beAt f.body 0 8
    (b.modRope (fun r => { r with pLedgers := ((r.pLedgers ++ [(n, beAt f.body 8 8)]).reverse.take 64).reverse })).ledgerCompare n) s

/-! Releases in step (R438, R439) -/

/-- ASDU_FWD frames of the slots that a standby's record lacks and this module included (R439); an ASDU of a former generation or of a
disabled slot is dropped (R191). -/
def Block.forwardLacking (b : Block) (r : RelRecord) : Block :=
  r.entries.foldl (fun b e =>
    let s := bits e 22 10
    match (b.grpOf r.g).old.find? (fun x => x.1 == r.i && x.2.slot == s) with
    | some (_, a) =>
      if bits e 20 2 = 0 then b
      else if a.gen != b.get (RHZ_SLOTs_STAT_GEN s) || !(b.slotOf s).en then b.stale a.eng
      else (b.ropeCnt 13).ropeSay 4 (beBytes 1 a.eng ++ beBytes 2 s ++ [0] ++ beBytes 8 a.stamp ++ [0, 0, 0, 0] ++ berOf 0x30 a.raw)
    | none => b) b

/-- The release of NEXT of group g on own decisions, its record sent; what a standby lacks is forwarded. -/
def Block.instantOwn (b : Block) (g : Nat) : Block :=
  let i := b.grpNext g
  let r := b.releaseRef g
  let c := b.release1 g r.1 r.2
  let rec' : RelRecord := match c.rhz.recs.getLast? with
    | some x => ⟨x.group, x.instant, x.entries⟩
    | none => ⟨g, i, []⟩
  let b := ((c.acqInstant g i).noteRelease).ropeSay 3 rec'.body
  let b := match b.rope.rels.find? (fun x => x.g == g && x.i == i) with
    | some p => b.doIf (b.role == rACTIVE) (fun b => b.forwardLacking p)
    | none => b
  (b.modRope (fun p => { p with rels := p.rels.filter (fun x => !(x.g == g && decide (x.i ≤ i))) })).ledgerRun

/-- The state of a slot before the release with which that release gives the outcome of a record's entry (R439). -/
def Block.slotLead (b : Block) (e : Nat) : Block :=
  let s := bits e 22 10
  let o := bits e 20 2
  let st := bits e 17 3
  if !(b.slotOf s).en then b
  else
    let fell := o == 2 && st == slotINVALID && b.slotState s != slotINVALID
    let rose := o == 0 && st == slotRUNNING && (b.slotState s == slotACQUIRING || b.slotState s == slotINVALID)
    let b := (b.setSlotState s (if o = 1 then slotHOLDOVER else st)).set (RHZ_SLOTs_STAT_MISS s) (bits e 15 2 - 1)
    (b.set (RHZ_SLOTs_STAT_GOOD_RUN s) (bits e 10 5 - 1)).raiseIf fell 530 |>.raiseIf rose 531

/-- NEXT of group g is released as a record of the active module says. -/
def Block.releaseFollow (b : Block) (r : RelRecord) : Block :=
  let g := r.g
  let i := r.i
  let dl := (b.releaseRef g).2
  let row := ((b.grpOf g).rows.filter (fun x => x.1 == i && !x.2.dead)).map (fun x => x.2)
  let live := row.filter (fun a => a.gen == b.get (RHZ_SLOTs_STAT_GEN a.slot) && (b.slotOf a.slot).en)
  let named := fun (s : Nat) => r.entries.any (fun e => bits e 22 10 == s && bits e 20 2 == 0)
  let b := (row.filter (fun a => !live.contains a)).foldl (fun b a => b.stale a.eng) b
  let b := (live.filter (fun a => !named a.slot)).foldl (fun b a => (b.slotCnt a.slot 3 1).raiseEvery 1 537) b
  let b := r.entries.foldl (fun b e => b.slotLead e) b
  let b := b.releaseWith g i (live.filter (fun a => named a.slot)) dl
  let b := r.entries.foldl (fun b e =>
    let s := bits e 22 10
    if !(b.slotOf s).en then b
    else ((b.setSlotState s (bits e 17 3)).set (RHZ_SLOTs_STAT_MISS s) (bits e 15 2)).set (RHZ_SLOTs_STAT_GOOD_RUN s) (bits e 10 5)) b
  let b := { b with rhz := { b.rhz with recs := b.rhz.recs.map (fun (x : RelRec) => if x.group = g ∧ x.instant = i then ⟨g, i, r.entries⟩ else x) } }
  let b := b.modRope (fun p => { p with waits := p.waits.filter (fun w => !(w.1 == g && w.2.1 == i)),
                                        rels := p.rels.filter (fun x => !(x.g == g && decide (x.i ≤ i))) })
  ((b.awaitShow g).acqInstant g i).noteRelease.ledgerRun

/-- A waiting release of group g follows once the record and every ASDU it includes are there. -/
def Block.tryFollow (b : Block) (g : Nat) : Block :=
  let i := b.grpNext g
  if !b.rope.waits.any (fun w => w.1 == g && w.2.1 == i) then b
  else match b.rope.rels.find? (fun r => r.g == g && r.i == i) with
    | none => b
    | some r =>
      let held := fun (s : Nat) => (b.grpOf g).rows.any (fun x => x.1 == i && x.2.slot == s && !x.2.dead)
      if r.entries.all (fun e => bits e 20 2 != 0 || held (bits e 22 10)) then b.releaseFollow r else b

def Block.tryFollowAll (b : Block) : Block := if b.rope.waits.isEmpty then b else b.each 16 (fun g b => b.tryFollow g)

/-- The releases that wait and whose record has arrived follow it, although an ASDU it includes is not there (R453). -/
def Block.followArrived (b : Block) : Block :=
  b.each 16 (fun g b =>
    let i := b.grpNext g
    if !b.rope.waits.any (fun w => w.1 == g && w.2.1 == i) then b
    else match b.rope.rels.find? (fun r => r.g == g && r.i == i) with
      | some r => b.releaseFollow r
      | none => b)

/-- R424, R428, R429, R453: the filtered partner line takes a level. -/
def execBelayInChange (level : Bool) (s : State) : Host.Outcome State Fault Refusal :=
  run (fun b =>
    if !b.hasRope || b.rst.off || b.on ROPE_ROLE_BELAY_IN == level then b
    else
      let b := b.set ROPE_ROLE_BELAY_IN (if level then 1 else 0)
      let b := if level then b else b.modRope (fun r => { r with aloneFrom := b.xtal, claim := false, won := false })
      let b := b.doIf (!level && b.role == rSTANDBY && b.healthy && !b.rope.waits.isEmpty) Block.followArrived
      b.ropeFollow) s

/-- R438: an RHZ queue's frame may complete a release that waits. -/
def execRhizoidSvFrame (e : Nat) (s : State) : Host.Outcome State Fault Refusal :=
  runUnit ⟨.rhz, e⟩ (fun b => (b.svTakeHead e).tryFollowAll) s

/-- R439: a RELEASE record. -/
def execRelease (lane : Nat) (f : List Byte) (s : State) : Host.Outcome State Fault Refusal :=
  ropeFrame 3 lane f (fun f b =>
    let r := relOf f.body
    if 16 ≤ r.g ∨ (b.grpOf r.g).en = false then b
    else if b.role = rACTIVE ∧ r.i < b.grpNext r.g then b.forwardLacking r
    else if r.i < b.grpNext r.g then b
    else (b.modRope (fun p => { p with rels := p.rels.filter (fun x => !(x.g == r.g && x.i == r.i)) ++ [r] })).tryFollow r.g) s

/-- The place among n ASDUs at which a forwarded one of slot s is taken: the last at which R207 neither restarts the slot nor
finds it implausible. -/
def Block.fwdPlace (b : Block) (s : Nat) (a : SvAsdu) (n ts : Nat) : Nat :=
  let synced := decide ((if (b.slotOf s).syncReq = 3 then 2 else (b.slotOf s).syncReq) ≤ syncLevel a.synch)
  match (List.range n).reverse.find? (fun k =>
      match (b.place s a.cnt a.synch n k ts synced).1 with | .restart => false | .implaus => false | _ => true) with
  | some k => k
  | none => n - 1

/-- R200, R191 to R196: an ASDU that the partner forwards enters its engine with its stamp and is taken as one received there. The record
gives its slot by index and neither APPID, address, place in the frame, SPDU number nor simulation bit (R435): keys 2 and 3 and the check
of R199 were the sender's, its simulation bit is taken as the slot's SIM_SEEN has it (DESIGN CHOICE, notes/assumptions/171.md). -/
def execAsduFwd (lane : Nat) (f : List Byte) (s : State) : Host.Outcome State Fault Refusal :=
  ropeFrame 4 lane f (fun f b =>
    let e := beAt f.body 0 1
    let s := beAt f.body 1 2
    let ts := beAt f.body 4 8
    let x := b.slotOf s
    let raw := match berHead (f.body.drop 16) with | some (_, n, h) => slice f.body (16 + h) n | none => []
    if 16 < e ∨ b.member.has ⟨.rhz, e⟩ = false then b
    else
      let b := (b.rhzCnt e 9).ropeCnt 12
      if !x.en then b.stale e
      else match parseAsduN (if x.profile = 1 then 4 else 2) raw with
      | none => b.malformed e
      | some a =>
        let keys := (b.grpOf x.group).en && x.names e
        if keys && x.svId == a.svId && x.svLen != 0 && !b.fits s a x.nasdu (x.profile == 1) then b.malformed e
        else if !keys then (b.rhzCnt e 1).rhzCnt e 3
        else if x.svLen = 0 ∨ x.svId ≠ a.svId then ((((b.rhzCnt e 1).rhzCnt e 3).mismatch 1 s).raiseEvery 1000 533)
        else
          let b := b.rhzCnt e 1
          let sim := b.on RHZ_CTRL_SIM_MODE && b.on (RHZ_SLOTs_STAT_SIM_SEEN s)
          (b.checkAsdu e s a x.nasdu (b.fwdPlace s a x.nasdu ts) ts sim).tryFollow x.group) s

/-! Flips in step (R440, R441) -/

/-- One entry of a GIN_LEDGER body: its bytes go to the non-current copy, which becomes current; the change that waited for it
is done with. -/
def Block.ginAdopt (b : Block) (n e : Nat) (l : List Byte) : Block :=
  let x := b.subOf e
  if !x.en then b
  else
    let c := 1 - b.get (ginCur e)
    let a := b.ginAt x c
    let b := (b.stores .intake a l).imageEdges e (l.drop 64)
    let b := { b.set (ginCur e) c with gin := { b.gin with flipped := b.gin.flipped ++ [e],
                                                           notices := if x.crzEn then b.gin.notices ++ [(e, n)] else b.gin.notices } }
    let st := leAt l 24 4
    let same := fun (w : GChange) => w.state == leAt l 38 1 && (!w.new || decide (sgn 32 (w.st + 2 ^ 32 - st) ≤ 0))
    b.setSub e { b.subOf e with pend := none, pendLate := false, vers := [], wait := x.wait.filter (fun w => !same w) }

/-- The entries of a GIN_LEDGER body from octet o on; the fuel is their count. -/
def Block.ginAdoptAll (b : Block) (n : Nat) (l : List Byte) : Nat → Nat → Block
  | 0, _ => b
  | k + 1, o =>
    let e := beAt l o 2
    let len := 64 + 8 * (b.subOf e).nmem
    (b.ginAdopt n e (slice l (o + 4) len)).ginAdoptAll n l k (o + 4 + len)

/-- The flip of tick n as the active module's ledger says. -/
def Block.flipFollow (b : Block) (n : Nat) (l : List Byte) : Block :=
  let b := { b with gin := { b.gin with flipped := [] } }
  let b := b.ginAdoptAll n l (beAt l 8 2) 12
  let b := b.modRope (fun p => { p with waits := p.waits.filter (fun w => !(w.1 == 16 && w.2.1 == n)),
                                        flips := p.flips.filter (fun x => decide (n < x.1)) })
  ((b.noteFlip n l).ginFence n).ledgerRun

/-- The flips that wait follow, oldest first, as far as their ledgers are there. -/
def Block.tryFlips (b : Block) : Block :=
  (b.rope.waits.filter (fun w => w.1 == 16)).foldl (fun b w =>
    match b.rope.flips.find? (fun x => x.1 == w.2.1) with
    | some x => b.flipFollow x.1 x.2
    | none => b) b

/-- R440: a GIN_LEDGER frame. -/
def execGinLedger (lane : Nat) (f : List Byte) (s : State) : Host.Outcome State Fault Refusal :=
  ropeFrame 5 lane f (fun f b =>
    let n := beAt f.body 0 8
    if b.role = rACTIVE ∨ n < b.rope.flipDone then b
    else (b.modRope (fun p => { p with flips := (p.flips.filter (fun x => x.1 != n) ++ [(n, f.body)]).take 64 })).tryFlips) s

/-- A forwarded frame as its engine reads it. -/
def fwdFrame (stamp : Nat) (f : List Byte) : EngFrame :=
  if isIpv4 f then
    let h := sessionAt f
    ⟨f, stamp, 16, true, ipSrc f, beAt f (h + 8) 4, beAt f (h + 22) 4, h + 26⟩
  else { bytes := f, stamp := stamp, port := 16 }

/-- R440: an input change that the standby saw and the active module has not. -/
def execGooseFwd (lane : Nat) (f : List Byte) (s : State) : Host.Outcome State Fault Refusal :=
  ropeFrame 6 lane f (fun f b =>
    let g := beAt f.body 0 1
    if b.role = rACTIVE ∧ g ≤ 16 then
      ((b.rhzCnt g 9).ropeCnt 12).gooseFrame g (fwdFrame (beAt f.body 4 8 * 65536 + beAt f.body 12 2) (f.body.drop 16))
    else b) s

/-- Changes that the active module has not listed two ticks after their own are forwarded (R440). -/
def Block.forwardChanges (b : Block) (n : Nat) : Block :=
  (b.gin.sub.map (fun e => e.1)).dedup.foldl (fun b e =>
    let x := b.subOf e
    let due := x.wait.filter (fun w => decide (w.tick + 2 ≤ n))
    if due.isEmpty then b
    else
      let b := due.foldl (fun b w => match w.frame with
        | some f => b.ropeSay 6 (beBytes 1 (if f.port < 16 then f.port else 16) ++ [0] ++ beBytes 2 e ++ beBytes 8 (f.stamp / 65536) ++
            beBytes 2 (f.stamp % 65536) ++ [0, 0] ++ f.bytes)
        | none => b) b
      b.setSub e { x with wait := x.wait.filter (fun w => decide (n < w.tick + 2)) }) b

/-- R441: the oldest follow step is not complete within FOLLOW_US: this module decides alone and rejoins. -/
def execFollowTimeout (s : State) : Host.Outcome State Fault Refusal :=
  run (fun b =>
    match b.rope.waits with
    | w :: _ =>
      if b.following then
        let b := b.advanceXtal (w.2.2 + clampN 10 1023 (b.get ROPE_TIMING_FOLLOW_US) * 1000)
        ((((b.ropeCnt 2).raise 908).setRole rSYNCING).settleWaits).ledgerRun.ropeFollow
      else b
    | [] => b) s

end Sys2Proof.Machine
end

