-- ==== Sys2Proof/Machine/RopePair.lean ====
section
/-! DEFINITION. The pair in step: comparison and resolution of divergences (R443 to R447), self-test and health (R448, R449),
joining (R450), swaps and handovers (R451, R452). -/

namespace Sys2Proof.Machine

open Sys2Proof Sys2Proof.Reg

/-! Resolution (R446, R447) -/

/-- The body of a RESOLVE frame: the task, 0 a request, 1 a pass or 2 a failure, and the tick. -/
def resolveBody (task kind tick : Nat) : List Byte := beBytes 2 task ++ beBytes 1 kind ++ [0] ++ beBytes 8 tick

/-- A resolution of a task begins; one under way goes on. -/
def Block.resolveStart (b : Block) (task tick : Nat) : Block :=
  if b.rope.resolves.any (fun r => r.task == task) then b
  else
    let b := b.modRope (fun p => { p with resolves := p.resolves ++ [⟨task, tick, b.xtal + 20000000, none, none⟩] })
    ((b.set ROPE_RESOLVE_STATE 1).set ROPE_RESOLVE_RESULT 0).set ROPE_RESOLVE_TASK task

/-- An unresolved divergence: counted, event 911, and an event of the core that ran the task (R447, R681). -/
def Block.unresolved (b : Block) (task : Nat) : Block :=
  let b := (b.ropeCnt 7).raise 911
  match b.desc task with
  | some d => b.channelEvent (b.coreOf (dLcore d)) 1 false 0
  | none => b

/-- The outcome of R447; a result that did not come is none. -/
def Block.resolveEnd (b : Block) (r : Resolve) : Block :=
  let b := b.modRope (fun p => { p with resolves := p.resolves.filter (fun x => x.task != r.task) })
  let b := (b.set ROPE_RESOLVE_STATE 2).raise 910
  let active := b.role == rACTIVE
  let standby := b.role == rSTANDBY
  match (if active then r.own else r.partner), (if active then r.partner else r.own) with
  | _, none => b.doIf standby Block.moduleFault
  | none, some _ => b.unresolved r.task
  | some 1, some 1 => b.unresolved r.task
  | some 1, some _ => b.doIf standby (fun b => (b.raise 913).moduleFault)
  | some _, some 1 => b.doIf active Block.moduleFault
  | some _, some _ => if active then (b.set ROPE_ROLE_DOUBLE_FAIL 1).raise 912 else (b.raise 912).doIf standby Block.moduleFault

/-- A resolution with both results ends. -/
def Block.resolveBoth (b : Block) (task : Nat) : Block :=
  match b.rope.resolves.find? (fun r => r.task == task) with
  | some r => if r.own.isSome && r.partner.isSome then b.resolveEnd r else b
  | none => b

def Block.putResolve (b : Block) (task : Nat) (f : Resolve → Resolve) : Block :=
  b.modRope (fun p => { p with resolves := p.resolves.map (fun r => if r.task = task then f r else r) })

/-- R446, R447: a RESOLVE frame. -/
def execResolve (lane : Nat) (f : List Byte) (s : State) : Host.Outcome State Fault Refusal :=
  ropeFrame 0xC lane f (fun f b =>
    let task := beAt f.body 0 2
    let kind := beAt f.body 2 1
    if kind = 0 then (if b.role = rACTIVE then b.resolveStart task (beAt f.body 4 8) else b)
    else if kind ≤ 2 then (b.putResolve task (fun r => { r with partner := some kind })).resolveBoth task
    else b) s

/-- R446: the targeted self-test of a task's divergence ends; channels are those that failed it. -/
def execTargetedSelftestDone (task : Nat) (pass : Bool) (channels : List Nat) (s : State) : Host.Outcome State Fault Refusal :=
  runAt .rope (fun b =>
    match b.rope.resolves.find? (fun r => r.task == task && r.own.isNone) with
    | none => b
    | some r =>
      let k := if pass then 1 else 2
      let b := (b.putResolve task (fun r => { r with own := some k })).set ROPE_RESOLVE_RESULT k
      let b := b.ropeSay 0xC (resolveBody task k r.tick)
      let b := if pass then b else (channels.filter (fun c => b.hasChannel c)).foldl (fun b c => b.channelEvent c 8 true 2) b
      (b.resolveBoth task).ropeFollow) s

/-- R447: 20 ms pass without a result for the oldest resolution. -/
def execResolveTimeout (s : State) : Host.Outcome State Fault Refusal :=
  runAt .rope (fun b =>
    match b.rope.resolves with
    | r :: _ => ((b.advanceXtal r.due).resolveEnd r).ropeFollow
    | [] => b) s

/-! Comparison (R445) -/

/-- Two records of one TASK and TICK_LO are compared. SIG of the partner's record is not in it: with different images it may or
may not agree. -/
def Block.compareOne (b : Block) (p own : Digest) : Block :=
  let sg := if b.rope.pImage = b.rd64 IMG_RUN_ID_LO then (0, b) else b.draw 2
  let b := sg.2
  let nc := b.ropeCnt 5
  let diverge := ((b.ropeCnt 6).raise 909).doIf (!b.rope.resolves.any (fun r => r.task == own.task)) (fun b =>
    (b.resolveStart own.task own.tick).ropeSay 0xC (resolveBody own.task 0 own.tick))
  if p.nc ≠ 0 ∨ sg.1 ≠ 0 ∨ own.nc ≠ 0 then nc
  else if p.status = 3 ∨ own.status = 3 then nc
  else if p.status = 0 ∧ own.status = 0 then (if p.value = own.value then b.ropeCnt 4 else diverge)
  else if p.status = 0 ∨ own.status = 0 then diverge
  else if p.status = own.status then b.ropeCnt 4
  else nc

/-- Every partner's record whose counterpart is there is compared. -/
def Block.compareAll (b : Block) : Block :=
  b.rope.pDigests.foldl (fun b p =>
    match b.crz.digests.find? (fun d => d.task == p.task && d.tick % 2 ^ 32 == p.tick) with
    | none => b
    | some d =>
      let b := b.modCrz (fun c => { c with digests := c.digests.filter (fun x => x != d) })
      (b.modRope (fun r => { r with pDigests := r.pDigests.filter (fun x => x != p) })).compareOne p d) b

/-- Records without a counterpart within two ticks are not comparable. -/
def Block.pruneDigests (b : Block) (n : Nat) : Block :=
  let old := fun (d : Digest) => decide (d.at_ + 2 < n)
  let k := (b.crz.digests.filter old).length + (b.rope.pDigests.filter old).length
  if k = 0 then b
  else
    let b := b.modCrz (fun c => { c with digests := c.digests.filter (fun d => !old d) })
    let b := b.modRope (fun r => { r with pDigests := r.pDigests.filter (fun d => !old d) })
    b.count (ROPE_CNTi 5) k (bitOf ROPE_CNT_ROLL 5) 920

/-- R445: a DIGESTS frame; the standby compares. -/
def execDigests (lane : Nat) (f : List Byte) (s : State) : Host.Outcome State Fault Refusal :=
  ropeFrame 7 lane f (fun f b =>
    if b.role ≠ rSTANDBY then b
    else
      let ds := (List.range (beAt f.body 8 2)).map (fun k =>
        let l := slice f.body (12 + 16 * k) 16
        (⟨beAt l 0 2, beAt l 2 1, beAt l 3 1, beAt l 4 4, beAt l 8 8, 0, b.lastTick⟩ : Digest))
      (b.modRope (fun r => { r with pDigests := r.pDigests ++ ds })).compareAll) s

/-- R299: the commit of the task on core c ends; the standby compares its record. -/
def execCommitComplete (c : Nat) (s : State) : Host.Outcome State Fault Refusal :=
  runAt .crz (fun b =>
    match b.onCore c with
    | some r => if r.st = .commit then (b.commitTask r).compareAll else b
    | none => b) s

/-! Self-test and health (R448, R449) -/

/-- Does the continuous self-test test channel c in the module's role? -/
def Block.selftests (b : Block) (c : Nat) : Bool :=
  b.hasRope && b.on ROPE_CFG2_SELFTEST && b.hasChannel c && !b.isRetired c &&
    (b.role == rSYNCING || b.role == rSTANDBY || (decide (144 ≤ c) && decide (c < 160)) || decide (1238 ≤ c)) &&
    (decide (c < 182) || decide (1238 ≤ c))

/-- The kind of the event of a channel whose test failed once (R681). -/
def selftestKind (c : Nat) : Nat := if c < 128 then 2 else if c < 144 then 3 else if c < 160 then 4 else if c < 182 then 5 else 8

/-- R448, R681: a run of the continuous self-test on a channel ends; where it fails it is repeated. -/
def execSelftestResult (channel : Nat) (ok again : Bool) (s : State) : Host.Outcome State Fault Refusal :=
  runAt .rope (fun b =>
    if !b.selftests channel then b
    else
      let fail := !ok && !again
      let b := b.modRope (fun p => { p with runs := p.runs + (if ok then 1 else 2), fails := p.fails + (if fail then 1 else 0) })
      let b := b.doIf fail (fun b => (b.ropeCnt 8).raise 913)
      if ok then b else b.channelEvent channel (selftestKind channel) fail 2) s

/-- R449: the report of 100 ms. -/
def execHealthTx (s : State) : Host.Outcome State Fault Refusal :=
  runAt .rope (fun b =>
    if !b.paired then b
    else
      let b := b.advanceXtal ((b.rope.period + 1) * 100000000)
      let now := [2, 3, 4, 6].map (fun i => b.get (ROPE_CNTi_COUNT i))
      let d := fun (i : Nat) => (now.getD i 0 + 2 ^ 32 - b.rope.base.getD i 0) % 2 ^ 32
      let t := (List.range 8).foldl (fun (m : Int) z => let v := sgn 16 (b.get (NRG_ZONEz_TEMP z)); if m < v then v else m) (-1024)
      let cov := b.draw 1001
      let b := cov.2
      let body := beBytes 4 (b.rope.period + 1) ++ beBytes 2 (satAdd 65535 0 b.rope.runs) ++ beBytes 2 (satAdd 65535 0 b.rope.fails) ++
        beBytes 2 (b.get CRN_RET_COUNT_COUNT) ++ beBytes 2 (satAdd 65535 0 (d 0)) ++ beBytes 2 (satAdd 65535 0 (d 1)) ++
        beBytes 4 (d 2) ++ beBytes 2 (satAdd 65535 0 (d 3)) ++ beBytes 1 (uns 8 (clampI (-128) 127 (asr t 3))) ++
        beBytes 1 (b.get NRG_STATUS_SUPPLY_STATE) ++ beBytes 2 cov.1
      (b.modRope (fun p => { p with period := p.period + 1, runs := 0, fails := 0, base := now })).ropeSay 0xA body) s

/-- R449: a HEALTH frame. -/
def execHealth (lane : Nat) (f : List Byte) (s : State) : Host.Outcome State Fault Refusal :=
  ropeFrame 0xA lane f (fun f b =>
    let b := b.each 8 (fun w b => b.wr (ROPE_PHEALTHw w) (BitVec.ofNat 32 (leAt (fit 32 f.body) (4 * w) 4)))
    let bad := beAt f.body 6 2 != 0
    (b.modRope (fun p => { p with pHealthAt := b.xtal, pFails := bad })).raiseIf bad 915) s

/-- R449: no report came for three periods while the Rope is up. -/
def execHealthMissing (s : State) : Host.Outcome State Fault Refusal :=
  runAt .rope (fun b =>
    if b.ropeUp then
      let b := b.advanceXtal (b.rope.pHealthAt + 300000000)
      (b.modRope (fun p => { p with pHealthAt := b.xtal })).raise 914
    else b) s

/-! State blocks (R450) -/

/-- A list of numbers as octets: each its length in one octet and its octets. -/
def numBytes (l : List Nat) : List Byte := l.foldl (fun o n => let k := Nat.log2 n / 8 + 1; o ++ [BitVec.ofNat 8 k] ++ beBytes k n) []

/-- The numbers of such octets; the fuel is the octet count. -/
def numsOf : Nat → List Byte → List Nat
  | 0, _ => []
  | _, [] => []
  | n + 1, k :: t => beNat (t.take k.toNat) :: numsOf n (t.drop k.toNat)

def zigzag (i : Int) : Nat := if 0 ≤ i then 2 * i.toNat else 2 * (-i).toNat - 1
def unzig (n : Nat) : Int := if n % 2 = 0 then ((n / 2 : Nat) : Int) else -((((n + 1) / 2 : Nat)) : Int)
def optNum (o : Option Nat) : Nat := match o with | some n => n + 1 | none => 0
def numOpt (n : Nat) : Option Nat := if n = 0 then none else some (n - 1)

/-- A counted part of a list of numbers, and what follows it. -/
def counted (l : List Nat) : List Nat × List Nat := let n := l.headD 0; ((l.drop 1).take n, l.drop (1 + n))

/-- The tracking state of the groups of alignment group g (R245). -/
def Block.trkBlock (b : Block) (g : Nat) : List Nat :=
  ((List.range 64).filter (fun t => (b.trkOf t).en && (b.trkOf t).agrp == g)).foldl (fun l t =>
    let x := b.trkOf t
    l ++ [t, b.get (SOR_TRKt_STAT_STATE t), b.get (SOR_TRKt_STAT_REF_B t), x.fEst, x.fRot, zigzag x.rocof, optNum x.prevA, optNum x.prevB,
      x.lockRun, x.skip] ++ (8 * x.log.length :: x.log.foldl (fun l p =>
        l ++ [p.n, p.theta, p.fRot, p.fEst, zigzag p.rocof, p.state, p.refB, p.clamp]) [])) []

/-- What a tracking group had at its kept instants, from those numbers. -/
def trkLog : List Nat → List TrkAt
  | n :: th :: fr :: fe :: ro :: st :: rb :: cl :: t => ⟨n, th, fr, fe, unzig ro, st, rb, cl⟩ :: trkLog t
  | _ => []

def Block.trkAdopt (b : Block) : Nat → List Nat → Block
  | 0, _ => b
  | n + 1, l =>
    match l with
    | t :: st :: rb :: fe :: fr :: ro :: pa :: pb :: lr :: sk :: r =>
      let p := counted r
      let b := ((b.set (SOR_TRKt_STAT_STATE t) st).set (SOR_TRKt_STAT_REF_B t) rb).setTrk t { b.trkOf t with
        fEst := fe, fRot := fr, rocof := unzig ro, log := trkLog p.1, prevA := numOpt pa, prevB := numOpt pb, lockRun := lr, skip := sk }
      (b.showTrk t).trkAdopt n p.2
    | _ => b

/-- STATE, MISS, GOOD_RUN, history, last_cnt and last_I of the enabled slots of group g. -/
def Block.slotBlock (b : Block) (g : Nat) : List Nat :=
  (b.grpSlots g).foldl (fun l s =>
    let x := b.slotOf s
    l ++ [s, b.slotState s, b.get (RHZ_SLOTs_STAT_MISS s), b.get (RHZ_SLOTs_STAT_GOOD_RUN s), b.get (RHZ_SLOTs_LAST_CNT s),
      b.rd64 (RHZ_SLOTs_LASTI_LO s), x.haveLast.toNat] ++ (x.x1.length :: x.x1) ++ (x.x0.length :: x.x0) ++ (x.st.length :: x.st)) []

def Block.slotAdopt (b : Block) : Nat → List Nat → Block
  | 0, _ => b
  | n + 1, l =>
    match l with
    | s :: st :: mi :: gr :: lc :: li :: hl :: r =>
      let p := counted r
      let q := counted p.2
      let u := counted q.2
      let b := (((b.setSlotState s st).set (RHZ_SLOTs_STAT_MISS s) mi).set (RHZ_SLOTs_STAT_GOOD_RUN s) gr).set (RHZ_SLOTs_LAST_CNT s) lc
      ((b.wr64 (RHZ_SLOTs_LASTI_LO s) li).setSlot s { b.slotOf s with haveLast := hl != 0, x1 := p.1, x0 := q.1, st := u.1 }).slotAdopt n u.2
    | _ => b

/-- The enabled comparators on channels of group g. -/
def Block.grpThrs (b : Block) (g : Nat) : List Nat :=
  (b.sor.thr.map (fun e => e.1)).dedup.filter (fun k => (b.thrOf k).en && b.chGroup (k / 4) == some g)

def Block.thrBlock (b : Block) (g : Nat) : List Nat :=
  (b.grpThrs g).foldl (fun l k => l ++ [k, b.get (THRk_STAT_LIVE k), (b.thrOf k).run, (b.thrOf k).trans, b.get (THRk_STAT_BEYOND k)]) []

def Block.thrAdopt (b : Block) : Nat → List Nat → Block
  | 0, _ => b
  | n + 1, l =>
    match l with
    | k :: lv :: run :: tr :: be :: r =>
      let b := ((b.set (THRk_STAT_LIVE k) lv).set (liveBit k) lv).set (THRk_STAT_BEYOND k) be
      ((b.setThr k { b.thrOf k with run := run, trans := tr }).set (THRk_RUN_RUN k) (if run < 65536 then run else 65535)).thrAdopt n r
    | _ => b

/-- The current copy of every enabled entry of the input image. -/
def Block.ginBlock (b : Block) : List Byte :=
  ((b.gin.sub.map (fun e => e.1)).dedup.filter (fun e => (b.subOf e).en)).foldl (fun l e =>
    l ++ beBytes 2 e ++ b.load .intake (b.ginAt (b.subOf e) (b.get (ginCur e))) (64 + 8 * (b.subOf e).nmem)) []

def Block.ginTake (b : Block) : Nat → List Byte → Block
  | 0, _ => b
  | _, [] => b
  | n + 1, l =>
    let e := beAt l 0 2
    let x := b.subOf e
    let len := 64 + 8 * x.nmem
    (b.doIf x.en (fun b => (b.stores .intake (b.ginAt x (b.get (ginCur e))) (slice l 2 len)).setSub e { x with pend := none, pendLate := false })).ginTake
      n (l.drop (2 + len))

/-- stNum, sqNum, the interval and the last send time of the enabled publication blocks. -/
def Block.pubBlock (b : Block) : List Nat :=
  ((b.pub.map (fun e => e.1)).dedup.filter (fun k => (b.pubOf k).en)).foldl (fun l k =>
    l ++ [k, b.get (SWC_PUBb_STNUM_ST k), b.get (SWC_PUBb_SQNUM_SQ k), (b.pubOf k).iv, (b.pubOf k).last]) []

def Block.pubAdopt (b : Block) : Nat → List Nat → Block
  | 0, _ => b
  | n + 1, l =>
    match l with
    | k :: st :: sq :: iv :: last :: r =>
      (((b.set (SWC_PUBb_STNUM_ST k) st).set (SWC_PUBb_SQNUM_SQ k) sq).setPub k { b.pubOf k with iv := iv, last := last }).pubAdopt n r
    | _ => b

/-! Joining (R450): a stream is 16 × kind + group, kinds tracking 0, slots 1, comparators 2, input image 3, timer block 4,
publisher 5 -/

/-- Does a lane work on the channels of group g? -/
def Block.grpTracked (b : Block) (g : Nat) : Bool :=
  (List.range 64).any (fun t => (b.trkOf t).en && (b.trkOf t).agrp == g) || !(b.grpThrs g).isEmpty

/-- The streams of a join. -/
def Block.joinStreams (b : Block) : List Nat :=
  ((List.range 16).filter (fun g => (b.grpOf g).en && b.grpTracked g)).map (fun g => g) ++
    ((List.range 16).filter (fun g => (b.grpOf g).en)).map (fun g => 16 + g) ++
    ((List.range 16).filter (fun g => (b.grpOf g).en && b.grpTracked g)).map (fun g => 32 + g) ++ [48, 64, 80]

/-- The octets of a stream as the state now stands. -/
def Block.joinContent (b : Block) (s : Nat) : List Byte :=
  match s / 16 with
  | 0 => numBytes (b.trkBlock (s % 16))
  | 1 => numBytes (b.slotBlock (s % 16))
  | 2 => numBytes (b.thrBlock (s % 16))
  | 3 => b.ginBlock
  | 4 => b.load .timer 0 65536
  | _ => numBytes b.pubBlock

/-- A stream adopted. -/
def Block.joinAdopt (b : Block) (s : Nat) (l : List Byte) : Block :=
  let ns := numsOf l.length l
  match s / 16 with
  | 0 => b.trkAdopt ns.length ns
  | 1 => b.slotAdopt ns.length ns
  | 2 => b.thrAdopt ns.length ns
  | 3 => b.ginTake l.length l
  | 4 => b.stores .timer 0 (l.take 65536)
  | _ => b.pubAdopt ns.length ns

/-- The active module captures a stream and sends it in JOIN frames of at most 1,024 octets. -/
def Block.joinCapture (b : Block) (s : Nat) : Block :=
  if s ∈ b.rope.joinCap ∨ !(s ∈ b.joinStreams) then b
  else
    let l := b.joinContent s
    let k := (l.length + 1023) / 1024 - 1
    let b := (List.range (k + 1)).foldl (fun b i =>
      b.ropeSay 0xB ([2, BitVec.ofNat 8 (s / 16), BitVec.ofNat 8 (s % 16), if i = k then 1 else 0] ++ beBytes 4 (1024 * i) ++ slice l (1024 * i) 1024)) b
    let b := b.modRope (fun p => { p with joinCap := s :: p.joinCap })
    if b.joinStreams.all (fun t => b.rope.joinCap.contains t) then b.modRope (fun p => { p with joinFor := none, joinCap := [] }) else b

/-- The captures of the issue of tick n: the input image, the timer block, the publisher. -/
def Block.joinTickCapture (b : Block) (n : Nat) : Block :=
  match b.rope.joinFor with
  | some j => if j ≤ n ∧ b.role = rACTIVE then [48, 64, 80].foldl (fun b s => b.joinCapture s) b else b
  | none => b

/-- A join tick that a gap before tick n passed over is tick n; last is the tick issued before (R453). -/
def Block.joinGap (b : Block) (last n : Nat) : Block :=
  let f := fun (o : Option Nat) => o.map (fun j => if last < j ∧ j < n then n else j)
  if b.rope.joinFor.isSome || b.rope.joinTick.isSome then b.modRope (fun p => { p with joinFor := f p.joinFor, joinTick := f p.joinTick }) else b

/-- The captures at decimated instant m of group g. -/
def Block.joinInstantCapture (b : Block) (g m : Nat) (ss : List Nat) : Block :=
  match b.rope.joinFor with
  | some j => if tickNs b.tickRate j ≤ b.decNs g m ∧ b.role = rACTIVE then ss.foldl (fun b s => b.joinCapture s) b else b
  | none => b

/-- A joiner with every block applied is a standby. -/
def Block.joinDone (b : Block) : Block :=
  match b.rope.joinTick with
  | some j =>
    if b.role = rSYNCING ∧ b.joinStreams.all (fun s => b.rope.joinGot.contains s) = true then
      let b := b.modRope (fun p => { p with cmpTick := j + b.get ROPE_JOIN_JOIN_TICKS, joinReq := none, joinBuf := [] })
      (((b.set ROPE_JOIN_JOINED 1).wr64 ROPE_JOIN_TICK_LO j).raise 917).setRole rSTANDBY
    else b
  | none => b

/-- A part of a stream reaches a joiner. -/
def Block.joinPart (b : Block) (s : Nat) (last : Bool) (offset : Nat) (l : List Byte) : Block :=
  let had := b.rope.joinBuf.get (fun _ => []) s
  if offset ≠ had.length then b
  else if !last then b.modRope (fun p => { p with joinBuf := (s, had ++ l) :: p.joinBuf.filter (fun e => e.1 != s) })
  else
    let b := b.modRope (fun p => { p with joinBuf := p.joinBuf.filter (fun e => e.1 != s), joinGot := s :: p.joinGot.filter (fun t => t != s) })
    (b.joinAdopt s (had ++ l)).joinDone

/-- R450: a JOIN frame: octet 0 says request, reply with J and EPOCH, or part of a block. -/
def execJoin (lane : Nat) (f : List Byte) (s : State) : Host.Outcome State Fault Refusal :=
  ropeFrame 0xB lane f (fun f b =>
    match beAt f.body 0 1 with
    | 0 =>
      if b.role = rACTIVE then
        let j := b.lastTick + 16
        (b.modRope (fun p => { p with joinFor := some j, joinCap := [] })).ropeSay 0xB ([1, 0, 0, 0] ++ beBytes 8 j ++ beBytes 1 (b.get ROPE_ROLE_EPOCH))
      else b
    | 1 =>
      if b.role = rSYNCING ∧ b.rope.joinReq.isSome = true ∧ b.rope.joinTick.isNone = true then
        (b.modRope (fun p => { p with joinTick := some (beAt f.body 4 8), joinGot := [], joinBuf := [] })).set ROPE_ROLE_EPOCH (beAt f.body 12 1)
      else b
    | 2 =>
      if b.role = rSYNCING ∧ b.rope.joinTick.isSome = true then
        b.joinPart (16 * beAt f.body 1 1 + beAt f.body 2 1) (beAt f.body 3 1 != 0) (beAt f.body 4 4) (f.body.drop 8)
      else b
    | _ => b) s

/-- R450: a join is not complete within 2 s. -/
def execJoinTimeout (s : State) : Host.Outcome State Fault Refusal :=
  runAt .rope (fun b =>
    match b.rope.joinReq with
    | some t => if b.role = rSYNCING then (b.advanceXtal (t + 2000000000)).joinStart else b
    | none => b) s

/-- R455: a new join request. -/
def execRopeJoinCmd (s : State) : Host.Outcome State Fault Refusal :=
  runAt .rope (fun b => if b.role = rSYNCING ∧ b.partnerIs rACTIVE = true then b.joinStart else b) s

/-- R212, R438, R439: NEXT of group g reaches its release, ref + GUARD: on own decisions, or to follow the partner's. -/
def execInstantRelease (g : Nat) (s : State) : Host.Outcome State Fault Refusal :=
  runAt .rhz (fun b =>
    if 16 ≤ g ∨ (b.grpOf g).en = false then b
    else
      let i := b.grpNext g
      let r := b.releaseRef g
      let b := b.advanceTo (r.1 + b.guardFor g i)
      if !b.following then
        let b := b.instantOwn g
        b.doIf (i % b.decIn g == 0) (fun b => b.joinInstantCapture g (i / b.decIn g) [16 + g])
      else if b.rope.waits.any (fun w => w.1 == g && w.2.1 == i) then b
      else
        let mine : RelRecord := match (b.release1 g r.1 r.2).rhz.recs.getLast? with
          | some x => ⟨x.group, x.instant, x.entries⟩
          | none => ⟨g, i, []⟩
        let b := b.ropeSay 3 mine.body
        (b.modRope (fun p => { p with waits := p.waits ++ [(g, i, b.xtal)] })).tryFollow g) s

/-- R297, R305: the instant marker of instant m of group g, which the lanes have written, reaches Crozier. -/
def execInstantMarker (g m : Nat) (s : State) : Host.Outcome State Fault Refusal :=
  runAt .crz (fun b =>
    if g < 16 ∧ (b.grpOf g).mark = some m then
      ((b.setGrp g { b.grpOf g with mark := none }).instantMarker g m).joinInstantCapture g m [g, 32 + g]
    else b) s

/-! Swaps and handovers (R451, R452) -/

/-- R451: a SWAP frame; TABLES 0 says that the standby refuses. -/
def execSwap (lane : Nat) (f : List Byte) (s : State) : Host.Outcome State Fault Refusal :=
  ropeFrame 0xD lane f (fun f b =>
    let at' := beAt f.body 0 8
    let tables := beAt f.body 8 1
    let busy := b.swapState == 1 || b.swapState == 3
    if b.role = rACTIVE then
      if !busy then b
      else if tables = 0 then (b.set CRZ_SWAP_CTRL_STATE 5).raise 714
      else if b.crz.swapAt < at' then
        (((b.modCrz (fun c => { c with swapAt := at' })).set CRZ_SWAP_CTRL_STATE 3).set CRZ_SWAP_CTRL_DEFERRALS
          (b.get CRZ_SWAP_CTRL_DEFERRALS + 1)).raise 716
      else b
    else if b.role ≠ rSTANDBY ∨ tables = 0 then b
    else if busy then
      if b.crz.swapAt < at' then
        (((b.modCrz (fun c => { c with swapAt := at' })).set CRZ_SWAP_CTRL_STATE 3).set CRZ_SWAP_CTRL_DEFERRALS
          (b.get CRZ_SWAP_CTRL_DEFERRALS + 1)).raise 716
      else b
    else if beAt f.body 12 8 = b.rd64 IMG_STAGED_ID_LO ∧ b.lastTick < at' then
      ((((b.modCrz (fun c => { c with swapAt := at' })).set CRZ_SWAP_CTRL_TABLES tables).set CRZ_SWAP_CTRL_TRIG (beAt f.body 9 1)).set
        CRZ_SWAP_CTRL_STATE 1).set CRZ_SWAP_CTRL_DEFERRALS 0
    else (b.raise 919).ropeSay 0xD (beBytes 8 at' ++ [0, 0, 0, 0] ++ beBytes 8 (b.rd64 IMG_STAGED_ID_LO))) s

/-- R452: a HANDOVER frame: named by the active module, acknowledged by the standby. -/
def execHandover (lane : Nat) (f : List Byte) (s : State) : Host.Outcome State Fault Refusal :=
  ropeFrame 0xE lane f (fun f b =>
    let k := beAt f.body 0 8
    if beAt f.body 8 1 = 0 then (if b.role = rSTANDBY then b.ropeSay 0xE (beBytes 8 k ++ [1]) else b)
    else if b.role = rACTIVE ∧ b.rope.handover = some k then b.modRope (fun p => { p with acked := true })
    else b) s

/-- R452: two ticks pass without an acknowledgement. -/
def execHandoverAckTimeout (s : State) : Host.Outcome State Fault Refusal :=
  runAt .rope (fun b =>
    match b.rope.handover with
    | some k =>
      if b.role = rACTIVE ∧ b.rope.acked = false then
        let b := (b.advanceTo (tickNs b.tickRate (k - 2))).modRope (fun p => { p with handover := none })
        (b.set ROPE_JOIN_HANDOVER_FAIL 1).raise 898
      else b
    | none => b) s

/-- R452: the handover at the issue of tick n. -/
def Block.handoverTick (b : Block) (n : Nat) : Block :=
  match b.rope.handover with
  | some k =>
    if k ≤ n ∧ b.role = rACTIVE ∧ b.rope.acked = true then
      ((b.modRope (fun p => { p with handover := none })).leaseDrop.raise 898).setRole rSTANDBY
    else b
  | none => b

/-- R452: DEMOTE: a handover to a partner in STANDBY whose last HEALTH shows no failures. -/
def execDemote (s : State) : Host.Outcome State Fault Refusal :=
  runAt .rope (fun b =>
    if b.role = rACTIVE ∧ b.partnerIs rSTANDBY = true ∧ b.rope.pFails = false then
      let k := b.lastTick + 4
      (b.modRope (fun p => { p with handover := some k, acked := false })).ropeSay 0xE (beBytes 8 k ++ [0])
    else b) s

/-- R421, R452: DEMOTE with FORCE. -/
def execDemoteForce (s : State) : Host.Outcome State Fault Refusal :=
  runAt .rope (fun b => if b.role = rACTIVE then ((b.leaseDrop.raise 898).setRole rSYNCING).ropeEval else b) s

end Sys2Proof.Machine
end

