-- ==== Sys2Proof/Machine/Nrg.lean ====
section
/-! DEFINITION. Power domains, the ramp governor and the PLLs (chapter "Power domains, clocks, energy and thermal
governance", R548 to R556), and Bivouac (R570 to R573). -/

namespace Sys2Proof.Machine

open Sys2Proof Sys2Proof.Reg

/-! What R550 holds -/

/-- Is a physical core mapped, or a spare (R312)? -/
def Block.coreKept (b : Block) (c : Nat) : Bool :=
  (List.range 128).any (fun l => (b.on (CRZ_LCMAPl_EN l) && !b.on (CRZ_LCMAPl_NOCORE l) && b.coreOf l == c) ||
      (b.on (CRZ_LCMAPl_SPARE_EN l) && b.get (CRZ_LCMAPl_SPARE l) == c)) ||
    (List.range 16).any (fun u => b.on (CRZ_TUFTMAPt_SPARE_EN u) && b.get (CRZ_TUFTMAPt_SPARE u) == c / 8)

/-- Does a physical core's logical core hold a P or C task, or is a task of it outstanding or in a lookahead copy? -/
def Block.coreBusy (b : Block) (c : Nat) : Bool :=
  b.pcDescs.any (fun d => b.coreOf (dLcore d.2) == c) ||
    b.crz.runs.any (fun r => b.coreOf (dLcore r.desc) == c) ||
    b.crz.look.any (fun l => match l.copy with
      | some k => dValid k.desc && b.coreOf (dLcore k.desc) == c
      | none => false)

/-- Is a tuft a spare? -/
def Block.tuftSpare (b : Block) (t : Nat) : Bool :=
  (List.range 16).any (fun u => b.on (CRZ_TUFTMAPt_SPARE_EN u) && b.get (CRZ_TUFTMAPt_SPARE u) == t)

/-- Is a key slot valid that permits one of some destinations? -/
def Block.keyFor (b : Block) (ds : List Nat) : Bool :=
  (List.range 512).any (fun n => b.on (KEY_SLOTn_ATTR_VALID n) && ds.any (fun d => bit (b.get (KEY_SLOTn_ATTR_DEST n)) d))

/-- The state that R550 gives domain d outside Bivouac: ON while its condition holds, else RET or OFF. -/
def Block.domNormal (b : Block) (d : Nat) : Nat :=
  let on := fun (c : Bool) => if c then dON else dOFF
  if b.on (NRG_DOMd_CFG_PIN d) then dON
  else if d < 128 then if b.coreBusy d then dON else if b.coreKept d then dRET else dOFF
  else if d < 144 then
    let t := d - 128
    let cs := (List.range 8).map (fun k => 8 * t + k)
    if cs.any (fun c => b.coreBusy c || b.domState c == dON) then dON
    else if cs.any (fun c => b.domState c == dRET) || b.tuftSpare t then dRET else dOFF
  else if d < 176 then
    let l := (d - 144) / 2
    on (b.on (bitOf SOR_SPARE l) || (b.laneBlocks l).any (fun k => (b.blockChans k).any (fun c => (b.chanOf c).en)))
  else if d < 196 then on (b.prt (d - 176)).en
  else if d < 198 then on b.paired
  else if d = 198 then on (b.get HIF_STAT_LSTATE != 4)
  else if d < 201 then on (b.on (THL_DDRc_CFG_EN (d - 199)))
  else if d = 201 then on (b.keyFor [2, 4])
  else if d = 202 then on (b.keyFor [0, 1, 3, 5])
  else if d < 211 then on (let st := b.auxState (d - 203); st != axDISABLED && st != axSLEEP)
  else if d = 211 then on ((List.range 16).any (fun i => (b.feiOf i).en) || (List.range 16).any (fun k => (b.csetOf k).en))
  else dOFF

/-- The domains that Bivouac keeps (R571). -/
def Block.bivKept (b : Block) (d : Nat) : Bool :=
  if d < 176 then false
  else if d < 192 then b.on (PRTp_WAKE_CTRL_EN (d - 176))
  else if d < 196 then bit (b.get NRG_BIV_CFG_STN_KEEP) (d - 192)
  else if d < 198 then false
  else if d = 198 then b.get HIF_STAT_LSTATE != 4
  else if d < 201 then b.on (THL_DDRc_CFG_EN (d - 199))
  else if d = 201 then (List.range 4).any (fun t => bit (b.get NRG_BIV_CFG_STN_KEEP) t && b.on (STNs_SEC_EN t))
  else if 203 ≤ d ∧ d < 211 then b.domNormal d == dON
  else false

/-- The state that domain d is to take now; the exit of R572 follows the image again. -/
def Block.domWant (b : Block) (d : Nat) : Nat :=
  if b.on NRG_STATUS_BIVOUAC && !b.nrg.exiting then (if b.bivKept d then dON else dOFF) else b.domNormal d

/-! The ramp governor -/

/-- Does a step fit into the window of admissions of the last 2 µs (R552)? -/
def Block.rampFits (b : Block) (w : List (Nat × Nat)) (ma : Nat) : Bool :=
  let n := clampN 1 15 (b.get NRG_RAMP_MAX_PER_WIN)
  decide (w.length < n) && (w.isEmpty || decide (w.foldl (fun s e => s + e.2) 0 + ma ≤ 2 * b.get NRG_RAMP_MA_PER_US))

/-- The first instant from now on at which a step fits, with the admissions then in the window. -/
def Block.rampAt (b : Block) (ma now : Nat) : List (Nat × Nat) → Nat × List (Nat × Nat)
  | [] => (now, [])
  | e :: t => if b.rampFits (e :: t) ma then (now, e :: t) else b.rampAt ma (if now < e.1 + 2000 then e.1 + 2000 else now) t

/-- The head of a queue: the highest class, in it the oldest (R552). -/
def Block.rampHead (b : Block) (q : List PowerReq) : Option PowerReq :=
  (sortBy (fun x y => decide (b.get (NRG_DOMd_CFG_CLASS x.dom) ≤ b.get (NRG_DOMd_CFG_CLASS y.dom))) q).head?

/-- Contents that a domain in OFF loses (R548, R549): a core's TCMs, a tuft's bank. -/
def domSpaces (d : Nat) : List Nat :=
  if d < 128 then [(Space.itcm d).index, (Space.dtcm d).index]
  else if d < 144 then [(Space.tuft (d - 128)).index]
  else []

/-- A domain reaches a state; in OFF its contents are lost. -/
def Block.domReach (b : Block) (d st : Nat) : Block :=
  let b := b.set (NRG_DOMd_CFG_STATE d) st
  if st = dOFF then { b with mem := b.mem.filter (fun e => !(domSpaces d).contains (e.1 / 2 ^ 64)) } else b

/-- The exit from Bivouac: the requests of R572 are made once, and the warm reset follows when every domain that R550 holds
is ON. No cause of R602 names this reset: the recorded one is a value the spec leaves open. -/
def Block.bivSettle (b : Block) : Block :=
  if !(b.on NRG_STATUS_BIVOUAC && b.nrg.exiting) then b
  else
    let ds := (List.range 212).filter (fun d => b.member.hasDomain d && b.domNormal d == dON)
    let b := b.doIf (!b.nrg.asked) (fun b =>
      let b := (ds.foldl (fun b d => b.powerReq d dON) b).modNrg (fun n => { n with asked := true, sysMhz := 1000 })
      (b.set (bitOf NRG_CLK_LOCK 17) 1).each 16 (fun t b => b.doIf (ds.contains (128 + t)) (fun b => b.set (bitOf NRG_CLK_LOCK t) 1)))
    if ds.all (fun d => b.domState d == dON) then
      let r := b.draw 14
      (r.2.set NRG_STATUS_BIVOUAC 0).resetBy 2 r.1 false
    else b

/-! Commands of the governor -/

/-- R550, R552, R553: domain d asks for the state that R550 gives it; a core leaves ON only by CORE_IDLE_TIMEOUT. -/
def execDomainPowerRequest (d : Nat) (s : State) : Host.Outcome State Fault Refusal :=
  runAt .nrg (fun b =>
    if b.member.hasDomain d = false then b
    else
      let want := b.domWant d
      let b := if want = b.domState d ∨ (d < 128 ∧ want ≠ dON ∧ b.domState d = dON) then b else b.powerReq d want
      b.bivSettle) s

/-- R552, R553: the governor admits the head of the power-up queue, or of the power-down queue while that is empty, when it
fits the window. -/
def execDomainAdmit (s : State) : Host.Outcome State Fault Refusal :=
  runAt .nrg (fun b =>
    match b.rampHead (if b.nrg.up.isEmpty then b.nrg.down else b.nrg.up) with
    | none => b
    | some r =>
      let ma := b.get (NRG_DOMd_CFG_STEP_MA r.dom)
      let w := b.rampAt ma b.xtal (b.nrg.window.filter (fun e => decide (b.xtal < e.1 + 2000)))
      let b := b.advanceXtal w.1
      let drop := fun (l : List PowerReq) => l.filter (fun x => x != r)
      let b := b.modNrg (fun n => { n with up := drop n.up, down := drop n.down, window := w.2 ++ [(b.xtal, ma)], moving := n.moving ++ [r] })
      let b := (b.set (NRG_DOMd_CFG_STATE r.dom) dSWITCHING).showQueue r.dom
      let waited := b.xtal - r.since
      let b := b.doIf (decide (b.get NRG_RAMP_STAT_WAIT_MAX < waited)) (fun b => b.set NRG_RAMP_STAT_WAIT_MAX (satAdd 65535 0 waited))
      b.rampWaited r) s

/-- R553: an admitted transition of domain d is complete. -/
def execDomainOn (d : Nat) (s : State) : Host.Outcome State Fault Refusal :=
  runAt .nrg (fun b =>
    match b.nrg.moving.find? (fun r => r.dom == d) with
    | none => b
    | some r =>
      let b := (b.modNrg (fun n => { n with moving := n.moving.filter (fun x => x != r) })).domReach d r.want
      let t := 128 + d / 8
      let b := b.doIf (b.domWant d != b.domState d && !(decide (d < 128) && b.domState d == dON)) (fun b => b.powerReq d (b.domWant d))
      let b := b.doIf (decide (d < 128) && b.domWant t != b.domState t) (fun b => b.powerReq t (b.domWant t))
      b.bivSettle) s

/-- R550, R573: core c has been idle for IDLE_US and asks for RET or OFF; a request for power that waits wins. -/
def execCoreIdleTimeout (c : Nat) (s : State) : Host.Outcome State Fault Refusal :=
  runAt .nrg (fun b =>
    if b.member.units .frond ≤ c ∨ b.domState c ≠ dON ∨ b.domWant c = dON ∨ b.nrg.up.any (fun r => r.dom == c) = true then b
    else
      let b := b.advanceXtal (b.frd.idleAt.get (fun _ => 0) c + b.get NRG_GATE_IDLE_US * 1000)
      b.powerReq c (b.domWant c)) s

/-! PLLs (R35, R554 to R556) -/

/-- A tuft PLL has lost lock: unit reset of the tuft, its work moves to the spare map (R35). -/
def Block.tuftPllLoss (b : Block) (t : Nat) : Block :=
  let b := (b.set (bitOf NRG_CLK_LOCK t) 0).set (FRD_TUFTt_STAT_LOCK t) 0
  let b := { b with frd := { b.frd with changing := (t, false) :: b.frd.changing, freq := (t, none) :: b.frd.freq } }
  let b := b.modNrg (fun n => { n with retried := (t, false) :: n.retried })
  ((b.resetMark ⟨.tuft, t⟩ 3).moveTuft t).2.2.channelEvent (128 + t) 3 false 0

/-- R35, R533, R556: PLL p of NRG_CLK_LOCK loses lock uncommanded; srLost: with the DDR PLL, the entry into self-refresh fails. -/
def execPllLossOfLock (p : Nat) (srLost : Bool) (s : State) : Host.Outcome State Fault Refusal :=
  runAt .nrg (fun b =>
    if 20 ≤ p ∨ (b.on (bitOf NRG_CLK_LOCK p) = false ∧ b.frd.changing.get (fun _ => false) p = false) then b
    else
      let b := ((b.set (bitOf NRG_CLK_LOCK p) 0).nrgCnt 5).raise 26
      if p < 16 then b.tuftPllLoss p
      else if p = 19 then b.timePllLoss.report 0x0F 26 (UnitRef.id ⟨.nrg, 0⟩) 0 ((leBytes 4 (b.rd NRG_CLK_LOCK).toNat).map (fun x => x.toNat))
      else
        let b := b.doIf (p == 18) (fun b => b.each 2 (fun c b => b.doIf (b.on (THL_DDRc_CFG_EN c)) (fun b =>
          (b.set (THL_DDRc_STAT_TRAINED c) 0).setIf srLost (THL_DDRc_STAT_SR_LOSS c) 1)))
        let b := b.raiseIf (p == 18 && srLost) 45
        (b.modRst (fun r => { r with info := 2 ^ p })).moduleReset 0xC) s

/-- R556: the commanded relock of tuft p's PLL has not locked within 100 µs: retried once, then a loss of lock. -/
def execRelockTimeout (p : Nat) (s : State) : Host.Outcome State Fault Refusal :=
  runAt .nrg (fun b =>
    if 16 ≤ p ∨ b.frd.changing.get (fun _ => false) p = false then b
    else if b.nrg.retried.get (fun _ => false) p then
      ((b.nrgCnt 6).raise 27).tuftPllLoss p
    else b.modNrg (fun n => { n with retried := (p, true) :: n.retried })) s

/-! Bivouac (R570 to R573) -/

/-- The domains that Bivouac does not keep go OFF at its entry; the links of their ports drop. -/
def Block.bivOff (b : Block) : Block :=
  let ds := (List.range 212).filter (fun d => b.member.hasDomain d && !b.bivKept d)
  let b := ds.foldl (fun b d =>
    let b := b.doIf (decide (176 ≤ d) && decide (d < 196)) (fun b => b.linkDrop (d - 176))
    (b.domReach d dOFF).set (NRG_DOMd_CFG_QUEUED d) 0) b
  (b.modNrg (fun n => { n with up := [], down := [], moving := [] })).set NRG_RAMP_STAT_QUEUED 0

/-- What a segment does at Bivouac's entry (R594, R598). -/
def Block.auxBiv (b : Block) (k : Nat) : Block :=
  if b.on (AUXs_CFG_BIV_KEEP k) then b
  else if b.auxState k = axWAKING then b.setAux k { b.auxOf k with drainOnWake := true }
  else if b.auxState k = axSTANDBY ∨ b.auxState k = axNORMAL ∨ b.auxState k = axLISTEN then b.auxDrain k 3
  else b

/-- R570, R573: BIV_ENTER: refused with the lease held or the P or C table at work; else the module enters Bivouac. Tasks outstanding on
the cores that it switches off are lost with the cores' contents (R549, notes/assumptions/178). -/
def execBivEnter (s : State) : Host.Outcome State Fault Refusal :=
  runAt .nrg (fun b =>
    if b.on NRG_STATUS_BIVOUAC then b
    else if b.leased = true ∨ b.tblState 0 ≠ 0 ∨ b.tblState 1 ≠ 0 then (b.set NRG_STATUS_ENTRY_REFUSED 1).raise 30
    else
      let en := b.get CRZ_CTRL_TBL_EN
      let b := (b.set CRZ_CTRL_TBL_EN (en % 4)).each 4 (fun x b =>
        b.doIf (decide (2 ≤ x) && bit en x && (b.tblState x == 1 || b.tblState x == 2)) (fun b => (b.withdrawPending x false).setTblState x 0))
      let b := b.set RIDGE_RUN_RUN (b.get RIDGE_RUN_RUN % 2)
      let b := (b.set NRG_CLK_LOCK_TUFT 0).set (bitOf NRG_CLK_LOCK 17) 0
      let b := b.each 16 (fun t b => b.set (FRD_TUFTt_STAT_LOCK t) 0)
      let b := (b.each 8 (fun k b => b.auxBiv k)).ropeDown
      let b := b.doIf (b.role == rSTANDBY) (fun b => b.setRole rSYNCING)
      let b := (b.bivOff.modNrg (fun n => { n with exiting := false, asked := false, sysMhz := 250 })).set NRG_STATUS_BIVOUAC 1
      { b with crz := { b.crz with runs := [] } }.raise 28) s

/-- R572: a write of BIV_EXIT. -/
def execBivExit (s : State) : Host.Outcome State Fault Refusal := runAt .nrg (fun b => (b.nrgWake 0x10).bivSettle) s

/-- R391, R572: a falling edge on XTRIG line l; in Bivouac, where the engine is off, a wake request with XTRIG_WAKE set. -/
def execXtrigEdge (l : Nat) (s : State) : Host.Outcome State Fault Refusal :=
  run (fun b =>
    if b.on NRG_STATUS_BIVOUAC then
      if l < 4 ∧ b.on NRG_CTRL_XTRIG_WAKE = true then (b.nrgWake 0x11).bivSettle else b
    else if b.released .acq then b.xtrigFalls l else b) s

/-- R125 to R147, R572: process port p receives a whole frame. -/
def execPortFrameReceived (p : Nat) (f : RxFrame) (s : State) : Host.Outcome State Fault Refusal :=
  runUnit ⟨.prt, p⟩ (fun b => (b.portFrame p f).bivSettle) s

end Sys2Proof.Machine
end

