-- ==== Sys2Proof/Machine/Supply.lean ====
section
/-! DEFINITION. Temperature, the station supply monitor and the governor (R557 to R569). -/

namespace Sys2Proof.Machine

open Sys2Proof Sys2Proof.Reg

/-! The governor (R567, R569) -/

/-- The caps of R569: a tuft without P or C tasks runs at FMIN_MHZ while PL_THERMAL is 1 or more. -/
def Block.showCaps (b : Block) : Block :=
  if !b.on NRG_CTRL_GOV_EN then b
  else
    b.showPcMapped.each 16 (fun t b =>
      let want := b.on NRG_STATUS_PL_THERMAL && !b.on (FRD_TUFTt_STAT_PC_MAPPED t) && decide (t < b.member.units .tuft)
      if want = bit (b.get NRG_TUFT_CAP_CAPPED) t then b
      else ((b.set (bitOf NRG_TUFT_CAP t) (if want then 1 else 0)).raise 23).tuftRetune t)

/-- PL and SUPPLY_STATE follow PL_THERMAL, PL_SUPPLY and the monitor (R567, R575). -/
def Block.plUpdate (b : Block) : Block :=
  let t := b.get NRG_STATUS_PL_THERMAL
  let u := b.get NRG_STATUS_PL_SUPPLY
  let m := if t < u then u else t
  let old := b.get NRG_STATUS_PL
  let b := (b.set NRG_STATUS_PL m).raiseIf (old != m) 16
  b.set NRG_STATUS_SUPPLY_STATE (u + 4 * b.get NRG_SSM_STAT_DISAGREE + 8 * b.get NRG_SSM_STAT_VALID + 16 * b.get NRG_SSM_STAT_UVLO_WARN +
    32 * b.get NRG_SSM_STAT_SSM_FAULT + 64 * t)

/-- A level after a rise to the highest k that holds, or a fall by each level whose condition holds. -/
def levelAfter (old rise : Nat) (falls : Nat → Bool) : Nat :=
  if old < rise then rise
  else
    let f := fun (l k : Nat) => if l = k && falls k then k - 1 else l
    f (f (f old 3) 2) 1

/-! Temperature (R557 to R560) -/

/-- The median of five readings; of another number the lower middle one. -/
def medianI (l : List Int) : Int := (sortBy (fun x y => decide (x ≤ y)) l).getD ((l.length - 1) / 2) 0

/-- Is sensor s of a sample faulted (R558)? -/
def sensFaulted (temps : List Int) (s : Nat) : Bool :=
  let t := temps.getD s 0
  let others := ((List.range 6).map (fun i => 6 * (s / 6) + i)).filter (fun i => i != s)
  let m := medianI (others.map (fun i => temps.getD i 0))
  decide (t < -440) || decide (1200 < t) || decide (120 < (t - m).natAbs)

def maxI (l : List Int) : Option Int := match l with | [] => none | x :: r => some (r.foldl (fun m y => if m < y then y else m) x)

def Block.thermT (b : Block) (k : Nat) : Int :=
  sgn 8 (b.get (if k = 1 then NRG_THERM_T1 else if k = 2 then NRG_THERM_T2 else NRG_THERM_T3))

/-- R557 to R559, R567, R569: the 48 sensors are read, in 1/8 °C. -/
def execSensorSample (temps : List Int) (s : State) : Host.Outcome State Fault Refusal :=
  runAt .nrg (fun b =>
    let prev := (List.range 8).map (fun z => sgn 16 (b.get (NRG_ZONEz_TEMP z)))
    let b := b.each 48 (fun i b =>
      let f := sensFaulted temps i
      let first := f && !b.on (NRG_SENSs_FAULT i)
      let b := (b.set (NRG_SENSs_TEMP i) (uns 16 (temps.getD i 0))).set (NRG_SENSs_FAULT i) (if f then 1 else 0)
      if first then (b.nrgCnt 7).raise 18 else b)
    let zone := fun (z : Nat) => maxI (((List.range 6).map (fun i => 6 * z + i)).filterMap (fun i =>
      if sensFaulted temps i then none else some (temps.getD i 0)))
    let now := (List.range 8).map (fun z => match zone z with | some t => t | none => 8 * b.thermT 3)
    let b := b.each 8 (fun z b =>
      let t := now.getD z 0
      let b := (b.set (NRG_ZONEz_TEMP z) (uns 16 t)).set (bitOf NRG_THERM_STAT z) (if (zone z).isNone then 1 else 0)
      if sgn 16 (b.get (NRG_ZONEz_MAX z)) < t then b.set (NRG_ZONEz_MAX z) (uns 16 t) else b)
    let hottest := (List.range 8).foldl (fun h z => if now.getD h 0 < now.getD z 0 then z else h) 0
    let b := (b.set NRG_THERM_STAT_ZMAX (uns 16 (now.getD hottest 0))).set NRG_THERM_STAT_HOT_ZONE hottest
    let both := b.nrg.sampled
    let up := fun (k : Nat) => both && (List.range 8).any (fun z => decide (8 * b.thermT k ≤ prev.getD z 0) && decide (8 * b.thermT k ≤ now.getD z 0))
    let down := fun (k : Nat) =>
      let lim := 8 * (b.thermT k - (b.get NRG_THERM_HYST : Int))
      both && (List.range 8).all (fun z => decide (prev.getD z 0 < lim) && decide (now.getD z 0 < lim))
    let rise := if up 3 then 3 else if up 2 then 2 else if up 1 then 1 else 0
    let old := b.get NRG_STATUS_PL_THERMAL
    let lvl := levelAfter old rise down
    let b := (b.modNrg (fun n => { n with sampled := true })).set NRG_STATUS_PL_THERMAL lvl
    (((b.raiseIf (old != lvl) 17).plUpdate).showCaps).holdFollow.calByHeat) s

/-- R560: a zone comparator trips at 125 °C: THERMTRIP_N, the lease ends, cold reset is held. -/
def execThermalTrip (s : State) : Host.Outcome State Fault Refusal :=
  run (fun b => if b.rst.off then b else (b.modRst (fun r => { r with thermtrip := true })).leaseDrop.moduleReset 4) s

/-! The supply monitor (R561 to R566) -/

/-- CAP of R562 in µAs. -/
def Block.ssmCap (b : Block) : Nat := b.get NRG_SSM_CFG_CAP_AH * 3600000000

/-- SOC_Q follows Q; where CAP is 0 the quotient is a value the spec leaves open. -/
def Block.showSocQ (b : Block) : Block :=
  if b.ssmCap = 0 then
    let r := b.draw 65536
    r.2.set NRG_SSM_SOC_SOC_Q r.1
  else b.set NRG_SSM_SOC_SOC_Q (b.nrg.q * 10000 / b.ssmCap)

/-- Q takes the value of a charge in 0.01 %. -/
def Block.socLoad (b : Block) (soc : Nat) : Block :=
  ((b.modNrg (fun n => { n with q := clampN 0 b.ssmCap (soc * b.ssmCap / 10000) })).showSocQ)

/-- SOC_V of a compensated voltage in mV, in the table of R577 (R563). -/
def Block.socOf (b : Block) (mv : Int) : Nat :=
  let v := fun (k : Nat) => ((10 * b.get (NRG_SSM_VTBLk_V k) : Nat) : Int)
  let y := fun (k : Nat) => ((b.get (NRG_SSM_VTBLk_SOC k) : Nat) : Int)
  match (List.range 16).reverse.find? (fun k => decide (v k ≤ mv)) with
  | none => (y 0).toNat
  | some 15 => (y 15).toNat
  | some k => (y k + Int.tdiv ((mv - v k) * (y (k + 1) - y k)) (v (k + 1) - v k)).toNat

/-- PROVISIONAL and VALID follow QUIET_S (R563). -/
def Block.showValid (b : Block) : Block :=
  let q := b.nrg.quietMs / 1000
  let ok := decide (300 ≤ q)
  ((b.set NRG_SSM_STAT_QUIET_S (satAdd 4095 0 q)).set NRG_SSM_STAT_VALID (if ok then 1 else 0)).set NRG_SSM_STAT_PROVISIONAL
    (if ok && !b.nrg.qProv then 0 else 1)

/-- The estimates of R562 and R563 from a good sample. -/
def Block.ssmEstimate (b : Block) (mv ma : Int) : Block :=
  let d := if 0 < ma then Int.tdiv (ma * (b.get NRG_SSM_CFG_CHG_EFF : Int)) 1000 else ma
  let q := clampI 0 (b.ssmCap : Int) ((b.nrg.q : Int) + d)
  let quiet := decide (ma.natAbs < 20 * b.get NRG_SSM_CFG_CAP_AH)
  let b := b.modNrg (fun n => { n with q := q.toNat, quietMs := if quiet then n.quietMs + 1 else 0 })
  let socV := b.socOf (mv - Int.tdiv (ma * (b.get NRG_SSM_RBATT_MOHM : Int)) 1000)
  let b := b.set NRG_SSM_SOC_SOC_V socV
  let b := if b.nrg.qSet then b.showSocQ
    else (b.modNrg (fun n => { n with qSet := true, qProv := true })).socLoad (b.get NRG_SSM_SOC_SOC_V)
  b.showValid

/-- The registers of the monitor, which the hold of R566 keeps: they stand in the always-on domain. -/
def ssmRegs : List Nat := [NRG_SSM_CFG, NRG_SSM_VSCALE, NRG_SSM_ISCALE, NRG_SSM_RBATT, NRG_SSM_UVLO, NRG_SSM_WARN]

/-- A record of the supply monitor: its STAT and SOC words. -/
def Block.ssmRecord (b : Block) (source soc : Nat) : Block :=
  b.report 0x0F source (UnitRef.id ⟨.nrg, 0⟩) 0 ((leBytes 4 (b.rd NRG_SSM_STAT).toNat ++ leBytes 4 soc).map (fun x => x.toNat))

/-- Undervoltage: the warning and the lockout of R566. -/
def Block.uvlo (b : Block) (mv : Int) : Block :=
  let level := 10 * b.get NRG_SSM_UVLO_LEVEL
  let warn := decide (mv < ((level + 10 * b.get NRG_SSM_WARN_MARGIN : Nat) : Int))
  let first := warn && !b.on NRG_SSM_STAT_UVLO_WARN
  let b := b.set NRG_SSM_STAT_UVLO_WARN (if warn then 1 else 0)
  let b := b.doIf first (fun b => (b.raise 21).ssmRecord 21 (b.rd NRG_SSM_SOC).toNat)
  let low := level != 0 && decide (mv < (level : Int))
  let high := decide (((level + 100 * b.get NRG_SSM_UVLO_HYST : Nat) : Int) ≤ mv)
  let b := b.modNrg (fun n => { n with under := if low then n.under + 1 else 0, above := if high then n.above + 1 else 0 })
  if low && decide (clampN 1 255 (b.get NRG_SSM_UVLO_TIME_MS) ≤ b.nrg.under) && !bit b.rst.held 5 then
    let kept := ssmRegs.map (fun a => (a, b.rd a))
    let b := b.leaseDrop.moduleReset 5
    kept.foldl (fun b e => b.wr e.1 e.2) b
  else b

/-- R561 to R563, R566: both inputs are sampled. The spec's worked example rounds IBAT to the nearest mA: both quotients do (DEDUCED). -/
def execSsmSample (vcode : Nat) (icode : Int) (s : State) : Host.Outcome State Fault Refusal :=
  runAt .nrg (fun b =>
    if !b.on NRG_SSM_CFG_EN then (b.set NRG_STATUS_PL_SUPPLY 0).plUpdate
    else
      let mv := rneDiv ((vcode * b.get NRG_SSM_VSCALE_UV_PER_CODE : Nat) : Int) 1000
      let ma := rneDiv (icode * (b.get NRG_SSM_ISCALE_UA_PER_CODE : Int)) 1000
      let b := (b.wr NRG_SSM_VBAT (BitVec.ofNat 32 mv.toNat)).wr NRG_SSM_IBAT (BitVec.ofNat 32 (uns 32 ma))
      let bad := vcode == 0 || vcode == 0xFFFF || icode == -32768 || icode == 32767
      let b := if bad then ((b.modNrg (fun n => { n with need := 1000 })).set NRG_SSM_STAT_SSM_FAULT 1).raise 22
        else if b.nrg.need = 0 then b.ssmEstimate mv ma
        else
          let b := b.modNrg (fun n => { n with need := n.need - 1 })
          b.setIf (b.nrg.need == 0) NRG_SSM_STAT_SSM_FAULT 0
      (b.uvlo mv).plUpdate) s

/-- BATT_DISAGREE follows the difference of the estimates (R564). -/
def Block.disagree (b : Block) : Block :=
  let d := ((b.get NRG_SSM_SOC_SOC_Q : Int) - (b.get NRG_SSM_SOC_SOC_V : Int)).natAbs
  let was := b.on NRG_SSM_STAT_DISAGREE
  let now := if was then decide (1300 < d) else decide (1500 < d)
  (b.set NRG_SSM_STAT_DISAGREE (if now then 1 else 0)).raiseIf (was != now) 19

/-- R564, R565: the evaluation of each second. -/
def execSocEvaluate (s : State) : Host.Outcome State Fault Refusal :=
  runAt .nrg (fun b =>
    if !b.on NRG_SSM_CFG_EN then b
    else
      let q := b.get NRG_SSM_SOC_SOC_Q
      let v := b.get NRG_SSM_SOC_SOC_V
      let far := b.on NRG_SSM_STAT_VALID && decide (1500 < ((q : Int) - (v : Int)).natAbs)
      let n := if far then b.get NRG_SSM_STAT_ANCHOR_S + 1 else 0
      let b :=
        if n < 1800 then b.set NRG_SSM_STAT_ANCHOR_S n
        else
          let soc := (b.rd NRG_SSM_SOC).toNat
          let b := ((b.modNrg (fun n => { n with qProv := false })).socLoad v).set NRG_SSM_STAT_ANCHOR_S 0
          ((b.showValid.nrgCnt 4).raise 20).ssmRecord 20 soc
      let b := b.disagree
      let q := b.get NRG_SSM_SOC_SOC_Q
      let low := if q < v then q else v
      let l := fun (k : Nat) => b.get (if k = 1 then NRG_SSM_SOCL_L1 else if k = 2 then NRG_SSM_SOCL_L2 else NRG_SSM_SOCL_L3)
      let rise := if low ≤ 100 * l 3 then 3 else if low ≤ 100 * l 2 then 2 else if low ≤ 100 * l 1 then 1 else 0
      let lvl := levelAfter (b.get NRG_STATUS_PL_SUPPLY) rise (fun k => decide (100 * (l k + b.get NRG_SSM_SOCL_HYST) ≤ low))
      (b.set NRG_STATUS_PL_SUPPLY lvl).plUpdate) s

/-- R562, R573: firmware loads a saved SOC_Q. -/
def execSocqSet (v : Word) (s : State) : Host.Outcome State Fault Refusal :=
  runAt .nrg (fun b =>
    if bit v.toNat 31 then
      ((((b.modNrg (fun n => { n with qSet := true, qProv := false })).socLoad (bits v.toNat 0 16)).set NRG_SSM_STAT_ANCHOR_S 0).showValid)
    else b) s

end Sys2Proof.Machine
end

