-- ==== Sys2Proof/Machine/Writes.lean ====
section
/-! DEFINITION. Accesses to register space that no other command covers: plain writes (R10), the sequencer table bank and the
timer block as BAR0 shows them (R287, R290, R368), accesses outside the registers (R60, R62), 64-bit counters (R64 to R67), and the
pending bits (R76). -/

namespace Sys2Proof.Machine

open Sys2Proof Sys2Proof.Reg

/-! Who may reach what -/

/-- May a requester reach register space: the host through an open memory space, JTAG with debug enabled (R493, R647)? -/
def Block.reaches (b : Block) (who : Requester) : Bool :=
  !b.rst.off && (match who with
    | .host => b.hostIn
    | .ridge m => decide (m < 4) && b.released .ridge
    | .jtag => b.on KEY_STATUS_DEBUG)

/-- Is an offset one that a register table, a header, a directory or another rule lists: the banks behind the CRZ window (R287, R368),
the windows of instances, the translation entries and the slices (R465, R487), the acquisition directory (R407), the MSI-X table and its PBA (R517) (R60)? -/
def listed (a : Nat) : Bool :=
  (rowOf a).isSome || (treeWord a).isSome || (decide (0x1100000 ≤ a) && decide (a < 0x1210000)) ||
    (decide (0x4120000 ≤ a) && decide (a < 0x4130000)) || (decide (0x4200000 ≤ a) && decide (a < 0x4240000)) ||
    (decide (0x4900000 ≤ a) && decide (a < 0x5100000)) || (decide (0x3100000 ≤ a) && decide (a < 0x3200000)) || (decide (0x77F00 ≤ a) && decide (a < 0x80000))

/-- Can the registers of the unit at an offset be read: it is there and released; a retired one's stay readable (R4, R58, R608)? -/
def Block.unitRead (b : Block) (a : Nat) : Bool :=
  match unitOf a with
  | none => false
  | some u => b.member.has u && b.released u.cls

/-- Is the unit at an offset there, not retired and released, and the register one of the member's (R4, R58, R608, R715)? -/
def Block.unitOpen (b : Block) (a : Nat) : Bool :=
  match unitOf a with
  | none => false
  | some u => b.member.has u && !b.on (stRetired u.hdr) && b.released u.cls && b.member.regMask a != 0

/-! The sequencer table bank (R290) -/

/-- Is a byte of the bank in an active bank of a table, of the trigger list or of the snapshot list, or in the carry map while a swap
is armed? -/
def Block.seqHeld (b : Block) (o : Nat) : Bool :=
  if o < 0x80000 then o / 0x10000 % 2 == b.get (tblBank (o / 0x20000))
  else if o < 0x90000 then (o - 0x80000) / 0x8000 == b.get CRZ_STATUS_TRIG_BANK
  else if 0xA0000 ≤ o ∧ o < 0xB0000 then b.swapState == 1 || b.swapState == 3
  else if 0xB0000 ≤ o ∧ o < 0xB1000 then (o - 0xB0000) / 0x800 == b.crz.snapBank
  else false

/-- A write refused under R290: CRZ_WRITE_REFUSED and event 722. -/
def Block.seqRefuse (b : Block) : Block := (b.crzCnt 11 1).raise 722

/-- A word of the bank after start. -/
def Block.seqWrite (b : Block) (o : Nat) (v : Word) : Block :=
  if b.seqHeld o then b.seqRefuse else b.storeNat .seq o 4 v.toNat

/-- The fields of an active bank among the registers of R290, which keep their values. -/
def Block.activeFields (b : Block) (a : Nat) : List Fld :=
  let tbl := (List.range 4).foldl (fun (l : List Fld) x =>
    let k := b.get (tblBank x)
    l ++ (if k = 0 then [CRZ_TBLx_CFGA_PERIOD x, CRZ_TBLx_CFGA_PHASE x, CRZ_TBLx_LEN_LEN_A x]
          else [CRZ_TBLx_CFGB_PERIOD x, CRZ_TBLx_CFGB_PHASE x, CRZ_TBLx_LEN_LEN_B x])) []
  let one := fun (k : Nat) (x y : Fld) => if k = 0 then x else y
  (one (b.get CRZ_STATUS_TRIG_BANK) CRZ_TRIG_LEN_LEN_A CRZ_TRIG_LEN_LEN_B ::
    one b.crz.snapBank CRZ_SNAP_LEN_LEN_A CRZ_SNAP_LEN_LEN_B :: tbl).filter (fun f => f.addr == a)

/-! Timer block (R368) -/

/-- Is a byte of the timer block module state? -/
def timerModule (o : Nat) : Bool :=
  if o < 0x8000 then (decide (4 ≤ o % 16) && decide (o % 16 < 8)) || o % 16 == 9
  else if o < 0xC000 then decide (o % 16 < 8) || o % 16 == 15
  else decide (o % 16 < 5)

/-- A word of the block written by Ridge firmware or the admin instance. -/
def Block.timerWrite (b : Block) (o : Nat) (v : Word) : Block :=
  (List.range 4).foldl (fun b i =>
    if timerModule (o + i) then b else b.store .timer (o + i) (BitVec.ofNat 8 (v.toNat / 256 ^ i))) b

/-! What a plain write sets off besides -/

/-- Channel numbers of the ports and lanes whose registers hold PRBS: 0–15 process, 16–19 station, 20–21 Rope lanes. -/
def prbsOf (p : Nat) : Fld := if p < 20 then prbsBit p else ROPE_LANEk_CFG_PRBS (p - 20)

/-- A line starts its PRBS test: its errors count anew, its link drops (R122, R126, R171). -/
def Block.prbsStart (b : Block) (p : Nat) : Block :=
  if p < 16 then (b.wr (PRTp_PRBS_ERR p) 0).linkDrop p
  else if p < 20 then (b.wr (STNs_PRBS_ERR (p - 16)) 0).linkDrop p
  else b.ropeLaneLoss (p - 20)

/-- What follows a write of register a from word o, by the unit that owns it. -/
def Block.afterWrite (b : Block) (a : Nat) (o : Word) : Block :=
  let was := fun (f : Fld) => bits o.toNat f.lo f.width
  let rose := fun (f : Fld) => was f == 0 && b.on f
  let fell := fun (f : Fld) => was f != 0 && !b.on f
  match rowOf a with
  | none => b
  | some r =>
    let i := match r.dims with
      | (s, _) :: _ => (a - r.base) / s
      | [] => 0
    if r.base = PRTp_SERDES 0 then (if rose (prbsBit i) then b.prbsStart i else b)
    else if r.base = STNs_SERDES 0 then (if rose (prbsBit (16 + i)) then b.prbsStart (16 + i) else b)
    else if r.base = ROPE_LANEk_CFG 0 then (if rose (ROPE_LANEk_CFG_PRBS i) then b.prbsStart (20 + i) else b)
    else if a < 0x200000 ∧ 0x100000 ≤ a ∧ a = PRTp_CNTi ((a - 0x100000) / 0x10000) 12 then
      (let p := (a - 0x100000) / 0x10000; b.setPrt p { b.prt p with lpi := false })
    else if r.base = TIM_TCOMPk 0 ∨ a = TIM_HOLD ∨ a = TIM_SLEW then b.holdFollow
    else if a = CRN_LOG_SIZE then b.wr CRN_CAP (BitVec.ofNat 32 b.logCap)
    else if r.base = SOR_CHc_CFG 0 then
      (if fell (SOR_CHc_CFG_EN i) then (b.setChan i { b.chanOf i with en := false }).laneLoad (b.laneMap (i / 512)) else b)
    else if r.base = THRk_CFG 0 then (if fell (THRk_CFG_EN i) then b.setThr i { b.thrOf i with en := false } else b)
    else if r.base = ACQ_TRGu_CFG 0 then
      (if rose (ACQ_TRGu_CFG_EN i) then
        (if b.trgAllowed (b.rd a).toNat then b.trgEnable i else b.wr a o)
      else if fell (ACQ_TRGu_CFG_EN i) then b.setTrg i { b.trgOf i with en := false } else b)
    else if r.base = ACQ_FEIi_CFG 0 then
      (if b.hasFei = false then b.wr a o
      else if rose (ACQ_FEIi_CFG_EN i) then b.setFei i { b.feiOf i with en := true, cfg := b.rd a, delay := b.rd (ACQ_FEIi_DELAY i) }
      else if fell (ACQ_FEIi_CFG_EN i) then b.setFei i { b.feiOf i with en := false } else b)
    else if a = SOR_LANEMAP_LO ∨ a = SOR_LANEMAP_HI then b.showBlocks
    else if a = SOR_SPARE ∨ r.base = CRZ_LCMAPl 0 ∨ r.base = CRZ_TUFTMAPt 0 then b.showSpares
    else if r.base = THL_SPAREb_s 0 0 then
      (let k := segKey i (bits (b.rd a).toNat 0 16)
       if rose ⟨a, 31, 1⟩ then { b with seg := (k, 1) :: b.seg } else if fell ⟨a, 31, 1⟩ then { b with seg := (k, 0) :: b.seg } else b)
    else if a = HIF_WAKE_CAUSE then (if fell HIF_WAKE_CAUSE_VALID then b.wr a 0 else b)
    else if r.base = AUXs_WAKE_CAUSE 0 then (if fell (AUXs_WAKE_CAUSE_VALID i) then b.wr a 0 else b)
    else if r.base = TIM_PGg_CTRL 0 then (if fell (TIM_PGg_CTRL_EN i) then b.set (TIM_PGg_CTRL_RUNNING i) 0 else b)
    else if a = NRG_SSM_CFG then (if fell NRG_SSM_CFG_EN then (b.set NRG_STATUS_PL_SUPPLY 0).plUpdate else b)
    else b

/-- The bits that read 0 in registers whose low bits do: page-aligned addresses of Ridge's queues and of the image's source. -/
def lowZeros (a : Nat) : Nat :=
  if a = RIDGE_BOOT_LO ∨ (List.range 9).any (fun q => a == RIDGE_RQq_BASE_LO q || a == RIDGE_TQq_BASE_LO q) = true then 12
  else if a = IMG_SRC_LO then 6
  else 0

/-- A mapped register written by software, or by the loader with all fields (R10, R627). -/
def Block.regWrite (b : Block) (all : Bool) (a : Nat) (v : Word) : Block :=
  let o := b.rd a
  let w := b.written all a v
  let w := BitVec.ofNat 32 ((w.toNat / 2 ^ lowZeros a * 2 ^ lowZeros a) &&& b.member.regMask a)
  let fs := if b.rst.rel then b.activeFields a else []
  let held := fs.filter (fun f => bits o.toNat f.lo f.width != bits w.toNat f.lo f.width)
  let w := BitVec.ofNat 32 (held.foldl (fun n f => putBits n f.lo f.width (bits o.toNat f.lo f.width)) w.toNat)
  ((b.wr a w).doIf (!held.isEmpty) Block.seqRefuse).afterWrite a o

/-- The packet numbers of MACsec: 64-bit counters that software loads (R66, R187). -/
def loadBases : List Nat := [STNs_TXSAa_PN_LO 0 0, STNs_RXSCc_SAa_LPN_LO 0 0 0]

/-- Is offset a the _LO of a counter of R66? -/
def loadLo (a : Nat) : Bool :=
  match rowOf a with
  | none => false
  | some r => r.base ∈ loadBases

/-- R66: a write of the _HI of the counter whose _LO is at a, and of that _LO. -/
def Block.stageHi (b : Block) (a : Nat) (v : Word) : Block := { b with staging := (a, v) :: b.staging }
def Block.loadLoWord (b : Block) (a : Nat) (v : Word) : Block := b.wr64 a (v.toNat + 2 ^ 32 * (b.staging.get (fun _ => 0) a).toNat)

/-- A write of one word in register space by a requester that may make it. -/
def Block.access (b : Block) (a : Nat) (v : Word) : Block :=
  if 0x1100000 ≤ a ∧ a < 0x1200000 then (if b.unitOpen a then b.seqWrite (a - 0x1100000) v else b)
  else if 0x1200000 ≤ a ∧ a < 0x1210000 then (if b.unitOpen a then b.timerWrite (a - 0x1200000) v else b)
  else match unitOf a with
    | none => b
    | some u =>
      if a = u.hdr + 8 then (if b.member.has u ∧ bit v.toNat 4 = true then b.set (stForced u.hdr) 0 else b)
      else if !b.unitOpen a then b
      else if a = u.hdr + 0x18 then b.set (qtmo u.hdr) v.toNat
      else if a = u.hdr + 0x1C then (if bit v.toNat 0 then b.set ⟨a, 0, 1⟩ 0 else b)
      else if loadLo a then b.loadLoWord a v
      else if loadLo (a - 4) && decide (4 ≤ a) then b.stageHi (a - 4) v
      else if 0x78000 ≤ a ∧ a < 0x80000 then
        (if a % 16 = 12 then (let b := b.wr a (BitVec.ofNat 32 (v.toNat % 2)); if bit v.toNat 0 then b else b.msixTry ((a - 0x78000) / 16)) else b.wr a v)
      else if (rowOf a).isSome then
        (if (b.get RST_START_STAGE = 0xD ∨ b.get RST_START_STAGE = 0xE) ∧ u.cls = .thl ∧ a ≠ THL_ERR then b else b.regWrite false a v)
      else b

/-- R10: a requester writes a word at offset addr; fields whose writes are commands of their own are left as they are. -/
def execRegisterWrite (who : Requester) (addr : Nat) (v : Word) (s : State) : Host.Outcome State Fault Refusal :=
  run (fun b => if b.reaches who = false ∨ addr % 4 ≠ 0 ∨ 0x8000000 ≤ addr then b else b.access addr v) s

/-- Does an offset of register space lie in a reserved range (R59, R60)? -/
def reservedAt (a : Nat) : Bool := (decide (a < 0x8000000) && (unitOf a).isNone) || (decide (0xDE00000 ≤ a) && decide (a < 0xE000000))

/-- R60: an access to a reserved range, to an absent unit's window or to an unlisted offset; and a read of BAR2, whose bytes follow those
of BAR0 in the operand, which returns zero (R61). -/
def execUnmappedAccess (who : Requester) (addr : Nat) (write : Bool) (s : State) : Host.Outcome State Fault Refusal :=
  run (fun b =>
    if b.reaches who = false then b
    else if 0x10000000 ≤ addr then (if addr < 0x11000000 ∧ write = false then b.answer 0 else b)
    else
      let absent := match unitOf addr with
        | some u => !b.member.has u
        | none => false
      if reservedAt addr = true ∨ absent = true ∨ (addr < 0x8000000 ∧ listed (addr / 4 * 4) = false) then
        let b := if write then b else b.answer 0
        if reservedAt addr = true ∨ write = true then b.rootErr who addr ROOT_ERR_UNMAPPED else b
      else b) s

/-! 64-bit counters (R64 to R67) -/

/-- The register groups that R64 governs by the _LO of their first register, with whether a _FRAC lies below. -/
def snapBases : List (Nat × Bool) :=
  [(TIM_NOW_LO, true), (TIM_TICKNUM_LO, false), (TIM_PPS_STAMP_LO, true), (PRTp_WAKE_TIME_LO 0, false), (RHZ_GRPg_NEXT_LO 0, false),
   (RHZ_SLOTs_LASTI_LO 0, false), (SOR_TRKt_PHASE_LO 0, false), (CRZ_SWAP_DONE_LO, false), (CRZ_FAULT_FAR_LO, false),
   (CRZ_TBLx_CYCLES_LO 0, false), (ACQ_FEIi_LAST_LO 0, true), (ACQ_CSETs_ARM_LO 0, false), (ROPE_TAKEOVER_TICK_LO, false),
   (ROPE_JOIN_TICK_LO, false), (VIN_FAULT_IA_LO, false), (VIN_INSTi_TICK_LO 0, false), (HIF_WAKE_TIME_LO, false),
   (THL_CRC_ADDR_LO, false), (AUXs_WAKE_TIME_LO 0, false)]

/-- Is offset a the _LO of a group of R64, and has it a _FRAC below? -/
def snapLo (a : Nat) : Option Bool :=
  match rowOf a with
  | none => none
  | some r => (snapBases.find? (fun e => e.1 == r.base)).map (fun e => e.2)
/-- The live 64 bits of the group whose _LO is at a, and its live fraction. -/
def Block.live64 (b : Block) (a : Nat) : Nat := if a = TIM_NOW_LO then b.ns else b.rd64 a
def Block.liveFrac (b : Block) (a : Nat) : Nat := if a = TIM_NOW_LO then b.stamp % 2 ^ 16 else (b.rd (a - 4)).toNat

/-- A read of _LO at a latches the high word, and the fraction where there is one. -/
def Block.latchHi (b : Block) (who : Requester) (a : Nat) (frac : Bool) : Block :=
  let hi := (shadowKey who (a + 4), BitVec.ofNat 32 (b.live64 a / 2 ^ 32))
  let fr := (shadowKey who (a - 4), BitVec.ofNat 32 (b.liveFrac a))
  { b with shadow := hi :: (if frac then fr :: b.shadow else b.shadow) }

/-! Reads (R10, R58, R60, R64, R73, R84, R272) -/

/-- UNIT_STATUS of a group, the aggregate of its present children (R53); its QUIESCING and RESET_BUSY show those of any child. -/
def Block.groupStatus (b : Block) (u : UnitRef) : Nat :=
  let cs := u.children.filter b.member.has
  let live := cs.filter (fun c => !b.on (stRetired c.hdr))
  (if cs.isEmpty then 0 else 1) + 2 * (!cs.isEmpty && live.all (fun c => b.on (stIdle c.hdr))).toNat +
    4 * (!cs.isEmpty && live.isEmpty).toNat + 8 * (cs.any (fun c => b.on (stFault c.hdr))).toNat + 16 * b.get (stForced u.hdr) +
    64 * (cs.any (fun c => b.on (stQuiescing c.hdr))).toNat + 128 * (cs.any (fun c => b.on (stResetBusy c.hdr))).toNat

/-- The word of a register that the module computes as it is read; the others as they are held. -/
def Block.liveWord (b : Block) (a : Nat) : Word :=
  if a = TIM_NOW_LO then BitVec.ofNat 32 b.ns
  else if a = TIM_EST_ERR then BitVec.ofNat 32 b.estErr
  else if a = ROPE_LEASE then BitVec.ofNat 32 (putBits (b.rd a).toNat 16 7 (if b.rope.lease then (b.rope.leaseEnd - b.xtal) / 1000000 else 0))
  else if a = CRN_UPTIME then BitVec.ofNat 32 b.uptimeMs
  else if KEY_SLOTn_ATTR 0 ≤ a ∧ a < KEY_SLOTn_ATTR 512 ∧ a % 16 = 0 then
    BitVec.ofNat 32 (putBits (b.rd a).toNat 30 1 (b.usable ((a - KEY_SLOTn_ATTR 0) / 16) 9).toNat)
  else if a = SWC_LAG_STAT then BitVec.ofNat 32 b.lagStat
  else match unitOf a with
    | some u =>
      if a = u.hdr + 8 ∧ u.cls.isGroup = true then BitVec.ofNat 32 (b.groupStatus u)
      else if u.cls = .stn ∧ a = STNs_EEE u.inst then BitVec.ofNat 32 (putBits (b.rd a).toNat 1 1 (b.eeeBlocked u.inst).toNat)
      else if u.cls = .aux ∧ a = AUXs_AWAKE_LEFT u.inst then BitVec.ofNat 32 (match (b.auxOf u.inst).awake with
        | some e => if b.auxState u.inst = axNORMAL ∨ b.auxState u.inst = axLISTEN then satAdd 65535 0 ((e - b.xtal + 999999999) / 1000000000) else 0
        | none => 0)
      else if a = u.hdr + 4 ∧ u.cls = .acq then BitVec.ofNat 32 (putBits (b.rd a).toNat 0 16 b.member.acqCaps)
      else b.rd a
    | none => b.rd a

/-- The bits that read as held: those of the member (R715), less what is write-only (R10). -/
def Block.readMask (b : Block) (a : Nat) : Nat :=
  let m := b.member.regMask a
  match rowOf a with
  | some r => m &&& (r.fields.foldl (fun w f => if f.acc == .wo then putBits w f.lo (f.hi + 1 - f.lo) 0 else w) (2 ^ 32 - 1))
  | none => m

/-- What a 32-bit read of the register at offset a returns to a requester, and the block after its side effects. -/
def Block.readWord (b : Block) (who : Requester) (a : Nat) : Nat × Block :=
  let seen := fun (x : Nat) => (b.shadow.get (fun _ => 0) (shadowKey who x)).toNat
  match unitOf a with
  | none => (0, b.rootErr who a ROOT_ERR_UNMAPPED)
  | some _ =>
    if !b.unitRead a then (0, b)
    else if 0x1100000 ≤ a ∧ a < 0x1200000 then (b.loadNat .seq (a - 0x1100000) 4, b)
    else if 0x1200000 ≤ a ∧ a < 0x1210000 then (b.loadNat .timer (a - 0x1200000) 4, b)
    else if 0x3100000 ≤ a ∧ a < 0x3200000 then (b.loadNat .acq (a - 0x3100000) 4, b)
    else if 0x4900000 ≤ a ∧ a < 0x5100000 then
      (let i := (a - 0x4900000) / 0x8000
       if i = 0 ∨ 0x40 ≤ (a - 0x4900000) % 0x8000 ∨ b.member.instances ≤ i then 0
       else (b.rd (VIN_INSTi_STAT i + (a - 0x4900000) % 0x8000)).toNat, b)
    else match snapLo a with
      | some frac => (b.live64 a % 2 ^ 32, b.latchHi who a frac)
      | none =>
        if loadLo a then (b.live64 a % 2 ^ 32, b.latchHi who a false)
        else if (snapLo (a - 4)).isSome || loadLo (a - 4) || snapLo (a + 4) == some true then (seen a, b)
        else if a = RIDGE_TSF3 then ((b.rd a).toNat, b.tsfPop)
        else if 0xE00000 ≤ a ∧ a < 0xE80000 then
          (let k := (a - 0xE00000) / 16
           let w := (a - 0xE00000) % 16
           if w = 0 then ((b.rd a).toNat &&& b.readMask a, if k < 4 * b.member.channels then b.thrLatch who k else b)
           else if w = 4 ∨ w = 8 then (seen a, b)
           else ((b.rd a).toNat &&& b.readMask a, b))
        else ((b.liveWord a).toNat &&& b.readMask a, b)

/-- R62: an access of some bytes to register space. A misaligned one, or a write narrower than a word, is refused with ROOT_ERR.WIDTH; a
read within one word returns its bytes with the side effects of the word's read. -/
def execMisalignedAccess (who : Requester) (addr bytes : Nat) (write : Bool) (s : State) : Host.Outcome State Fault Refusal :=
  run (fun b =>
    let mis := if bytes = 8 then addr % 8 ≠ 0 else 4 < addr % 4 + bytes
    if b.reaches who = false ∨ 0x8000000 ≤ addr then b
    else if mis ∨ (write = true ∧ bytes < 4) then (if write then b else b.answer 0).rootErr who addr ROOT_ERR_WIDTH
    else if write = true ∨ bytes = 8 ∨ bytes = 0 then b
    else
      let r := b.readWord who (addr / 4 * 4)
      r.2.answer (r.1 / 256 ^ (addr % 4) % 256 ^ bytes)) s

/-- R64, R84: a read of the _LO word at addr of a 64-bit counter. -/
def execCounterLoRead (who : Requester) (addr : Nat) (s : State) : Host.Outcome State Fault Refusal :=
  run (fun b =>
    if b.reaches who = false ∨ (snapLo addr = none ∧ loadLo addr = false) then b
    else
      let r := b.readWord who addr
      r.2.answer r.1) s

/-- R66: a write of the _HI word at addr stores a staging value. -/
def execCounterHiWrite (who : Requester) (addr : Nat) (v : Word) (s : State) : Host.Outcome State Fault Refusal :=
  run (fun b =>
    if b.reaches who = false ∨ b.unitOpen addr = false ∨ loadLo (addr - 4) = false ∨ addr < 4 then b
    else b.stageHi (addr - 4) v) s

/-- R66: a write of the _LO word at addr loads the counter from the staging value and v. -/
def execCounterLoWrite (who : Requester) (addr : Nat) (v : Word) (s : State) : Host.Outcome State Fault Refusal :=
  run (fun b =>
    if b.reaches who = false ∨ b.unitOpen addr = false ∨ loadLo addr = false then b
    else b.loadLoWord addr v) s

/-! Events (R76) -/

/-- R76: 1s written to EVT_PEND word k clear its bits; a source of again that reports in the same cycle stays pending and acts
anew. -/
def execEvtPendClear (k : Nat) (v again : Word) (s : State) : Host.Outcome State Fault Refusal :=
  runAt .root (fun b =>
    if 32 ≤ k then b
    else
      let b := b.wr (EVT_PEND_k k) (b.rd (EVT_PEND_k k) &&& ~~~v)
      b.each 32 (fun i b => b.raiseIf (bit again.toNat i) (32 * k + i))) s

end Sys2Proof.Machine
end

