-- ==== Sys2Proof/Machine/UnitReset.lean ====
section
/-! DEFINITION. Quiesce and unit resets (R53, R78 to R81), and what a reset of each unit does to it. -/

namespace Sys2Proof.Machine

open Sys2Proof Sys2Proof.Reg

/-- A register word with its ROS and RWL fields kept and the others at reset (R79). -/
def unitWord (a : Nat) (v : Word) : Word :=
  match rowOf a with
  | some r => BitVec.ofNat 32 (keepFields (r.fields.map (fun f => { f with keep := f.acc == .ros || f.acc == .rwl })) (resetOf a).toNat v.toNat)
  | none => resetOf a

/-- A word of a unit's header after its reset: RETIRED, FORCED, SPARE and UNIT_QTMO stay (R50, R79). -/
def headerAfter (u : UnitRef) (a : Nat) (v : Word) : Word :=
  if a = u.hdr + 8 then BitVec.ofNat 32 ((resetOf a).toNat ||| (v.toNat &&& 0x14))
  else if a = u.hdr + 4 ∨ a = u.hdr + 0x18 then v
  else resetOf a

/-- Does a unit reset of THL reset a register: its error latches and counters (R541)? -/
def thlLatch (a : Nat) : Bool :=
  a == THL_ERR || a == THL_CRC_ADDR_LO || a == THL_CRC_ADDR_HI || a == THL_CNT_ROLL || (decide (THL_CNTi 0 ≤ a) && decide (a < THL_CNTi 6))

/-- Does a register keep its value over a unit reset because its chapter says so (R411, R464, R517, R541, R661, R666)? -/
def chapterKept (u : UnitRef) (a : Nat) : Bool :=
  match u.cls with
  | .thl => !thlLatch a
  | .key => !(a == KEY_CMD || (decide (KEY_DATAw 0 ≤ a) && decide (a < KEY_DATAw 16)) || (decide (KEY_RDATAw 0 ≤ a) && decide (a < KEY_RDATAw 16)))
  | .hif => hifKept a
  | .vin => decide (VIN_INSTi_STAT 0 ≤ a)
  | .acq => match rowOf a with
    | some r => r.base == ACQ_CSETs_PROD 0 || r.base == ACQ_CSETs_CONS 0 || r.base == ACQ_CSETs_POOL_LO 0 || r.base == ACQ_CSETs_POOL_HI 0 ||
        r.base == ACQ_CSETs_POOL_SIZE 0
    | none => false
  | .rope => a == ROPE_ROLE || a == ROPE_LEASE || a == ROPE_ID
  | _ => false

/-- The registers of a unit after its reset. TIM, CRN and the auxiliary segments take their warm values (R83, R597, R678). -/
def Block.unitRegs (b : Block) (u : UnitRef) : Block :=
  { b with regs := b.regs.map (fun e =>
      if unitOf e.1 ≠ some u then e
      else if u.hdr ≤ e.1 ∧ e.1 < u.hdr + 0x40 then (e.1, headerAfter u e.1 e.2)
      else if u.cls = .tim ∨ u.cls = .crn ∨ u.cls = .aux then (e.1, warmWord e.1 e.2)
      else if chapterKept u e.1 then e
      else (e.1, unitWord e.1 e.2)) }

/-- Physical core c starts anew, with no task. -/
def Block.coreReset (b : Block) (c : Nat) : Block := (b.abortCore c).setCore c {}

/-- What no register of a unit shows, before its registers are reset. -/
def Block.unitClear (b : Block) (u : UnitRef) : Block :=
  let i := u.inst
  match u.cls with
  | .prt =>
    let b := b.linkDrop i
    let b := match b.pairOf i with
      | some (_, q) => b.doIf (decide (i < q)) (fun b => b.setPrt q { b.prt q with ring := [] })
      | none => b
    b.setPrt i { ({} : Port) with epoch := b.tim.elapsed }
  | .stn =>
    let b := b.linkDrop (16 + i)
    let sw := fun (w : Swc) => { w with saGen := w.saGen.filter (fun e => e.1 / 64 != i), wakeAt := w.wakeAt.filter (fun e => e.1 != i), idleAt := w.idleAt.filter (fun e => e.1 != i) }
    (b.setPrt (16 + i) { ({} : Port) with epoch := b.tim.elapsed }).modSwc sw
  | .swc =>
    let b := (List.range 23).foldl (fun b e => b.flushPort e none) b
    { b with swc := { ({} : Swc) with
        fdb := b.swc.fdb.filter (fun e => e.static), saGen := b.swc.saGen, nextId := b.swc.nextId, direct := b.swc.direct,
        wakeAt := b.swc.wakeAt, idleAt := b.swc.idleAt }, pub := [] }
  | .rhz => { b with rhz := { b.rhz with queue := (i, []) :: b.rhz.queue } }
  | .sor => b.laneSwitch i
  | .crz =>
    let b := b.each 128 (fun c b => b.coreReset c)
    { b with crz := { ({} : Crz) with inst := b.crz.inst }, crzEvt := [] }
  | .tuft =>
    let b := b.each 8 (fun k b => b.coreReset (8 * i + k))
    { b with frd := { b.frd with freq := (i, none) :: b.frd.freq, changing := (i, false) :: b.frd.changing } }
  | .frond => b.coreReset i
  | .tim => let b := b.dropLaunches; { b with tim := b.tim.warm }
  | .acq =>
    let b := b.acqCut
    { b with acq := { ({} : Acq) with cset := b.acq.cset.map (fun e => (e.1, { e.2 with en := false, cur := none, queue := [], settle := none, xtEnd := none })) } }
  | .aux => (b.txFlush i).auxWarm i
  | .rope => b.ropeDown
  | .crn => { b with fifo := [], marker := none, firstLost := [] }
  | .img => { b with img := { b.img with erase := none, scrub := none, scrubs := [], stagedFull := false } }
  | .key => b.clearRdata
  | .hif => b.hifReset
  | .thl => { b with hostWait := [] }
  | _ => b

/-- What follows the reset: a switch core's gate follows the lease afresh, a tuft's PLL locks, a Ridge core starts at RIDGE_BOOT. -/
def Block.unitAfter (b : Block) (u : UnitRef) (who : Nat) : Block :=
  match u.cls with
  | .swc => b.gateFollow
  | .key => if b.on KEY_CMD_BUSY then b.set KEY_CMD_RESULT 2 else b
  | .tuft =>
    let t := u.inst
    let b := ((b.set (FRD_TUFTt_STAT_CUR_MHZ t) (b.tuftTarget t)).set (FRD_TUFTt_STAT_LOCK t) 1).set (bitOf NRG_CLK_LOCK t) 1
    let b := b.showPcMapped
    match (List.range 16).find? (fun l => who == 3 && b.on (CRZ_TUFTMAPt_EN l) && !b.on (CRZ_TUFTMAPt_NOTUFT l) && b.tuftOf l == t) with
    | none => b
    | some l => (List.range 8).foldl (fun b k =>
        b.doIf (b.on (CRZ_LCMAPl_EN (8 * l + k))) (fun b => (b.loadTcm (8 * l + k) (b.coreOf (8 * l + k))).freshCore (8 * l + k))) (b.loadTuft l t)
  | .ridge =>
    let m := u.inst
    let b := b.ridgeStart m
    b.modRst (fun r => { r with ridgeAt := (m, some b.xtal) :: r.ridgeAt, ridgeHalf := (m, false) :: r.ridgeHalf })
  | .sor => b.laneLoad u.inst
  | .vin => b.shadowReload
  | _ => b

/-- Has a unit accepted work that it has not finished (R78): frames under way, tasks, entries, commands, segments being filled? -/
def Block.inFlight (b : Block) (u : UnitRef) : Bool :=
  let sends := fun (p : Nat) => (b.swc.sending.get (fun _ => none) p).isSome
  match u.cls with
  | .prt => sends u.inst
  | .stn => sends (16 + u.inst)
  | .swc => !b.swc.ingress.isEmpty || !b.swc.store.isEmpty
  | .rhz => !(b.rhz.queue.get (fun _ => []) u.inst).isEmpty
  | .crz => !b.crz.runs.isEmpty || !b.crz.ticks.isEmpty
  | .tuft => (List.range 8).any (fun k => (b.onCore (8 * u.inst + k)).isSome)
  | .frond => (b.onCore u.inst).isSome
  | .acq => b.acq.cset.any (fun e => (b.acq.cset.get (fun _ => {}) e.1).cur.isSome)
  | .img => b.on IMG_CMD_BUSY || b.img.erase.isSome || b.img.scrub.isSome
  | .key => b.on KEY_CMD_BUSY
  | .hif => !b.hif.due.isEmpty && b.hostOpen
  | .vin => !b.vin.writes.isEmpty
  | .crn => !b.fifo.isEmpty && b.on CRN_CTRL_EN && !b.on CRN_CTRL_FREEZE
  | _ => false

/-- Step 3 of R79: each transaction that a forced unit still holds completes towards its requester with status UNIT_RESET. For a submission
entry (R474) and a transmit descriptor (R72) the spec gives that status no number: a free value. -/
def Block.forceEnd (b : Block) (u : UnitRef) : Block :=
  match u.cls with
  | .vin =>
    let ws := b.vin.writes
    ws.foldl (fun b w => let r := b.draw 256; r.2.completeOf w.qgen w.inst w.sq w.cid r.1 0) (b.modVin (fun v => { v with writes := [] }))
  | .swc =>
    let r := b.swc.txRing.foldl (fun (r : Block × List (Nat × Nat × Bool)) e =>
      if e.2.2 then (r.1, r.2 ++ [e]) else (let d := r.1.draw 256; (d.2, r.2 ++ [(e.1, d.1, true)]))) (b, [])
    r.1.txComplete r.2
  | _ => b

/-- Steps 4 and 5 of R79, and the UNIT_RESET record (R675). -/
def Block.unitReset (b : Block) (u : UnitRef) (forced : Bool) : Block :=
  let who := b.rst.who.get (fun _ => 3) u.hdr
  let b := ((b.unitClear u).unitRegs u).unitAfter u who
  let b := (((((b.set (ctlReset u.hdr) 0).set (ctlQuiesce u.hdr) 0).set (stResetBusy u.hdr) 0).set (stQuiescing u.hdr) 0).set
    (stIdle u.hdr) 0).set (stFault u.hdr) 0
  let b := b.modRst (fun r => { r with
    who := r.who.filter (fun e => e.1 != u.hdr), since := r.since.filter (fun e => e.1 != u.hdr), group := r.group.filter (fun e => e.1 != u.hdr) })
  b.report 0x03 0xFFFF (UnitRef.id u) (if forced then 1 else 0) ((leBytes 4 (UnitRef.id u) ++ leBytes 1 who).map (fun x => x.toNat))

/-- Step 3 of R79: the reset is forced. -/
def Block.forceReset (b : Block) (u : UnitRef) : Block := ((b.forceEnd u).set (stForced u.hdr) 1).unitReset u true

/-- The header whose UNIT_QTMO times a unit's reset: its group's where it is part of a group's reset (R53), else its own. -/
def Block.timer (b : Block) (u : UnitRef) : Nat := b.rst.group.get (fun _ => u.hdr) u.hdr

/-- A unit's reset begins; a UNIT_QTMO of 0 forces it at once (R52, R79). -/
def Block.resetBegin (b : Block) (u : UnitRef) (who : Nat) (hdr : Nat) : Block :=
  if b.on (stResetBusy u.hdr) then b
  else
    let b := (b.resetMark u who).doIf (hdr != u.hdr) (fun b => b.modRst (fun r => { r with group := (u.hdr, hdr) :: r.group }))
    if b.get (qtmo hdr) = 0 then b.forceReset u else b

/-! Commands -/

/-- The present children of a group that are not retired, or the unit alone. -/
def Block.targets (b : Block) (u : UnitRef) : List UnitRef :=
  if u.cls.isGroup then u.children.filter (fun c => b.member.has c && !b.on (stRetired c.hdr)) else [u]

/-- Does R81 refuse a write that would quiesce or reset a unit, or one unit of a group? -/
def Block.leaseRefuses (b : Block) (u : UnitRef) : Bool := b.leased && (b.targets u).any (fun c => b.isNamed c)

/-- The unit whose header lies at hdr, where a requester reaches it and it is there, released and not retired (R58). -/
def Block.unitFor (b : Block) (who : Requester) (hdr : Nat) : Option UnitRef :=
  if !b.reaches who then none
  else match unitAt hdr with
    | none => none
    | some u => if b.unitOpen u.hdr then some u else none

/-- QUIESCE of one unit takes a value (R78). -/
def Block.quiesce1 (b : Block) (v : Bool) (u : UnitRef) : Block :=
  if b.on (stResetBusy u.hdr) then b
  else if v then (if b.on (ctlQuiesce u.hdr) then b else (b.set (ctlQuiesce u.hdr) 1).set (stQuiescing u.hdr) 1)
  else ((b.set (ctlQuiesce u.hdr) 0).set (stQuiescing u.hdr) 0).set (stIdle u.hdr) 0

/-- R78, R53, R81: QUIESCE of the unit or group whose header lies at hdr is written. -/
def execUnitQuiesceWrite (who : Requester) (hdr : Nat) (v : Bool) (s : State) : Host.Outcome State Fault Refusal :=
  run (fun b =>
    match b.unitFor who hdr with
    | none => b
    | some u =>
      if v ∧ b.leaseRefuses u = true then b.rootErr who (u.hdr + 0xC) ROOT_ERR_REFUSED
      else
        let b := (b.targets u).foldl (fun b c => b.quiesce1 v c) b
        if u.cls.isGroup then b.set (ctlQuiesce u.hdr) (if v then 1 else 0) else b) s

/-- R78, R79: a quiescing unit holds no in-flight work. -/
def execUnitIdleReached (hdr : Nat) (s : State) : Host.Outcome State Fault Refusal :=
  run (fun b =>
    match unitAt hdr with
    | none => b
    | some u =>
      if b.released u.cls = false ∨ b.member.has u = false ∨ b.on (ctlQuiesce hdr) = false ∨
          (!b.on (stQuiescing hdr) && !b.on (stResetBusy hdr)) = true ∨ b.inFlight u = true then b
      else if b.on (stResetBusy hdr) ∧ b.get (qtmo (b.timer u)) = 0 then b.forceReset u
      else
        let b := (b.set (stQuiescing hdr) 0).set (stIdle hdr) 1
        if b.on (stResetBusy hdr) then (b.set (stForced hdr) 0).unitReset u false else b) s

/-- R79, R80, R81, R53: a write of 1 to RESET of the unit or group whose header lies at hdr. -/
def execUnitResetRequest (who : Requester) (hdr : Nat) (s : State) : Host.Outcome State Fault Refusal :=
  run (fun b =>
    match b.unitFor who hdr with
    | none => b
    | some u =>
      let ts := b.targets u
      if b.leaseRefuses u then b.rootErr who (u.hdr + 0xC) ROOT_ERR_REFUSED
      else
        let b := if ts.all (fun c => c.cls.resettable) then b else b.rootErr who (u.hdr + 0xC) ROOT_ERR_REFUSED
        (ts.filter (fun c => c.cls.resettable)).foldl (fun b c => b.resetBegin c (Requester.code who) u.hdr) b) s

/-- The units whose resets the UNIT_QTMO of the header at hdr times and that have not reached IDLE. -/
def Block.overdue (b : Block) (u : UnitRef) : List UnitRef :=
  ((if u.cls.isGroup then u.children else [u]).filter b.member.has).filter (fun c =>
    b.released c.cls && b.on (stResetBusy c.hdr) && !b.on (stIdle c.hdr) && b.timer c == u.hdr)

/-- R79, R53: the UNIT_QTMO at hdr, in µs since the reset of a unit or a group began, elapses without IDLE: the reset is forced. -/
def execQuiesceTimeout (hdr : Nat) (s : State) : Host.Outcome State Fault Refusal :=
  run (fun b =>
    match unitAt hdr with
    | none => b
    | some u =>
      let us := b.overdue u
      match us with
      | [] => b
      | c :: _ => us.foldl (fun b c => b.forceReset c) (b.advanceXtal (b.rst.since.get (fun _ => 0) c.hdr + 1000 * b.get (qtmo hdr)))) s

end Sys2Proof.Machine
end

