-- ==== Sys2Proof/Machine/Image.lean ====
section
/-! DEFINITION. The Ohmeb image checked (R623 to R627, R657), and the commands of the flash manager (R635 to R637). -/

namespace Sys2Proof.Machine

open Sys2Proof Sys2Proof.Reg

/-! Checks -/

/-- Where slot d's image lies. -/
def slotAt (d : Nat) : ImgAt := ⟨.flash d, slotSector * sectorBytes⟩

def Block.imgLen (b : Block) (m : ImgAt) : Nat := b.imgNat m 12 4

/-- The header's own check for a KIND, in room for that many bytes (R623, R626). -/
def Block.headerOk (b : Block) (m : ImgAt) (kind room : Nat) : Bool :=
  let n := b.imgNat m 16 2
  b.imgNat m 0 4 == 0x424D484F && b.imgNat m 4 2 == 1 && b.imgNat m 6 1 == kind && b.imgNat m 8 2 == deviceId b.member &&
    decide (1 ≤ n) && decide (n ≤ 4096) && decide (b.imgLen m + 128 ≤ room) &&
    b.imgNat m 56 4 == crc32 (b.imgBytes m 0 56 ++ [0, 0, 0, 0] ++ b.imgBytes m 60 (132 + 32 * n))

/-- Does slot d pass the check of stage 4: its header, and no suspect sector under the image and its signature block (R626)? -/
def Block.slotOk (b : Block) (d : Nat) : Bool :=
  let m := slotAt d
  !b.suspect d slotSector && b.headerOk m 0 slotBytes &&
    (List.range ((b.imgLen m + 128 + sectorBytes - 1) / sectorBytes)).all (fun k => !b.suspect d (slotSector + k))

/-- The anchor that accepts the hash of a public key: a fused one that is not revoked, or 4 for the test anchor (R641, R657). -/
def Block.anchorFor (b : Block) (h : List Byte) : Option Nat :=
  let lc := b.get KEY_STATUS_LC
  match (List.range 4).find? (fun a => lc != 4 && !b.on (bitOf KEY_FUSE a) && Config.anchor a == h) with
  | some a => some a
  | none => if (lc = 0 ∨ lc = 3 ∨ lc = 4 ∨ b.on KEY_STATUS_DEBUG = true) ∧ Config.testAnchor = h then some 4 else none

/-- Does a usable key slot for image verify hold the hash (R657)? -/
def Block.slotAnchor (b : Block) (h : List Byte) : Bool :=
  (List.range 512).any (fun n => b.keyOk n 3 && b.get (KEY_SLOTn_ATTR_LEN n) == 48 && b.keyMaterial n == h)

def Block.imgDigest (b : Block) (m : ImgAt) : List Byte := Config.sha384 (b.imgBytes m 0 (b.imgLen m))
def Block.pubHash (b : Block) (m : ImgAt) : List Byte := Config.sha384 (b.imgBytes m 64 97)

/-- The RESULT codes of R640. -/
abbrev iDone : Nat := 0
abbrev iRefused : Nat := 1
abbrev iSignature : Nat := 2
abbrev iCheck : Nat := 3
abbrev iDevice : Nat := 4
abbrev iWrite : Nat := 5

/-- The check of stage 8 as a RESULT; with slots, key slots count as anchors (R626, R657). -/
def Block.signCheck (b : Block) (m : ImgAt) (slots : Bool) : Nat :=
  let h := b.pubHash m
  if (b.anchorFor h).isNone && !(slots && b.slotAnchor h) then iSignature
  else if b.imgNat m 24 4 < b.get KEY_FUSE_SVN_MIN then iCheck
  else if Config.ecdsaOk (b.imgBytes m 64 97) (b.imgDigest m) (b.imgBytes m (b.imgLen m) 96) then iDone
  else iSignature

/-- IMAGE_ID of a digest (R625). -/
def imageId (digest : List Byte) : Nat := beNat (digest.take 8)

/-! Sections (R624, R627) -/

/-- A pair of REG: the BAR0 offset and the value. -/
def Block.regPairs (b : Block) (m : ImgAt) (s : Sect) : List (Nat × Word) :=
  (List.range (s.len / 8)).map (fun k => (b.imgNat m (s.off + 8 * k) 4, BitVec.ofNat 32 (b.imgNat m (s.off + 8 * k + 4) 4)))

/-- A pair of DESC: the descriptor index and its words. -/
def Block.descPairs (b : Block) (m : ImgAt) (s : Sect) : List (Nat × List Nat) :=
  (List.range (s.len / 36)).map (fun k =>
    (b.imgNat m (s.off + 36 * k) 4, (List.range 8).map (fun w => b.imgNat m (s.off + 36 * k + 4 + 4 * w) 4)))

/-- Is the byte range of the table bank one that a package may write: a table bank, the carry map, the trigger or snapshot list
(R624)? -/
def swapArea (lo n : Nat) : Bool :=
  decide (lo + n ≤ 0x90000) || (decide (0xA0000 ≤ lo) && decide (lo + n ≤ 0xB0000)) || (decide (0xB0000 ≤ lo) && decide (lo + n ≤ 0xB1000))

/-- May a register be written after start: has it a field that software writes and the image lock does not hold? -/
def swapReg (a : Nat) : Bool :=
  match rowOf a with
  | some r => r.fields.any (fun f => f.acc == .rw || f.acc == .w1c || f.acc == .w1s || f.acc == .wo) && r.fields.all (fun f => f.acc != .rwl)
  | none => false

/-- Does an image area of a running instance, a window of its in space 2, meet bytes of logical tuft u? -/
def Block.tuftTaken (b : Block) (u lo n : Nat) : Bool :=
  (List.range 256).any (fun i => b.instState i == iRUNNING && (b.windows i).any (fun w =>
    winUsed w && winSpace w == 2 && bits w.1 52 4 == u && decide (0 < n) && decide (bits w.1 0 22 < lo + n) && decide (lo ≤ bits w.2 0 22)))

/-- Does a section's destination lie in its space, and may an image of the kind have it (R624, R627)? -/
def Block.sectOk (b : Block) (m : ImgAt) (swap : Bool) (s : Sect) : Bool :=
  s.zero && s.off % 64 == 0 &&
  match s.typ with
  | 0x01 => s.unit == 0 && s.dest == 0 && s.len % 8 == 0 && (b.regPairs m s).all (fun p =>
      decide (p.1 < 0x8000000) && p.1 % 4 == 0 && (!swap || swapReg p.1))
  | 0x02 => s.unit == 0 && s.len % 4 == 0 && s.dest % 4 == 0 && decide (s.dest + s.len ≤ 0x100000) && (!swap || swapArea s.dest s.len)
  | 0x03 | 0x04 => decide (s.unit < 128) && s.len % 4 == 0 && s.dest % 4 == 0 && decide (s.dest + s.len ≤ 0x10000)
  | 0x05 => decide (s.unit < 16) && decide (s.dest + s.len ≤ 0x400000) && !(swap && b.tuftTaken s.unit s.dest s.len)
  | 0x06 => !swap && s.unit == 0 && decide (s.dest + s.len ≤ 0x1800000)
  | 0x07 => s.unit == 0 && (b.regionOfRange s.dest s.len).isSome
  | 0x08 => s.unit == 0 && s.dest == 0 && s.len % 36 == 0
  | 0x09 => !swap && s.len == 545 && s.dest == 0 && s.unit == b.imgNat m s.off 1
  | 0x0A => !swap && s.unit == 0 && decide (s.dest + s.len ≤ 0x10000)
  | 0x0F => true
  | _ => false

/-- Do the sections lie as R624 says: in ascending order behind the table, without overlap, up to IMAGE_BYTES? -/
def Block.sectsLie (b : Block) (m : ImgAt) : Bool :=
  let r := (b.sects m).foldl (fun (p : Nat × Bool) s => (s.off + s.len, p.2 && decide (p.1 ≤ s.off))) (192 + 32 * b.imgNat m 16 2, true)
  r.2 && decide (r.1 ≤ b.imgLen m)

/-! Commands of the flash manager -/

/-- Does the scrub work on the slot of device d, or has it to (R636)? -/
def Block.scrubCovers (b : Block) (d : Nat) : Bool :=
  ((match b.img.scrub with | some e => [(e.dev, e.first, e.count)] | none => []) ++ b.img.scrubs).any (fun r =>
    r.1 == d && decide (slotSector < r.2.1 + r.2.2))

/-- Does the module run from slot d (R636)? -/
def Block.runsFrom (b : Block) (d : Nat) : Bool := !b.on IMG_STATUS_RECOVERY && b.get IMG_STATUS_LOADED == d

/-- A command written to IMG_CMD: f answers its RESULT, or none where it goes on (R635). -/
def Block.imgCmd (b : Block) (op : Nat) (v : Word) (f : Nat → Block → Option Nat × Block) : Block :=
  if b.takes ⟨.img, 0⟩ = false ∨ b.on IMG_CMD_BUSY = true then b
  else
    let d := bits v.toNat 4 1
    let b := b.wr IMG_CMD (BitVec.ofNat 32 (op + 16 * d + 256 * bits v.toNat 8 1))
    let r := if op ≠ 5 ∧ b.scrubCovers d = true then (some iRefused, b) else f d b
    match r.1 with
    | some c => (r.2.set IMG_CMD_RESULT c).raise 8
    | none => r.2.set IMG_CMD_BUSY 1

/-- A command that ends now. -/
def Block.imgNow (b : Block) (op : Nat) (v : Word) (f : Nat → Block → Nat × Block) : Block :=
  b.imgCmd op v (fun d b => let r := f d b; (some r.1, r.2))

/-- A device error of a command: counted twice, once for the retry (R630). -/
def Block.devErr (b : Block) : Nat × Block := (iDevice, b.imgCnt 3 1 |>.imgCnt 3 1)

/-- R635, R630: ERASE begins: the intent is journalled and the device erases. -/
def execErase (v : Word) (s : State) : Host.Outcome State Fault Refusal :=
  runAt .img (fun b => b.imgCmd 1 v (fun d b =>
    let o := (b.rd IMG_OFFSET).toNat
    let n := (b.rd IMG_LEN).toNat
    if b.runsFrom d then (some iRefused, b)
    else if o % sectorBytes ≠ 0 ∨ n % sectorBytes ≠ 0 ∨ n = 0 ∨ slotBytes < o + n then (some iCheck, b)
    else
      let r := b.intent d (slotSector + o / sectorBytes) (n / sectorBytes)
      let b := r.2.modImg (fun m => { m with erase := some ⟨d, slotSector + o / sectorBytes, n / sectorBytes, r.1, false⟩, stagedFull := false })
      (none, b.set IMG_STATUS_STAGED_VALID 0))) s

/-- The device has erased a range: its DONE is journalled, and its sectors are no longer suspect (R630, R634). -/
def Block.erased (b : Block) (e : Erase) : Block :=
  ((b.eraseSectors e.dev e.first e.count).intentDone e.seq e.dev e.first e.count).markSuspect e.dev e.first e.count false

/-- R630, R634: the device reports the last sector of an erase erased, or an error; a command's erase comes before the scrub's. -/
def execFlashEraseDone (ok : Bool) (s : State) : Host.Outcome State Fault Refusal :=
  runAt .img (fun b =>
    match b.img.erase, b.img.scrub with
    | some e, _ =>
      if ok then
        let b := ((b.erased e).imgCnt 0 1).modImg (fun m => { m with erase := none })
        (((b.set IMG_CMD_BUSY 0).set IMG_CMD_RESULT iDone).raise 8)
      else if e.retried then
        let b := (b.imgCnt 3 1).modImg (fun m => { m with erase := none })
        (((b.set IMG_CMD_BUSY 0).set IMG_CMD_RESULT iDevice).raise 8)
      else (b.imgCnt 3 1).modImg (fun m => { m with erase := some { e with retried := true } })
    | none, some e =>
      if ok then (((b.erased e).imgCnt 2 1).modImg (fun m => { m with scrub := none })).scrubNext
      else if e.retried then ((b.imgCnt 3 1).modImg (fun m => { m with scrub := none })).scrubNext
      else (b.imgCnt 3 1).modImg (fun m => { m with scrub := some { e with retried := true } })
    | none, none => b) s

/-- Is a sector of device d under an open intent, or suspect (R634, R636)? -/
def Block.sectorOpen (b : Block) (d s : Nat) : Bool :=
  b.suspect d s || (openIntents (b.journal 0 ++ b.journal 1)).any (fun e => e.dev == d && decide (e.first ≤ s) && decide (s < e.first + e.count))

/-- The 256 bytes of IMG_PAGE. -/
def Block.imgPage (b : Block) : List Byte := (List.range 64).foldl (fun l w => l ++ leBytes 4 (b.rd (IMG_PAGEw w)).toNat) []

/-- R635, R636: PROGRAM; bad: the device reports an error. -/
def execProgram (v : Word) (bad : Bool) (s : State) : Host.Outcome State Fault Refusal :=
  runAt .img (fun b => b.imgCmd 2 v (fun d b =>
    let o := (b.rd IMG_OFFSET).toNat
    let n := (b.rd IMG_LEN).toNat
    let src := b.rd64 IMG_SRC_LO
    let page := b.on IMG_CMD_SRC_SEL
    let at0 := slotSector * sectorBytes + o
    if b.runsFrom d ∨ (b.on IMG_STATUS_RECOVERY = true ∧ page = false) then (some iRefused, b)
    else if o % 256 ≠ 0 ∨ n % 256 ≠ 0 ∨ n = 0 ∨ slotBytes < o + n ∨ (page = true ∧ n ≠ 256) then (some iCheck, b)
    else if (List.range ((o % sectorBytes + n + sectorBytes - 1) / sectorBytes)).any (fun k => b.sectorOpen d (at0 / sectorBytes + k)) then (some iRefused, b)
    else if (b.flashRead d at0 n).all (fun x => x == 0xFF) = false then (some iCheck, b)
    else if page then
      (if bad then (some iDevice, b.devErr.2) else (some iDone, b.stores (.flash d) at0 b.imgPage))
    else if (b.regionOfRange src n).isNone then (some iCheck, b.noRegion)
    else match b.badLine src n with
      | some a => (none, (b.crcError a 1).controlFault ⟨.img, 0⟩)
      | none => if bad then (some iDevice, b.devErr.2) else (some iDone, b.stores (.flash d) at0 (b.load .dram src n)))) s

/-- R635: VERIFY of a slot; bad: the device reports an error. -/
def execVerify (v : Word) (bad : Bool) (s : State) : Host.Outcome State Fault Refusal :=
  runAt .img (fun b => b.imgNow 3 v (fun d b =>
    if bad then b.devErr
    else if b.slotOk d = false then (iCheck, b)
    else
      let c := b.signCheck (slotAt d) false
      if c ≠ iDone then (c, b)
      else
        let b := b.wr64 IMG_STAGED_ID_LO (imageId (b.imgDigest (slotAt d)))
        (iDone, ((b.set IMG_STATUS_STAGED_VALID 1).set IMG_STATUS_STAGED_SLOT d).modImg (fun m => { m with stagedFull := true })))) s

/-- R635: ACTIVATE; the next start loads the slot. -/
def execActivate (v : Word) (bad : Bool) (s : State) : Host.Outcome State Fault Refusal :=
  runAt .img (fun b => b.imgNow 4 v (fun d b =>
    if b.runsFrom d then (iRefused, b)
    else if b.on IMG_STATUS_STAGED_VALID = false ∨ b.get IMG_STATUS_STAGED_SLOT ≠ d ∨ b.img.stagedFull = false then (iCheck, b)
    else if bad then b.devErr
    else (iDone, b.bcrWrite d))) s

/-- R635, R632: READ; a scrub's erase of the same device is suspended meanwhile. -/
def execImgRead (v : Word) (bad : Bool) (s : State) : Host.Outcome State Fault Refusal :=
  runAt .img (fun b => b.imgNow 6 v (fun d b =>
    let o := (b.rd IMG_OFFSET).toNat
    let n := (b.rd IMG_LEN).toNat
    let dst := b.rd64 IMG_SRC_LO
    if b.on IMG_STATUS_RECOVERY then (iRefused, b)
    else if slotBytes < o + n then (iCheck, b)
    else if (b.regionOfRange dst n).isNone then (iCheck, b.noRegion)
    else
      let b := match b.img.scrub with
        | some e => if e.dev = d then b.imgCnt 1 1 else b
        | none => b
      if bad then b.devErr
      else (iDone, b.dramStore dst (b.flashRead d (slotSector * sectorBytes + o) n)))) s

/-! LOAD_SWAP (R637) -/

/-- A word of the table bank, a TCM word, a register and a descriptor written from a package: done, or refused. -/
def Block.swapSeq (b : Block) (a n : Nat) (l : List Byte) : Bool × Block :=
  if (List.range n).any (fun i => b.seqHeld (a + i)) then (false, b.seqRefuse) else (true, b.stores .seq a l)

def Block.swapTcm (b : Block) (typ l a n : Nat) (data : List Byte) : Bool × Block :=
  let c := b.coreOf l
  let base := if typ = 4 then 0x10000 else 0
  if b.leased && (List.range (n / 4)).any (fun i => b.tcmGuarded c (base + a + 4 * i)) then
    (false, (b.tuftCnt (c / 8) 1).raise (768 + 4 * (c / 8) + 1))
  else (true, b.stores (if typ = 4 then .dtcm c else .itcm c) a data)

def Block.swapPair (b : Block) (p : Nat × Word) : Bool × Block :=
  if (b.activeFields p.1).any (fun f => bits (b.rd p.1).toNat f.lo f.width != bits p.2.toNat f.lo f.width) then (false, b.seqRefuse)
  else (true, b.access p.1 p.2)

/-- Steps in turn, up to the first that is refused. -/
def upTo {α : Type} (f : Block → α → Bool × Block) (b : Block) : List α → Bool × Block
  | [] => (true, b)
  | x :: t => let r := f b x; if r.1 then upTo f r.2 t else r

/-- The second pass over a section of a package. -/
def Block.swapSect (m : ImgAt) (b : Block) (s : Sect) : Bool × Block :=
  let data := b.imgBytes m s.off s.len
  match s.typ with
  | 0x01 => upTo Block.swapPair b (b.regPairs m s)
  | 0x02 => b.swapSeq s.dest s.len data
  | 0x03 | 0x04 => b.swapTcm s.typ s.unit s.dest s.len data
  | 0x05 => (true, b.stores (.tuft (b.tuftOf s.unit)) s.dest data)
  | 0x07 => (true, b.dramStore s.dest data)
  | 0x08 => upTo (fun b p => let r := b.descPut p.1 p.2; (r.1 == 0, r.2)) b (b.descPairs m s)
  | _ => (true, b)

/-- R637: LOAD_SWAP of the package in DRAM at SRC. -/
def execLoadSwap (v : Word) (s : State) : Host.Outcome State Fault Refusal :=
  runAt .img (fun b => b.imgCmd 5 v (fun _ b =>
    let src := b.rd64 IMG_SRC_LO
    let m : ImgAt := ⟨.dram, src⟩
    let len := b.imgLen m + 128
    if b.rst.rel = false then (some iRefused, b)
    else if (b.regionOfRange src 192).isNone ∨ (b.regionOfRange src len).isNone then (some iCheck, b.noRegion)
    else match b.badLine src len with
      | some a => (none, (b.crcError a 1).controlFault ⟨.img, 0⟩)
      | none =>
        let ss := b.sects m
        if b.headerOk m 1 (2 ^ 37) = false ∨ b.sectsLie m = false ∨ ss.all (b.sectOk m true) = false ∨
            b.imgNat m 28 8 ≠ b.rd64 IMG_RUN_ID_LO then (some iCheck, b)
        else
          let c := b.signCheck m true
          if c ≠ iDone then (some c, b)
          else if b.swapState = 1 ∨ b.swapState = 3 then (some iWrite, b.seqRefuse)
          else
            let r := upTo (Block.swapSect m) b ss
            if r.1 = false then (some iWrite, r.2)
            else
              let p := b.imgNat m 36 4
              let b := (((r.2.set CRZ_SWAP_CTRL_TABLES (bits p 0 4)).set CRZ_SWAP_CTRL_TRIG (bits p 4 1)).set CRZ_SWAP_CTRL_RETRY
                (bits p 5 4)).set CRZ_SWAP_CTRL_CARRY_COUNT (bits p 9 12)
              (some iDone, b.wr64 IMG_STAGED_ID_LO (imageId (b.imgDigest m))))) s

end Sys2Proof.Machine
end

