-- ==== Sys2Proof/Machine/Start.lean ====
section
/-! DEFINITION. The start sequence (R613 to R618, R641 to R647) and the commands of the reset controller (R601 to R607). -/

namespace Sys2Proof.Machine

open Sys2Proof Sys2Proof.Reg

/-- The block after a command's own meaning, the queue left aside. -/
def Block.via (f : State → Host.Outcome State Fault Refusal) (b : Block) : Block :=
  match f ⟨b, []⟩ with
  | .next s => s.block
  | _ => b

/-! Failure (R614, R616) -/

/-- A register after an image has failed: what the image may have loaded is at reset again. -/
def failWord (a : Nat) (v : Word) : Word :=
  if 0x20000 ≤ a ∧ a < 0x30000 then v
  else if a < 0x100000 then
    (match rowOf a with
    | some r => BitVec.ofNat 32 (keepFields (r.fields.map (fun f => { f with keep := !(f.acc == .rw || f.acc == .rwl) })) (resetOf a).toNat v.toNat)
    | none => v)
  else if a % 64 = 8 ∧ (unitAt (a - 8)).isSome then BitVec.ofNat 32 (putBits (resetOf a).toNat 2 1 (bits v.toNat 2 1))
  else resetOf a

/-- Nothing that a failed image loaded stays. -/
def Block.imgUndo (b : Block) : Block :=
  { b with
    regs := b.regs.map (fun e => (e.1, failWord e.1 e.2))
    mem := b.mem.filter (fun e => memWarm e.1)
    img := { b.img with bytes := 0, policy := 0, waitMs := 0, tblEn := 0, insts := [] } }

/-- Stage 4 comes again, from a slot: FALLBACK and event 1. -/
def Block.fallTo (b : Block) (slot : Nat) : Block :=
  let b := b.modRst (fun r => { r with slot := slot, retried := false, warm := false, hif := r.hif || decide (5 ≤ b.get RST_START_STAGE) })
  ((b.imgUndo.set RST_START_FALLBACK 1).set RST_START_STAGE 4).raise 1

/-- The recovery state, STAGE 0xD or 0xE. -/
def Block.recovery (b : Block) (stage : Nat) : Block := (b.imgUndo.set RST_START_STAGE stage).set IMG_STATUS_RECOVERY 1

/-- The slot has failed: the other one is tried, or neither is left. -/
def Block.startFails (b : Block) : Block :=
  let d := b.rst.slot
  let b := b.modRst (fun r => { r with failed := r.failed ||| 2 ^ d })
  if bit b.rst.failed (1 - d) then b.recovery 0xE else b.fallTo (1 - d)

/-! Stages 1 to 3 -/

/-- Is debug enabled at a cold start, and is the test root in use (R641, R647)? -/
def Block.debugNow (b : Block) : Bool := let lc := b.get KEY_STATUS_LC; lc == 0 || lc == 3 || b.on KEY_STATUS_DBG_ARMED || lc == 4

/-- Stage 1: SLOT_ID and PAIR_ID are latched, debug is decided, the secure bank is wiped. -/
def Block.stage1 (b : Block) (w : StageIn) : Block :=
  let s := w.slotId % 64
  let p := w.pairId % 2
  let b := b.modRst (fun r => { r with slotId := s, pairId := p })
  let b := ((((b.set HIF_SLOT_MEMBER (deviceId b.member)).set HIF_SLOT_PAIR_ID p).set HIF_SLOT_SLOT_ID s).set ROPE_ID_PAIR_ID p).set KEY_STATUS_DEBUG b.debugNow.toNat
  (b.wipeStart.wipeEnd w.wipeOk).set RST_START_STAGE 2

/-- The root is regenerated (R644, R645, R647). -/
def Block.regenRoot (b : Block) (ok : Bool) : Block :=
  let lc := b.get KEY_STATUS_LC
  if lc = 4 then b
  else
    let root := if lc = 0 ∨ lc = 3 ∨ b.on KEY_STATUS_DEBUG = true then 2 else if ok then 1 else 0
    let b := { b with key := { b.key with root := root, rootEpoch := b.key.rootEpoch + 1 } }
    ((b.set KEY_STATUS_ROOT_OK ok.toNat).set KEY_STATUS_ROOT_FAIL (!ok).toNat).raiseIf (!ok) 966

/-- An enrolment that is pending writes new helper data to both devices (R646). -/
def Block.enrolNow (b : Block) : Block :=
  if !b.on KEY_STATUS_ENROL_PEND then b
  else
    let n := b.key.enrolled + 1
    let b := b.each 2 (fun d b => (b.eraseNow d 5 1).stores (.flash d) (5 * sectorBytes) (fit 4096 (Config.helper n)))
    { b with key := { b.key with enrolled := n } }.set KEY_STATUS_ENROL_PEND 0

/-- Stage 3: the journal, the root, and the slot that the flash names. -/
def Block.stage3 (b : Block) (w : StageIn) : Block :=
  let b := ((b.readJournal w.journal0 w.journal1).enrolNow).regenRoot w.rootOk
  let d := b.bcrSlot
  ((b.modRst (fun r => { r with slot := d })).set IMG_STATUS_BCR_SLOT d).set RST_START_STAGE 4

/-! Stages 4 to 6 -/

/-- Registers that stages 5 and 6 need before the stream of stage 7. -/
def earlyReg (a : Nat) : Bool :=
  a == THL_DDRc_CFG 0 || a == THL_DDRc_CFG 1 || (decide (THL_RGNr_BASE 0 ≤ a) && decide (a < THL_RGNr_BASE 64))

def Block.earlyLoad (b : Block) (m : ImgAt) : Block :=
  (b.sects m).foldl (fun b s =>
    if s.typ = 1 then (b.regPairs m s).foldl (fun b p => if earlyReg p.1 then b.wr p.1 (b.written true p.1 p.2) else b) b else b) b

/-- Stage 4: the header; DDR training and TDC calibration start. -/
def Block.stage4 (b : Block) : Block :=
  let d := b.rst.slot
  let m := slotAt d
  if !b.slotOk d then b.startFails
  else
    let b := b.modImg (fun i => { i with bytes := b.imgLen m, policy := b.imgNat m 7 1 % 4, waitMs := b.imgNat m 18 2, subsys := b.imgNat m 20 4, slot := d, insts := [], tblEn := 0 })
    let b := ((b.earlyLoad m).set (bitOf NRG_CLK_LOCK 18) 1).each 2 (fun c b => b.doIf (b.on (THL_DDRc_CFG_EN c) && !b.on (THL_DDRc_STAT_TRAINED c)) (fun b => b.set (THL_DDRc_STAT_TRAINING c) 1))
    let b := b.doIf b.hasFei (fun b => b.each 16 (fun i b => (b.calStart i false).calStart i true))
    let b := b.modRst (fun r => { r with hif := true })
    b.set RST_START_STAGE 5

/-- The capacity of channel c in MiB (R530). -/
def Block.ddrMib (b : Block) (c : Nat) : Nat :=
  (match b.get (THL_DDRc_CFG_DENS c) with | 0 => 2048 | 1 => 3072 | _ => 4096) * (if b.on (THL_DDRc_CFG_WIDTH c) then 4 else 8) * (b.get (THL_DDRc_CFG_RANKS c) + 1)

/-- A channel's training ends (R531): trained, from the record, ms, write and read margins. -/
def Block.trainEnd (b : Block) (c : Nat) (t : Bool × Bool × Nat × Nat × Nat) : Block :=
  let b := ((b.set (THL_DDRc_STAT_TRAINING c) 0).set (THL_DDRc_STAT_TRAINED c) t.1.toNat).set (THL_DDRc_STAT_TRAIN_FAIL c) (!t.1).toNat
  let b := b.set (THL_DDRc_STAT_FAST c) (t.2.1 && b.on (THL_DDRc_CFG_FAST_TRAIN c)).toNat
  ((((b.set (THL_DDRc_TRAIN_MS c) t.2.2.1).set (THL_DDRc_MARGIN_WR_MIN c) t.2.2.2.1).set (THL_DDRc_MARGIN_RD_MIN c) t.2.2.2.2).set (THL_DDRc_SIZE_MIB c)
    (b.ddrMib c))

/-- What a warm start does first: slots with a double-bit error are invalidated, the PLLs but the Sorus PLL are locked, a wipe that is pending runs, and an
empty root is regenerated (R528, R644, R656). -/
def Block.warmFirst (b : Block) (w : StageIn) : Block :=
  let ecc := b.rst.ecc
  let b := ecc.foldl (fun b n => b.slotEcc (n % 512)) (b.modRst (fun r => { r with ecc := [] }))
  let b := b.set NRG_CLK_LOCK_MAIN (if b.on TIM_STATUS_PLL_LOST then 5 else 13)
  let b := if b.on THL_SEC_STAT_WIPE_PEND then b.wipeStart.wipeEnd w.wipeOk else b
  if b.key.root = 0 then b.regenRoot w.rootOk else b

/-- Stage 5: every populated channel is trained, or the start ends in the recovery state; contents lost in self-refresh come from
flash again (R531, R533, R616, R617). -/
def Block.stage5 (b : Block) (w : StageIn) : Block :=
  let b := if b.rst.warm then b.warmFirst w else b
  let cs := (List.range 2).filter (fun c => b.on (THL_DDRc_CFG_EN c) && !b.on (THL_DDRc_STAT_TRAINED c))
  let b := cs.foldl (fun b c => b.trainEnd c (w.train.getD c (false, false, 0, 0, 0))) b
  if (List.range 2).any (fun c => b.on (THL_DDRc_CFG_EN c) && b.on (THL_DDRc_STAT_TRAIN_FAIL c)) then b.recovery 0xD
  else if b.rst.warm ∧ (List.range 2).any (fun c => b.on (THL_DDRc_STAT_SR_LOSS c)) = true then
    let b := { b with mem := b.mem.filter (fun e => e.1 / 2 ^ 64 != Space.dram.index) }
    let b := (b.readJournal w.journal0 w.journal1)
    b.fallTo b.bcrSlot
  else b.set RST_START_STAGE 6

/-- Every data line of CONTROL region r is zero with its CRC (R538). -/
def Block.zeroRegion (b : Block) (r : Nat) : Block :=
  let base := b.get (THL_RGNr_BASE_MIB r) * 2 ^ 20
  let size := b.get (THL_RGNr_SIZE_MIB r) * 2 ^ 20
  let lo := Space.dram.key base
  let b := { b with mem := b.mem.filter (fun e => decide (e.1 < lo) || decide (lo + size ≤ e.1)) }
  b.each (size / 32 * 31 / 64) (fun k b =>
    b.storeNat .dram (base + size / 32 * 31 + 2 * k) 2 (crc16 (leBytes 8 (base + 64 * k) ++ List.replicate 64 0)))

/-- Stage 6. -/
def Block.stage6 (b : Block) : Block :=
  let b := if b.rst.warm then b
    else b.each 64 (fun r b => b.doIf (b.on (THL_RGNr_CFG_EN r) && b.on (THL_RGNr_CFG_KIND r)) (fun b => b.zeroRegion r))
  b.set RST_START_STAGE 7

/-! Stages 7 and 8 -/

/-- A REG entry: a write to every field, by the unit's own meaning where it runs already; the FDB write command places a static entry
(R155). TBL_EN waits for stage 9; an auxiliary
segment's EN is left to firmware (R597, R618, R627, R686, R722). -/
def Block.loadReg (b : Block) (p : Nat × Word) : Block :=
  let a := p.1
  let v := p.2
  if 0x1100000 ≤ a ∧ a < 0x1200000 then b.storeNat .seq (a - 0x1100000) 4 v.toNat
  else if 0x1200000 ≤ a ∧ a < 0x1210000 then b.storeNat .timer (a - 0x1200000) 4 v.toNat
  else if a = CRZ_CTRL then
    (b.wr a (BitVec.ofNat 32 (v.toNat / 16 * 16))).modImg (fun i => { i with tblEn := bits v.toNat 0 4 })
  else if a = TIM_TICK then b.via (execTickRateWrite v)
  else if a = TIM_FREQ_ADJ then b.via (execFreqAdjWrite v)
  else if a = SWC_FDB_CMD then (if bits v.toNat 0 2 = 1 then b.fdbWrite else b)
  else if a = CRN_RETIRE then (if b.on (⟨a, 31, 1⟩) || bit v.toNat 31 then b.via (execRetireCmd (bits v.toNat 0 12)) else b)
  else match unitOf a with
    | none => b
    | some u =>
      if b.member.has u = false then b
      else if a = u.hdr + 0x18 then b.set (qtmo u.hdr) v.toNat
      else match rowOf a with
        | none => b
        | some r =>
          if r.base = TIM_CMPn_CTRL 0 then b.via (execCmpArm ((a - r.base) / 0x10) v)
          else
            let all := r.base != AUXs_CFG 0
            if b.released u.cls then b.regWrite all a v
            else
              let x := b.written all a v
              b.wr a (BitVec.ofNat 32 ((x.toNat / 2 ^ lowZeros a * 2 ^ lowZeros a) &&& b.member.regMask a))

/-- One section streams past: does it pass, and the block after it (R624, R627). At a warm start DATA regions keep what they
hold (R541). -/
def Block.loadSect (m : ImgAt) (b : Block) (s : Sect) : Bool × Block :=
  if b.sectOk m false s = false then (false, b)
  else
    let data := b.imgBytes m s.off s.len
    match s.typ with
    | 0x01 => (true, (b.regPairs m s).foldl Block.loadReg b)
    | 0x02 => (true, b.stores .seq s.dest data)
    | 0x03 => (true, b.stores (.itcm (b.coreOf s.unit)) s.dest data)
    | 0x04 => (true, b.stores (.dtcm (b.coreOf s.unit)) s.dest data)
    | 0x05 => (true, b.stores (.tuft (b.tuftOf s.unit)) s.dest data)
    | 0x06 => (true, b.stores .intake s.dest data)
    | 0x07 => (true, if b.rst.warm && b.inData s.dest s.len then b else b.dramStore s.dest data)
    | 0x08 =>
      let ps := b.descPairs m s
      (ps.all (fun p => b.inControl (b.descAddr p.1) 32), ps.foldl (fun b p =>
        b.dramStore (b.descAddr p.1) (p.2.foldl (fun l w => l ++ leBytes 4 w) [])) b)
    | 0x09 => (true, b.modImg (fun i => { i with insts := i.insts ++ [data] }))
    | 0x0A => (true, b.stores .timer s.dest data)
    | _ => (true, b)

/-- Where the start reads its image: the slot, or the image cache. -/
def Block.imgSource (b : Block) : ImgAt := if b.rst.warm then b.cache else slotAt b.rst.slot

/-- The moves that CRN_RETk records are made again after a warm reset (R686). -/
def Block.moveAgain (b : Block) : Block :=
  if b.rst.level ≠ 2 then b
  else b.each 64 (fun k b =>
    b.doIf (b.on (CRN_RETk_VALID k) && decide (b.get (CRN_RETk_CHANNEL k) < 1238)) (fun b => (b.retireAct (b.get (CRN_RETk_CHANNEL k))).block))

/-- The start falls back from a warm start to the flash (R617). -/
def Block.warmFails (b : Block) (w : StageIn) : Block :=
  let b := b.readJournal w.journal0 w.journal1
  b.fallTo b.bcrSlot

/-- An error in checked state, or a failed check: once the stream starts again, then the image has failed (R616). -/
def Block.streamFails (b : Block) (w : StageIn) (err : Bool) : Block :=
  if err ∧ b.rst.retried = false then (b.modRst (fun r => { r with retried := true })).set RST_START_STAGE 7
  else if b.rst.warm then b.warmFails w
  else b.startFails

/-- Stage 7. -/
def Block.stage7 (b : Block) (w : StageIn) : Block :=
  if w.err then b.streamFails w true
  else
    let m := b.imgSource
    let b := b.modImg (fun i => { i with insts := [], tblEn := 0 })
    let r := upTo (Block.loadSect m) b (b.sects m)
    if b.sectsLie m = false ∨ r.1 = false then r.2.streamFails w false
    else
      let b := r.2.moveAgain
      let b := b.set ROPE_CFG_LEVEL (b.imgNat m 10 1)
      let b := if b.rst.warm ∨ b.dramTop < (b.cacheAt b.img.bytes).base + b.img.bytes then b
        else b.stores .dram b.cache.base (b.imgBytes m 0 b.img.bytes)
      b.set RST_START_STAGE 8

/-- The lock is set and the running image shown. -/
def Block.runImage (b : Block) (digest : List Byte) : Block :=
  ({ b with imgLock := true }.wr64 IMG_RUN_ID_LO (imageId digest)).set IMG_STATUS_LOADED b.img.slot

/-- Stage 8. -/
def Block.stage8 (b : Block) (w : StageIn) : Block :=
  if w.err then b.streamFails w true
  else
    let m := b.imgSource
    let d := b.imgDigest m
    if b.rst.warm then
      (if b.rst.digest = some d then (b.runImage d).set RST_START_STAGE 9 else b.warmFails w)
    else if b.signCheck m false ≠ iDone then b.startFails
    else
      let a := match b.anchorFor (b.pubHash m) with | some a => a | none => 0
      let b := { b with key := { b.key with runSvn := b.imgNat m 24 4 } }.modRst (fun r => { r with digest := some d })
      let b := (b.set KEY_STATUS_RUN_ANCHOR (a % 4)).set KEY_STATUS_TEST_IMAGE (if a = 4 then 1 else 0)
      (b.runImage d).set RST_START_STAGE 9

/-! Stage 9: release -/

/-- The command that a set enable in a register of the image stands for, with its step in the order of R608. -/
def enableOf (a : Nat) (v : Word) : Option (Nat × Block × Fld → Block) × Nat :=
  match rowOf a with
  | none => (none, 0)
  | some r =>
    let s := match r.dims with | (s, _) :: _ => s | [] => 1
    let i := (a - r.base) / s
    let via := fun (f : State → Host.Outcome State Fault Refusal) => some (fun (x : Nat × Block × Fld) => (x.2.1.set x.2.2 0).via f)
    if r.base = SWC_PUBb_CFG 0 then (via (execPubBlockEnable i v), 1)
    else if r.base = PRTp_CFG 0 then (via (execPortEnable i v), 2)
    else if r.base = STNs_CFG 0 then (via (execPortEnable (16 + i) v), 2)
    else if r.base = STNs_TXSAa_CTRL 0 0 then (via (execSaEnable i ((a - r.base) % s / (STNs_TXSAa_CTRL 0 1 - STNs_TXSAa_CTRL 0 0)) v), 3)
    else if r.base = STNs_RXSCc_SAa_CTRL 0 0 0 then
      (let o := (a - r.base) % s
       let c := STNs_RXSCc_SAa_CTRL 0 1 0 - r.base
       let q := STNs_RXSCc_SAa_CTRL 0 0 1 - r.base
       (via (execSaEnable i (4 + 4 * (o / c) + o % c / q) v), 3))
    else if r.base = RHZ_GRPg_CFG 0 then (via (execGroupEnable i v), 4)
    else if r.base = RHZ_SLOTs_CFG 0 then (via (execSlotEnable i v), 5)
    else if r.base = RHZ_GSUBe_CFG 0 then (via (execGsubEnable i v), 6)
    else if r.base = SOR_TRKt_CFG 0 then (via (execTrkGroupEnable i v), 7)
    else if r.base = SOR_CHc_CFG 0 then (via (execChannelEnable i v), 8)
    else if r.base = THRk_CFG 0 then (via (execComparatorEnable i v), 9)
    else if r.base = ACQ_FEIi_CFG 0 ∨ r.base = ACQ_TRGu_CFG 0 then
      (some (fun x => x.2.1.afterWrite a (BitVec.ofNat 32 (v.toNat % 2 ^ 31))), 10)
    else if r.base = ACQ_CSETs_CFG 0 then (via (execCsetEnable i v), 11)
    else (none, 0)

/-- The bit of a register that is its enable: bit 0 of a port's configuration, bit 31 of the others. -/
def enableBit (a : Nat) : Nat :=
  match rowOf a with
  | some r => if r.base = PRTp_CFG 0 ∨ r.base = STNs_CFG 0 then 0 else 31
  | none => 31

/-- Every enable that the image set takes effect, in the order of R608. -/
def Block.bringUp (b : Block) : Block :=
  let es : List (Nat × Word) := b.regs.filter (fun e => bit e.2.toNat (enableBit e.1))
  (List.range' 1 11).foldl (fun b k =>
    es.foldl (fun b e =>
      match enableOf e.1 e.2 with
      | (some f, n) => if n = k then f (k, b, ⟨e.1, enableBit e.1, 1⟩) else b
      | (none, _) => b) b) b

/-- The instances of the image; their states wait for the policy (R618, R627). -/
def Block.createAll (b : Block) : Block :=
  b.img.insts.foldl (fun b l => (b.createFrom (List.replicate 8 0 ++ l.take 32) (slice l 32 512)).2) b

/-- The tables of TBL_EN and the instances that the image names RUNNING (R618). -/
def Block.policyActs (b : Block) : Block :=
  let b := b.img.insts.foldl (fun b l =>
    let i := leAt l 0 1
    if leAt l 544 1 = iRUNNING ∧ b.instState i = iCONFIGURED then (b.setInst i iRUNNING).enableOwned i else b) b
  (b.modRst (fun r => { r with waiting := false })).via (execTblEnWrite .host b.img.tblEn)

/-- The clocks and power domains of the released units. -/
def Block.clocksOn (b : Block) : Block :=
  let b := b.set (bitOf NRG_CLK_LOCK 17) 1
  let b := b.each (b.member.units .tuft) (fun t b =>
    ((b.set (FRD_TUFTt_STAT_CUR_MHZ t) (b.tuftTarget t)).set (FRD_TUFTt_STAT_LOCK t) 1).set (bitOf NRG_CLK_LOCK t) 1)
  b.each 212 (fun d b => b.doIf (b.member.hasDomain d) (fun b => b.domReach d (b.domWant d)))

/-- The Ridge cores run and their watchdogs are armed (R606). -/
def Block.ridgeOn (b : Block) : Block :=
  (b.each 4 (fun m b => b.ridgeStart m)).modRst (fun r => { r with
    ridgeAt := (List.range 4).map (fun m => (m, some b.xtal)), ridgeHalf := [] })

/-- Cairn's log after a cold reset, and the RESET record (R675, R678). -/
def Block.logStart (b : Block) : Block :=
  let lost := b.rst.level != 2 || (List.range 2).any (fun c => b.on (THL_DDRc_STAT_SR_LOSS c))
  let b := b.doIf (lost && b.on CRN_CTRL_EN) (fun b => ((b.stores .dram b.logBase (List.replicate 0x10000 0)).wr CRN_PROD 0).wr CRN_CONS 0)
  let q := b.fifo
  let data : List Byte := leBytes 1 (b.get RST_LAST_LEVEL) ++ leBytes 1 (b.get RST_LAST_CAUSE) ++ leBytes 2 (b.rd RST_LAST_ALL).toNat ++
    leBytes 2 (b.rd CRN_RST_LOST).toNat ++ [0, 0] ++ leBytes 8 (if b.get RST_LAST_CAUSE = 0xB ∨ b.get RST_LAST_CAUSE = 0xC then b.rst.info else 0)
  let b := { b with fifo := [] }.report 0x01 0xFFFF (⟨.rst, 0⟩ : UnitRef).id 0 (data.map (fun (x : Byte) => x.toNat))
  { b with fifo := b.fifo ++ q }.set CRN_STAT_FIFO_FILL (b.fifo.length + q.length)

/-- Stage 9: steps 7 and 8 of R608, the instances, and the tables under the start policy. -/
def Block.stage9 (b : Block) (w : StageIn) : Block :=
  let pol := if b.rst.forceHost then 2 else b.img.policy
  let b := b.modRst (fun r => { r with rel := true })
  let b := ((b.showSpares.showBlocks).bringUp.createAll).ridgeOn.clocksOn.pinCopies.showPcMapped
  if !b.released .crz then b
  else
  let b := (b.set RST_START_POLICY pol).logStart
  let b :=
    if pol = 2 then b.raise 0
    else if pol = 1 then b.modRst (fun r => { r with waiting := true, waitEnd := b.xtal + b.img.waitMs * 1000000 })
    else b.policyActs
  let b := if b.rst.failed = 0 then b else ((b.bcrWrite b.rst.slot).set IMG_STATUS_REPOINTED 1).raise 9
  let b := if b.rst.warm then b.readJournal w.journal0 w.journal1 else b
  b.scrubStart b.img.slot

/-- R618: under TIME the tables wait for the time base, or for START_WAIT_MS. -/
def Block.timeWait (b : Block) : Block :=
  let st := b.get TIM_STATUS_STATE
  if b.rst.waiting = false then b
  else if st = timLOCKED ∨ st = timHOLDOVER then b.policyActs
  else (b.advanceXtal b.rst.waitEnd).policyActs

/-- R613, R616 to R618: the start stage in progress is complete, with what it found outside the module. -/
def execStartStageDone (w : StageIn) (s : State) : Host.Outcome State Fault Refusal :=
  run (fun b =>
    if b.rst.off ∨ b.rst.asserted then b
    else match b.get RST_START_STAGE with
      | 1 => b.stage1 w
      | 2 => (b.set NRG_CLK_LOCK_MAIN 9).set RST_START_STAGE 3
      | 3 => b.stage3 w
      | 4 => b.stage4
      | 5 => b.stage5 w
      | 6 => b.stage6
      | 7 => b.stage7 w
      | 8 => b.stage8 w
      | 9 => if b.rst.rel then b.timeWait else b.stage9 w
      | _ => b) s

/-! Reset sources (R601, R602) -/

/-- R601: VDD_AON rises: everything at its reset value but flash, fuses and what lies outside the module. -/
def execPowerOn (s : State) : Host.Outcome State Fault Refusal :=
  run (fun b =>
    let fresh : Block := {}
    let f : Block := { fresh with member := b.member, mem := b.mem.filter (fun e => memCold e.1), outs := b.outs, freeCtr := b.freeCtr, readData := b.readData }
    let f := { f with key := { f.key with enrolled := b.key.enrolled } }
    let f := (f.wr KEY_FUSE (b.rd KEY_FUSE)).set KEY_STATUS_LC (b.get KEY_STATUS_LC)
    f.each 16 (fun k f => f.wr (RST_PINFUSEk k) (b.rd (RST_PINFUSEk k)))) s

/-- R422: VDD_AON is lost: the line is not driven and the module stops. -/
def execLossOfVddAon (s : State) : Host.Outcome State Fault Refusal :=
  run (fun b => b.leaseDrop.modRst (fun r => { r with off := true })) s

/-- A source of R602 acts while the module has power. -/
def Block.source (b : Block) (c : Nat) : Block := if b.rst.off then b else b.leaseDrop.moduleReset c

/-- R602, R560: SYS_RST_N goes low; cool: every zone comparator reads below 110 °C, which ends a thermal trip. -/
def execSysRstAssert (cool : Bool) (s : State) : Host.Outcome State Fault Refusal :=
  run (fun b =>
    let b := b.source 2
    if b.rst.off = false ∧ b.rst.thermtrip = true ∧ cool = true then
      b.modRst (fun r => { r with thermtrip := false, held := r.held - (if bit r.held 4 then 2 ^ 4 else 0) })
    else b) s

/-- R602: WARM_RST_N goes low. -/
def execWarmRstAssert (s : State) : Host.Outcome State Fault Refusal := run (fun b => b.source 6) s

/-- R602: a monitored rail falls below its threshold. -/
def execRailFault (s : State) : Host.Outcome State Fault Refusal := run (fun b => b.source 3) s

/-- R602, R560, R566, R608: the source that holds its reset as cause c lets go; a thermal trip ends by SYS_RST_N alone, the lockout by
1,000 samples. -/
def execResetRelease (c : Nat) (s : State) : Host.Outcome State Fault Refusal :=
  run (fun b =>
    if b.rst.off ∨ bit b.rst.held c = false ∨ c = 4 ∨ (c = 5 ∧ b.nrg.above < 1000) then b
    else
      let b := if c = 5 then { (ssmRegs.foldl (fun b a => b.wr a (resetOf a)) b) with nrg := {} } else b
      let b := b.modRst (fun r => { r with held := r.held - 2 ^ c })
      if b.rst.held = 0 then b.beginStart else b) s

/-- R527, R528: a wipe trigger. -/
def execWipeStart (s : State) : Host.Outcome State Fault Refusal := run (fun b => if b.rst.off then b else b.wipeStart) s

/-- R527, R602, R642: the wipe ends, verified or failed; the reset that waited for it follows. -/
def execWipeDone (ok : Bool) (s : State) : Host.Outcome State Fault Refusal :=
  run (fun b =>
    if b.rst.off ∨ b.on THL_SEC_STAT_WIPING = false then b
    else
      let cs := b.rst.afterWipe
      let b := (b.wipeEnd ok).modRst (fun r => { r with afterWipe := 0 })
      let b := if bit cs 0xD then b.source 0xD else b
      if bit cs 9 then b.source 9 else b) s

/-- R658: TAMPER_N is asserted. -/
def execTamper (s : State) : Host.Outcome State Fault Refusal :=
  run (fun b =>
    if b.rst.off then b
    else
      let b := (b.set KEY_STATUS_TAMPER_SEEN 1).raise 965
      let b := b.report 0x0F 965 (⟨.key, 0⟩ : UnitRef).id 0 ((leBytes 4 (b.rd KEY_STATUS).toNat).map (fun x => x.toNat))
      b.wipeStart.modRst (fun r => { r with afterWipe := r.afterWipe ||| 2 ^ 0xD })) s

/-- A write of RST_CMD (R604). -/
def Block.rstCmd (b : Block) (who : Requester) (v : Word) (c : Nat) : Block :=
  if b.reaches who = false ∨ bits v.toNat 0 16 ≠ 0xA5C3 then b
  else if b.leased ∧ bit v.toNat 29 = false then b.rootErr who RST_CMD ROOT_ERR_REFUSED
  else b.source c

/-- R604: RST_CMD with COLD. -/
def execRstCmdCold (who : Requester) (v : Word) (s : State) : Host.Outcome State Fault Refusal :=
  runAt .rst (fun b => b.rstCmd who v 9) s

/-- R604: RST_CMD with WARM. -/
def execRstCmdWarm (who : Requester) (v : Word) (s : State) : Host.Outcome State Fault Refusal :=
  runAt .rst (fun b => b.rstCmd who v 0xA) s

/-! Watchdogs (R605, R606) -/

/-- R605: the Crozier watchdog is not reloaded in time. -/
def execCrzWatchdogExpiry (s : State) : Host.Outcome State Fault Refusal :=
  run (fun b =>
    match b.rst.crzDue with
    | none => b
    | some t => (b.advanceXtal t).source 7) s

/-- RIDGE_MS in ns. -/
def Block.ridgeNs (b : Block) : Nat := clampN 100 65535 (b.get RST_WDOG_RIDGE_MS) * 1000000

/-- When the armed watchdog of Ridge core m was last reloaded. -/
def Block.ridgeLoaded (b : Block) (m : Nat) : Option Nat := if m < 4 ∧ b.rst.off = false then b.rst.ridgeAt.get (fun _ => none) m else none

/-- R606: half of RIDGE_MS has passed without a kick of core m. -/
def execRidgeWatchdogHalf (m : Nat) (s : State) : Host.Outcome State Fault Refusal :=
  run (fun b =>
    match b.ridgeLoaded m with
    | none => b
    | some t =>
      if b.rst.ridgeHalf.get (fun _ => false) m then b
      else ((b.advanceXtal (t + b.ridgeNs / 2)).modRst (fun r => { r with ridgeHalf := (m, true) :: r.ridgeHalf })).raise 2) s

/-- R606: all of it has passed. -/
def execRidgeWatchdogExpiry (m : Nat) (s : State) : Host.Outcome State Fault Refusal :=
  run (fun b =>
    match b.ridgeLoaded m with
    | none => b
    | some t =>
      let b := b.advanceXtal (t + b.ridgeNs)
      if b.on RST_WDOG_RIDGE_ACT ∧ m ≠ 0 then
        (b.modRst (fun r => { r with ridgeAt := (m, none) :: r.ridgeAt })).resetMark ⟨.ridge, m⟩ 3
      else b.source 8) s

/-- R606: 1s written to RST_KICK reload the watchdogs of their cores. -/
def execRstKick (v : Word) (s : State) : Host.Outcome State Fault Refusal :=
  runAt .rst (fun b => b.each 4 (fun m b =>
    if bit v.toNat m ∧ (b.ridgeLoaded m).isSome = true then
      b.modRst (fun r => { r with ridgeAt := (m, some b.xtal) :: r.ridgeAt, ridgeHalf := (m, false) :: r.ridgeHalf })
    else b)) s

/-! The life cycle (R642) -/

/-- R642, R664: LC_ADVANCE; while a tamper's wipe runs it follows that wipe, and the resets of both follow. -/
def execLcAdvance (v : Word) (s : State) : Host.Outcome State Fault Refusal :=
  runAt .key (fun b => b.keyCmd 8 v (fun b =>
    let lc := b.get KEY_STATUS_LC
    if b.confirmed = false ∨ b.leased ∨ b.tablesIdle = false ∨ 4 ≤ lc then (kRefused, b)
    else if lc = 1 ∧ (b.on KEY_STATUS_ROOT_OK = false ∨ b.get KEY_FUSE_REVOKED = 15) then (if b.on THL_SEC_STAT_WIPING then kRefused else kUnmet, b)
    else
      let b := (b.set THL_SEC_STAT_WIPE_PEND 1).set KEY_STATUS_LC (lc + 1)
      (kDone, b.wipeStart.modRst (fun r => { r with afterWipe := r.afterWipe ||| 2 ^ 9 })))) s

end Sys2Proof.Machine
end

