-- ==== Sys2Proof/Machine/Checked.lean ====
section
/-! DEFINITION. Errors that the codes on control state find (R44, R656, R681), as an operand of a task's start reports them. -/

namespace Sys2Proof.Machine

open Sys2Proof Sys2Proof.Reg

/-- The unit that owns a word of checked control state (R44). -/
def Upset.owner (u : Upset) : UnitRef :=
  match u.store with
  | .seq => ⟨.crz, 0⟩ | .inst | .ctx | .tu => ⟨.vin, 0⟩ | .key => ⟨.key, 0⟩
  | .cfg => (unitOf u.place).getD ⟨.root, 0⟩

/-- A single-bit error is corrected and counted, with a record (R44, R656). -/
def Block.corrected (b : Block) (u : Upset) : Block :=
  let b := match u.store with
    | .seq => b.count (CRZ_CNTi 10) 1 (bitOf CRZ_CNT_ROLL 10) 721
    | .key => (b.count (KEY_CNTi 6) 1 (bitOf KEY_CNT_ROLL 6) 970).raiseEvery 1000 968
    | _ => b.count (VIN_CNTi 8) 1 (bitOf VIN_CNT_ROLL 8) 104
  b.controlRecord (if u.store = .key then 968 else 0xFFFF) (Upset.owner u).id 1 0 u.place

/-- The registers of stream slot s are reloaded from the image cache, and the slot is enabled again where it was (R617, R681). -/
def Block.slotReload (b : Block) (s : Nat) : Block :=
  let m := b.cache
  let mine := fun (a : Nat) => decide (0x410000 ≤ a) && decide (a < 0x440000) && (a - 0x410000) % 0x10000 / 64 == s
  let en := b.on (RHZ_SLOTs_CFG_EN s)
  let b := b.via (execSlotDisable s)
  let b := (b.sects m).foldl (fun b x => if x.typ = 1 then ((b.regPairs m x).filter (fun p => mine p.1)).foldl Block.loadReg b else b) b
  let v := b.rd (RHZ_SLOTs_CFG s)
  let b := b.set (RHZ_SLOTs_CFG_EN s) 0
  if en then b.via (execSlotEnable s v) else b

/-- An error that the codes found in checked control state (R44): a single bit is corrected; a double bit, or a parity error, resets
the owning unit, or the module where that is CRZ or KEY, a group or a unit without a reset of its own (R50). The parity of a stream
slot's registers is an event of the slot's channel, and its retry reloads them (R681). -/
def Block.upsetFound (b : Block) (u : Upset) : Block :=
  let o := Upset.owner u
  if u.store ≠ .cfg ∧ u.double = false then b.corrected u
  else if u.store = .cfg ∧ 0x410000 ≤ u.place ∧ u.place < 0x440000 then
    (let k := (u.place - 0x410000) % 0x10000 / 64
     ((b.controlRecord 0xFFFF o.id 3 0 u.place).channelEvent (214 + k) 7 false 0).slotReload k)
  else if o.cls = .crz ∨ o.cls = .key ∨ o.cls.resettable = false ∨ o.cls.isGroup = true then
    (b.doIf (u.store == .key) (fun b => b.modRst (fun r => { r with ecc := u.place :: r.ecc }))).controlReset u.place
  else (b.controlFault o).controlRecord 0xFFFF o.id (if u.store = .cfg then 3 else 2) 1 u.place

/-- R44, R301: a tuft's stage engine takes the next task that can start; the errors that the codes found in checked control state since
the start before come first. -/
def execTaskStart (t : Starting) (s : State) : Host.Outcome State Fault Refusal :=
  runAt .crz (fun b =>
    let b := t.found.foldl Block.upsetFound b
    if b.released .crz = true ∧ b.rst.asserted = false then b.taskStart t.tuft else b) s

end Sys2Proof.Machine
end

