-- ==== Sys2Proof/Machine/Float.lean ====
section
/-! DEFINITION. IEEE 754-2008 binary32 and binary64 with the RISC-V canonical NaN (R325, R326): values as a sign, an integer
and a power of two, computed exactly and rounded once. -/

namespace Sys2Proof.Machine

/-- A format by the bits of its exponent and of its fraction. -/
structure Fmt where
  eb : Nat
  mb : Nat
  deriving DecidableEq, Repr

def fS : Fmt := ⟨8, 23⟩
def fD : Fmt := ⟨11, 52⟩

def Fmt.bias (f : Fmt) : Nat := 2 ^ (f.eb - 1) - 1
def Fmt.emin (f : Fmt) : Int := 1 - (f.bias : Int)
def Fmt.width (f : Fmt) : Nat := 1 + f.eb + f.mb
def Fmt.expTop (f : Fmt) : Nat := 2 ^ f.eb - 1

/-- The canonical NaN, an infinity, a zero, the largest finite number. -/
def Fmt.nan (f : Fmt) : Nat := f.expTop * 2 ^ f.mb + 2 ^ (f.mb - 1)
def Fmt.sign (f : Fmt) (s : Bool) : Nat := if s then 2 ^ (f.eb + f.mb) else 0
def Fmt.inf (f : Fmt) (s : Bool) : Nat := f.sign s + f.expTop * 2 ^ f.mb
def Fmt.max (f : Fmt) (s : Bool) : Nat := f.inf s - 1

/-- A number: a NaN (signalling or not), an infinity, or ± m × 2ᵉ. -/
inductive Fp
  | nan (signalling : Bool)
  | inf (s : Bool)
  | num (s : Bool) (m : Nat) (e : Int)
  deriving DecidableEq, Repr

/-- The number that bits of a format stand for. -/
def Fmt.read (f : Fmt) (v : Nat) : Fp :=
  let s := bit v (f.eb + f.mb)
  let e := bits v f.mb f.eb
  let m := bits v 0 f.mb
  if e = f.expTop then (if m = 0 then .inf s else .nan (!bit v (f.mb - 1)))
  else if e = 0 then .num s m (f.emin - f.mb)
  else .num s (m + 2 ^ f.mb) ((e : Int) - f.bias - f.mb)

/-! Flags: NX 1, UF 2, OF 4, DZ 8, NV 16; rounding modes RNE 0, RTZ 1, RDN 2, RUP 3, RMM 4 -/

/-- Is a truncated integer q with a remainder rem of 2ˢ (and a rest beyond) to be raised? -/
def roundUp (rm : Nat) (s : Bool) (q rem sh : Nat) (rest : Bool) : Bool :=
  let exact := rem == 0 && !rest
  let half := 2 ^ (sh - 1)
  let above := sh != 0 && (decide (half < rem) || (rem == half && rest))
  let tie := sh != 0 && rem == half && !rest
  match rm with
  | 0 => above || (tie && q % 2 == 1)
  | 1 => false
  | 2 => s && !exact
  | 3 => !s && !exact
  | _ => above || tie

/-- m × 2ᵉ as an integer of quantum 2^q: the rounded integer, and whether that was inexact; rest says that the value lies a
little above m × 2ᵉ. -/
def quantize (rm : Nat) (s : Bool) (m : Nat) (e q : Int) (rest : Bool) : Nat × Bool :=
  let sh := (q - e).toNat
  let t := m * 2 ^ (e - q).toNat
  let k := t / 2 ^ sh
  let r := t % 2 ^ sh
  (if roundUp rm s k r sh rest then k + 1 else k, r != 0 || rest)

/-- The bits of ± (m × 2ᵉ and a rest) rounded to a format, with the flags; tininess is detected after rounding. -/
def Fmt.round (f : Fmt) (rm : Nat) (s : Bool) (m : Nat) (e : Int) (rest : Bool) : Nat × Nat :=
  if m = 0 ∧ rest = false then (f.sign s, 0)
  else
    let lead := (Nat.log2 m : Int) + e
    let q0 := lead - f.mb
    let q := if q0 < f.emin - f.mb then f.emin - f.mb else q0
    let r := quantize rm s m e q rest
    let carry := decide (2 ^ (f.mb + 1) ≤ r.1)
    let k := if carry then r.1 / 2 else r.1
    let q := if carry then q + 1 else q
    let nx := if r.2 then 1 else 0
    if (f.bias : Int) < q + f.mb ∧ 2 ^ f.mb ≤ k then
      let up := rm == 0 || rm == 4 || (rm == 2 && s) || (rm == 3 && !s)
      (if up then f.inf s else f.max s, 5)
    else
      let tiny := decide (lead < f.emin) && !(lead == f.emin - 1 && decide (2 ^ (f.mb + 1) ≤ (quantize rm s m e q0 rest).1))
      let uf := if tiny && r.2 then 2 else 0
      let v := if k < 2 ^ f.mb then k else (q + f.mb + f.bias).toNat * 2 ^ f.mb + (k - 2 ^ f.mb)
      (f.sign s + v, nx + uf)

/-! Operations: the bits of the result and the flags -/

/-- The signed integer of m × 2ᵉ at the quantum 2^q, q not above e. -/
def atQuantum (s : Bool) (m : Nat) (e q : Int) : Int :=
  let v : Int := ((m * 2 ^ (e - q).toNat : Nat) : Int)
  if s then -v else v

/-- The sum of two finite numbers, rounded. An exact zero keeps a common sign, else it is +0, or −0 under RDN. -/
def Fmt.sum (f : Fmt) (rm : Nat) (s1 : Bool) (m1 : Nat) (e1 : Int) (s2 : Bool) (m2 : Nat) (e2 : Int) : Nat × Nat :=
  let q := if e1 < e2 then e1 else e2
  let t := atQuantum s1 m1 e1 q + atQuantum s2 m2 e2 q
  if t = 0 then (f.sign (if s1 = s2 then s1 else rm == 2), 0) else f.round rm (decide (t < 0)) t.natAbs q false

def Fp.snan : Fp → Bool
  | .nan s => s
  | _ => false
def Fp.isNan : Fp → Bool
  | .nan _ => true
  | _ => false

/-- The result of an operation with a NaN operand. -/
def Fmt.quiet (f : Fmt) (ops : List Fp) : Nat × Nat := (f.nan, if ops.any Fp.snan then 16 else 0)

def Fmt.add (f : Fmt) (rm : Nat) (a c : Fp) : Nat × Nat :=
  match a, c with
  | .nan _, _ => f.quiet [a, c]
  | _, .nan _ => f.quiet [a, c]
  | .inf s, .inf t => if s = t then (f.inf s, 0) else (f.nan, 16)
  | .inf s, _ => (f.inf s, 0)
  | _, .inf t => (f.inf t, 0)
  | .num s1 m1 e1, .num s2 m2 e2 => f.sum rm s1 m1 e1 s2 m2 e2

/-- A number with its sign changed where a condition holds. -/
def Fp.flip (c : Bool) : Fp → Fp
  | .nan s => .nan s
  | .inf s => .inf (s != c)
  | .num s m e => .num (s != c) m e

def Fmt.mul (f : Fmt) (rm : Nat) (a c : Fp) : Nat × Nat :=
  match a, c with
  | .nan _, _ => f.quiet [a, c]
  | _, .nan _ => f.quiet [a, c]
  | .inf s, .inf t => (f.inf (s != t), 0)
  | .inf s, .num t m _ => if m = 0 then (f.nan, 16) else (f.inf (s != t), 0)
  | .num s m _, .inf t => if m = 0 then (f.nan, 16) else (f.inf (s != t), 0)
  | .num s m e, .num t n g => f.round rm (s != t) (m * n) (e + g) false

/-- a × c + d, rounded once. -/
def Fmt.fma (f : Fmt) (rm : Nat) (a c d : Fp) : Nat × Nat :=
  let zero := fun (x : Fp) => match x with | .num _ m _ => m == 0 | _ => false
  let isInf := fun (x : Fp) => match x with | .inf _ => true | _ => false
  let bad := (isInf a && zero c) || (zero a && isInf c)
  if bad then (f.nan, 16)
  else match a, c, d with
    | .num s m e, .num t n g, .num u k h => f.sum rm (s != t) (m * n) (e + g) u k h
    | .num _ _ _, .num _ _ _, .inf u => (f.inf u, 0)
    | _, _, _ =>
      if a.isNan || c.isNan || d.isNan then f.quiet [a, c, d]
      else
        let sg := fun (x : Fp) => match x with | .inf s => s | .num s _ _ => s | .nan _ => false
        let p := sg a != sg c
        match d with
        | .inf u => if u = p then (f.inf u, 0) else (f.nan, 16)
        | _ => (f.inf p, 0)

def Fmt.div (f : Fmt) (rm : Nat) (a c : Fp) : Nat × Nat :=
  match a, c with
  | .nan _, _ => f.quiet [a, c]
  | _, .nan _ => f.quiet [a, c]
  | .inf _, .inf _ => (f.nan, 16)
  | .inf s, .num t _ _ => (f.inf (s != t), 0)
  | .num s _ _, .inf t => (f.sign (s != t), 0)
  | .num s m e, .num t n g =>
    if n = 0 then (if m = 0 then (f.nan, 16) else (f.inf (s != t), 8))
    else
      let k := f.mb + 3 + (Nat.log2 n + 1)
      let x := m * 2 ^ k
      f.round rm (s != t) (x / n) (e - g - k) (x % n != 0)

def Fmt.sqrt (f : Fmt) (rm : Nat) (a : Fp) : Nat × Nat :=
  match a with
  | .nan _ => f.quiet [a]
  | .inf s => if s then (f.nan, 16) else (f.inf false, 0)
  | .num s m e =>
    if m = 0 then (f.sign s, 0)
    else if s then (f.nan, 16)
    else
      let k0 := 2 * (f.mb + 3) - (Nat.log2 m + 1)
      let k := if (e - k0) % 2 = 0 then k0 else k0 + 1
      let x := m * 2 ^ k
      let r := isqrt x
      f.round rm false r ((e - k) / 2) (r * r != x)

/-! Comparisons, extremes, classes -/

/-- Is a below c, or equal, for numbers that are no NaN? -/
def Fp.lt (a c : Fp) : Bool :=
  match a, c with
  | .num s m e, .num t n g => let q := if e < g then e else g; decide (atQuantum s m e q < atQuantum t n g q)
  | .inf s, .inf t => s && !t
  | .inf s, .num _ _ _ => s
  | .num _ _ _, .inf t => !t
  | _, _ => false
def Fp.eq (a c : Fp) : Bool :=
  match a, c with
  | .num s m e, .num t n g => let q := if e < g then e else g; atQuantum s m e q == atQuantum t n g q
  | .inf s, .inf t => s == t
  | _, _ => false

/-- FLE, FLT, FEQ by funct3 0, 1, 2: the result and the flags. -/
def fpCmp (f3 : Nat) (a c : Fp) : Nat × Nat :=
  if a.isNan || c.isNan then (0, if f3 == 2 then (if a.snan || c.snan then 16 else 0) else 16)
  else ((match f3 with | 0 => a.lt c || a.eq c | 1 => a.lt c | _ => a.eq c).toNat, 0)

/-- FMIN and FMAX over bits x and y: the number where one is a NaN, −0 below +0. -/
def Fmt.minMax (f : Fmt) (mx : Bool) (x y : Nat) : Nat × Nat :=
  let a := f.read x
  let c := f.read y
  let nv := if a.snan || c.snan then 16 else 0
  if a.isNan && c.isNan then (f.nan, nv)
  else if a.isNan then (y, nv)
  else if c.isNan then (x, nv)
  else
    let less := a.lt c || (a.eq c && bit x (f.eb + f.mb))
    (if less != mx then x else y, nv)

/-- FCLASS. -/
def Fmt.classOf (f : Fmt) (x : Nat) : Nat :=
  match f.read x with
  | .nan s => if s then 2 ^ 8 else 2 ^ 9
  | .inf s => if s then 1 else 2 ^ 7
  | .num s m _ =>
    if m = 0 then (if s then 2 ^ 3 else 2 ^ 4)
    else if m < 2 ^ f.mb then (if s then 2 ^ 2 else 2 ^ 5)
    else (if s then 2 ^ 1 else 2 ^ 6)

/-! Conversions -/

/-- A number to a signed or unsigned integer of w bits, with the flags. -/
def fpToInt (rm : Nat) (sg : Bool) (w : Nat) (a : Fp) : Int × Nat :=
  let hi : Int := ((2 ^ (if sg then w - 1 else w) : Nat) : Int) - 1
  let lo : Int := if sg then -((2 ^ (w - 1) : Nat) : Int) else 0
  match a with
  | .nan _ => (hi, 16)
  | .inf s => (if s then lo else hi, 16)
  | .num s m e =>
    let r := if e < 0 then quantize rm s m e 0 false else (m * 2 ^ e.toNat, false)
    let v : Int := if s then -(r.1 : Int) else (r.1 : Int)
    if v < lo then (lo, 16) else if hi < v then (hi, 16) else (v, if r.2 then 1 else 0)

/-- An integer to a format. -/
def Fmt.ofInt (f : Fmt) (rm : Nat) (v : Int) : Nat × Nat := f.round rm (decide (v < 0)) v.natAbs 0 false

/-- A number to another format. -/
def Fmt.convert (f : Fmt) (rm : Nat) (a : Fp) : Nat × Nat :=
  match a with
  | .nan _ => f.quiet [a]
  | .inf s => (f.inf s, 0)
  | .num s m e => f.round rm s m e false

end Sys2Proof.Machine
end

