-- ==== Sys2Proof/Machine/Riscv.lean ====
section
/-! DEFINITION. The standard RISC-V instructions of a Frond core (R325 to R331, R337, R342, R346): RV64IMAFDC with Zicsr, Zifencei,
Zba, Zbb, Zbs, Zicond and Zihintpause in user mode. Their encodings and effects are the ones of the RISC-V standard that R325
names; the spec does not repeat them (PRESUMED, log). -/

namespace Sys2Proof.Machine

open Sys2Proof Sys2Proof.Reg

/-! Compressed instructions, as the words they expand to -/

def encR (f7 rs2 rs1 f3 rd op : Nat) : Nat := f7 * 2 ^ 25 + rs2 * 2 ^ 20 + rs1 * 2 ^ 15 + f3 * 2 ^ 12 + rd * 2 ^ 7 + op
def encI (imm rs1 f3 rd op : Nat) : Nat := imm % 4096 * 2 ^ 20 + rs1 * 2 ^ 15 + f3 * 2 ^ 12 + rd * 2 ^ 7 + op
def encS (imm rs2 rs1 f3 op : Nat) : Nat := encR (bits imm 5 7) rs2 rs1 f3 (bits imm 0 5) op
def encB (imm rs2 rs1 f3 : Nat) : Nat :=
  encR (bits imm 12 1 * 64 + bits imm 5 6) rs2 rs1 f3 (bits imm 1 4 * 2 + bits imm 11 1) 0x63
def encJ (imm rd : Nat) : Nat :=
  bits imm 20 1 * 2 ^ 31 + bits imm 1 10 * 2 ^ 21 + bits imm 11 1 * 2 ^ 20 + bits imm 12 8 * 2 ^ 12 + rd * 2 ^ 7 + 0x6F

/-- A field of h at bit i of n bits, placed at bit j. -/
def mv (h i n j : Nat) : Nat := bits h i n * 2 ^ j

/-- The low bits of a signed value of n bits, extended to 32. -/
def sx (n v : Nat) : Nat := uns 32 (sgn n v)

/-- The expansion of a 16-bit instruction; none where it is reserved or of an absent extension. -/
def expandC (h : Nat) : Option Nat :=
  let f3 := bits h 13 3
  let r := bits h 7 5
  let r2 := bits h 2 5
  let p1 := bits h 7 3 + 8
  let p2 := bits h 2 3 + 8
  let imm6 := mv h 12 1 5 + mv h 2 5 0
  let offD := mv h 10 3 3 + mv h 5 2 6
  let offW := mv h 10 3 3 + mv h 6 1 2 + mv h 5 1 6
  let spD := mv h 12 1 5 + mv h 5 2 3 + mv h 2 3 6
  match h % 4, f3 with
  | 0, 0 =>
    let imm := mv h 11 2 4 + mv h 7 4 6 + mv h 6 1 2 + mv h 5 1 3
    if imm = 0 then none else some (encI imm 2 0 p2 0x13)
  | 0, 1 => some (encI offD p1 3 p2 0x07)
  | 0, 2 => some (encI offW p1 2 p2 0x03)
  | 0, 3 => some (encI offD p1 3 p2 0x03)
  | 0, 5 => some (encS offD p2 p1 3 0x27)
  | 0, 6 => some (encS offW p2 p1 2 0x23)
  | 0, 7 => some (encS offD p2 p1 3 0x23)
  | 1, 0 => some (encI (sx 6 imm6) r 0 r 0x13)
  | 1, 1 => if r = 0 then none else some (encI (sx 6 imm6) r 0 r 0x1B)
  | 1, 2 => some (encI (sx 6 imm6) 0 0 r 0x13)
  | 1, 3 =>
    if imm6 = 0 then none
    else if r = 2 then some (encI (sx 10 (mv h 12 1 9 + mv h 6 1 4 + mv h 5 1 6 + mv h 3 2 7 + mv h 2 1 5)) 2 0 2 0x13)
    else some (sx 6 imm6 % 2 ^ 20 * 2 ^ 12 + r * 2 ^ 7 + 0x37)
  | 1, 4 =>
    match bits h 10 2 with
    | 0 => some (encI imm6 p1 5 p1 0x13)
    | 1 => some (encI (0x400 + imm6) p1 5 p1 0x13)
    | 2 => some (encI (sx 6 imm6) p1 7 p1 0x13)
    | _ =>
      match bits h 12 1, bits h 5 2 with
      | 0, 0 => some (encR 0x20 p2 p1 0 p1 0x33)
      | 0, 1 => some (encR 0 p2 p1 4 p1 0x33)
      | 0, 2 => some (encR 0 p2 p1 6 p1 0x33)
      | 0, _ => some (encR 0 p2 p1 7 p1 0x33)
      | _, 0 => some (encR 0x20 p2 p1 0 p1 0x3B)
      | _, 1 => some (encR 0 p2 p1 0 p1 0x3B)
      | _, _ => none
  | 1, 5 =>
    some (encJ (sx 12 (mv h 12 1 11 + mv h 11 1 4 + mv h 9 2 8 + mv h 8 1 10 + mv h 7 1 6 + mv h 6 1 7 + mv h 3 3 1 + mv h 2 1 5)) 0)
  | 1, 6 => some (encB (sx 9 (mv h 12 1 8 + mv h 10 2 3 + mv h 5 2 6 + mv h 3 2 1 + mv h 2 1 5)) 0 p1 0)
  | 1, 7 => some (encB (sx 9 (mv h 12 1 8 + mv h 10 2 3 + mv h 5 2 6 + mv h 3 2 1 + mv h 2 1 5)) 0 p1 1)
  | 2, 0 => some (encI imm6 r 1 r 0x13)
  | 2, 1 => some (encI spD 2 3 r 0x07)
  | 2, 2 => if r = 0 then none else some (encI (mv h 12 1 5 + mv h 4 3 2 + mv h 2 2 6) 2 2 r 0x03)
  | 2, 3 => if r = 0 then none else some (encI spD 2 3 r 0x03)
  | 2, 4 =>
    if bits h 12 1 = 0 then
      if r2 = 0 then (if r = 0 then none else some (encI 0 r 0 0 0x67)) else some (encR 0 r2 0 0 r 0x33)
    else if r2 = 0 then (if r = 0 then some 0x00100073 else some (encI 0 r 0 1 0x67))
    else some (encR 0 r2 r 0 r 0x33)
  | 2, 5 => some (encS (mv h 10 3 3 + mv h 7 3 6) r2 2 3 0x27)
  | 2, 6 => some (encS (mv h 9 4 2 + mv h 7 2 6) r2 2 2 0x23)
  | 2, 7 => some (encS (mv h 10 3 3 + mv h 7 3 6) r2 2 3 0x23)
  | _, _ => none

/-! Integer arithmetic -/

/-- The low 32 bits of a value, sign-extended. -/
def wExt (v : DWord) : DWord := (v.setWidth 32).signExtend 64
def lo32 (v : DWord) : BitVec 32 := v.setWidth 32

def dwOf (c : Bool) : DWord := if c then 1 else 0

/-- Division and remainder with the results of the standard for a divisor of 0. -/
def divS {w : Nat} (x y : BitVec w) : BitVec w := if y = 0 then BitVec.allOnes w else x.sdiv y
def divU {w : Nat} (x y : BitVec w) : BitVec w := if y = 0 then BitVec.allOnes w else x.udiv y
def remS {w : Nat} (x y : BitVec w) : BitVec w := if y = 0 then x else x.srem y
def remU {w : Nat} (x y : BitVec w) : BitVec w := if y = 0 then x else x.umod y

/-- Leading zeros and the ones of the low n bits; trailing zeros. -/
def clzN (n v : Nat) : Nat := ((List.range n).find? (fun i => bit v (n - 1 - i))).getD n
def ctzN (n v : Nat) : Nat := ((List.range n).find? (fun i => bit v i)).getD n
def cpopN (n v : Nat) : Nat := ((List.range n).filter (fun i => bit v i)).length

def orcB (v : DWord) : DWord :=
  BitVec.ofNat 64 ((List.range 8).foldl (fun s i => if bits v.toNat (8 * i) 8 = 0 then s else s + 255 * 2 ^ (8 * i)) 0)
def rev8 (v : DWord) : DWord := BitVec.ofNat 64 (beNat (leBytes 8 v.toNat))

/-- OP: funct7, funct3, the rs2 field. -/
def rvOp (f7 f3 : Nat) (x y : DWord) : Option DWord :=
  let sh := y.toNat % 64
  match f7, f3 with
  | 0, 0 => some (x + y)
  | 0, 1 => some (x <<< sh)
  | 0, 2 => some (dwOf (x.slt y))
  | 0, 3 => some (dwOf (x.ult y))
  | 0, 4 => some (x ^^^ y)
  | 0, 5 => some (x >>> sh)
  | 0, 6 => some (x ||| y)
  | 0, 7 => some (x &&& y)
  | 0x20, 0 => some (x - y)
  | 0x20, 4 => some (~~~(x ^^^ y))
  | 0x20, 5 => some (x.sshiftRight sh)
  | 0x20, 6 => some (x ||| ~~~y)
  | 0x20, 7 => some (x &&& ~~~y)
  | 1, 0 => some (x * y)
  | 1, 1 => some (BitVec.ofInt 64 (asr (x.toInt * y.toInt) 64))
  | 1, 2 => some (BitVec.ofInt 64 (asr (x.toInt * (y.toNat : Int)) 64))
  | 1, 3 => some (BitVec.ofNat 64 (x.toNat * y.toNat / 2 ^ 64))
  | 1, 4 => some (divS x y)
  | 1, 5 => some (divU x y)
  | 1, 6 => some (remS x y)
  | 1, 7 => some (remU x y)
  | 0x10, 2 => some ((x <<< 1) + y)
  | 0x10, 4 => some ((x <<< 2) + y)
  | 0x10, 6 => some ((x <<< 3) + y)
  | 5, 4 => some (if x.slt y then x else y)
  | 5, 5 => some (if x.ult y then x else y)
  | 5, 6 => some (if x.slt y then y else x)
  | 5, 7 => some (if x.ult y then y else x)
  | 0x30, 1 => some (x.rotateLeft sh)
  | 0x30, 5 => some (x.rotateRight sh)
  | 0x24, 1 => some (x &&& ~~~((1 : DWord) <<< sh))
  | 0x24, 5 => some ((x >>> sh) &&& 1)
  | 0x34, 1 => some (x ^^^ ((1 : DWord) <<< sh))
  | 0x14, 1 => some (x ||| ((1 : DWord) <<< sh))
  | 7, 5 => some (if y = 0 then 0 else x)
  | 7, 7 => some (if y = 0 then x else 0)
  | _, _ => none

/-- OP-32. -/
def rvOpW (f7 f3 rs2 : Nat) (x y : DWord) : Option DWord :=
  let a := lo32 x
  let c := lo32 y
  let sh := y.toNat % 32
  let s := fun (v : BitVec 32) => some (v.signExtend 64)
  let u : DWord := a.setWidth 64
  match f7, f3 with
  | 0, 0 => s (a + c)
  | 0, 1 => s (a <<< sh)
  | 0, 5 => s (a >>> sh)
  | 0x20, 0 => s (a - c)
  | 0x20, 5 => s (a.sshiftRight sh)
  | 1, 0 => s (a * c)
  | 1, 4 => s (divS a c)
  | 1, 5 => s (divU a c)
  | 1, 6 => s (remS a c)
  | 1, 7 => s (remU a c)
  | 4, 0 => some (u + y)
  | 4, 4 => if rs2 = 0 then some (BitVec.ofNat 64 (x.toNat % 65536)) else none
  | 0x10, 2 => some ((u <<< 1) + y)
  | 0x10, 4 => some ((u <<< 2) + y)
  | 0x10, 6 => some ((u <<< 3) + y)
  | 0x30, 1 => s (a.rotateLeft sh)
  | 0x30, 5 => s (a.rotateRight sh)
  | _, _ => none

/-- OP-IMM: the immediate as its 12 bits. -/
def rvOpI (f3 imm : Nat) (x : DWord) : Option DWord :=
  let v : DWord := BitVec.ofInt 64 (sgn 12 imm)
  let sh := imm % 64
  match f3 with
  | 0 => some (x + v)
  | 2 => some (dwOf (x.slt v))
  | 3 => some (dwOf (x.ult v))
  | 4 => some (x ^^^ v)
  | 6 => some (x ||| v)
  | 7 => some (x &&& v)
  | 1 =>
    match imm / 64 with
    | 0 => some (x <<< sh)
    | 0x12 => some (x &&& ~~~((1 : DWord) <<< sh))
    | 0x1A => some (x ^^^ ((1 : DWord) <<< sh))
    | 0x0A => some (x ||| ((1 : DWord) <<< sh))
    | 0x18 =>
      match sh with
      | 0 => some (BitVec.ofNat 64 (clzN 64 x.toNat))
      | 1 => some (BitVec.ofNat 64 (ctzN 64 x.toNat))
      | 2 => some (BitVec.ofNat 64 (cpopN 64 x.toNat))
      | 4 => some ((x.setWidth 8).signExtend 64)
      | 5 => some ((x.setWidth 16).signExtend 64)
      | _ => none
    | _ => none
  | _ =>
    match imm / 64 with
    | 0 => some (x >>> sh)
    | 0x10 => some (x.sshiftRight sh)
    | 0x18 => some (x.rotateRight sh)
    | 0x12 => some ((x >>> sh) &&& 1)
    | 0x0A => if sh = 7 then some (orcB x) else none
    | 0x1A => if sh = 0x38 then some (rev8 x) else none
    | _ => none

/-- OP-IMM-32. -/
def rvOpIW (f3 imm : Nat) (x : DWord) : Option DWord :=
  let a := lo32 x
  let sh := imm % 32
  let s := fun (v : BitVec 32) => some (v.signExtend 64)
  match f3, imm / 32 with
  | 0, _ => some (wExt (x + BitVec.ofInt 64 (sgn 12 imm)))
  | 1, 0 => s (a <<< sh)
  | 1, 0x30 =>
    match sh with
    | 0 => some (BitVec.ofNat 64 (clzN 32 a.toNat))
    | 1 => some (BitVec.ofNat 64 (ctzN 32 a.toNat))
    | 2 => some (BitVec.ofNat 64 (cpopN 32 a.toNat))
    | _ => none
  | 1, h => if h / 2 = 2 then some ((a.setWidth 64 : DWord) <<< (imm % 64)) else none
  | 5, 0 => s (a >>> sh)
  | 5, 0x20 => s (a.sshiftRight sh)
  | 5, 0x30 => s (a.rotateRight sh)
  | _, _ => none

/-! One instruction -/

/-- What an instruction does: an exception with mtval, which the spec leaves open where none is given; a change of the core and
its pc; or a change of the block. -/
inductive RvStep
  | trap (cause : Nat) (tval : Option DWord)
  | core (k : Core)
  | block (b : Block)
  deriving DecidableEq

/-- The illegal-instruction exception. -/
def rvIllegal : RvStep := .trap 2 none

/-- A 32-bit instruction's fields. -/
def iRd (w : Nat) : Nat := bits w 7 5
def iF3 (w : Nat) : Nat := bits w 12 3
def iRs1 (w : Nat) : Nat := bits w 15 5
def iRs2 (w : Nat) : Nat := bits w 20 5
def iF7 (w : Nat) : Nat := bits w 25 7
def iImm (w : Nat) : Nat := bits w 20 12
def immS (w : Nat) : DWord := BitVec.ofInt 64 (sgn 12 (bits w 25 7 * 32 + bits w 7 5))
def immB (w : Nat) : DWord :=
  BitVec.ofInt 64 (sgn 13 (bits w 31 1 * 4096 + bits w 7 1 * 2048 + bits w 25 6 * 32 + bits w 8 4 * 2))
def immJ (w : Nat) : DWord :=
  BitVec.ofInt 64 (sgn 21 (bits w 31 1 * 2 ^ 20 + bits w 12 8 * 4096 + bits w 20 1 * 2048 + bits w 21 10 * 2))
def immU (w : Nat) : DWord := BitVec.ofInt 64 (sgn 32 (w / 4096 * 4096))

/-- A result in rd after an issue of n cycles and a latency l; pc moves on by len. -/
def Core.done (k : Core) (len n l : Nat) (srcs : List Nat) (rd : Nat) (v : DWord) : RvStep :=
  let k := (k.wx rd v).spend n l srcs (if rd = 0 then none else some rd)
  .core { k with pc := k.pc + BitVec.ofNat 64 len }

/-- An option that is illegal where none. -/
def Core.doneIf (k : Core) (len n l : Nat) (srcs : List Nat) (rd : Nat) : Option DWord → RvStep
  | some v => k.done len n l srcs rd v
  | none => rvIllegal

/-- A jump to an address, with the link in rd. -/
def Core.jump (k : Core) (len : Nat) (srcs : List Nat) (rd : Nat) (target : DWord) : RvStep :=
  let k' := (k.wx rd (k.pc + BitVec.ofNat 64 len)).spend 3 1 srcs (if rd = 0 then none else some rd)
  .core { k' with pc := target &&& ~~~1 }

/-- Bytes that a load width reads, by funct3. -/
def loadLen (f3 : Nat) : Nat := 2 ^ (f3 % 4)

/-- A value of n bytes as a load extends it. -/
def loadExt (f3 v : Nat) : DWord :=
  if f3 < 4 then BitVec.ofInt 64 (sgn (8 * loadLen f3) v) else BitVec.ofNat 64 v

/-- A load into an integer register, or into f[d] where fp. -/
def Block.rvLoad (b : Block) (c : Nat) (k : Core) (len f3 rd rs1 : Nat) (a : DWord) (fp : Bool) : RvStep :=
  let n := loadLen f3
  match k.place c a.toNat n .load false with
  | .inl e => .trap e (some a)
  | .inr (sp, o) =>
    let v := b.loadNat sp o n
    let l := if a.toNat % n = 0 then 2 else 3
    if fp then
      let k := (k.wf rd (BitVec.ofNat 64 (if n = 4 then v + (2 ^ 32 - 1) * 2 ^ 32 else v))).spend 1 l [rs1] (some (32 + rd))
      .core { k with pc := k.pc + BitVec.ofNat 64 len }
    else k.done len 1 l [rs1] rd (loadExt f3 v)

/-- A store of n bytes. -/
def Block.rvStore (b : Block) (c : Nat) (k : Core) (len n : Nat) (srcs : List Nat) (a v : DWord) : RvStep :=
  match k.place c a.toNat n .store false with
  | .inl e => .trap e (some a)
  | .inr (sp, o) =>
    let k := k.spend (if a.toNat % n = 0 then 1 else 2) 1 srcs none
    .block ((b.storeNat sp o n v.toNat).setCore c { k with pc := k.pc + BitVec.ofNat 64 len })

/-- The operation of an AMO on an old and a register value of 32 or 64 bits. -/
def amoOp {w : Nat} (f5 : Nat) (old v : BitVec w) : Option (BitVec w) :=
  match f5 with
  | 0 => some (old + v)
  | 1 => some v
  | 4 => some (old ^^^ v)
  | 8 => some (old ||| v)
  | 12 => some (old &&& v)
  | 16 => some (if old.slt v then old else v)
  | 20 => some (if old.slt v then v else old)
  | 24 => some (if old.ult v then old else v)
  | 28 => some (if old.ult v then v else old)
  | _ => none

/-- LR, SC and the AMOs (R327). -/
def Block.rvAmo (b : Block) (c : Nat) (k : Core) (len w : Nat) : RvStep :=
  let f3 := iF3 w
  let f5 := bits w 27 5
  let n := loadLen f3
  let a := k.rx (iRs1 w)
  let v := k.rx (iRs2 w)
  let off := a.toNat - 0x10000
  let next := fun (k : Core) => { k with pc := k.pc + BitVec.ofNat 64 len }
  let ext := fun (x : Nat) => BitVec.ofInt 64 (sgn (8 * n) x)
  if (f3 ≠ 2 ∧ f3 ≠ 3) ∨ (f5 = 2 ∧ iRs2 w ≠ 0) then rvIllegal
  else if f5 ≠ 2 ∧ f5 ≠ 3 ∧ (amoOp f5 v v).isNone then rvIllegal
  else if a.toNat % n ≠ 0 then .trap 6 (some a)
  else if a.toNat < 0x10000 ∨ 0x20000 < a.toNat + n then .trap 7 (some a)
  else if (f5 ≠ 3 ∧ k.pmpOk a.toNat n .load = false) ∨ (f5 ≠ 2 ∧ k.pmpOk a.toNat n .store = false) then .trap 7 (some a)
  else
    let old := b.loadNat (.dtcm c) off n
    let k' := fun (x : DWord) => next ((k.wx (iRd w) x).spend 3 3 [iRs1 w, iRs2 w] (if iRd w = 0 then none else some (iRd w)))
    if f5 = 2 then .core { k' (ext old) with resv := some off }
    else if f5 = 3 then
      let ok := match k.resv with | some r => decide (r ≤ off) && decide (off + n ≤ r + 8) | none => false
      let k'' := { k' (dwOf (!ok)) with resv := none }
      .block ((if ok then b.storeNat (.dtcm c) off n v.toNat else b).setCore c k'')
    else
      let new := if n = 4 then ((amoOp f5 (BitVec.ofNat 32 old) (lo32 v)).getD 0).toNat else ((amoOp f5 (BitVec.ofNat 64 old) v).getD 0).toNat
      .block ((b.storeNat (.dtcm c) off n new).setCore c (k' (ext old)))

/-! CSRs (R331, R342) -/

/-- The value of a CSR that user mode reads. -/
def Core.csr (k : Core) (a : Nat) : Option Nat :=
  match a with
  | 0x001 => some (k.fcsr % 32)
  | 0x002 => some (k.fcsr / 32 % 8)
  | 0x003 => some (k.fcsr % 256)
  | 0xC01 => some k.time
  | 0x800 => some k.gstart
  | 0x801 => some k.sat
  | _ => none

/-- A machine-mode CSR that reads a constant (R325, R331): misa, mvendorid, marchid, mimpid, mhartid, mcounteren. Only the monitor reads
them; user mode takes the illegal-instruction exception. -/
def machineCsr (core a : Nat) : Option Nat :=
  match a with
  | 0x301 => some (2 ^ 63 + 2 ^ 0 + 2 ^ 2 + 2 ^ 3 + 2 ^ 5 + 2 ^ 8 + 2 ^ 12 + 2 ^ 20 + 2 ^ 23)
  | 0xF11 => some 0
  | 0xF12 => some 0
  | 0xF13 => some 1
  | 0xF14 => some core
  | 0x306 => some 2
  | _ => none

/-- A CSR written. -/
def Core.wcsr (k : Core) (a v : Nat) : Core :=
  match a with
  | 0x001 => { k with fcsr := k.fcsr / 32 * 32 + v % 32, fs := 3 }
  | 0x002 => { k with fcsr := v % 8 * 32 + k.fcsr % 32, fs := 3 }
  | 0x003 => { k with fcsr := v % 256, fs := 3 }
  | 0x800 => { k with gstart := v % 16 }
  | 0x801 => { k with sat := v % 4 }
  | _ => k

/-- CSRRW, CSRRS, CSRRC and their immediate forms. -/
def Core.rvCsr (k : Core) (len w : Nat) : RvStep :=
  let a := iImm w
  let f3 := iF3 w
  let src := if 4 < f3 then iRs1 w else (k.rx (iRs1 w)).toNat
  let writes := f3 % 4 == 1 || iRs1 w != 0
  match k.csr a with
  | none => rvIllegal
  | some old =>
    if writes && 0xC00 ≤ a then rvIllegal
    else
      let new := match f3 % 4 with | 1 => src | 2 => old ||| src | _ => old - (old &&& src)
      let k := if writes then k.wcsr a new else k
      k.done len (if writes && (a == 2 || a == 3) then 4 else 2) 2 (if 4 < f3 then [] else [iRs1 w]) (iRd w) (BitVec.ofNat 64 old)

/-! Floating point -/

/-- A register read in a format: a value of binary32 that is not NaN-boxed reads as the canonical NaN. -/
def Core.fpBits (k : Core) (f : Fmt) (r : Nat) : Nat :=
  let v := (k.rf r).toNat
  if f = fS then (if v / 2 ^ 32 = 2 ^ 32 - 1 then v % 2 ^ 32 else fS.nan) else v

/-- A result in f[rd] with its flags. -/
def Core.fpDone (k : Core) (len n l : Nat) (srcs : List Nat) (f : Fmt) (rd : Nat) (r : Nat × Nat) : RvStep :=
  let v := if f = fS then r.1 + (2 ^ 32 - 1) * 2 ^ 32 else r.1
  let k := (k.wf rd (BitVec.ofNat 64 v)).spend n l srcs (some (32 + rd))
  .core { k with fcsr := k.fcsr ||| r.2, pc := k.pc + BitVec.ofNat 64 len }

/-- An integer result of a floating-point instruction, with its flags. -/
def Core.fpInt (k : Core) (len : Nat) (srcs : List Nat) (rd : Nat) (v : DWord) (flags : Nat) : RvStep :=
  let k := if flags = 0 then k else { k with fcsr := k.fcsr ||| flags, fs := 3 }
  k.done len 1 3 srcs rd v

/-- The rounding mode of an instruction; none where it is reserved. -/
def Core.rmOf (k : Core) (rm : Nat) : Option Nat :=
  let m := if rm = 7 then k.fcsr / 32 % 8 else rm
  if m < 5 then some m else none

/-- The format of bits 26:25. -/
def fmtOf (w : Nat) : Option Fmt := match bits w 25 2 with | 0 => some fS | 1 => some fD | _ => none

/-- OP-FP. -/
def Core.rvFp (k : Core) (len w : Nat) : RvStep :=
  match fmtOf w with
  | none => rvIllegal
  | some f =>
    let rd := iRd w
    let r1 := iRs1 w
    let r2 := iRs2 w
    let rm := iF3 w
    let x := k.fpBits f r1
    let y := k.fpBits f r2
    let a := f.read x
    let c := f.read y
    let two := [32 + r1, 32 + r2]
    let one := [32 + r1]
    let sbit := f.eb + f.mb
    let op := bits w 27 5
    let withRm := fun (g : Nat → RvStep) => match k.rmOf rm with | some m => g m | none => rvIllegal
    match op with
    | 0 => withRm (fun m => k.fpDone len 1 4 two f rd (f.add m a c))
    | 1 => withRm (fun m => k.fpDone len 1 4 two f rd (f.add m a (c.flip true)))
    | 2 => withRm (fun m => k.fpDone len 1 4 two f rd (f.mul m a c))
    | 3 => withRm (fun m => let n := if f = fS then 14 else 24; k.fpDone len n n two f rd (f.div m a c))
    | 11 => if r2 ≠ 0 then rvIllegal
      else withRm (fun m => let n := if f = fS then 16 else 28; k.fpDone len n n one f rd (f.sqrt m a))
    | 4 =>
      let s := bits y sbit 1
      let sgnBit := match rm with | 0 => some s | 1 => some (1 - s) | 2 => some ((s + bits x sbit 1) % 2) | _ => none
      match sgnBit with
      | some s => k.fpDone len 1 3 two f rd (x % 2 ^ sbit + s * 2 ^ sbit, 0)
      | none => rvIllegal
    | 5 => if rm < 2 then k.fpDone len 1 3 two f rd (f.minMax (rm == 1) x y) else rvIllegal
    | 8 =>
      -- FCVT between the formats
      let g := if f = fS then fD else fS
      if r2 ≠ (if f = fS then 1 else 0) then rvIllegal
      else withRm (fun m => k.fpDone len 1 3 one f rd (f.convert m (g.read (k.fpBits g r1))))
    | 20 => if rm < 3 then let r := fpCmp rm a c; k.fpInt len two rd (BitVec.ofNat 64 r.1) r.2 else rvIllegal
    | 24 =>
      withRm (fun m => match r2 with
        | 0 => let r := fpToInt m true 32 a; k.fpInt len one rd (BitVec.ofInt 64 r.1) r.2
        | 1 => let r := fpToInt m false 32 a; k.fpInt len one rd (wExt (BitVec.ofInt 64 r.1)) r.2
        | 2 => let r := fpToInt m true 64 a; k.fpInt len one rd (BitVec.ofInt 64 r.1) r.2
        | 3 => let r := fpToInt m false 64 a; k.fpInt len one rd (BitVec.ofInt 64 r.1) r.2
        | _ => rvIllegal)
    | 26 =>
      let v := k.rx r1
      withRm (fun m => match r2 with
        | 0 => k.fpDone len 1 3 [r1] f rd (f.ofInt m (sgn 32 v.toNat))
        | 1 => k.fpDone len 1 3 [r1] f rd (f.ofInt m ((v.toNat % 2 ^ 32 : Nat) : Int))
        | 2 => k.fpDone len 1 3 [r1] f rd (f.ofInt m v.toInt)
        | 3 => k.fpDone len 1 3 [r1] f rd (f.ofInt m ((v.toNat : Nat) : Int))
        | _ => rvIllegal)
    | 28 =>
      if r2 ≠ 0 then rvIllegal
      else match rm with
        | 0 => k.fpInt len one rd (if f = fS then wExt (k.rf r1) else k.rf r1) 0
        | 1 => k.fpInt len one rd (BitVec.ofNat 64 (f.classOf x)) 0
        | _ => rvIllegal
    | 30 => if r2 ≠ 0 ∨ rm ≠ 0 then rvIllegal else k.fpDone len 1 3 [r1] f rd ((k.rx r1).toNat % 2 ^ f.width, 0)
    | _ => rvIllegal

/-- FMADD, FMSUB, FNMSUB, FNMADD by bits 3:2 of the opcode. -/
def Core.rvFma (k : Core) (len w : Nat) : RvStep :=
  match fmtOf w, k.rmOf (iF3 w) with
  | some f, some m =>
    let r3 := bits w 27 5
    let rdv := fun (r : Nat) => f.read (k.fpBits f r)
    let o := bits w 2 2
    let a := (rdv (iRs1 w)).flip (o == 2 || o == 3)
    let d := (rdv r3).flip (o == 1 || o == 3)
    k.fpDone len 1 4 [32 + iRs1 w, 32 + iRs2 w, 32 + r3] f (iRd w) (f.fma m a (rdv (iRs2 w)) d)
  | _, _ => rvIllegal

/-! Xgfrond (R339) -/

/-- The Xgfrond instruction of a word of opcode 0b0001011. -/
def xgOf (w : Nat) : Option XgOp :=
  let z2 := iRs2 w == 0
  let zd := iRd w == 0
  match iF3 w, iF7 w with
  | 0, 0 => some .qadd
  | 0, 1 => some .qsub
  | 0, 2 => some .qmul
  | 0, 3 => if z2 then some .qneg else none
  | 0, 4 => some .qshl
  | 0, 5 => some .qrshr
  | 1, 0 => some .cmul
  | 1, 1 => some .cmulc
  | 1, 2 => if zd then some .cmac else none
  | 1, 3 => if zd then some .cmacc else none
  | 1, 4 => if z2 then some .caccrd else none
  | 1, 5 => if z2 && zd && iRs1 w == 0 then some .cacclr else none
  | 2, 0 => if z2 then some .cmag else none
  | 2, 1 => if z2 then some .cang else none
  | _, _ => none

/-! Dispatch -/

/-- One instruction word of core c, whose code takes len bytes. -/
def Block.rvExec (b : Block) (c : Nat) (k : Core) (len w : Nat) : RvStep :=
  let rd := iRd w
  let f3 := iF3 w
  let r1 := iRs1 w
  let r2 := iRs2 w
  let x := k.rx r1
  let y := k.rx r2
  let both := [r1, r2]
  match w % 128 with
  | 0x37 => k.done len 1 1 [] rd (immU w)
  | 0x17 => k.done len 1 1 [] rd (k.pc + immU w)
  | 0x6F => k.jump len [] rd (k.pc + immJ w)
  | 0x67 => if f3 ≠ 0 then rvIllegal else k.jump len [r1] rd (x + BitVec.ofInt 64 (sgn 12 (iImm w)))
  | 0x63 =>
    let t := match f3 with
      | 0 => some (x == y) | 1 => some (x != y) | 4 => some (x.slt y) | 5 => some (!x.slt y)
      | 6 => some (x.ult y) | 7 => some (!x.ult y) | _ => none
    match t with
    | none => rvIllegal
    | some taken =>
      let k := k.spend (if taken then 3 else 1) 1 both none
      .core { k with pc := if taken then k.pc + immB w else k.pc + BitVec.ofNat 64 len }
  | 0x03 => if f3 = 7 then rvIllegal else b.rvLoad c k len f3 rd r1 (x + BitVec.ofInt 64 (sgn 12 (iImm w))) false
  | 0x07 => if f3 = 2 ∨ f3 = 3 then b.rvLoad c k len f3 rd r1 (x + BitVec.ofInt 64 (sgn 12 (iImm w))) true else rvIllegal
  | 0x23 => if f3 < 4 then b.rvStore c k len (loadLen f3) both (x + immS w) y else rvIllegal
  | 0x27 => if f3 = 2 ∨ f3 = 3 then b.rvStore c k len (loadLen f3) [r1, 32 + r2] (x + immS w) (k.rf r2) else rvIllegal
  | 0x13 => k.doneIf len 1 1 [r1] rd (rvOpI f3 (iImm w) x)
  | 0x1B => k.doneIf len 1 1 [r1] rd (rvOpIW f3 (iImm w) x)
  | 0x33 =>
    let m := iF7 w == 1
    k.doneIf len (if m && 4 ≤ f3 then 36 else 1) (if m then (if 4 ≤ f3 then 36 else 3) else 1) both rd (rvOp (iF7 w) f3 x y)
  | 0x3B =>
    let m := iF7 w == 1
    k.doneIf len (if m && 4 ≤ f3 then 20 else 1) (if m then (if 4 ≤ f3 then 20 else 3) else 1) both rd (rvOpW (iF7 w) f3 r2 x y)
  | 0x0F =>
    if f3 < 2 then
      let k := k.spend 1 1 [] none
      .core { k with pc := k.pc + BitVec.ofNat 64 len }
    else rvIllegal
  | 0x2F => b.rvAmo c k len w
  | 0x53 => k.rvFp len w
  | 0x43 | 0x47 | 0x4B | 0x4F => k.rvFma len w
  | 0x73 =>
    if f3 = 0 then
      if w = 0x00000073 then .block (b.ecall c)
      else if w = 0x00100073 then
        if b.on KEY_STATUS_DEBUG then .block ((b.setCore c { k with halted := true }).set (FRDc_STAT_STATE c) 6) else .trap 3 none
      else rvIllegal
    else if f3 = 4 then rvIllegal
    else k.rvCsr len w
  | 0x0B =>
    match xgOf w with
    | some o => .core (o.step k rd r1 r2)
    | none => rvIllegal
  | 0x2B => if f3 = 0 ∧ bits w 29 3 = 0 then .block (b.gld16 c rd r1 r2 (bits w 25 4 + 1)) else rvIllegal
  | _ => rvIllegal

/-- The instruction that core c fetches at its pc: its word and its length, or the exception of the fetch. -/
def Block.rvFetch (b : Block) (c : Nat) (k : Core) : Sum (Nat × DWord) (Option Nat × Nat) :=
  match k.place c k.pc.toNat 2 .fetch true with
  | .inl e => .inl (e, k.pc)
  | .inr (sp, o) =>
    let h := b.loadNat sp o 2
    if h % 4 ≠ 3 then .inr (expandC h, 2)
    else match k.place c (k.pc.toNat + 2) 2 .fetch true with
      | .inl e => .inl (e, k.pc + 2)
      | .inr (sp', o') => .inr (some (h + 65536 * b.loadNat sp' o' 2), 4)

/-- R325, R343: core c executes the instruction at its pc; an exception is a task fault. -/
def execRiscvInstruction (c : Nat) (s : State) : Host.Outcome State Fault Refusal :=
  runUnit ⟨.frond, c⟩ (fun b =>
    if 128 ≤ c ∨ b.running c = false then b
    else
      let k := b.coreSt c
      match b.rvFetch c k with
      | .inl (e, a) => b.taskFault c e a
      | .inr (none, _) => let r := b.draw (2 ^ 64); r.2.taskFault c 2 (BitVec.ofNat 64 r.1)
      | .inr (some w, len) =>
        match b.rvExec c k len w with
        | .trap e (some a) => b.taskFault c e a
        | .trap e none => let r := b.draw (2 ^ 64); r.2.taskFault c e (BitVec.ofNat 64 r.1)
        | .core k => b.setCore c k
        | .block b => b) s

end Sys2Proof.Machine
end

