-- ==== Sys2Proof/Machine/Ticks.lean ====
section
/-! DEFINITION. What the passing of time in the time base starts: base ticks (R110, R111), comparators (R113) and pulses
(R114). -/

namespace Sys2Proof.Machine

open Sys2Proof Sys2Proof.Reg

/-! Base ticks (R110) -/

/-- The flip of tick n: on own decisions, or to wait for the active module's (R357, R440). -/
def Block.tickFlip (b : Block) (n : Nat) : Block :=
  if b.following then
    ((b.forwardChanges n).modRope (fun p => { p with waits := p.waits ++ [(16, n, b.xtal)] })).tryFlips
  else
    let b := b.flipOwn n
    let b := b.doIf (b.role == rACTIVE) (fun b => b.ropeSay 5 (b.ginLedger n))
    (b.ginFence n).ledgerRun

/-- What the issue of tick n does: the image flips, the timer block follows, a handover and the actions of instances fall due,
and Crozier receives the number (R111, R357, R369, R452, R458). -/
def Block.issueTick (b : Block) (n : Nat) : Block :=
  let b := ((b.joinGap b.lastTick n).raiseIf (decide (b.lastTick + 1 < n)) 56).wr64 TIM_TICKNUM_LO n
  let b := b.doIf (b.released .rhz) (fun b => (b.timersClear.tickFlip n).timersTick)
  let b := ((b.doIf (b.role == rSTANDBY) Block.compareAll).pruneDigests n).joinTickCapture n
  let b := (b.tickActions n (tickNs b.tickRate n)).handoverTick n
  b.doIf (b.released .crz) (fun b => b.modCrz (fun c => { c with ticks := c.ticks ++ [n] }))

/-- R110: TIM_NOW passes the next tick boundary, or has passed several. -/
def execTickIssue (s : State) : Host.Outcome State Fault Refusal :=
  runAt .tim (fun b =>
    let b := b.advanceTo (tickNs b.tickRate (b.lastTick + 1))
    let n := latestTick b.tickRate b.ns
    if b.lastTick < n then b.issueTick n else b) s

/-! Comparators (R113) -/

/-- R113: armed comparator n reaches its target and fires. -/
def execComparatorFire (n : Nat) (s : State) : Host.Outcome State Fault Refusal :=
  runAt .tim (fun b =>
    if 64 ≤ n ∨ b.on (TIM_CMPn_CTRL_ARM n) = false then b
    else
      let t := b.extend40 (b.cmpTarget n)
      let b := b.advanceTo t
      let b := ((b.set (TIM_CMPn_CTRL_ARM n) 0).set (TIM_CMPn_CTRL_FIRED n) 1).setIf (decide (t + 8 < b.ns)) (TIM_CMPn_CTRL_LATE n) 1
      let b := b.raiseIf (b.on (TIM_CMPn_CTRL_EVT n)) (if n < 32 then 57 else 58)
      let b := b.doIf (b.on (TIM_CMPn_CTRL_ACQ n)) (fun b => b.acqSource 4 n (t * 65536) false)
      let g := b.get (TIM_CMPn_CTRL_PG n)
      b.doIf (b.on (TIM_CMPn_CTRL_PG_START n) && b.on (TIM_PGg_CTRL_EN g) &&
          (!b.on (TIM_PGg_CTRL_RUNNING g) || b.tim.pgWait.get (fun _ => false) g))
        (fun b => b.pgStart g (b.extend40 (b.tim.pgTaken.get (fun _ => 0) n) * 65536) 8)) s

/-! Pulses (R114) -/

/-- R114: generator g comes to its next pulse, which it produces or suppresses. -/
def execPgPulse (g : Nat) (s : State) : Host.Outcome State Fault Refusal :=
  runAt .tim (fun b =>
    let j := b.tim.pgNext.get (fun _ => 0) g
    if 8 ≤ g ∨ b.on (TIM_PGg_CTRL_EN g) = false ∨ b.on (TIM_PGg_CTRL_RUNNING g) = false ∨ b.tim.pgWait.get (fun _ => false) g = true ∨
        (b.pgCount g ≠ 0 ∧ b.pgCount g ≤ j) then b
    else
      let t := b.tim.pgT0.get (fun _ => 0) g + j * b.pgPeriod g
      let b := (b.advanceTo ((t + 65535) / 65536)).modTim (fun x => { x with pgNext := (g, j + 1) :: x.pgNext })
      if b.on (TIM_PGg_CTRL_SYNC_ONLY g) ∧ (b.syncState = timFREE ∨ b.syncState = timEXCEEDED) then b
      else
        let w := (b.rd (TIM_PGg_WIDTH g)).toNat
        let out := b.get (TIM_PGg_CTRL_OUT g)
        let b := b.modTim (fun x => { x with pgEnd := (g, t + w * 65536) :: x.pgEnd })
        if out = 6 then b.acqSource 5 0 t false
        else if 1 ≤ out ∧ out ≤ 5 then b.emit (.pulse out t w (out == 1 && !b.on (TIM_PGg_CTRL_POL g)))
        else b) s

end Sys2Proof.Machine
end

