-- ==== Sys2Proof/Machine/Wide.lean ====
section
/-! DEFINITION. 64-bit accesses to register space (R62, R67): as one access where R64 or R66 governs the pair, else as two 32-bit
accesses, the lower first, each with all the effects of its own. -/

namespace Sys2Proof.Machine

open Sys2Proof Sys2Proof.Reg

/-- A command applied where a bit of the written word is set. -/
def Block.viaIf (b : Block) (c : Bool) (f : State → Host.Outcome State Fault Refusal) : Block := if c then b.via f else b

/-- The key store's and the flash manager's commands by OP (R635, R650); a device answers without an error. -/
def keyOp (n : Nat) (v : Word) : State → Host.Outcome State Fault Refusal :=
  match n with
  | 1 => execKeyWrite v | 2 => execDerive v | 3 => execInvalidate v | 4 => execKeyRead v | 6 => execWipe v | 7 => execEnrol v
  | 8 => execLcAdvance v | 9 => execSvnRaise v | 10 => execAnchorRevoke v | 11 => execDbgArm v | 12 => execDbgDisarm v
  | _ => .next

def imgOp (n : Nat) (v : Word) : State → Host.Outcome State Fault Refusal :=
  match n with
  | 1 => execErase v | 2 => execProgram v false | 3 => execVerify v false | 4 => execActivate v false | 5 => execLoadSwap v
  | 6 => execImgRead v false | _ => .next

/-- The registers whose writes start commands, by the offset of their first: what a write of v by a requester to the register with
indices i and j does, the other fields having taken their values. -/
def softCmds : List (Nat × (Requester → Nat → Nat → Word → Block → Block)) :=
  [(EVT_PEND_k 0, fun _ i _ v b => b.via (execEvtPendClear i v 0)),
   (RIDGE_RQq_CONS 0, fun _ i _ v b => b.via (execRidgeRqConsWrite i v)),
   (RIDGE_RQq_CFG 0, fun _ i _ v b => b.via (execRidgeQueueEnable false i v)),
   (RIDGE_TQq_CFG 0, fun _ i _ v b => b.via (execRidgeQueueEnable true i v)),
   (RIDGE_TQq_PROD 0, fun _ i _ v b => b.via (execRidgeTqProdWrite i v)),
   (TIM_TICK, fun _ _ _ v b => b.via (execTickRateWrite v)),
   (TIM_FREQ_ADJ, fun _ _ _ v b => b.via (execFreqAdjWrite v)),
   (TIM_CMPn_CTRL 0, fun _ i _ v b =>
     if bit v.toNat 30 then b.via (execCmpDisarm i) else b.viaIf (bit v.toNat 31) (execCmpArm i v)),
   (TIM_CTRL, fun _ _ _ v b => b.viaIf (bit v.toNat 7) execStepCmd),
   (TIM_OFFSET_IN, fun _ _ _ v b => b.via (execOffsetSubmit v)),
   (PRTp_CFG 0, fun _ i _ v b => if bit v.toNat 0 then b.via (execPortEnable i v) else b.via (execPortDisable i false)),
   (STNs_CFG 0, fun _ i _ v b => if bit v.toNat 0 then b.via (execPortEnable (16 + i) v) else b.via (execPortDisable (16 + i) false)),
   (SWC_GATE, fun _ _ _ v b => b.via (execGateForceCloseWrite (bit v.toNat 0))),
   (SWC_LAGk_BUCKETw 0 0, fun _ i j v b => b.via (execLagBucketWrite i j v)),
   (SWC_MIRm_CONS 0, fun _ i _ v b => b.via (execMirrorConsWrite i v)),
   (SWC_FDB_CMD, fun _ _ _ v b => b.via (match bits v.toNat 0 2 with
     | 0 => execFdbRead | 1 => execFdbWrite | 2 => execFdbDelete | _ => execFdbFlushLearned)),
   (SWC_PUB_CTRL, fun _ _ _ v b => b.viaIf (bit v.toNat 0) execPubResend),
   (SWC_PUBb_CFG 0, fun _ i _ v b => b.via (execPubBlockEnable i v)),
   (STNs_EEE_TW 0, fun _ i _ v b => b.via (execEeeTwWrite i v)),
   (RHZ_SLOTs_CFG 0, fun _ i _ v b => if bit v.toNat 31 then b.via (execSlotEnable i v) else b.via (execSlotDisable i)),
   (RHZ_GRPg_CFG 0, fun _ i _ v b => if bit v.toNat 31 then b.via (execGroupEnable i v) else b.via (execGroupDisable i)),
   (RHZ_CTRL, fun _ _ _ v b => b.via (execSimModeWrite (bit v.toNat 0))),
   (RHZ_GIN_POST_CMD, fun _ _ _ v b => b.viaIf (bit v.toNat 30) (execGinPost v)),
   (RHZ_GSUBe_CFG 0, fun _ i _ v b => b.via (execGsubEnable i v)),
   (SOR_CHc_CFG 0, fun _ i _ v b => b.viaIf (bit v.toNat 31) (execChannelEnable i v)),
   (SOR_TRKt_CFG 0, fun _ i _ v b => b.via (execTrkGroupEnable i v)),
   (THRk_CFG 0, fun _ i _ v b => b.viaIf (bit v.toNat 31) (execComparatorEnable i v)),
   (THR_STICKYw 0, fun _ i _ v b => b.via (execStickyClear i v)),
   (THRk_STAT 0, fun _ i _ v b => b.viaIf (bit v.toNat 0) (execStickyClear (i / 32) (BitVec.ofNat 32 (2 ^ (i % 32))))),
   (CRZ_CTRL, fun who _ _ v b => b.via (execTblEnWrite who (bits v.toNat 0 4))),
   (CRZ_SWAP_CTRL, fun _ _ _ v b => if bit v.toNat 30 then b.via execSwapCancel else b.viaIf (bit v.toNat 31) (execSwapArm v)),
   (CRZ_DESC_CMD, fun _ _ _ v b => b.via (if bit v.toNat 0 then execDescWrite else execDescRead)),
   (FRD_TUFTt_CLK 0, fun _ i _ v b => b.via (execTuftFreqWrite i v)),
   (FRD_TUFTt_TCM_CTRL 0, fun _ i _ v b =>
     b.viaIf (bit v.toNat 28) (if bit v.toNat 27 then execTcmWrite i v else execTcmRead i v)),
   (ACQ_CAL, fun _ _ _ v b => b.viaIf (bit v.toNat 31) execCalNow),
   (ACQ_CSETs_CFG 0, fun _ i _ v b => if bit v.toNat 31 then b.via (execCsetEnable i v) else b.via (execCsetDisable i)),
   (ACQ_CSETs_CMD 0, fun _ i _ v b => (b.viaIf (bit v.toNat 31) (execForce i)).viaIf (bit v.toNat 30) (execRearm i)),
   (ACQ_CSETs_CONS 0, fun _ i _ v b => b.via (execAcqConsWrite i v)),
   (ROPE_CMD, fun _ _ _ v b =>
     (b.viaIf (bit v.toNat 0) (if bit v.toNat 2 then execDemoteForce else execDemote)).viaIf (bit v.toNat 1) execRopeJoinCmd),
   (HIF_ADMQ_CFG, fun _ _ _ v b => b.via (execAdmqEnable v)),
   (NRG_CTRL, fun _ _ _ v b => (b.viaIf (bit v.toNat 1) execBivEnter).viaIf (bit v.toNat 2) execBivExit),
   (NRG_SSM_SOCQ_SET, fun _ _ _ v b => b.viaIf (bit v.toNat 31) (execSocqSet v)),
   (AUXs_CFG 0, fun _ i _ v b => if bit v.toNat 31 then b.via (execAuxEnable i v) else b.via (execAuxDisable i)),
   (AUXs_CMD 0, fun _ i _ v b =>
     ((((b.viaIf (bit v.toNat 0) (execGoNormal i)).viaIf (bit v.toNat 1) (execGoListen i)).viaIf (bit v.toNat 2) (execSleep i)).viaIf
       (bit v.toNat 3) (execWake i)).viaIf (bit v.toNat 4) (execStay i)),
   (AUXs_FS 0, fun _ i _ v b => (b.viaIf (bit v.toNat 30) (execAuxFsClear i)).viaIf (bit v.toNat 31) (execAuxFsKick i)),
   (RST_CMD, fun who _ _ v b => if bit v.toNat 31 then b.via (execRstCmdCold who v) else b.viaIf (bit v.toNat 30) (execRstCmdWarm who v)),
   (RST_KICK, fun _ _ _ v b => b.via (execRstKick v)),
   (IMG_CMD, fun _ _ _ v b => b.viaIf (bit v.toNat 30) (imgOp (bits v.toNat 0 4) v)),
   (KEY_CMD, fun _ _ _ v b => (b.viaIf (bit v.toNat 22) execKeyClr).viaIf (bit v.toNat 30) (keyOp (bits v.toNat 23 4) v)),
   (CRN_CTRL, fun _ _ _ v b =>
     (if bit v.toNat 30 = b.on CRN_CTRL_FREEZE then b else b.via (execFreeze (bit v.toNat 30))).viaIf (bit v.toNat 29) execNote),
   (CRN_CONS, fun _ _ _ v b => b.via (execCrnConsWrite v)),
   (CRN_RETIRE, fun _ _ _ v b => b.viaIf (bit v.toNat 30) (execRetireCmd (bits v.toNat 0 12)))]

/-- The number of a station port's SA whose control register is at offset o of its row (R179). -/
def Block.saWrite (b : Block) (a : Nat) (v : Word) : Block :=
  match enableOf a v with
  | (some f, _) => if bit v.toNat 31 then f (0, b, ⟨a, 31, 1⟩) else b.set ⟨a, 31, 1⟩ 0
  | (none, _) => b

/-- One 32-bit write by a requester that reaches register space, with every effect of its own. -/
def Block.softWrite (who : Requester) (a : Nat) (v : Word) (b : Block) : Block :=
  match unitOf a with
  | none => b.rootErr who a ROOT_ERR_UNMAPPED
  | some u =>
    if b.member.has u = false ∨ listed a = false then b.rootErr who a ROOT_ERR_UNMAPPED
    else if a = u.hdr + 0xC then
      (b.via (execUnitQuiesceWrite who u.hdr (bit v.toNat 0))).viaIf (bit v.toNat 1) (execUnitResetRequest who u.hdr)
    else
      let b' := b.access a v
      if b.unitOpen a = false then b'
      else match rowOf a with
        | none => b'
        | some r =>
          if r.base = STNs_TXSAa_CTRL 0 0 ∨ r.base = STNs_RXSCc_SAa_CTRL 0 0 0 then b'.saWrite a v
          else match softCmds.find? (fun e => e.1 == r.base) with
            | none => b'
            | some e =>
              let ij := match r.dims with
                | (s, _) :: (t, _) :: _ => ((a - r.base) / s, (a - r.base) % s / t)
                | (s, _) :: _ => ((a - r.base) / s, 0)
                | [] => (0, 0)
              e.2 who ij.1 ij.2 v b'

/-- R62, R67: an aligned 64-bit access at addr. A pair that R64 or R66 governs is read in one snapshot or loaded at once; _FRAC and
_LO are read in one; any other pair is two 32-bit accesses. -/
def execCounter64Access (who : Requester) (addr : Nat) (write : Bool) (v : Nat) (s : State) : Host.Outcome State Fault Refusal :=
  run (fun b =>
    if b.reaches who = false ∨ addr % 8 ≠ 0 ∨ 0x8000000 ≤ addr then b
    else if write then
      if b.unitOpen addr = true ∧ loadLo addr = true then b.wr64 addr v
      else Block.softWrite who (addr + 4) (BitVec.ofNat 32 (v / 2 ^ 32)) (Block.softWrite who addr (BitVec.ofNat 32 v) b)
    else if b.unitRead addr = false then
      let r := b.readWord who addr
      let q := r.2.readWord who (addr + 4)
      q.2.answer (r.1 + 2 ^ 32 * q.1)
    else match snapLo addr, loadLo addr with
      | some frac, _ => (b.latchHi who addr frac).answer (b.live64 addr)
      | none, true => (b.latchHi who addr false).answer (b.live64 addr)
      | none, false =>
        if snapLo (addr + 4) = some true then
          (b.latchHi who (addr + 4) true).answer (b.liveFrac (addr + 4) + 2 ^ 32 * (b.live64 (addr + 4) % 2 ^ 32))
        else
          let r := b.readWord who addr
          let q := r.2.readWord who (addr + 4)
          q.2.answer (r.1 + 2 ^ 32 * q.1)) s

end Sys2Proof.Machine
end

