-- ==== Sys2Proof/Machine/Dispatch.lean ====
section
/-! DEFINITION. The meaning of each command, one arm per constructor of Instr. -/

namespace Sys2Proof.Machine

open Sys2Proof

def exec (i : Instr) (s : State) : Host.Outcome State Fault Refusal :=
  match i with
  | .registerWrite who addr v => Sys2Proof.Machine.execRegisterWrite who addr v s
  | .unmappedAccess who addr write => Sys2Proof.Machine.execUnmappedAccess who addr write s
  | .misalignedAccess who addr bytes write => Sys2Proof.Machine.execMisalignedAccess who addr bytes write s
  | .counterLoRead who addr => Sys2Proof.Machine.execCounterLoRead who addr s
  | .counterHiWrite who addr v => Sys2Proof.Machine.execCounterHiWrite who addr v s
  | .counterLoWrite who addr v => Sys2Proof.Machine.execCounterLoWrite who addr v s
  | .counter64Access who addr write v => Sys2Proof.Machine.execCounter64Access who addr write v s
  | .unitQuiesceWrite who hdr v => Sys2Proof.Machine.execUnitQuiesceWrite who hdr v s
  | .unitIdleReached hdr => Sys2Proof.Machine.execUnitIdleReached hdr s
  | .unitResetRequest who hdr => Sys2Proof.Machine.execUnitResetRequest who hdr s
  | .quiesceTimeout hdr => Sys2Proof.Machine.execQuiesceTimeout hdr s
  | .evtPendClear k v again => Sys2Proof.Machine.execEvtPendClear k v again s
  | .ridgeRqConsWrite q v => Sys2Proof.Machine.execRidgeRqConsWrite q v s
  | .ridgeQueueEnable tx q v => Sys2Proof.Machine.execRidgeQueueEnable tx q v s
  | .ridgeTqProdWrite q v => Sys2Proof.Machine.execRidgeTqProdWrite q v s
  | .ridgeTxDescriptor q coll => Sys2Proof.Machine.execRidgeTxDescriptor q coll s
  | .ridgeTsfPop => Sys2Proof.Machine.execRidgeTsfPop s
  | .tickIssue => Sys2Proof.Machine.execTickIssue s
  | .tickRateWrite v => Sys2Proof.Machine.execTickRateWrite v s
  | .offsetSubmit v => Sys2Proof.Machine.execOffsetSubmit v s
  | .stepCmd => Sys2Proof.Machine.execStepCmd s
  | .freqAdjWrite v => Sys2Proof.Machine.execFreqAdjWrite v s
  | .sourceWatchdogExpiry src => Sys2Proof.Machine.execSourceWatchdogExpiry src s
  | .ppsEdge rising => Sys2Proof.Machine.execPpsEdge rising s
  | .irigbFrame f => Sys2Proof.Machine.execIrigbFrame f s
  | .holdLimitExceeded => Sys2Proof.Machine.execHoldLimitExceeded s
  | .timebasePllLoss => Sys2Proof.Machine.execTimebasePllLoss s
  | .timebasePllRelock => Sys2Proof.Machine.execTimebasePllRelock s
  | .leapApply => Sys2Proof.Machine.execLeapApply s
  | .cmpArm n v => Sys2Proof.Machine.execCmpArm n v s
  | .cmpDisarm n => Sys2Proof.Machine.execCmpDisarm n s
  | .comparatorFire n => Sys2Proof.Machine.execComparatorFire n s
  | .pgStart g => Sys2Proof.Machine.execPgStart g s
  | .pgPulse g => Sys2Proof.Machine.execPgPulse g s
  | .pgTrainDone g => Sys2Proof.Machine.execPgTrainDone g s
  | .frameLaunch port => Sys2Proof.Machine.execFrameLaunch port s
  | .portEnable p v => Sys2Proof.Machine.execPortEnable p v s
  | .portDisable p receiving => Sys2Proof.Machine.execPortDisable p receiving s
  | .linkUp p speed eee => Sys2Proof.Machine.execLinkUp p speed eee s
  | .linkLoss p => Sys2Proof.Machine.execLinkLoss p s
  | .laneRetrain p => Sys2Proof.Machine.execLaneRetrain p s
  | .portFrameReceived p f => Sys2Proof.Machine.execPortFrameReceived p f s
  | .lpiReceived p => Sys2Proof.Machine.execLpiReceived p s
  | .nodeEntryForget p mac => Sys2Proof.Machine.execNodeEntryForget p mac s
  | .supervisionTx p => Sys2Proof.Machine.execSupervisionTx p s
  | .lanSilent p => Sys2Proof.Machine.execLanSilent p s
  | .switchForward => Sys2Proof.Machine.execSwitchForward s
  | .fdbEntryAge vid mac => Sys2Proof.Machine.execFdbEntryAge vid mac s
  | .fdbRead => Sys2Proof.Machine.execFdbRead s
  | .fdbWrite => Sys2Proof.Machine.execFdbWrite s
  | .fdbDelete => Sys2Proof.Machine.execFdbDelete s
  | .fdbFlushLearned => Sys2Proof.Machine.execFdbFlushLearned s
  | .egressFrameStart port => Sys2Proof.Machine.execEgressFrameStart port s
  | .egressFrameEnd port => Sys2Proof.Machine.execEgressFrameEnd port s
  | .lagBucketWrite k w v => Sys2Proof.Machine.execLagBucketWrite k w v s
  | .mirrorConsWrite m v => Sys2Proof.Machine.execMirrorConsWrite m v s
  | .gateForceCloseWrite v => Sys2Proof.Machine.execGateForceCloseWrite v s
  | .stationFrameReceived p f => Sys2Proof.Machine.execStationFrameReceived p f s
  | .eeeLpiEntry p => Sys2Proof.Machine.execEeeLpiEntry p s
  | .eeeWake p => Sys2Proof.Machine.execEeeWake p s
  | .eeeTwWrite p v => Sys2Proof.Machine.execEeeTwWrite p v s
  | .saEnable p sa v => Sys2Proof.Machine.execSaEnable p sa v s
  | .rhizoidSvFrame e => Sys2Proof.Machine.execRhizoidSvFrame e s
  | .slotEnable k v => Sys2Proof.Machine.execSlotEnable k v s
  | .slotDisable k => Sys2Proof.Machine.execSlotDisable k s
  | .groupEnable g v => Sys2Proof.Machine.execGroupEnable g v s
  | .groupDisable g => Sys2Proof.Machine.execGroupDisable g s
  | .simModeWrite v => Sys2Proof.Machine.execSimModeWrite v s
  | .instantRelease g => Sys2Proof.Machine.execInstantRelease g s
  | .sorusInstantDone g => Sys2Proof.Machine.execSorusInstantDone g s
  | .channelEnable c v => Sys2Proof.Machine.execChannelEnable c v s
  | .trkGroupEnable t v => Sys2Proof.Machine.execTrkGroupEnable t v s
  | .goldenVectorRun l ok again => Sys2Proof.Machine.execGoldenVectorRun l ok again s
  | .stickyClear w v => Sys2Proof.Machine.execStickyClear w v s
  | .thrStatRead who k => Sys2Proof.Machine.execThrStatRead who k s
  | .comparatorEnable k v => Sys2Proof.Machine.execComparatorEnable k v s
  | .instantMarker g m => Sys2Proof.Machine.execInstantMarker g m s
  | .crzTick => Sys2Proof.Machine.execCrzTick s
  | .taskStart t => Sys2Proof.Machine.execTaskStart t s
  | .holdLimitExpiry c => Sys2Proof.Machine.execHoldLimitExpiry c s
  | .taskExit c => Sys2Proof.Machine.execTaskExit c s
  | .commitComplete c => Sys2Proof.Machine.execCommitComplete c s
  | .budgetExpiry c => Sys2Proof.Machine.execBudgetExpiry c s
  | .taskAbort c => Sys2Proof.Machine.execTaskAbort c s
  | .leaseRenewal => Sys2Proof.Machine.execLeaseRenewal s
  | .swapArm v => Sys2Proof.Machine.execSwapArm v s
  | .swapCancel => Sys2Proof.Machine.execSwapCancel s
  | .descRead => Sys2Proof.Machine.execDescRead s
  | .descWrite => Sys2Proof.Machine.execDescWrite s
  | .tblEnWrite who v => Sys2Proof.Machine.execTblEnWrite who v s
  | .qadd c rd rs1 rs2 => Sys2Proof.Machine.execQadd c rd rs1 rs2 s
  | .qsub c rd rs1 rs2 => Sys2Proof.Machine.execQsub c rd rs1 rs2 s
  | .qmul c rd rs1 rs2 => Sys2Proof.Machine.execQmul c rd rs1 rs2 s
  | .qneg c rd rs1 => Sys2Proof.Machine.execQneg c rd rs1 s
  | .qshl c rd rs1 rs2 => Sys2Proof.Machine.execQshl c rd rs1 rs2 s
  | .qrshr c rd rs1 rs2 => Sys2Proof.Machine.execQrshr c rd rs1 rs2 s
  | .cmul c rd rs1 rs2 => Sys2Proof.Machine.execCmul c rd rs1 rs2 s
  | .cmulc c rd rs1 rs2 => Sys2Proof.Machine.execCmulc c rd rs1 rs2 s
  | .cmac c rs1 rs2 => Sys2Proof.Machine.execCmac c rs1 rs2 s
  | .cmacc c rs1 rs2 => Sys2Proof.Machine.execCmacc c rs1 rs2 s
  | .caccrd c rd rs1 => Sys2Proof.Machine.execCaccrd c rd rs1 s
  | .caccclr c => Sys2Proof.Machine.execCaccclr c s
  | .cmag c rd rs1 => Sys2Proof.Machine.execCmag c rd rs1 s
  | .cang c rd rs1 => Sys2Proof.Machine.execCang c rd rs1 s
  | .gld16 c rd rs1 rs2 n => Sys2Proof.Machine.execGld16 c rd rs1 rs2 n s
  | .riscvInstruction c => Sys2Proof.Machine.execRiscvInstruction c s
  | .taskFault c cause tval machine => Sys2Proof.Machine.execTaskFault c cause tval machine s
  | .debugHalt c inGather => Sys2Proof.Machine.execDebugHalt c inGather s
  | .debugResume c => Sys2Proof.Machine.execDebugResume c s
  | .tcmRead t v => Sys2Proof.Machine.execTcmRead t v s
  | .tcmWrite t v => Sys2Proof.Machine.execTcmWrite t v s
  | .tuftFreqWrite t v => Sys2Proof.Machine.execTuftFreqWrite t v s
  | .tuftClockChange t done => Sys2Proof.Machine.execTuftClockChange t done s
  | .gooseFrameIntake e => Sys2Proof.Machine.execGooseFrameIntake e s
  | .gsubTimeout e => Sys2Proof.Machine.execGsubTimeout e s
  | .ginPost v => Sys2Proof.Machine.execGinPost v s
  | .pubBlockEnable k v => Sys2Proof.Machine.execPubBlockEnable k v s
  | .gooseFrameDue k => Sys2Proof.Machine.execGooseFrameDue k s
  | .pubResend => Sys2Proof.Machine.execPubResend s
  | .feiEdge n rising tap full => Sys2Proof.Machine.execFeiEdge n rising tap full s
  | .tdcCalibrationStart n both => Sys2Proof.Machine.execTdcCalibrationStart n both s
  | .calNow => Sys2Proof.Machine.execCalNow s
  | .tdcCalibrationDone n sideB hist => Sys2Proof.Machine.execTdcCalibrationDone n sideB hist s
  | .xtrigEdge l => Sys2Proof.Machine.execXtrigEdge l s
  | .xtrigRelease k => Sys2Proof.Machine.execXtrigRelease k s
  | .triggerTimeout u => Sys2Proof.Machine.execTriggerTimeout u s
  | .settleWindowEnd k => Sys2Proof.Machine.execSettleWindowEnd k s
  | .autoTrigger k => Sys2Proof.Machine.execAutoTrigger k s
  | .force k => Sys2Proof.Machine.execForce k s
  | .rearm k => Sys2Proof.Machine.execRearm k s
  | .csetEnable k v => Sys2Proof.Machine.execCsetEnable k v s
  | .csetDisable k => Sys2Proof.Machine.execCsetDisable k s
  | .segmentComplete k => Sys2Proof.Machine.execSegmentComplete k s
  | .acqConsWrite k v => Sys2Proof.Machine.execAcqConsWrite k v s
  | .belayInChange level => Sys2Proof.Machine.execBelayInChange level s
  | .leaseExpiry => Sys2Proof.Machine.execLeaseExpiry s
  | .aloneTimeout => Sys2Proof.Machine.execAloneTimeout s
  | .doubleClaim => Sys2Proof.Machine.execDoubleClaim s
  | .hello lane f => Sys2Proof.Machine.execHello lane f s
  | .keepalive lane f => Sys2Proof.Machine.execKeepalive lane f s
  | .keepaliveTx => Sys2Proof.Machine.execKeepaliveTx s
  | .ropeTimeout => Sys2Proof.Machine.execRopeTimeout s
  | .release lane f => Sys2Proof.Machine.execRelease lane f s
  | .asduFwd lane f => Sys2Proof.Machine.execAsduFwd lane f s
  | .ginLedger lane f => Sys2Proof.Machine.execGinLedger lane f s
  | .gooseFwd lane f => Sys2Proof.Machine.execGooseFwd lane f s
  | .digests lane f => Sys2Proof.Machine.execDigests lane f s
  | .ledger lane f => Sys2Proof.Machine.execLedger lane f s
  | .claim lane f => Sys2Proof.Machine.execClaim lane f s
  | .health lane f => Sys2Proof.Machine.execHealth lane f s
  | .healthTx => Sys2Proof.Machine.execHealthTx s
  | .healthMissing => Sys2Proof.Machine.execHealthMissing s
  | .join lane f => Sys2Proof.Machine.execJoin lane f s
  | .joinTimeout => Sys2Proof.Machine.execJoinTimeout s
  | .resolve lane f => Sys2Proof.Machine.execResolve lane f s
  | .targetedSelftestDone task pass channels => Sys2Proof.Machine.execTargetedSelftestDone task pass channels s
  | .resolveTimeout => Sys2Proof.Machine.execResolveTimeout s
  | .swap lane f => Sys2Proof.Machine.execSwap lane f s
  | .handover lane f => Sys2Proof.Machine.execHandover lane f s
  | .handoverAckTimeout => Sys2Proof.Machine.execHandoverAckTimeout s
  | .followTimeout => Sys2Proof.Machine.execFollowTimeout s
  | .selftestResult channel ok again => Sys2Proof.Machine.execSelftestResult channel ok again s
  | .demote => Sys2Proof.Machine.execDemote s
  | .demoteForce => Sys2Proof.Machine.execDemoteForce s
  | .ropeJoinCmd => Sys2Proof.Machine.execRopeJoinCmd s
  | .read n q e => Sys2Proof.Machine.execRead n q e s
  | .writeAtTick n q e => Sys2Proof.Machine.execWriteAtTick n q e s
  | .writeAtTickApply n => Sys2Proof.Machine.execWriteAtTickApply n s
  | .nop n q e => Sys2Proof.Machine.execNop n q e s
  | .instCreate e => Sys2Proof.Machine.execInstCreate e s
  | .instSetWindows e => Sys2Proof.Machine.execInstSetWindows e s
  | .instMap e => Sys2Proof.Machine.execInstMap e s
  | .instUnmap e => Sys2Proof.Machine.execInstUnmap e s
  | .instStart e => Sys2Proof.Machine.execInstStart e s
  | .instFreeze e => Sys2Proof.Machine.execInstFreeze e s
  | .freezeComplete inst => Sys2Proof.Machine.execFreezeComplete inst s
  | .instSave e => Sys2Proof.Machine.execInstSave e s
  | .instRestore e => Sys2Proof.Machine.execInstRestore e s
  | .instRestart e => Sys2Proof.Machine.execInstRestart e s
  | .instMigrateOut e => Sys2Proof.Machine.execInstMigrateOut e s
  | .instCancel e => Sys2Proof.Machine.execInstCancel e s
  | .instDestroy e => Sys2Proof.Machine.execInstDestroy e s
  | .queueCreate e => Sys2Proof.Machine.execQueueCreate e s
  | .queueDelete e => Sys2Proof.Machine.execQueueDelete e s
  | .queueReinit e => Sys2Proof.Machine.execQueueReinit e s
  | .sliceWrite addr => Sys2Proof.Machine.execSliceWrite addr s
  | .doorbellWrite addr bytes v => Sys2Proof.Machine.execDoorbellWrite addr bytes v s
  | .sqEntryFetch => Sys2Proof.Machine.execSqEntryFetch s
  | .admqEnable v => Sys2Proof.Machine.execAdmqEnable v s
  | .perstAssert => Sys2Proof.Machine.execPerstAssert s
  | .perstDeassert => Sys2Proof.Machine.execPerstDeassert s
  | .functionLevelReset => Sys2Proof.Machine.execFunctionLevelReset s
  | .linkDlDown lost => Sys2Proof.Machine.execLinkDlDown lost s
  | .configRequest r write v => Sys2Proof.Machine.execConfigRequest r write v s
  | .msixEnable en mask => Sys2Proof.Machine.execMsixEnable en mask s
  | .msixUnmask v => Sys2Proof.Machine.execMsixUnmask v s
  | .aspmL1Entry clkreq => Sys2Proof.Machine.execAspmL1Entry clkreq s
  | .dStateChange d3 => Sys2Proof.Machine.execDStateChange d3 s
  | .pmeTurnOff => Sys2Proof.Machine.execPmeTurnOff s
  | .pmeSend => Sys2Proof.Machine.execPmeSend s
  | .linkTrainingStart => Sys2Proof.Machine.execLinkTrainingStart s
  | .hostWindowAccess who addr n write data => Sys2Proof.Machine.execHostWindowAccess who addr n write data s
  | .hostWindowTimeout who n write => Sys2Proof.Machine.execHostWindowTimeout who n write s
  | .wipeStart => Sys2Proof.Machine.execWipeStart s
  | .wipeDone ok => Sys2Proof.Machine.execWipeDone ok s
  | .ddrZqCalibration c => Sys2Proof.Machine.execDdrZqCalibration c s
  | .ddrDqsOscCheck c drifted => Sys2Proof.Machine.execDdrDqsOscCheck c drifted s
  | .ddrMr4Read c hot above => Sys2Proof.Machine.execDdrMr4Read c hot above s
  | .domainPowerRequest d => Sys2Proof.Machine.execDomainPowerRequest d s
  | .domainAdmit => Sys2Proof.Machine.execDomainAdmit s
  | .domainOn d => Sys2Proof.Machine.execDomainOn d s
  | .coreIdleTimeout c => Sys2Proof.Machine.execCoreIdleTimeout c s
  | .pllLossOfLock p srLost => Sys2Proof.Machine.execPllLossOfLock p srLost s
  | .relockTimeout p => Sys2Proof.Machine.execRelockTimeout p s
  | .sensorSample temps => Sys2Proof.Machine.execSensorSample temps s
  | .thermalTrip => Sys2Proof.Machine.execThermalTrip s
  | .ssmSample vcode icode => Sys2Proof.Machine.execSsmSample vcode icode s
  | .socEvaluate => Sys2Proof.Machine.execSocEvaluate s
  | .socqSet v => Sys2Proof.Machine.execSocqSet v s
  | .bivEnter => Sys2Proof.Machine.execBivEnter s
  | .bivExit => Sys2Proof.Machine.execBivExit s
  | .auxEnable seg v => Sys2Proof.Machine.execAuxEnable seg v s
  | .auxDisable seg => Sys2Proof.Machine.execAuxDisable seg s
  | .auxenRampDone seg => Sys2Proof.Machine.execAuxenRampDone seg s
  | .auxFrameReceived seg f => Sys2Proof.Machine.execAuxFrameReceived seg f s
  | .goListen seg => Sys2Proof.Machine.execGoListen seg s
  | .goNormal seg => Sys2Proof.Machine.execGoNormal seg s
  | .sleep seg => Sys2Proof.Machine.execSleep seg s
  | .wake seg => Sys2Proof.Machine.execWake seg s
  | .stay seg => Sys2Proof.Machine.execStay seg s
  | .awakeTimerExpiry seg => Sys2Proof.Machine.execAwakeTimerExpiry seg s
  | .sleepFrameTx seg => Sys2Proof.Machine.execSleepFrameTx seg s
  | .sleepDelayDone seg => Sys2Proof.Machine.execSleepDelayDone seg s
  | .auxenHoldExpiry seg => Sys2Proof.Machine.execAuxenHoldExpiry seg s
  | .wakeDetect seg us => Sys2Proof.Machine.execWakeDetect seg us s
  | .wakeWindowExpiry seg => Sys2Proof.Machine.execWakeWindowExpiry seg s
  | .wakeLockExpiry seg => Sys2Proof.Machine.execWakeLockExpiry seg s
  | .auxFsKick seg => Sys2Proof.Machine.execAuxFsKick seg s
  | .auxFsClear seg => Sys2Proof.Machine.execAuxFsClear seg s
  | .failsafeTimeout seg => Sys2Proof.Machine.execFailsafeTimeout seg s
  | .failsafeFrameTx seg => Sys2Proof.Machine.execFailsafeFrameTx seg s
  | .powerOn => Sys2Proof.Machine.execPowerOn s
  | .sysRstAssert cool => Sys2Proof.Machine.execSysRstAssert cool s
  | .warmRstAssert => Sys2Proof.Machine.execWarmRstAssert s
  | .resetRelease c => Sys2Proof.Machine.execResetRelease c s
  | .railFault => Sys2Proof.Machine.execRailFault s
  | .tamper => Sys2Proof.Machine.execTamper s
  | .rstCmdCold who v => Sys2Proof.Machine.execRstCmdCold who v s
  | .rstCmdWarm who v => Sys2Proof.Machine.execRstCmdWarm who v s
  | .crzWatchdogExpiry => Sys2Proof.Machine.execCrzWatchdogExpiry s
  | .ridgeWatchdogHalf m => Sys2Proof.Machine.execRidgeWatchdogHalf m s
  | .ridgeWatchdogExpiry m => Sys2Proof.Machine.execRidgeWatchdogExpiry m s
  | .rstKick v => Sys2Proof.Machine.execRstKick v s
  | .startStageDone w => Sys2Proof.Machine.execStartStageDone w s
  | .erase v => Sys2Proof.Machine.execErase v s
  | .program v bad => Sys2Proof.Machine.execProgram v bad s
  | .verify v bad => Sys2Proof.Machine.execVerify v bad s
  | .activate v bad => Sys2Proof.Machine.execActivate v bad s
  | .loadSwap v => Sys2Proof.Machine.execLoadSwap v s
  | .imgRead v bad => Sys2Proof.Machine.execImgRead v bad s
  | .flashEraseDone ok => Sys2Proof.Machine.execFlashEraseDone ok s
  | .keyWrite v => Sys2Proof.Machine.execKeyWrite v s
  | .derive v => Sys2Proof.Machine.execDerive v s
  | .invalidate v => Sys2Proof.Machine.execInvalidate v s
  | .keyRead v => Sys2Proof.Machine.execKeyRead v s
  | .rdataTimeout => Sys2Proof.Machine.execRdataTimeout s
  | .keyClr => Sys2Proof.Machine.execKeyClr s
  | .wipe v => Sys2Proof.Machine.execWipe v s
  | .enrol v => Sys2Proof.Machine.execEnrol v s
  | .lcAdvance v => Sys2Proof.Machine.execLcAdvance v s
  | .svnRaise v => Sys2Proof.Machine.execSvnRaise v s
  | .anchorRevoke v => Sys2Proof.Machine.execAnchorRevoke v s
  | .dbgArm v => Sys2Proof.Machine.execDbgArm v s
  | .dbgDisarm v => Sys2Proof.Machine.execDbgDisarm v s
  | .logRecordWrite => Sys2Proof.Machine.execLogRecordWrite s
  | .recordWriteRetry => Sys2Proof.Machine.execRecordWriteRetry s
  | .crnConsWrite v => Sys2Proof.Machine.execCrnConsWrite v s
  | .freeze v => Sys2Proof.Machine.execFreeze v s
  | .freezeTimeout => Sys2Proof.Machine.execFreezeTimeout s
  | .note => Sys2Proof.Machine.execNote s
  | .retireCmd channel => Sys2Proof.Machine.execRetireCmd channel s
  | .dataLinkUp speed width => Sys2Proof.Machine.execDataLinkUp speed width s
  | .completionTimeout n q => Sys2Proof.Machine.execCompletionTimeout n q s
  | .plcaStatusChange seg v => Sys2Proof.Machine.execPlcaStatusChange seg v s
  | .jabber seg => Sys2Proof.Machine.execJabber seg s
  | .wakeBurstDecoded seg => Sys2Proof.Machine.execWakeBurstDecoded seg s
  | .gsubEnable e v => Sys2Proof.Machine.execGsubEnable e v s
  | .ddrSelfRefreshEntry c => Sys2Proof.Machine.execDdrSelfRefreshEntry c s
  | .lossOfVddAon => Sys2Proof.Machine.execLossOfVddAon s
  | .unknownRopeFrame lane f => Sys2Proof.Machine.execUnknownRopeFrame lane f s

end Sys2Proof.Machine
end

