-- ==== Sys2Proof/Machine/Step.lean ====
section
/-! DEFINITION. One step: the command that has waited longest is carried out; while none waits, one cycle
passes. -/

namespace Sys2Proof.Machine

open Sys2Proof

/-- The front command runs with the rest of the queue; an empty queue lets one cycle pass (R82, R601). -/
def step (s : State) : Host.Outcome State Fault Refusal :=
  match s.pending with
  | [] => run Block.idleCycle s
  | c :: rest => exec c ⟨s.block, rest⟩

/-- A command put in front of the queue. -/
def State.withFront (s : State) (c : Instr) : State := ⟨s.block, c :: s.pending⟩

/-- The state with the command in front that a word spells; unchanged where it spells none. -/
def State.withFetchWord (s : State) (nbits w : Nat) : State :=
  match decodeTableWord nbits w with
  | some c => s.withFront c
  | none => s

end Sys2Proof.Machine
end

