-- ==== Sys2Proof/Machine/Flags.lean ====
section
/-! DEFINITION. The lines and flags by which the module shows itself outside the register space. -/

namespace Sys2Proof.Machine

open Sys2Proof Sys2Proof.Reg

/-- Is FAULT_N driven low (R612)? -/
def Block.faultN (b : Block) : Bool :=
  !b.rst.off && (b.rst.asserted || !b.rst.ran || b.on IMG_STATUS_RECOVERY || b.on CRZ_STATUS_FAULTED)

/-- Is THERMTRIP_N driven low (R560)? -/
def Block.thermtripN (b : Block) : Bool := !b.rst.off && b.rst.thermtrip

/-- Is BELAY_TX driven active: only while the lease is held, and in no reset (R423, R612)? -/
def Block.belayTx (b : Block) : Bool := !b.rst.off && !b.rst.asserted && b.rope.lease

/-- Is WAKE_N driven low (R512)? -/
def Block.wakeLine (b : Block) : Bool := !b.rst.off && b.hif.wakeN

/-- Is the event interrupt of Ridge core m asserted: by a source that is still pending and selected the core as it became so (R75)? -/
def Block.ridgeLine (b : Block) (m : Nat) : Bool :=
  (List.range 1024).any (fun n => bit (b.rd (EVT_PEND_k (n / 32))).toNat (n % 32) && bit (b.ridge.irq.get (fun _ => 0) n) m)

/-- What decides the level of a configurable ball (R611): its entry in the fuse map (0 hi-Z, 1 weak pull-up, 2 weak pull-down, 3 driven low),
the level it had as a warm reset was asserted, or the unit that owns it. -/
inductive BallLevel
  | fuse (entry : Nat)
  | held
  | owner
  deriving DecidableEq, Repr

/-- The unit whose release is the IO release of the configurable ball of fuse index x (R611, R698); the table names none for MDC, MDIO
and TDO, which are taken to follow ROOT (notes/assumptions/179). -/
def ballOwner (x : Nat) : Cls :=
  if x < 20 then .acq else if x < 28 then .aux else if x < 31 then .tim else if 33 ≤ x ∧ x < 57 then .img else .root

/-- The state of configurable ball x: hi-Z until the fuse map has taken effect, then its entry until IO release (R611, R698). At a warm reset
AUXEN keeps its latched level (R597). -/
def Block.ballLevel (b : Block) (x : Nat) : BallLevel :=
  if b.released (ballOwner x) then .owner
  else if b.rst.level = 2 then .held
  else if b.get RST_START_STAGE = 1 then .fuse 0
  else .fuse (if x < 58 then bits (b.rd (RST_PINFUSEk (x / 16))).toNat (2 * (x % 16)) 2 else 0)

/-- Is event source n pending (R75)? -/
def Block.pendingEvent (b : Block) (n : Nat) : Bool := bit (b.rd (EVT_PEND_k (n / 32 % 32))).toNat (n % 32)

end Sys2Proof.Machine
end

