-- ==== Sys2Proof/Safety.lean ====
section
/-! DEFINITION. What a state must keep to be sound data, and what a safe step is. -/

namespace Sys2Proof.Machine

open Sys2Proof Sys2Proof.Reg

/-- The canonical form of the memories: addresses strictly rising, no byte equal to what an unlisted address reads as. -/
def Memory.wf (m : List Host.Cell) : Bool := Sparse.canon memDefault m

/-- The canonical form of the register file. -/
def Regs.wf (r : Sparse Word) : Bool := Sparse.canon resetOf r

/-- Both. -/
def Block.wf (b : Block) : Bool := Memory.wf b.mem && Regs.wf b.regs

/-- A state whose memories and registers are in their canonical form. -/
def State.wf (s : State) : Bool := s.block.wf

/-- A step that ends in a next state. -/
def goesOn (o : Host.Outcome State Fault Refusal) : Bool := match o with | .next _ => true | _ => false

/-- The module has its power, is in no reset, and the units of the start's last step are released (R608, R613): STAGE 0x9 before
the first P cycle, 0xF from then on. -/
abbrev Block.up (b : Block) : Prop :=
  b.rst.off = false ∧ b.rst.asserted = false ∧ b.rst.rel = true ∧ (b.get RST_START_STAGE = 9 ∨ b.get RST_START_STAGE = 15)

/-! What statements about commands say -/

/-- Command c, carried out at s, ends in a next state whose waiting commands are those of s and whose block is as P says. -/
def Leads (c : Instr) (s : State) (P : Block → Prop) : Prop := ∃ b', exec c s = .next ⟨b', s.pending⟩ ∧ P b'

/-- Every byte of every memory reads as before. -/
def SameBytes (b b' : Block) : Prop := ∀ sp a, b'.byte sp a = b.byte sp a

/-- Every register outside a set reads as before. -/
def SameRegs (but : Nat → Bool) (b b' : Block) : Prop := ∀ a, but a = false → b'.rd a = b.rd a

/-- The registers that the report of an event may change: the pending bits (R75), and what a message (R505) and a wake cause
(R511) write. -/
def evtReg (a : Nat) : Bool :=
  (decide (0x2000 ≤ a) && decide (a < 0x2080)) || a == HIF_CNTi 5 || a == HIF_CNTi 6 || a == HIF_CNT_ROLL || a == HIF_WAKE_CAUSE ||
    a == HIF_WAKE_TIME_LO || a == HIF_WAKE_TIME_HI || (decide (0x77F00 ≤ a) && decide (a < 0x78000))

/-- The registers that a report to Cairn may change: Cairn's own, and those of events (R671, R68). -/
def crnReg (a : Nat) : Bool := evtReg a || (decide (0x60000 ≤ a) && decide (a < 0x70000))

/-- The block less its registers, its memories, and what events and reports to Cairn may change: output lines, wake state, the event
flags of Crozier, the interrupts of the Ridge cores, the record FIFO, and the model's own counts. -/
def Block.units (b : Block) : Block :=
  { b with regs := [], mem := [], outs := [], crzEvt := [], hif := {}, gates := [], fifo := [], marker := none, firstLost := [],
           freeCtr := 0, readData := 0,
           ridge := { b.ridge with irq := [] } }

/-! A block less one unit's own state -/

/-- Less the time base: TIM_NOW, the servo, comparators and generators, and the crystal's count. -/
def Block.noTime (b : Block) : Block := { b with tim := {}, xtal := 0 }
def Block.noPort (b : Block) : Block := { b with port := [] }
def Block.noSwc (b : Block) : Block := { b with swc := {} }
def Block.noPub (b : Block) : Block := { b with pub := [] }
def Block.noRhz (b : Block) : Block := { b with rhz := {} }
def Block.noSor (b : Block) : Block := { b with sor := {} }
def Block.noCrz (b : Block) : Block := { b with crz := {} }
def Block.noFrd (b : Block) : Block := { b with frd := {} }
def Block.noGin (b : Block) : Block := { b with gin := {} }
def Block.noAcq (b : Block) : Block := { b with acq := {} }
def Block.noRope (b : Block) : Block := { b with rope := {} }
def Block.noVin (b : Block) : Block := { b with vin := {} }
def Block.noNrg (b : Block) : Block := { b with nrg := {} }
def Block.noAux (b : Block) : Block := { b with aux := [] }
def Block.noRst (b : Block) : Block := { b with rst := {} }
def Block.noImg (b : Block) : Block := { b with img := {}, imgLock := false }
def Block.noKey (b : Block) : Block := { b with key := {} }
def Block.noCrn (b : Block) : Block := { b with crn := {} }
/-- Less the MSI-X enables. -/
def Block.noMsix (b : Block) : Block := { b with msixEn := false, msixMask := false }
/-- Less the requesters' shadows and staging values. -/
def Block.noShadow (b : Block) : Block := { b with shadow := [], staging := [] }

/-! Sets of registers -/

/-- The registers of a list. -/
def within (l : List Nat) (a : Nat) : Bool := l.contains a
/-- Those, and what the report of an event changes. -/
def withEvt (l : List Nat) (a : Nat) : Bool := l.contains a || evtReg a
/-- Those, and what a report to Cairn changes. -/
def withCrn (l : List Nat) (a : Nat) : Bool := l.contains a || crnReg a

/-- The frame of a command: registers outside a set, every byte of memory, and every unit's own state less what a blanking takes
out read as before. -/
def Frame (but : Nat → Bool) (blank : Block → Block) (b b' : Block) : Prop :=
  SameRegs but b b' ∧ SameBytes b b' ∧ blank b'.units = blank b.units

end Sys2Proof.Machine
end

