-- ==== Sys2Proof/Certificates/Slice0/Obligations.lean ====
section
/-! DEFINITION. The statements about the model, for the provers. -/

open Sys2Proof Sys2Proof.Reg Sys2Proof.Machine

/-- The model's queue is its own (notes/assumptions/1.md): with a command c in front, the step is the meaning of c at the state whose
queue is the rest; c itself stays in no queue. -/
def Obligations.StepRunsFrontCommand : Prop :=
  ∀ (c : Instr) (s : State), step (s.withFront c) = exec c s

/-- With no command waiting (a choice of the model, notes/assumptions/2.md), a module that is up advances TIM_NOW by one time-base cycle
of 4 ns corrected by FREQ_ADJ (R82), or of 40 ns while the PLL is lost (R105); no register and no memory byte changes; a module without
power stands still. -/
def Obligations.IdleStepPassesOneCycle : Prop :=
  (∀ b : Block, b.up → ∃ b', step ⟨b, []⟩ = .next ⟨b', []⟩ ∧ b'.tim.now = (b.tim.now + b.cycleStep) % 2 ^ 96 ∧
    b'.xtal = b.xtal + (if b.on TIM_STATUS_PLL_LOST then 40 else 4) ∧ Frame (within []) Block.noTime b b') ∧
  (∀ b : Block, b.rst.off = true → ∃ b', step ⟨b, []⟩ = .next ⟨b', []⟩ ∧ b'.tim = b.tim ∧ b'.xtal = b.xtal ∧ Frame (within []) id b b')

/-- From every state whose memories and register file are in canonical form (addresses strictly rising, nothing listed that equals what
an unlisted address reads as), whatever command is in front and whether or not one waits, a step that ends in a next state ends in one
of canonical form. The form is the model's own (notes/assumptions/3.md); equal contents are then equal data. -/
def Obligations.StepKeepsCanonicalForm : Prop :=
  ∀ s t : State, s.wf = true → step s = .next t → t.wf = true

/-- State.reset lists no memory byte and no register, so both tables are in canonical form. -/
def Obligations.ResetIsCanonical : Prop := State.reset.wf = true

/-- No command of the table stops the model: at every state each one ends in a next state, with the waiting commands untouched; and no
run of steps from any state ends in a fault or a refusal at its first step. What each command does is stated per family. -/
def Obligations.EveryCommandCompletes : Prop :=
  (∀ (c : Instr) (s : State), (∃ b', exec c s = .next ⟨b', s.pending⟩)) ∧ (∀ s : State, goesOn (step s) = true)

/-- What reset leaves, for values the spec gives: no command waits; TIM_TICK.RATE is 4,800 (R109); the time base is FREE (R102); the start
is at stage 1 (R613) and no unit has been released (R601); the last reset is a power-on reset (R603); the module is unlocked; every memory byte
outside flash reads zero and every flash byte 0xFF, which is the model's choice (notes/assumptions/4.md). -/
def Obligations.ResetState : Prop :=
  State.reset.pending = [] ∧ State.reset.block.get TIM_TICK_RATE = 4800 ∧ State.reset.block.syncState = timFREE ∧
  State.reset.block.get RST_START_STAGE = 1 ∧ State.reset.block.rst.rel = false ∧ State.reset.block.imgLock = false ∧ State.reset.block.rd RST_LAST = 1 ∧
  (∀ a, State.reset.block.byte .dram a = 0) ∧ (∀ a, State.reset.block.byte (.flash 0) a = 0xFF)

/-- The report of an event n below 1,024 at any block (R75): its pending bit is set afterwards; no other pending bit is cleared; a source
routed to Crozier and not pending before becomes one of its event inputs; one routed to a Ridge core raises that core's interrupt line; one with a
message vector sends that MSI-X message where the host can be reached and the vector is unmasked, and otherwise sets the vector's pending bit (R505);
nothing else changes but what messages and wake causes write. -/
def Obligations.EventReport : Prop :=
  ∀ (b : Block) (n : Nat), n < 1024 →
    (b.raise n).pendingEvent n = true ∧ (∀ m, b.pendingEvent m = true → (b.raise n).pendingEvent m = true) ∧
    (b.pendingEvent n = false → b.on (EVT_ROUTE_n_CRZ_EN n) = true → n ∈ (b.raise n).crzEvt) ∧
    (∀ m, m < 4 → b.pendingEvent n = false → bit (b.get (EVT_ROUTE_n_RIDGE n)) m = true → (b.raise n).ridgeLine m = true) ∧
    (∀ v, b.pendingEvent n = false → b.on (EVT_ROUTE_n_MSIX_EN n) = true → b.get (EVT_ROUTE_n_VECTOR n) = v →
      b.hostOpen = true → b.msixEn = true → b.msixMask = false → bit (b.rd (msixWord v 3)).toNat 0 = false → Output.msix v ∈ (b.raise n).outs) ∧
    (∀ v, b.pendingEvent n = false → b.on (EVT_ROUTE_n_MSIX_EN n) = true → b.get (EVT_ROUTE_n_VECTOR n) = v →
      (b.hostOpen = false ∨ b.msixEn = false ∨ b.msixMask = true ∨ bit (b.rd (msixWord v 3)).toNat 0 = true) →
      bit (b.raise n |>.rd (pbaWord v)).toNat (v % 32) = true) ∧
    Frame (withEvt []) id b (b.raise n)

/-- An increment by n below 2^31 of the counter at offset a, whose rollover bit r lies elsewhere (R68): the counter holds the sum modulo
2^32; where bit 31 changes from 0 to 1 or the counter wraps, the rollover bit is set and the unit's event is pending; otherwise nothing
but the counter changes. -/
def Obligations.CounterRollover : Prop :=
  ∀ (b : Block) (a n : Nat) (r : Fld) (e : Nat), n < 2 ^ 31 → r.addr ≠ a → r.width = 1 → r.lo < 32 → evtReg a = false → evtReg r.addr = false →
    (b.count a n r e).rd a = b.rd a + BitVec.ofNat 32 n ∧
    (((b.rd a).toNat < 2 ^ 31 ∧ 2 ^ 31 ≤ (b.rd a).toNat + n ∨ 2 ^ 32 ≤ (b.rd a).toNat + n) →
      (b.count a n r e).get r = 1 ∧ (b.count a n r e).pendingEvent e = true) ∧
    (¬((b.rd a).toNat < 2 ^ 31 ∧ 2 ^ 31 ≤ (b.rd a).toNat + n ∨ 2 ^ 32 ≤ (b.rd a).toNat + n) → Frame (within [a]) id b (b.count a n r e)) ∧
    Frame (withEvt [a, r.addr]) id b (b.count a n r e)

/-- R109: RATE sets N ticks a second, a value outside 100 to 20,000 acting as the nearer limit, with the default 4,800; tick n falls at
(n / N)·10⁹ + ((n mod N)·10⁹) / N; tick 0 of each second falls on the second; at the default rate ticks fall 208,333 or 208,334 ns apart. -/
def Obligations.TickTimes : Prop :=
  (∀ b : Block, b.tickRate = (if b.get TIM_TICK_RATE < 100 then 100 else if 20000 < b.get TIM_TICK_RATE then 20000 else b.get TIM_TICK_RATE)) ∧
  State.reset.block.tickRate = 4800 ∧
  (∀ N n : Nat, 0 < N → tickNs N n = n / N * 1000000000 + n % N * 1000000000 / N) ∧
  (∀ N k : Nat, 0 < N → tickNs N (N * k) = k * 1000000000) ∧
  (∀ n : Nat, tickNs 4800 (n + 1) = tickNs 4800 n + 208333 ∨ tickNs 4800 (n + 1) = tickNs 4800 n + 208334)

/-- R90, in a module that is up: while PRIMARY is 0b00 a write of TIM_FREQ_ADJ loads it, within ±TIM_SLEW.LIMIT (R87); at any other time the write is
ignored and nothing changes.

Says that exec answers a next state, under conditions on the state and the operands alone, for: freqAdjWrite. -/
def Obligations.FreqAdjWrite : Prop :=
  ∀ (b : Block) (q : List Instr) (v : Word), b.up →
    (b.get TIM_CTRL_PRIMARY = 0 → (∃ b', exec (.freqAdjWrite v) ⟨b, q⟩ = .next ⟨b', q⟩ ∧
      b'.rd TIM_FREQ_ADJ = BitVec.ofInt 32 (clampI (-b.slewLim) b.slewLim (sgn 32 v.toNat)) ∧ Frame (within [TIM_FREQ_ADJ]) id b b')) ∧
    (b.get TIM_CTRL_PRIMARY ≠ 0 → (∃ b', exec (.freqAdjWrite v) ⟨b, q⟩ = .next ⟨b', q⟩ ∧
      Frame (within []) id b b'))

/-- R76, for EVT_PEND word k and a write v, in a module that is up: a bit of v clears its source's pending bit, except where the unit
reports in the same cycle, whose bit stays set; a report in that cycle acts as for a new change from 0 to 1, so with one such source the
block is that in which the bits are cleared first and the event is reported then; bits outside v stay.

Says that exec answers a next state, under conditions on the state and the operands alone, for: evtPendClear. -/
def Obligations.EventPendClear : Prop :=
  ∀ (b : Block) (q : List Instr) (k : Nat) (v again : Word), b.up → k < 32 →
    (∃ b', exec (.evtPendClear k v again) ⟨b, q⟩ = .next ⟨b', q⟩ ∧
      (∀ i, i < 32 → bit again.toNat i = true → b'.pendingEvent (32 * k + i) = true) ∧
      (∀ i, i < 32 → bit v.toNat i = false → b.pendingEvent (32 * k + i) = true → b'.pendingEvent (32 * k + i) = true)) ∧
    (∃ b', exec (.evtPendClear k v 0) ⟨b, q⟩ = .next ⟨b', q⟩ ∧
      b'.rd (EVT_PEND_k k) = b.rd (EVT_PEND_k k) &&& ~~~v ∧ Frame (within [EVT_PEND_k k]) id b b') ∧
    (∀ i, i < 32 → (∃ b', exec (.evtPendClear k v (BitVec.ofNat 32 (2 ^ i))) ⟨b, q⟩ = .next ⟨b', q⟩ ∧
      b' = ((b.wr (EVT_PEND_k k) (b.rd (EVT_PEND_k k) &&& ~~~v)).raise (32 * k + i)).commit))

/-- Commands on time-base registers, in a module that is up: a
rate written before the image lock is held and renumbers the last tick, and after it changes nothing (R722); ARM, EVT and DISARM of a
comparator (R113; a write with both leaves it disarmed; a quiesced TIM arms none); the relock of the time-base PLL clears PLL_LOST with event 63 (R105); the
leap second changes the UTC offset by one, clears ARM and raises event 61 (R108). Each with its frame.

Says that exec answers a next state, under conditions on the state and the operands alone, for: tickRateWrite, cmpArm, cmpDisarm,
timebasePllRelock, leapApply. -/
def Obligations.TimeRegisterCommands : Prop :=
  ∀ s : State, s.block.up →
    (∀ v, s.block.imgLock = false → clampN 100 20000 (bits v.toNat 0 15) ≠ s.block.tickRate → (∃ b', exec (.tickRateWrite v) s = .next ⟨b', s.pending⟩ ∧
      b'.get TIM_TICK_RATE = bits v.toNat 0 15 ∧ b'.lastTick = latestTick (clampN 100 20000 (bits v.toNat 0 15)) s.block.ns % 2 ^ 64 ∧
      Frame (within [TIM_TICK, TIM_TICKNUM_LO, TIM_TICKNUM_HI]) id s.block b')) ∧
    (∀ v, s.block.imgLock = true → (∃ b', exec (.tickRateWrite v) s = .next ⟨b', s.pending⟩ ∧
      Frame (within []) id s.block b')) ∧
    (∀ n v, n < 64 → s.block.takes ⟨.tim, 0⟩ = true → (∃ b', exec (.cmpArm n v) s = .next ⟨b', s.pending⟩ ∧
      b'.get (TIM_CMPn_CTRL_ARM n) = (if bit v.toNat 30 then 0 else if bit v.toNat 31 then 1 else s.block.get (TIM_CMPn_CTRL_ARM n)) ∧
      b'.get (TIM_CMPn_CTRL_EVT n) = bits v.toNat 0 1 ∧ Frame (within [TIM_CMPn_CTRL n]) Block.noTime s.block b')) ∧
    (∀ n, n < 64 → (∃ b', exec (.cmpDisarm n) s = .next ⟨b', s.pending⟩ ∧
      b'.get (TIM_CMPn_CTRL_ARM n) = 0 ∧ b'.get (TIM_CMPn_CTRL_FIRED n) = s.block.get (TIM_CMPn_CTRL_FIRED n) ∧
      Frame (within [TIM_CMPn_CTRL n]) id s.block b')) ∧
    (s.block.on TIM_STATUS_PLL_LOST = true → (∃ b', exec .timebasePllRelock s = .next ⟨b', s.pending⟩ ∧
      b'.get TIM_STATUS_PLL_LOST = 0 ∧ b'.get TIM_STATUS_STATE = s.block.get TIM_STATUS_STATE ∧ b'.pendingEvent 63 = true ∧
      Frame (withEvt [TIM_STATUS]) id s.block b')) ∧
    (s.block.on TIM_LEAP_CTRL_ARM = true → (∃ b', exec .leapApply s = .next ⟨b', s.pending⟩ ∧
      b'.get TIM_LEAP_CTRL_ARM = 0 ∧ b'.get TIM_UTC_OFFSET = uns 16 (s.block.utcOffset + (if s.block.on TIM_LEAP_CTRL_SIGN then -1 else 1)) ∧
      b'.pendingEvent 61 = true ∧ Frame (withEvt [TIM_UTC, TIM_LEAP_CTRL]) Block.noTime s.block b'))

/-- Synchronisation, in a module that is up: in holdover the limit's excess leads to HOLD_EXCEEDED with event 50 (R102); the loss of the
time-base PLL sets PLL_LOST, raises event 63 and enters HOLDOVER from LOCKING and LOCKED, the state being kept elsewhere (R105); the expiry of
a live source's watchdog marks it dead, with event 51 for PPS and 53 for IRIG-B (R91); a step that STEP_POLICY forbids only raises event 55, one it
permits raises event 54 and counts STEP_GEN (R88); a measurement with a stale tag is counted and nothing else, one of the primary source
with the right tag that a TIM not quiesced takes leaves its size in EST_ERR (R89, R104).

Says that exec answers a next state, under conditions on the state and the operands alone, for: holdLimitExceeded, timebasePllLoss,
sourceWatchdogExpiry, stepCmd, offsetSubmit. -/
def Obligations.TimeSynchronisation : Prop :=
  ∀ s : State, s.block.up →
    (s.block.syncState = timHOLDOVER → (s.block.rd TIM_HOLD_LIMIT).toNat ≠ 2 ^ 32 - 1 →
      (s.block.get TIM_HOLD_DRIFT ≠ 0 ∨ (s.block.rd TIM_HOLD_LIMIT).toNat < s.block.tim.holdErr) → (∃ b', exec .holdLimitExceeded s = .next ⟨b', s.pending⟩ ∧
      b'.syncState = timEXCEEDED ∧ b'.pendingEvent 50 = true ∧ Frame (withEvt [TIM_STATUS, TIM_EST_ERR]) Block.noTime s.block b')) ∧
    (∃ b', exec .timebasePllLoss s = .next ⟨b', s.pending⟩ ∧
      b'.get TIM_STATUS_PLL_LOST = 1 ∧ b'.pendingEvent 63 = true ∧
      b'.syncState = (if s.block.syncState = timLOCKING ∨ s.block.syncState = timLOCKED then timHOLDOVER else s.block.syncState) ∧
      Frame (withEvt [TIM_STATUS, TIM_EST_ERR, TIM_FREQ_ADJ]) Block.noTime s.block b') ∧
    (∃ b', exec (.sourceWatchdogExpiry srcPTP) s = .next ⟨b', s.pending⟩ ∧
      b'.tim.ptpAlive = false ∧
      Frame (withEvt [TIM_STATUS, TIM_EST_ERR, TIM_FREQ_ADJ]) Block.noTime s.block b') ∧
    (s.block.tim.ppsAlive = true → (∃ b', exec (.sourceWatchdogExpiry srcPPS) s = .next ⟨b', s.pending⟩ ∧
      b'.tim.ppsAlive = false ∧ b'.pendingEvent 51 = true ∧
      Frame (withEvt [TIM_STATUS, TIM_EST_ERR, TIM_FREQ_ADJ]) Block.noTime s.block b')) ∧
    (s.block.tim.irigAlive = true → (∃ b', exec (.sourceWatchdogExpiry srcIRIG) s = .next ⟨b', s.pending⟩ ∧
      b'.tim.irigAlive = false ∧ b'.get TIM_IRIG_STAT_VALID = 0 ∧ b'.pendingEvent 53 = true ∧
      Frame (withEvt [TIM_STATUS, TIM_EST_ERR, TIM_FREQ_ADJ, TIM_IRIG_STAT]) Block.noTime s.block b')) ∧
    (s.block.stepPermitted = false → (∃ b', exec .stepCmd s = .next ⟨b', s.pending⟩ ∧
      b'.pendingEvent 55 = true ∧ Frame (withEvt []) id s.block b')) ∧
    (s.block.stepPermitted = true → (∃ b', exec .stepCmd s = .next ⟨b', s.pending⟩ ∧
      b'.pendingEvent 54 = true ∧
      b'.get TIM_STATUS_STEP_GEN = (s.block.get TIM_STATUS_STEP_GEN + 1) % 256)) ∧
    (∀ v, s.block.get TIM_OFFSET_TAG_GEN ≠ s.block.get TIM_STATUS_STEP_GEN → (∃ b', exec (.offsetSubmit v) s = .next ⟨b', s.pending⟩ ∧
      b'.rd TIM_OFFSET_STALE = s.block.rd TIM_OFFSET_STALE + 1 ∧ b'.tim.ptpAlive = true ∧
      Frame (withEvt [TIM_OFFSET_STALE]) Block.noTime s.block b')) ∧
    (∀ v, s.block.get TIM_OFFSET_TAG_GEN = s.block.get TIM_STATUS_STEP_GEN → s.block.get TIM_CTRL_PRIMARY = srcPTP → s.block.takes ⟨.tim, 0⟩ = true →
      (∃ b', exec (.offsetSubmit v) s = .next ⟨b', s.pending⟩ ∧
      b'.rd TIM_EST_ERR = BitVec.ofNat 32 (offNs (sgn 32 v.toNat))))

/-- Time signals and what the time base starts, in a module that is up: an edge of PPS_IN of the selected polarity is stamped (R98); an
IRIG-B frame of the wrong form sets FORMAT_ERR and event 53 (R100), and a sound one gives its second; an armed comparator that only
reports fires: ARM clears, FIRED sets (R113); an enabled generator that stands still starts with its base time, at the next whole second
where ALIGN_SEC is set (R114); a running one goes on to its next pulse (R114); a train that is done stops with event 59 (R114); the
passing of a tick boundary issues the latest tick (R110).

Says that exec answers a next state, under conditions on the state and the operands alone, for: ppsEdge, irigbFrame, comparatorFire,
pgStart, pgPulse, pgTrainDone, tickIssue. -/
def Obligations.TimeSignalsAndTicks : Prop :=
  ∀ s : State, s.block.up →
    (∀ r, r ≠ s.block.on TIM_CTRL_PPS_POL → (∃ b', exec (.ppsEdge r) s = .next ⟨b', s.pending⟩ ∧
      b'.rd64 TIM_PPS_STAMP_LO = s.block.ns)) ∧
    (∀ f : IrigFrame, irigShape f.widths = false → (∃ b', exec (.irigbFrame f) s = .next ⟨b', s.pending⟩ ∧
      b'.get TIM_IRIG_STAT_FORMAT_ERR = 1 ∧ b'.get TIM_IRIG_STAT_VALID = 0 ∧ b'.pendingEvent 53 = true ∧
      Frame (withEvt [TIM_IRIG_STAT]) Block.noTime s.block b')) ∧
    (∀ (f : IrigFrame) (sec : Nat), irigShape f.widths = true → f.code = s.block.get TIM_IRIG_CFG_CODE →
      (s.block.irigExt = false ∨ f.parity = true) → (s.block.advanceTo ((f.edge + 65535) / 65536)).irigTai f = some sec → (∃ b', exec (.irigbFrame f) s = .next ⟨b', s.pending⟩ ∧
      b'.rd64 TIM_IRIG_SEC_LO = sec % 2 ^ 64 ∧ b'.get TIM_IRIG_STAT_NO_YEAR = 0)) ∧
    (∀ n, n < 64 → s.block.on (TIM_CMPn_CTRL_ARM n) = true → s.block.on (TIM_CMPn_CTRL_ACQ n) = false → s.block.on (TIM_CMPn_CTRL_PG_START n) = false →
      (∃ b', exec (.comparatorFire n) s = .next ⟨b', s.pending⟩ ∧
      b'.get (TIM_CMPn_CTRL_ARM n) = 0 ∧ b'.get (TIM_CMPn_CTRL_FIRED n) = 1 ∧
        (s.block.on (TIM_CMPn_CTRL_EVT n) = true → b'.pendingEvent (if n < 32 then 57 else 58) = true) ∧
        Frame (withEvt [TIM_CMPn_CTRL n]) Block.noTime s.block b')) ∧
    (∀ g, g < 8 → s.block.on (TIM_PGg_CTRL_EN g) = true → s.block.on (TIM_PGg_CTRL_RUNNING g) = false → (∃ b', exec (.pgStart g) s = .next ⟨b', s.pending⟩ ∧
      b'.tim.pgT0.get (fun _ => 0) g = 65536 * (if s.block.on (TIM_PGg_CTRL_ALIGN_SEC g) then (s.block.ns + 999999999) / 1000000000 * 1000000000
        else s.block.extend40 (s.block.rd64 (TIM_PGg_START_LO g) % 2 ^ 40)) ∧
      (s.block.pgCount g = 0 → b'.get (TIM_PGg_CTRL_RUNNING g) = 1) ∧ Frame (withEvt [TIM_PGg_CTRL g]) Block.noTime s.block b')) ∧
    (∀ g, g < 8 → s.block.on (TIM_PGg_CTRL_EN g) = true → s.block.on (TIM_PGg_CTRL_RUNNING g) = true →
      s.block.tim.pgWait.get (fun _ => false) g = false → s.block.pgCount g = 0 → s.block.get (TIM_PGg_CTRL_OUT g) ≠ 6 → (∃ b', exec (.pgPulse g) s = .next ⟨b', s.pending⟩ ∧
      b'.tim.pgNext.get (fun _ => 0) g = s.block.tim.pgNext.get (fun _ => 0) g + 1 ∧ Frame (within []) Block.noTime s.block b')) ∧
    (∀ g, g < 8 → s.block.on (TIM_PGg_CTRL_RUNNING g) = true → s.block.pgCount g ≠ 0 →
      s.block.pgCount g ≤ s.block.tim.pgNext.get (fun _ => 0) g → (∃ b', exec (.pgTrainDone g) s = .next ⟨b', s.pending⟩ ∧
      b'.get (TIM_PGg_CTRL_RUNNING g) = 0 ∧ b'.pendingEvent 59 = true ∧ Frame (withEvt [TIM_PGg_CTRL g]) id s.block b')) ∧
    (∀ n b, b = s.block.advanceTo (tickNs s.block.tickRate (s.block.lastTick + 1)) → n = latestTick b.tickRate b.ns → b.lastTick < n →
      exec .tickIssue s = .next ⟨(b.issueTick n).commit, s.pending⟩)

/-- Process and station ports, in a module that is up: EN going to 1 on a port that is off and not retired is held with the values of CFG (R122);
clearing EN turns it off; a live enabled port without link takes LINK with its event (R120); the loss of the link of an enabled port clears
LINK (R164); a retrain of an enabled port reports event 12 of the port before anything else (R124); low-power idle in reception is noted
and counted (R131); a node-table entry is forgotten (R140); a silent LAN is noted with event 9 (R143).

Says that exec answers a next state, under conditions on the state and the operands alone, for: portEnable, portDisable, linkUp, linkLoss,
laneRetrain, lpiReceived, nodeEntryForget, lanSilent. -/
def Obligations.PortCommands : Prop :=
  ∀ (b : Block) (q : List Instr), b.up →
    (∀ p v, p < 20 → b.member.has (portUnit p) = true → (b.prt p).en = false → b.on (stRetired (portUnit p).hdr) = false → (∃ b', exec (.portEnable p v) ⟨b, q⟩ = .next ⟨b', q⟩ ∧
      (b'.prt p).en = true ∧ (b'.prt p).cfg = BitVec.ofNat 32 ((v.toNat &&& (if p < 16 then 0x3E else 0x7E)) + 1))) ∧
    (∀ p r, p < 20 → b.member.has (portUnit p) = true → (b.prt p).en = true → (∃ b', exec (.portDisable p r) ⟨b, q⟩ = .next ⟨b', q⟩ ∧
      (b'.prt p).en = false)) ∧
    (∀ p speed eee, p < 20 → b.member.has (portUnit p) = true → (b.prt p).en = true → b.on (linkBit p) = false → b.deadMode p = false → b.on (prbsBit p) = false →
      b.on (stRetired (portUnit p).hdr) = false → (∃ b', exec (.linkUp p speed eee) ⟨b, q⟩ = .next ⟨b', q⟩ ∧
      b'.on (linkBit p) = true ∧ b'.pendingEvent (portEvt p 0) = true)) ∧
    (∀ p, p < 20 → b.member.has (portUnit p) = true → (b.prt p).en = true →
      (∃ b', exec (.linkLoss ⟨p, false⟩) ⟨b, q⟩ = .next ⟨b', q⟩ ∧
      b' = ((b.linkDrop p).setFaults p 1 (b.get (remoteFault p))).commit) ∧
      (∃ b', exec (.linkLoss ⟨p, true⟩) ⟨b, q⟩ = .next ⟨b', q⟩ ∧
      b' = ((b.linkDrop p).setFaults p (b.get (localFault p)) 1).commit)) ∧
    (∀ p, p < 20 → b.member.has (portUnit p) = true → (b.prt p).en = true → (∃ b', exec (.laneRetrain p) ⟨b, q⟩ = .next ⟨b', q⟩ ∧
      b' = ((b.raise (portEvt p 12)).channelEvent (160 + p) 5 false 0).commit)) ∧
    (∀ p, p < 16 → b.member.has (portUnit p) = true → b.receives p = true → (∃ b', exec (.lpiReceived p) ⟨b, q⟩ = .next ⟨b', q⟩ ∧
      (b'.prt p).lpi = true ∧ b'.rd (PRTp_CNTi p 12) = b.rd (PRTp_CNTi p 12) + 1 ∧
      ((b.prt p).lpi = false → b'.pendingEvent (portEvt p 11) = true) ∧
      Frame (withEvt [PRTp_CNTi p 12, PRTp_CNT_ROLL p]) Block.noPort b b')) ∧
    (∀ p mac, b.member.has (portUnit p) = true → (b.prt (b.pairLow p)).nodes.any (fun e => e.mac == mac) = true → (∃ b', exec (.nodeEntryForget p mac) ⟨b, q⟩ = .next ⟨b', q⟩ ∧
      (b'.prt (b.pairLow p)).nodes = (b.prt (b.pairLow p)).nodes.filter (fun x => x.mac != mac) ∧
      b'.get (PRTp_NODES_USED (b.pairLow p)) = (b'.prt (b.pairLow p)).nodes.length % 2 ^ (PRTp_NODES_USED 0).width ∧
      Frame (within [(PRTp_NODES_USED (b.pairLow p)).addr]) (fun x => x.noPort.noTime) b b')) ∧
    (∀ p r, b.member.has (portUnit p) = true → b.pairOf p = some (1, r) → bits (b.prt p).red.toNat 16 8 ≠ 0 → (b.prt p).silent = false →
      (∃ t, (b.prt r).lastRx = some t ∧ b.tim.elapsed ≤ t ∧ (b.prt p).timer + bits (b.prt p).red.toNat 16 8 * 1000000 * 2 ^ 32 ≤ b.tim.elapsed) →
      (∃ b', exec (.lanSilent p) ⟨b, q⟩ = .next ⟨b', q⟩ ∧
      (b'.prt p).silent = true ∧ b'.pendingEvent (portEvt p 9) = true ∧
        Frame (withEvt []) Block.noPort b b'))

/-- Frames, in a module that is up: a frame received on a process port goes through the port's checks and redundancy handling (R129); a
supervision frame advances the sequence number and is admitted to both ports of the pair (R135); the switch core forwards the frame that
waits longest (R154); an egress port that is free starts its next frame where no queued launch would be delayed (R169), and an ended
one leaves its reference and its place on the wire (R160); a frame with a launch time leaves its launch queue at that time, and one not
late starts (R116); a station frame that passes the MAC, class and MACsec checks is delivered (R172).

Says that exec answers a next state, under conditions on the state and the operands alone, for: portFrameReceived, supervisionTx,
switchForward, egressFrameStart, egressFrameEnd, frameLaunch, stationFrameReceived. -/
def Obligations.FrameCommands : Prop :=
  ∀ (b : Block) (q : List Instr), b.up →
    (∀ p f, b.member.has (portUnit p) = true → (∃ b', exec (.portFrameReceived p f) ⟨b, q⟩ = .next ⟨b', q⟩ ∧
      b' = ((b.portFrame p f).bivSettle).commit)) ∧
    (∀ p r, b.member.has (portUnit p) = true → b.pairOf p = some (1, r) → (∃ b', exec (.supervisionTx p) ⟨b, q⟩ = .next ⟨b', q⟩ ∧
      (b'.prt (if r < p then r else p)).supSeq = ((b.prt (if r < p then r else p)).supSeq + 1) % 65536)) ∧
    (∀ f rest, b.takes ⟨.swc, 0⟩ = true → b.swc.ingress = f :: rest → (∃ b', exec .switchForward ⟨b, q⟩ = .next ⟨b', q⟩ ∧
      b' = (((b.modSwc (fun w => { w with ingress := rest })).forward f).2).commit)) ∧
    (∀ e f c, e < 23 → b.portFree e = true → b.nextFrame e = some (f, c) → b.clearOfLaunch e f.bytes = true →
      (∃ b', exec (.egressFrameStart e) ⟨b, q⟩ = .next ⟨b', q⟩ ∧
      b' = ((c.awake e).startFrame e f).commit)) ∧
    (∀ e id, b.swc.sending.get (fun _ => none) e = some id → (∃ b', exec (.egressFrameEnd e) ⟨b, q⟩ = .next ⟨b', q⟩ ∧
      b'.swc.sending.get (fun _ => none) e = none ∧ b'.swc.wire.get (fun _ => []) e = [])) ∧
    (∀ e id l f t, b.swc.launch.get (fun _ => []) e = id :: l → b.portFree e = true → b.stored id = some f → f.launch = some t →
      tdiff40 b.ns t = 0 → (∃ b', exec (.frameLaunch e) ⟨b, q⟩ = .next ⟨b', q⟩ ∧
      b' = (((b.modSwc (fun w => { w with launch := dequeue w.launch e })).awake e).startFrame e f).commit)) ∧
    (∀ p f c1 c2 g c3, p < 4 → b.member.has ⟨.stn, p⟩ = true → b.receives (16 + p) = true → b.macCheck (16 + p) f = (true, c1) → c1.classCheck (16 + p) f.bytes = (true, c2) →
      c2.secVerify p f.bytes = (some g, c3) → (∃ b', exec (.stationFrameReceived p f) ⟨b, q⟩ = .next ⟨b', q⟩ ∧
      b' = (c3.stnDeliver p g (c1.ingressStamp (16 + p) f.stamp)).commit))

/-- The forwarding database (R155, R186), link-group buckets (R164) and mirror records (R167), in a module that is up: a read finds the key's
entry or answers RESULT 1 with nothing; a valid write with room leaves the key's entry as written, static included, and RESULT 0; one
without VALID leaves the key without entry; a delete removes the key's entry; a flush leaves static entries only; a learned entry ages
out; a bucket word and a consumer count are held. Every other unit's state and every memory byte stay.

Says that exec answers a next state, under conditions on the state and the operands alone, for: fdbRead, fdbWrite, fdbDelete,
fdbFlushLearned, fdbEntryAge, lagBucketWrite, mirrorConsWrite. -/
def Obligations.SwitchTables : Prop :=
  ∀ (b : Block) (q : List Instr), b.up →
    (∀ e, b.fdbFind b.fdbKey.1 b.fdbKey.2 = some e → (∃ b', exec .fdbRead ⟨b, q⟩ = .next ⟨b', q⟩ ∧
      b'.rd SWC_FDB_RES = BitVec.ofNat 32 (2 ^ 25 + (if e.static then 2 ^ 24 else 0) + e.mask) ∧ b'.get SWC_FDB_CMD_RESULT = 0 ∧
      Frame (within [SWC_FDB_RES, SWC_FDB_CMD]) id b b')) ∧
    (b.fdbFind b.fdbKey.1 b.fdbKey.2 = none → (∃ b', exec .fdbRead ⟨b, q⟩ = .next ⟨b', q⟩ ∧
      b'.rd SWC_FDB_RES = 0 ∧ b'.get SWC_FDB_CMD_RESULT = 1 ∧ Frame (within [SWC_FDB_RES, SWC_FDB_CMD]) id b b')) ∧
    (b.on SWC_FDB_RES_VALID = true → b.fdbFull b.fdbKey.1 b.fdbKey.2 = false → (∃ b', exec .fdbWrite ⟨b, q⟩ = .next ⟨b', q⟩ ∧
      b'.fdbFind b.fdbKey.1 b.fdbKey.2 = some ⟨b.fdbKey.1, b.fdbKey.2, b.on SWC_FDB_RES_STATIC, b.get SWC_FDB_RES_MASK, b.ns⟩ ∧
      b'.get SWC_FDB_CMD_RESULT = 0 ∧ Frame (within [SWC_FDB_CMD]) Block.noSwc b b')) ∧
    (b.on SWC_FDB_RES_VALID = false → (∃ b', exec .fdbWrite ⟨b, q⟩ = .next ⟨b', q⟩ ∧
      b'.fdbFind b.fdbKey.1 b.fdbKey.2 = none ∧ b'.get SWC_FDB_CMD_RESULT = 0 ∧ Frame (within [SWC_FDB_CMD]) Block.noSwc b b')) ∧
    (∃ b', exec .fdbDelete ⟨b, q⟩ = .next ⟨b', q⟩ ∧
      b'.fdbFind b.fdbKey.1 b.fdbKey.2 = none ∧
      b'.get SWC_FDB_CMD_RESULT = (if (b.fdbFind b.fdbKey.1 b.fdbKey.2).isSome then 0 else 1) ∧ Frame (within [SWC_FDB_CMD]) Block.noSwc b b') ∧
    (∃ b', exec .fdbFlushLearned ⟨b, q⟩ = .next ⟨b', q⟩ ∧
      (∀ e, e ∈ b'.swc.fdb ↔ e ∈ b.swc.fdb ∧ e.static = true) ∧
      b'.get SWC_FDB_CMD_RESULT = 0 ∧ Frame (within [SWC_FDB_CMD]) Block.noSwc b b') ∧
    (∀ v m e, b.fdbFind v m = some e → e.static = false → (∃ b', exec (.fdbEntryAge v m) ⟨b, q⟩ = .next ⟨b', q⟩ ∧
      b'.fdbFind v m = none ∧ Frame (within []) (fun x => x.noSwc.noTime) b b')) ∧
    (∀ k w v, k < 4 → w < 16 → (∃ b', exec (.lagBucketWrite k w v) ⟨b, q⟩ = .next ⟨b', q⟩ ∧
      b'.rd (SWC_LAGk_BUCKETw k w) = v ∧ Frame (within [SWC_LAGk_BUCKETw k w]) id b b')) ∧
    (∀ m v, m < 4 → (∃ b', exec (.mirrorConsWrite m v) ⟨b, q⟩ = .next ⟨b', q⟩ ∧
      b'.rd (SWC_MIRm_CONS m) = v ∧ Frame (within [SWC_MIRm_CONS m]) id b b'))

/-- Station ports, in a module that is up: an idle port whose egress no GOOSE block uses enters low-power idle and counts it (R173); a frame
makes it leave and holds the port for the wake time (R175); a write of the wake time is held and reports event 5 when it is below the
minimum (R176); SA_EN on a key slot of 32 octets that may be used records the slot's generation (R179).

Says that exec answers a next state, under conditions on the state and the operands alone, for: eeeLpiEntry, eeeWake, eeeTwWrite, saEnable. -/
def Obligations.StationCommands : Prop :=
  ∀ (b : Block) (q : List Instr), b.up →
    (∀ p, p < 4 → b.member.has ⟨.stn, p⟩ = true → b.on (linkBit (16 + p)) = true → b.on (STNs_STAT_EEE_ACTIVE p) = true → b.on (STNs_EEE_EN p) = true →
      b.on (STNs_STAT_TX_LPI p) = false → b.portEmpty (16 + p) = true → b.eeeBlocked p = false → (∃ b', exec (.eeeLpiEntry p) ⟨b, q⟩ = .next ⟨b', q⟩ ∧
      b'.get (STNs_STAT_TX_LPI p) = 1 ∧ b'.rd (STNs_CNTi p 9) = b.rd (STNs_CNTi p 9) + 1 ∧
        Frame (withEvt [STNs_STAT p, STNs_CNTi p 9, STNs_CNT_ROLL p]) Block.noTime b b')) ∧
    (∀ p, p < 4 → b.member.has ⟨.stn, p⟩ = true → b.portEmpty (16 + p) = false → b.on (STNs_STAT_TX_LPI p) = true → (∃ b', exec (.eeeWake p) ⟨b, q⟩ = .next ⟨b', q⟩ ∧
      b'.get (STNs_STAT_TX_LPI p) = 0 ∧ b'.swc.wakeAt.get (fun _ => 0) p = b.ns + b.wakeUs p * 1000 ∧
      Frame (within [STNs_STAT p]) Block.noSwc b b')) ∧
    (∀ p v, p < 4 → b.member.has ⟨.stn, p⟩ = true → b.imgLock = true → (∃ b', exec (.eeeTwWrite p v) ⟨b, q⟩ = .next ⟨b', q⟩ ∧
      b'.get (STNs_EEE_TW_TX_TW p) = v.toNat % 2 ^ (STNs_EEE_TW_TX_TW p).width ∧ b'.get (STNs_EEE_TW_TW_MIN p) = b.get (STNs_EEE_TW_TW_MIN p) ∧
      (v.toNat % 2 ^ (STNs_EEE_TW_TX_TW p).width < b.get (STNs_EEE_TW_TW_MIN p) → b'.pendingEvent (389 + 16 * p) = true) ∧
      Frame (withEvt [STNs_EEE_TW p]) id b b')) ∧
    (∀ p n v, p < 4 → n < 36 → b.member.has ⟨.stn, p⟩ = true → b.member.hasMacsec = true → b.keyOk (bits v.toNat 0 9) 2 = true → b.get (KEY_SLOTn_ATTR_LEN (bits v.toNat 0 9)) = 32 →
      (∃ b', exec (.saEnable p n v) ⟨b, q⟩ = .next ⟨b', q⟩ ∧
      b'.get (saEn p n) = 1 ∧ b'.swc.saGen.get (fun _ => 0) (64 * p + n) = b.keyGen (bits v.toNat 0 9) ∧
        Frame (within [saCtrl p n]) Block.noSwc b b'))

/-- Publication blocks and the gate, in a module that is up: EN clear stops a block and writes only its CFG word; EN set on a stopped block
starts it from its registers; an enabled block's retransmission falls due at its interval; a resend runs the publication burst; the gate
closes on FORCE_CLOSE with event 465 and opens only under the lease (R170).

Says that exec answers a next state, under conditions on the state and the operands alone, for: pubBlockEnable, gooseFrameDue, pubResend,
gateForceCloseWrite. -/
def Obligations.PublicationCommands : Prop :=
  ∀ (b : Block) (q : List Instr), b.up →
    (∀ k v, k < 4096 → bit v.toNat 31 = false → (∃ b', exec (.pubBlockEnable k v) ⟨b, q⟩ = .next ⟨b', q⟩ ∧
      (b'.pubOf k).en = false ∧ b'.rd (SWC_PUBb_CFG k) = v &&& 0xF00FFFFF ∧ Frame (within [SWC_PUBb_CFG k]) Block.noPub b b')) ∧
    (∀ k v, k < 4096 → bit v.toNat 31 = true → (b.pubOf k).en = false → (∃ b', exec (.pubBlockEnable k v) ⟨b, q⟩ = .next ⟨b', q⟩ ∧
      (b'.pubOf k).en = true ∧ (b'.pubOf k).last = b.ns)) ∧
    (∀ k, (b.pubOf k).en = true → (∃ b', exec (.gooseFrameDue k) ⟨b, q⟩ = .next ⟨b', q⟩ ∧
      (b'.pubOf k).en = true ∧ (b'.pubOf k).last = (b.advanceTo ((b.pubOf k).last + (b.pubOf k).iv * 1000)).ns)) ∧
    (∃ b', exec .pubResend ⟨b, q⟩ = .next ⟨b', q⟩ ∧
      b' = b.pubBurst.commit) ∧
    (∃ b', exec (.gateForceCloseWrite true) ⟨b, q⟩ = .next ⟨b', q⟩ ∧
      b'.get SWC_GATE_FORCE_CLOSE = 1 ∧ b'.get SWC_GATE_OPEN = 0 ∧
      (b.on SWC_GATE_OPEN = true → b'.pendingEvent 465 = true) ∧ Frame (withEvt [SWC_GATE]) Block.noSwc b b') ∧
    (b.leased = false → (∃ b', exec (.gateForceCloseWrite false) ⟨b, q⟩ = .next ⟨b', q⟩ ∧
      b'.get SWC_GATE_FORCE_CLOSE = 0 ∧ b'.get SWC_GATE_OPEN = 0 ∧
      Frame (withEvt [SWC_GATE]) Block.noSwc b b')) ∧
    (b.leased = true → b.on SWC_GATE_OPEN = true → (∃ b', exec (.gateForceCloseWrite false) ⟨b, q⟩ = .next ⟨b', q⟩ ∧
      b'.get SWC_GATE_FORCE_CLOSE = 0 ∧ b'.get SWC_GATE_OPEN = 1 ∧ Frame (within [SWC_GATE]) id b b'))

/-- The stream intake, in a module that is up: EN on a free slot whose area overlaps no other is held, and the slot's instance of the
configuration is taken (R190); EN cleared disables the slot: its entry is off, its state DISABLED, nothing arriving (R214); EN on a group with a
rate code that exists sets NEXT to the first instant not yet past (R727); EN cleared drops its unreleased rows (R217); clearing SIM_MODE and
setting it are held (R204); the head frame of an engine is taken and the next instant of an enabled group is released (R196, R212).

Says that exec answers a next state, under conditions on the state and the operands alone, for: slotEnable, slotDisable, groupEnable,
groupDisable, simModeWrite, rhizoidSvFrame, instantRelease. -/
def Obligations.IntakeCommands : Prop :=
  ∀ (b : Block) (q : List Instr), b.up →
    (∀ k v, k < b.member.slots → (b.slotOf k).en = true → (∃ b', exec (.slotEnable k v) ⟨b, q⟩ = .next ⟨b', q⟩ ∧
      b'.rd (RHZ_SLOTs_CFG k) = BitVec.ofNat 32 ((v.toNat &&& 0x7EFF03FF) + 2 ^ 31) ∧ Frame (within [RHZ_SLOTs_CFG k]) id b b')) ∧
    (∀ k v, k < b.member.slots → (b.slotOf k).en = false → b.overlapOf k = none → (∀ c, (b.chanOf c).en = false) →
      (∃ b', exec (.slotEnable k v) ⟨b, q⟩ = .next ⟨b', q⟩ ∧
      b' = (((b.wr (RHZ_SLOTs_CFG k) (BitVec.ofNat 32 ((v.toNat &&& 0x7EFF03FF) + 2 ^ 31))).slotEnable k).commit))) ∧
    (∀ k, k < b.member.slots → (b.slotOf k).en = true → (∃ b', exec (.slotDisable k) ⟨b, q⟩ = .next ⟨b', q⟩ ∧
      (b'.slotOf k).en = false ∧ (b'.slotOf k).offRows = (b.grpOf (b.slotOf k).group).depth)) ∧
    (∀ g v, g < 16 → bits v.toNat 0 3 < 5 → (b.grpOf g).en = false → (∃ b', exec (.groupEnable g v) ⟨b, q⟩ = .next ⟨b', q⟩ ∧
      (b'.grpOf g).en = true ∧ (b'.grpOf g).start = (b'.grpOf g).firstFrom b.ns)) ∧
    (∀ g, g < 16 → (∃ b', exec (.groupDisable g) ⟨b, q⟩ = .next ⟨b', q⟩ ∧
      (b'.grpOf g).en = false ∧ (b'.grpOf g).rows = [] ∧ (b'.grpOf g).awaited = [] ∧ b'.get (RHZ_GRPg_CFG_EN g) = 0 ∧
      (∀ h, h ≠ g → b'.grpOf h = b.grpOf h) ∧ Frame (within [RHZ_GRPg_CFG g]) Block.noRhz b b')) ∧
    (∃ b', exec (.simModeWrite true) ⟨b, q⟩ = .next ⟨b', q⟩ ∧
      b'.get RHZ_CTRL_SIM_MODE = 1 ∧ Frame (within [RHZ_CTRL]) id b b') ∧
    (∃ b', exec (.simModeWrite false) ⟨b, q⟩ = .next ⟨b', q⟩ ∧
      b'.get RHZ_CTRL_SIM_MODE = 0) ∧
    (∀ e f l, b.member.has ⟨.rhz, e⟩ = true → b.rhz.queue.get (fun _ => []) e = f :: l → isSv f = true → (∃ b', exec (.rhizoidSvFrame e) ⟨b, q⟩ = .next ⟨b', q⟩ ∧
      b' = (((b.engineTake e).svFrame e f).tryFollowAll).commit)) ∧
    (∀ g, g < 16 → (b.grpOf g).en = true → b.following = false → (∃ b', exec (.instantRelease g) ⟨b, q⟩ = .next ⟨b', q⟩ ∧
      b' = (let i := b.grpNext g;
            let c := (b.advanceTo ((b.releaseRef g).1 + b.guardFor g i)).instantOwn g;
            c.doIf (i % c.decIn g == 0) (fun x => x.joinInstantCapture g (i / x.decIn g) [16 + g])).commit))

/-- The phasor front end, in a module that is up: EN on a channel that is enabled already is held in its CFG word alone, on an idle one the
configuration is taken (R226); EN set on a tracking group resets it to NOMINAL at its nominal frequency, EN cleared likewise (R244); a
released decimated instant is worked through (R253); a golden-vector run that agrees reports nothing, one that disagrees twice retires by
channel event 4 (R226).

Says that exec answers a next state, under conditions on the state and the operands alone, for: channelEnable, trkGroupEnable,
sorusInstantDone, goldenVectorRun. -/
def Obligations.PhasorCommands : Prop :=
  ∀ (b : Block) (q : List Instr), b.up →
    (∀ c v, c < b.member.channels → (b.chanOf c).en = true → (∃ b', exec (.channelEnable c v) ⟨b, q⟩ = .next ⟨b', q⟩ ∧
      b'.rd (SOR_CHc_CFG c) = BitVec.ofNat 32 ((v.toNat &&& 0x7FFFFFE0) + 2 ^ 31) ∧ Frame (within [SOR_CHc_CFG c]) id b b')) ∧
    (∀ t v, t < 64 → bit v.toNat 31 = true → (b.trkOf t).en = false → (∃ b', exec (.trkGroupEnable t v) ⟨b, q⟩ = .next ⟨b', q⟩ ∧
      (b'.trkOf t).en = true ∧ (b'.trkOf t).fEst = (b'.trkOf t).fnom ∧ b'.get (SOR_TRKt_STAT_REF_B t) = 0)) ∧
    (∀ t v, t < 64 → bit v.toNat 31 = false → (b.trkOf t).en = true → (∃ b', exec (.trkGroupEnable t v) ⟨b, q⟩ = .next ⟨b', q⟩ ∧
      (b'.trkOf t).en = false ∧ (b'.trkOf t).fEst = (b.trkOf t).fnom ∧ (b'.trkOf t).rocof = 0)) ∧
    (∀ g n, g < 16 → b.nextDecimated g = some n → (∀ k, b.laneMap k = (b.sorusInstant g n).laneMap k) → (∃ b', exec (.sorusInstantDone g) ⟨b, q⟩ = .next ⟨b', q⟩ ∧
      b' = (b.sorusInstant g n).commit)) ∧
    (∀ l x, l < 16 → b.laneTests l = true → b.on ROPE_CFG2_SELFTEST = false → (∃ b', exec (.goldenVectorRun l true x) ⟨b, q⟩ = .next ⟨b', q⟩ ∧
      b' = (b.goldenRun l true).commit))

/-- Comparators, in a module that is up: a write of 1 clears STICKY, COUNT and FIRST of exactly the comparators named (R271); a read of THR_STAT
answers the watermark and latches FIRST for the requester, changing no register (R272); EN on an idle comparator with a legal source takes
its configuration and clears LIVE and RUN (R278).

Says that exec answers a next state, under conditions on the state and the operands alone, for: stickyClear, thrStatRead, comparatorEnable. -/
def Obligations.ComparatorCommands : Prop :=
  ∀ (b : Block) (q : List Instr), b.up →
    (∀ w i, i < 32 → 32 * w + i < 4 * b.member.channels → (∃ b', exec (.stickyClear w (BitVec.ofNat 32 (2 ^ i))) ⟨b, q⟩ = .next ⟨b', q⟩ ∧
      b'.get (THRk_STAT_STICKY (32 * w + i)) = 0 ∧ b'.get (THRk_STAT_COUNT (32 * w + i)) = 0 ∧ (b'.thrOf (32 * w + i)).first = 0 ∧
      (∀ k, k ≠ 32 * w + i → b'.thrOf k = b.thrOf k) ∧
      Frame (within [THRk_STAT (32 * w + i), (stickyBit (32 * w + i)).addr]) Block.noSor b b')) ∧
    (∀ who k, k < 4 * b.member.channels → (∃ b', exec (.thrStatRead who k) ⟨b, q⟩ = .next ⟨b', q⟩ ∧
      b'.readData = (b.rd (THRk_STAT k)).toNat ∧
      b'.shadow.get (fun _ => 0) (shadowKey who (THRk_FIRST_LO k)) = BitVec.ofNat 32 (b.thrOf k).first ∧
      Frame (within []) Block.noShadow b b')) ∧
    (∀ k v, k < 4 * b.member.channels → bits v.toNat 27 3 = 1 → (b.thrOf k).en = false → (∃ b', exec (.comparatorEnable k v) ⟨b, q⟩ = .next ⟨b', q⟩ ∧
      (b'.thrOf k).en = true ∧ (b'.thrOf k).run = 0 ∧ b'.get (THRk_STAT_LIVE k) = 0 ∧ b'.get (THRk_RUN_RUN k) = 0 ∧
      (∀ j, j ≠ k → b'.thrOf j = b.thrOf j) ∧
      Frame (within [THRk_CFG k, THRk_STAT k, (liveBit k).addr, THRk_RUN k]) Block.noSor b b'))

/-- GOOSE intake, in a module that is up: EN cleared on a running entry ends it and its pending change (R361); EN on an idle entry takes its
configuration and clears its history (R361); a timeout of a valid entry makes its change (R364); a post to an entry that is not an
auxiliary one is refused with RESULT 1 and changes nothing else (R366); the head frame of an engine that is no sampled-value frame is
judged as a GOOSE frame (R196).

Says that exec answers a next state, under conditions on the state and the operands alone, for: gsubEnable, gsubTimeout, ginPost,
gooseFrameIntake. -/
def Obligations.GooseIntakeCommands : Prop :=
  ∀ (b : Block) (q : List Instr), b.up →
    (∀ e v, e < 4096 → bit v.toNat 31 = false → (b.subOf e).en = true → (∃ b', exec (.gsubEnable e v) ⟨b, q⟩ = .next ⟨b', q⟩ ∧
      (b'.subOf e).en = false ∧ (b'.subOf e).pend = none ∧ (b'.subOf e).wait = [] ∧ (∀ n ∈ b'.gin.notices, n.1 ≠ e) ∧
      b'.get (RHZ_GSUBe_STAT_STATE e) = 0)) ∧
    (∀ e v, e < 4096 → bit v.toNat 31 = true → (b.subOf e).en = false → (∃ b', exec (.gsubEnable e v) ⟨b, q⟩ = .next ⟨b', q⟩ ∧
      (b'.subOf e).en = true ∧ (b'.subOf e).have_ = false ∧ (b'.subOf e).pend = none)) ∧
    (∀ e, (b.subOf e).en = true → b.get (RHZ_GSUBe_STAT_STATE e) = 2 → (b.subOf e).talNs ≠ 0 → (∃ b', exec (.gsubTimeout e) ⟨b, q⟩ = .next ⟨b', q⟩ ∧
      b' = ((b.advanceTo ((b.subOf e).lastTs + (b.subOf e).talNs)).ginChange e 16
        { ts := (b.subOf e).lastTs + (b.subOf e).talNs, tick := 0, late := false, state := 3 }).commit)) ∧
    (∀ v, (b.subOf (bits v.toNat 0 12)).en = false → (∃ b', exec (.ginPost v) ⟨b, q⟩ = .next ⟨b', q⟩ ∧
      b'.get RHZ_GIN_POST_CMD_RESULT = 1 ∧ b'.get RHZ_GIN_POST_CMD_ENTRY = bits v.toNat 0 12 ∧ Frame (within [RHZ_GIN_POST_CMD]) id b b')) ∧
    (∀ v, (b.subOf (bits v.toNat 0 12)).en = true → (b.subOf (bits v.toNat 0 12)).kind = 1 →
      (b.subOf (bits v.toNat 0 12)).lastPost ≤ b.rd64 RHZ_GIN_POST_TS_LO → (∃ b', exec (.ginPost v) ⟨b, q⟩ = .next ⟨b', q⟩ ∧
      b'.get RHZ_GIN_POST_CMD_RESULT = 0)) ∧
    (∀ e f l, b.member.has ⟨.rhz, e⟩ = true → b.rhz.queue.get (fun _ => []) e = f :: l → isSv f = false → (∃ b', exec (.gooseFrameIntake e) ⟨b, q⟩ = .next ⟨b', q⟩ ∧
      b' = ((b.engineTake e).gooseFrame e f).commit))

/-- Crozier, in a module that is up: it acts on the oldest tick number received and takes it from its queue (R285); an instant marker copies
the snapshot ranges (R297); a tuft's head task starts (R301); a held task whose limit passes is marked late with event 720 (R296); a
running task that exits within its budget shows its exit status and begins its commit (R337); a commit completes (R299); a running task that
reaches its budget goes OVER and counts an overrun (R307); one that reaches twice its budget is aborted, with an abort counted for its
table (R307).

Says that exec answers a next state, under conditions on the state and the operands alone, for: crzTick, instantMarker, taskStart,
holdLimitExpiry, taskExit, commitComplete, budgetExpiry, taskAbort. -/
def Obligations.TaskCommands : Prop :=
  ∀ (b : Block) (q : List Instr), b.up →
    (∀ n l, b.crz.ticks = n :: l → (∃ b', exec .crzTick ⟨b, q⟩ = .next ⟨b', q⟩ ∧
      b' = (((b.modCrz (fun c => { c with ticks := l })).crzTick n).ropeEval).commit)) ∧
    (∀ g m, g < 16 → (∃ b', exec (.instantMarker g m) ⟨b, q⟩ = .next ⟨b', q⟩ ∧
      b' = ((b.instantMarker g m).joinInstantCapture g m [g, 32 + g]).commit)) ∧
    (∀ t c r, t < 16 → b.tuftHead t = some (c, r) → (∃ b', exec (.taskStart ⟨t, []⟩) ⟨b, q⟩ = .next ⟨b', q⟩ ∧
      b' = (b.startTask c r).commit)) ∧
    (∀ c r, b.coreHead c = some r → r.late = false → r.ins.all (fun e => b.elemReady r e) = false →
      (∃ b', exec (.holdLimitExpiry c) ⟨b, q⟩ = .next ⟨b', q⟩ ∧
      b'.pendingEvent 720 = true ∧ b'.rd (CRZ_CNTi 6) = b.rd (CRZ_CNTi 6) + 1 ∧
        b'.crz.runs = b.crz.runs.map (fun x => if sameRun x r then { r with late := true } else x) ∧
        Frame (withEvt [CRZ_CNTi 6, CRZ_CNT_ROLL]) (fun x => x.noCrz.noTime) b b')) ∧
    (∀ c r, b.onCore c = some r → c < 128 → r.st = .running → b.elapsedNs - r.start ≤ dBudget r.desc → 0 < dBudget r.desc → (∃ b', exec (.taskExit c) ⟨b, q⟩ = .next ⟨b', q⟩ ∧
      b'.get (FRDc_EXIT_VALID c) = 1 ∧ b'.get (FRDc_STAT_STATE c) = cCOMMIT ∧
      b'.crz.runs = b.crz.runs.map (fun x => if sameRun x r then { r with st := .commit } else x) ∧
      Frame (within [FRDc_EXIT c, FRDc_STAT c, FRDc_CYC_LAST c, FRDc_CYC_MAX c]) Block.noCrz b b')) ∧
    (∀ c r, b.onCore c = some r → r.st = .commit → (∃ b', exec (.commitComplete c) ⟨b, q⟩ = .next ⟨b', q⟩ ∧
      b' = ((b.commitTask r).compareAll).commit)) ∧
    (∀ c r, b.onCore c = some r → r.st = .running → (∃ b', exec (.budgetExpiry c) ⟨b, q⟩ = .next ⟨b', q⟩ ∧
      b'.crz.runs = b.crz.runs.map (fun x => if sameRun x r then { r with st := .over } else x) ∧ b'.frd = b.frd ∧ b'.rope = b.rope)) ∧
    (∀ c r, b.onCore c = some r → r.st = .over → (∃ b', exec (.taskAbort c) ⟨b, q⟩ = .next ⟨b', q⟩ ∧
      b' = ((b.advanceElapsed (r.start + 2 * dBudget r.desc)).abortRun r 1).commit))

/-- Crozier's control, in a module that is up: a renewal point is taken and the next one set 2 ms later (R310); an armed swap is cancelled, and a
swap is armed at a boundary that lies three ticks ahead or refused with state 5 and event 714 (R316); a descriptor inside a CONTROL region
with sound lines is read into CRZ_DESC_DATA, and one in use is not written (R322, R292); a write of TBL_EN that would clear P or C
under the lease is refused through ROOT_ERR.REFUSED and leaves TBL_EN (R309, R69).

Says that exec answers a next state, under conditions on the state and the operands alone, for: leaseRenewal, swapCancel, swapArm, descRead,
descWrite, tblEnWrite. -/
def Obligations.CrozierControl : Prop :=
  ∀ (b : Block) (q : List Instr), b.up →
    (b.rst.ran = true → b.hasRope = false → b.rope.lease = false → b.role ≠ rSOLO → (∃ b', exec .leaseRenewal ⟨b, q⟩ = .next ⟨b', q⟩ ∧
      b'.crz.renewAt = b.crz.renewAt + 2000000 ∧ Frame (within []) (fun x => x.noCrz.noTime) b b')) ∧
    (b.swapState = 1 → (∃ b', exec .swapCancel ⟨b, q⟩ = .next ⟨b', q⟩ ∧
      b'.get CRZ_SWAP_CTRL_STATE = 0 ∧ Frame (within [CRZ_SWAP_CTRL]) id b b')) ∧
    (∀ v, b.swapState = 0 → bit v.toNat 31 = true → b.rd64 CRZ_SWAP_TICK_LO < b.lastTick + 3 → (∃ b', exec (.swapArm v) ⟨b, q⟩ = .next ⟨b', q⟩ ∧
      b'.get CRZ_SWAP_CTRL_STATE = 5 ∧ b'.pendingEvent 714 = true ∧ Frame (withEvt [CRZ_SWAP_CTRL]) id b b')) ∧
    (∀ v c, b.swapState = 0 → bit v.toNat 31 = true → b.role ≠ rACTIVE → b.lastTick + 3 ≤ b.rd64 CRZ_SWAP_TICK_LO →
      c = (((b.set CRZ_SWAP_CTRL_RETRY (bits v.toNat 23 4)).set CRZ_SWAP_CTRL_TABLES (bits v.toNat 15 4)).set CRZ_SWAP_CTRL_TRIG
        (bits v.toNat 14 1)).set CRZ_SWAP_CTRL_CARRY_COUNT (bits v.toNat 0 13) →
      c.swapBoundary (b.rd64 CRZ_SWAP_TICK_LO) = true → bits v.toNat 0 13 ≤ 2048 → (∃ b', exec (.swapArm v) ⟨b, q⟩ = .next ⟨b', q⟩ ∧
      b'.get CRZ_SWAP_CTRL_STATE = 1 ∧ b'.get CRZ_SWAP_CTRL_TABLES = bits v.toNat 15 4 ∧ b'.get CRZ_SWAP_CTRL_DEFERRALS = 0 ∧
        b'.crz.swapAt = b.rd64 CRZ_SWAP_TICK_LO ∧ Frame (within [CRZ_SWAP_CTRL]) Block.noCrz b b')) ∧
    (∀ ws, b.desc (b.get CRZ_DESC_IDX_INDEX) = some ws → (∃ b', exec .descRead ⟨b, q⟩ = .next ⟨b', q⟩ ∧
      (∀ w, w < 8 → b'.rd (CRZ_DESC_DATAw w) = BitVec.ofNat 32 (dWord ws w)) ∧ b'.get CRZ_DESC_CMD_RESULT = 0 ∧
      Frame (within (CRZ_DESC_CMD :: (List.range 8).map CRZ_DESC_DATAw)) id b b')) ∧
    (b.descInUse (b.get CRZ_DESC_IDX_INDEX) = true → (∃ b', exec .descWrite ⟨b, q⟩ = .next ⟨b', q⟩ ∧
      b'.get CRZ_DESC_CMD_RESULT = 1 ∧ Frame (within [CRZ_DESC_CMD]) id b b')) ∧
    (∀ r c, b.descPut (b.get CRZ_DESC_IDX_INDEX) ((List.range 8).map (fun w => (b.rd (CRZ_DESC_DATAw w)).toNat)) = (r, c) →
      b.lineOk (b.descAddr (b.get CRZ_DESC_IDX_INDEX)) = true → (∃ b', exec .descWrite ⟨b, q⟩ = .next ⟨b', q⟩ ∧
      b' = (c.set CRZ_DESC_CMD_RESULT r).commit)) ∧
    (∀ who v, b.leased = true → (b.get CRZ_CTRL_TBL_EN % 4) &&& v % 4 ≠ b.get CRZ_CTRL_TBL_EN % 4 → (∃ b', exec (.tblEnWrite who v) ⟨b, q⟩ = .next ⟨b', q⟩ ∧
      b'.get ROOT_ERR_REFUSED = 1 ∧ b'.pendingEvent 12 = true ∧ b'.get CRZ_CTRL_TBL_EN = b.get CRZ_CTRL_TBL_EN ∧
      Frame (withEvt [ROOT_ERR, ROOT_ERR_ADDR]) id b b')) ∧
    (∀ who v, b.leased = false → b.get CRZ_CTRL_TBL_EN = 0 → (∃ b', exec (.tblEnWrite who v) ⟨b, q⟩ = .next ⟨b', q⟩ ∧
      b'.get CRZ_CTRL_TBL_EN = v % 16 ∧ b'.crz = b.crz))

/-- An Xgfrond instruction on core c with destination register rd leaves: every other core; every other integer register, the floating-point
registers and the accumulator of c; pc four further; every register of BAR0, every memory byte and every other unit's own state. -/
def Sys2Proof.Machine.coreKeeps (c rd : Nat) (b b' : Block) : Prop :=
  (∀ i, i ≠ c → b'.coreSt i = b.coreSt i) ∧ (∀ r, r ≠ rd → (b'.coreSt c).rx r = (b.coreSt c).rx r) ∧
  (b'.coreSt c).f = (b.coreSt c).f ∧ (b'.coreSt c).pc = (b.coreSt c).pc + 4 ∧ Frame (within []) Block.noFrd b b'

/-- The accumulator of core c stays. -/
def Sys2Proof.Machine.accKeeps (c : Nat) (b b' : Block) : Prop :=
  (b'.coreSt c).accRe = (b.coreSt c).accRe ∧ (b'.coreSt c).accIm = (b.coreSt c).accIm

/-- On a running core c with destination rd (x0 discards the value and reads zero), the Q31 instructions write the saturated or wrapped value of R340's
pseudocode, sign-extended; a clamp sets xfsat bit 0 and no instruction clears it; pc advances by four; no other register, no memory byte
and no other unit changes.

Says that exec answers a next state, under conditions on the state and the operands alone, for: qadd, qsub, qmul, qneg, qshl, qrshr. -/
def Obligations.FrondScalar : Prop :=
  ∀ (b : Block) (q : List Instr) (c rd rs1 rs2 : Nat), b.up → b.member.has ⟨.frond, c⟩ = true → b.running c = true → rd < 32 → rs1 < 32 → rs2 < 32 →
    ∀ a d : Int, a = q31 ((b.coreSt c).rx rs1) → d = q31 ((b.coreSt c).rx rs2) →
    ∀ P : Int → Block → Prop, (P = fun x b' => (b'.coreSt c).rx rd = (if rd = 0 then 0 else sext32 (satS 32 x).1) ∧
      (b'.coreSt c).sat = (b.coreSt c).sat ||| (satS 32 x).2.toNat ∧ coreKeeps c rd b b' ∧ accKeeps c b b') →
    (∃ b', exec (.qadd c rd rs1 rs2) ⟨b, q⟩ = .next ⟨b', q⟩ ∧
      P (a + d) b') ∧
    (∃ b', exec (.qsub c rd rs1 rs2) ⟨b, q⟩ = .next ⟨b', q⟩ ∧
      P (a - d) b') ∧
    (∃ b', exec (.qmul c rd rs1 rs2) ⟨b, q⟩ = .next ⟨b', q⟩ ∧
      P (rne (a * d) 31) b') ∧
    (∃ b', exec (.qneg c rd rs1) ⟨b, q⟩ = .next ⟨b', q⟩ ∧
      P (-a) b') ∧
    (∃ b', exec (.qshl c rd rs1 rs2) ⟨b, q⟩ = .next ⟨b', q⟩ ∧
      P (a * ((2 ^ (((b.coreSt c).rx rs2).toNat % 32) : Nat) : Int)) b') ∧
    (∃ b', exec (.qrshr c rd rs1 rs2) ⟨b, q⟩ = .next ⟨b', q⟩ ∧
      (b'.coreSt c).rx rd = (if rd = 0 then 0 else sext32 (sgn 32 (uns 32 (rne a (((b.coreSt c).rx rs2).toNat % 32))))) ∧
      (b'.coreSt c).sat = (b.coreSt c).sat ∧ coreKeeps c rd b b' ∧ accKeeps c b b')

/-- On a running core c the complex instructions compute as R340's pseudocode says: CMUL and CMULC write the packed rounded product; CMAC and
CMACC add the exact product to the accumulator, clamping to 80 bits and setting xfsat bit 1 on a clamp; CACCRD writes the packed shifted
accumulator; CACCCLR clears it; CMAG and CANG write magnitude and angle; x0 discards a value. Frames as for the Q31 instructions.

Says that exec answers a next state, under conditions on the state and the operands alone, for: cmul, cmulc, cmac, cmacc, caccrd, caccclr,
cmag, cang. -/
def Obligations.FrondComplex : Prop :=
  ∀ (b : Block) (q : List Instr) (c rd rs1 rs2 : Nat), b.up → b.member.has ⟨.frond, c⟩ = true → b.running c = true → rd < 32 → rs1 < 32 → rs2 < 32 →
    ∀ ar ai br bi : Int, ar = cRe ((b.coreSt c).rx rs1) → ai = cIm ((b.coreSt c).rx rs1) → br = cRe ((b.coreSt c).rx rs2) → bi = cIm ((b.coreSt c).rx rs2) →
    ∀ P : Int → Int → Block → Prop, (P = fun x y b' => (b'.coreSt c).rx rd = (if rd = 0 then 0 else packC (satS 32 x).1 (satS 32 y).1) ∧
      (b'.coreSt c).sat = (b.coreSt c).sat ||| ((satS 32 x).2 || (satS 32 y).2).toNat ∧ coreKeeps c rd b b' ∧ accKeeps c b b') →
    ∀ A : Int → Int → Block → Prop, (A = fun x y b' => (b'.coreSt c).accRe = (satS 80 ((b.coreSt c).accRe + x)).1 ∧
      (b'.coreSt c).accIm = (satS 80 ((b.coreSt c).accIm + y)).1 ∧
      (b'.coreSt c).sat = (b.coreSt c).sat ||| (2 * ((satS 80 ((b.coreSt c).accRe + x)).2 || (satS 80 ((b.coreSt c).accIm + y)).2).toNat) ∧
      coreKeeps c 0 b b') →
    (∃ b', exec (.cmul c rd rs1 rs2) ⟨b, q⟩ = .next ⟨b', q⟩ ∧
      P (rne (ar * br - ai * bi) 31) (rne (ar * bi + ai * br) 31) b') ∧
    (∃ b', exec (.cmulc c rd rs1 rs2) ⟨b, q⟩ = .next ⟨b', q⟩ ∧
      P (rne (ar * br - ai * -bi) 31) (rne (ar * -bi + ai * br) 31) b') ∧
    (∃ b', exec (.cmac c rs1 rs2) ⟨b, q⟩ = .next ⟨b', q⟩ ∧
      A (ar * br - ai * bi) (ar * bi + ai * br) b') ∧
    (∃ b', exec (.cmacc c rs1 rs2) ⟨b, q⟩ = .next ⟨b', q⟩ ∧
      A (ar * br - ai * -bi) (ar * -bi + ai * br) b') ∧
    (∃ b', exec (.caccrd c rd rs1) ⟨b, q⟩ = .next ⟨b', q⟩ ∧
      P (rne (b.coreSt c).accRe (((b.coreSt c).rx rs1).toNat % 64)) (rne (b.coreSt c).accIm (((b.coreSt c).rx rs1).toNat % 64)) b') ∧
    (∃ b', exec (.caccclr c) ⟨b, q⟩ = .next ⟨b', q⟩ ∧
      (b'.coreSt c).accRe = 0 ∧ (b'.coreSt c).accIm = 0 ∧ (b'.coreSt c).sat = (b.coreSt c).sat ∧ coreKeeps c 0 b b') ∧
    (∃ b', exec (.cmag c rd rs1) ⟨b, q⟩ = .next ⟨b', q⟩ ∧
      (b'.coreSt c).rx rd = (if rd = 0 then 0 else BitVec.ofNat 64 (nearestSqrt (ar * ar + ai * ai).toNat)) ∧
      (b'.coreSt c).sat = (b.coreSt c).sat ∧ coreKeeps c rd b b' ∧ accKeeps c b b') ∧
    (∃ b', exec (.cang c rd rs1) ⟨b, q⟩ = .next ⟨b', q⟩ ∧
      (b'.coreSt c).rx rd = (if rd = 0 then 0 else sext32 (sgn 32 (angle32 ai ar))) ∧
      (b'.coreSt c).sat = (b.coreSt c).sat ∧ coreKeeps c rd b b' ∧ accKeeps c b b')

/-- Cores, in a module that is up: a gather of one element, all three of whose places are granted, stores the word that the index names,
changes no other byte, leaves xfgstart 0, moves pc on and takes a debug halt that waits (R341, R342); an instruction that leaves only core state writes exactly that core (R339); a fetch that fails faults the task (R343); a task fault
is that fault, and one of machine mode is a channel event; a debug halt stops a running core and a resume lets it go on, STATE telling
both (R354).

Says that exec answers a next state, under conditions on the state and the operands alone, for: gld16, riscvInstruction, taskFault,
debugHalt, debugResume. -/
def Obligations.CoreCommands : Prop :=
  ∀ (b : Block) (q : List Instr) (c : Nat), b.up → b.member.has ⟨.frond, c⟩ = true →
    (∀ rd rs1 rs2 k sp o sp' o' sd od, b.running c = true → rd < 32 → rs1 < 32 → rs2 < 32 → k = b.coreSt c → k.gstart = 0 →
      k.place c (k.rx rs2).toNat 2 .load true = .inr (sp, o) →
      k.place c (k.rx rs1 + BitVec.ofNat 64 (4 * b.loadNat sp o 2)).toNat 4 .load true = .inr (sp', o') →
      k.place c (k.rx rd).toNat 4 .store true = .inr (sd, od) → (∃ b', exec (.gld16 c rd rs1 rs2 1) ⟨b, q⟩ = .next ⟨b', q⟩ ∧
      (∀ m a, b'.byte m a = (b.storeNat sd od 4 (b.loadNat sp' o' 4)).byte m a) ∧
        (b'.coreSt c).gstart = 0 ∧ (b'.coreSt c).pc = k.pc + 4 ∧ (b'.coreSt c).x = k.x ∧
        (b'.coreSt c).halted = (k.halted || k.haltReq) ∧ (k.haltReq = true → b'.get (FRDc_STAT_STATE c) = 6) ∧
        (∀ i, i ≠ c → b'.coreSt i = b.coreSt i) ∧ SameRegs (fun a => k.haltReq && within [FRDc_STAT c] a) b b' ∧ b'.units.noFrd = b.units.noFrd)) ∧
    (∀ w len k, b.running c = true → b.rvFetch c (b.coreSt c) = .inr (some w, len) → b.rvExec c (b.coreSt c) len w = .core k →
      (∃ b', exec (.riscvInstruction c) ⟨b, q⟩ = .next ⟨b', q⟩ ∧
      b'.coreSt c = k ∧ (∀ i, i ≠ c → b'.coreSt i = b.coreSt i) ∧ Frame (within []) Block.noFrd b b')) ∧
    (∀ e a, b.running c = true → b.rvFetch c (b.coreSt c) = .inl (e, a) → (∃ b', exec (.riscvInstruction c) ⟨b, q⟩ = .next ⟨b', q⟩ ∧
      b' = (b.taskFault c e a).commit)) ∧
    (∀ e a, b.running c = true → (∃ b', exec (.taskFault c e a false) ⟨b, q⟩ = .next ⟨b', q⟩ ∧
      b' = (b.taskFault c e a).commit)) ∧
    (∀ e a, b.member.has ⟨.frond, c⟩ = true → (∃ b', exec (.taskFault c e a true) ⟨b, q⟩ = .next ⟨b', q⟩ ∧
      b' = (b.channelEvent c 2 true 3).commit)) ∧
    (b.on KEY_STATUS_DEBUG = true → b.running c = true → (∃ b', exec (.debugHalt c false) ⟨b, q⟩ = .next ⟨b', q⟩ ∧
      (b'.coreSt c).halted = true ∧ b'.get (FRDc_STAT_STATE c) = 6 ∧ Frame (within [FRDc_STAT c]) Block.noFrd b b')) ∧
    (b.on KEY_STATUS_DEBUG = true → b.running c = true → (∃ b', exec (.debugHalt c true) ⟨b, q⟩ = .next ⟨b', q⟩ ∧
      (b'.coreSt c).haltReq = true ∧ Frame (within []) Block.noFrd b b')) ∧
    (∀ r, b.onCore c = some r → r.st = .running → (b.coreSt c).halted = true → (∃ b', exec (.debugResume c) ⟨b, q⟩ = .next ⟨b', q⟩ ∧
      (b'.coreSt c).halted = false ∧ b'.get (FRDc_STAT_STATE c) = cRUNNING ∧ Frame (within [FRDc_STAT c]) Block.noFrd b b'))

/-- Tufts, in a module that is up: while the core that the TCM port names runs a task, the port waits with BUSY set, in a write as in a read;
otherwise a read within the TCM puts the word into TCM_DATA, and a write without lease stores the four bytes of TCM_DATA; a new frequency is
held and refused under a running P or C table (FREQ_REFUSED, with the tuft's event); a commanded clock change goes to SAFE_CLK at once
where no core of the tuft works, and ends with LOCK at the new frequency.

Says that exec answers a next state, under conditions on the state and the operands alone, for: tcmRead, tcmWrite, tuftFreqWrite,
tuftClockChange. -/
def Obligations.TuftCommands : Prop :=
  ∀ (b : Block) (q : List Instr) (t : Nat), b.up → t < b.member.units .tuft →
    (∀ v, b.on (FRD_TUFTt_TCM_CTRL_BUSY t) = false → (∃ b', exec (.tcmRead t v) ⟨b, q⟩ = .next ⟨b', q⟩ ∧
      b' = (b.tcmGo t v.toNat false).commit)) ∧
    (∀ v, b.on (FRD_TUFTt_TCM_CTRL_BUSY t) = false → (∃ b', exec (.tcmWrite t v) ⟨b, q⟩ = .next ⟨b', q⟩ ∧
      b' = (b.tcmGo t v.toNat true).commit)) ∧
    (∀ v, b.showPcMapped.on (FRD_TUFTt_STAT_PC_MAPPED t) = true → (∃ b', exec (.tuftFreqWrite t v) ⟨b, q⟩ = .next ⟨b', q⟩ ∧
      b'.get (FRD_TUFTt_STAT_FREQ_REFUSED t) = 1 ∧ b'.pendingEvent (768 + 4 * t + 2) = true ∧ b'.frd = b.frd)) ∧
    (∀ v, b.showPcMapped.on (FRD_TUFTt_STAT_PC_MAPPED t) = false → (∃ b', exec (.tuftFreqWrite t v) ⟨b, q⟩ = .next ⟨b', q⟩ ∧
      b'.get (FRD_TUFTt_CLK_FREQ_MHZ t) = v.toNat % 2 ^ (FRD_TUFTt_CLK_FREQ_MHZ t).width)) ∧
    (∀ f, b.frd.freq.get (fun _ => none) t = some f → b.frd.changing.get (fun _ => false) t = false →
      (∀ k, k < 8 → b.onCore (8 * t + k) = none) → (∃ b', exec (.tuftClockChange t false) ⟨b, q⟩ = .next ⟨b', q⟩ ∧
      b'.frd.changing.get (fun _ => false) t = true ∧ b'.get (FRD_TUFTt_STAT_SAFE_CLK t) = 1 ∧ b'.get (FRD_TUFTt_STAT_LOCK t) = 0 ∧
        b'.get (bitOf NRG_CLK_LOCK t) = 0 ∧ Frame (within [FRD_TUFTt_STAT t, NRG_CLK_LOCK]) Block.noFrd b b')) ∧
    (∀ f, b.frd.freq.get (fun _ => none) t = some f → b.frd.changing.get (fun _ => false) t = true → (∃ b', exec (.tuftClockChange t true) ⟨b, q⟩ = .next ⟨b', q⟩ ∧
      b'.frd.changing.get (fun _ => false) t = false ∧ b'.frd.freq.get (fun _ => none) t = none ∧
      b'.get (FRD_TUFTt_STAT_CUR_MHZ t) = f % 2 ^ (FRD_TUFTt_STAT_CUR_MHZ t).width ∧ b'.get (FRD_TUFTt_STAT_LOCK t) = 1 ∧
      b'.get (bitOf NRG_CLK_LOCK t) = 1 ∧ b'.pendingEvent (768 + 4 * t + 2) = true))

/-- Edge inputs, on a member that has them and in a module that is up: an edge that the input does not record only sets LEVEL; one that finds its
queue full is lost and counted; a recorded one, with no trigger unit listening, is kept with its stamp in LAST; calibration of both
converters marks both busy; calibration now marks the standby converter of every enabled input; a calibration that ends gives up its busy
mark. Every input's own state but the named one stays.

Says that exec answers a next state, under conditions on the state and the operands alone, for: feiEdge, tdcCalibrationStart, calNow,
tdcCalibrationDone. -/
def Obligations.EdgeInputCommands : Prop :=
  ∀ (b : Block) (q : List Instr), b.up → b.hasFei = true →
    (∀ i r tap f, i < 16 → (b.feiOf i).en = false → (∃ b', exec (.feiEdge i r tap f) ⟨b, q⟩ = .next ⟨b', q⟩ ∧
      b'.get (ACQ_FEIi_STAT_LEVEL i) = (if r then 1 else 0) ∧ Frame (within [ACQ_FEIi_STAT i]) id b b')) ∧
    (∀ i r tap, i < 16 → (b.feiOf i).en = true → bit (bits (b.feiOf i).cfg.toNat 0 2) (if r then 0 else 1) = true →
      (∃ b', exec (.feiEdge i r tap true) ⟨b, q⟩ = .next ⟨b', q⟩ ∧
      b'.rd (ACQ_CNTi 0) = b.rd (ACQ_CNTi 0) + 1 ∧
        Frame (withEvt [ACQ_FEIi_STAT i, ACQ_CNTi 0, ACQ_CNT_ROLL]) id b b')) ∧
    (∀ i r tap, i < 16 → (b.feiOf i).en = true → bit (bits (b.feiOf i).cfg.toNat 0 2) (if r then 0 else 1) = true → (b.feiOf i).last = none →
      (∀ u, (b.trgOf u).en = false) → (∃ b', exec (.feiEdge i r tap false) ⟨b, q⟩ = .next ⟨b', q⟩ ∧
      (b'.feiOf i).last = some b.stamp ∧ (∀ j, j ≠ i → b'.feiOf j = b.feiOf j) ∧ b'.acq.cset = b.acq.cset)) ∧
    (∀ i, i < 16 → b.on (ACQ_FEIi_STAT_SINGLE i) = false → (∃ b', exec (.tdcCalibrationStart i true) ⟨b, q⟩ = .next ⟨b', q⟩ ∧
      (b'.feiOf i).busyA = true ∧ (b'.feiOf i).busyB = true ∧ ((b.feiOf i).busyA = false ∨ (b.feiOf i).busyB = false → b'.get (ACQ_FEIi_STAT_CAL_BUSY i) = 1) ∧
      Frame (withEvt [ACQ_FEIi_STAT i, ACQ_CNTi 1, ACQ_CNT_ROLL]) Block.noAcq b b')) ∧
    ((∀ i, (b.feiOf i).en = false ∧ (b.feiOf i).busyA = false ∧ (b.feiOf i).busyB = false) → (∃ b', exec .calNow ⟨b, q⟩ = .next ⟨b', q⟩ ∧
      b'.get ACQ_CAL_CAL_NOW = 0 ∧ Frame (within [ACQ_CAL]) id b b')) ∧
    (∀ i, i < 16 → (b.feiOf i).en = true → (b.feiOf i).busyA = false → (b.feiOf i).busyB = false → b.on (ACQ_FEIi_STAT_SINGLE i) = false →
      (∃ b', exec .calNow ⟨b, q⟩ = .next ⟨b', q⟩ ∧
      b'.get ACQ_CAL_CAL_NOW = 1)) ∧
    (∀ i h, i < 16 → (b.feiOf i).busyA = true → (b.feiOf i).busyB = false → (calTable h (2 ^ clampN 14 20 (b.get ACQ_CAL_CAL_LOG))).2.2 = true →
      (∃ b', exec (.tdcCalibrationDone i false h) ⟨b, q⟩ = .next ⟨b', q⟩ ∧
      (b'.feiOf i).busyA = false ∧ (b'.feiOf i).failsA = 0 ∧ (b'.feiOf i).tblA = (calTable h (2 ^ clampN 14 20 (b.get ACQ_CAL_CAL_LOG))).1 ∧
        b'.get (ACQ_FEIi_STAT_CAL_BUSY i) = 0 ∧ (∀ j, j ≠ i → b'.feiOf j = b.feiOf j)))

/-- Acquisition, in a module that is up: enabling an enabled set is held in its CFG word; disabling a set leaves it IDLE with nothing queued; a
rearm of a stopped set arms it at the present time; a forced trigger of an armed set with no settle window running is queued and opens
the window, one of a set that is not armed is counted as rejected; the window's end accepts the earliest trigger; an automatic trigger
comes where none is queued before it; a trigger unit's timeout fires it; a complete segment of a set that captures once stops it;
consumed records are counted in CONS; a driven XTRIG line is released.

Says that exec answers a next state, under conditions on the state and the operands alone, for: csetEnable, csetDisable, rearm, force,
settleWindowEnd, autoTrigger, triggerTimeout, segmentComplete, acqConsWrite, xtrigRelease. -/
def Obligations.CaptureCommands : Prop :=
  ∀ (b : Block) (q : List Instr), b.up → b.member.has ⟨.acq, 0⟩ = true →
    (∀ k v, k < 8 → bits v.toNat 24 3 = 0 → bits v.toNat 0 16 = 0 → (b.csetOf k).en = true → (∃ b', exec (.csetEnable k v) ⟨b, q⟩ = .next ⟨b', q⟩ ∧
      b'.rd (ACQ_CSETs_CFG k) = BitVec.ofNat 32 ((v.toNat &&& 0x7FFCFFFF) + 2 ^ 31) ∧ Frame (within [ACQ_CSETs_CFG k]) id b b')) ∧
    (∀ k, k < 8 → (∃ b', exec (.csetDisable k) ⟨b, q⟩ = .next ⟨b', q⟩ ∧
      (b'.csetOf k).en = false ∧ (b'.csetOf k).queue = [] ∧ (b'.csetOf k).settle = none ∧ b'.get (ACQ_CSETs_STAT_STATE k) = csIDLE)) ∧
    (∀ k, k < 8 → b.get (ACQ_CSETs_STAT_STATE k) = csSTOPPED → (b.csetOf k).queue = [] → (∃ b', exec (.rearm k) ⟨b, q⟩ = .next ⟨b', q⟩ ∧
      b'.get (ACQ_CSETs_STAT_STATE k) = csARMED ∧ b'.rd64 (ACQ_CSETs_ARM_LO k) = b.ns % 2 ^ 64 ∧
      Frame (within [ACQ_CSETs_STAT k, ACQ_CSETs_ARM_LO k, ACQ_CSETs_ARM_LO k + 4]) Block.noAcq b b')) ∧
    (∀ k, k < 8 → b.get (ACQ_CSETs_STAT_STATE k) = csARMED → b.takes ⟨.acq, 0⟩ = true → b.rd64 (ACQ_CSETs_ARM_LO k) * 65536 ≤ b.stamp →
      (b.csetOf k).settle = none → (∃ b', exec (.force k) ⟨b, q⟩ = .next ⟨b', q⟩ ∧
      (b'.csetOf k).settle = some (b.ns + (b.csetOf k).settleNs) ∧
        (b'.csetOf k).queue = (b.csetOf k).queue ++ [⟨b.stamp, 5, 255, false, false, true, b.ns⟩] ∧
        (∀ j, j ≠ k → b'.csetOf j = b.csetOf j) ∧ Frame (within []) Block.noAcq b b')) ∧
    (∀ k, k < 8 → b.get (ACQ_CSETs_STAT_STATE k) ≠ csARMED → (∃ b', exec (.force k) ⟨b, q⟩ = .next ⟨b', q⟩ ∧
      b'.rd (ACQ_CNTi 3) = b.rd (ACQ_CNTi 3) + 1 ∧ Frame (withEvt [ACQ_CNTi 3, ACQ_CNT_ROLL]) id b b')) ∧
    (∀ k e t o, (b.csetOf k).settle = some e → earliest (b.csetOf k).queue = some (t, o) → (∃ b', exec (.settleWindowEnd k) ⟨b, q⟩ = .next ⟨b', q⟩ ∧
      b' = ((b.advanceTo e).acceptTrig k t o).commit)) ∧
    (∀ k t, k < 8 → b.get (ACQ_CSETs_STAT_STATE k) = csARMED → (b.csetOf k).mode = 1 → (b.csetOf k).queue = [] →
      t = b.rd64 (ACQ_CSETs_ARM_LO k) + (b.csetOf k).autoNs → (∃ b', exec (.autoTrigger k) ⟨b, q⟩ = .next ⟨b', q⟩ ∧
      b' = ((b.advanceTo (t + (b.csetOf k).settleNs)).acceptTrig k ⟨t * 65536, 5, 255, false, true, false,
          (b.advanceTo (t + (b.csetOf k).settleNs)).ns⟩ []).commit)) ∧
    (∀ u a t, u < 32 → (b.trgOf u).en = true → (b.trgOf u).kind = 0 → (b.trgOf u).type = 4 → (b.trgOf u).pol ≠ 2 → (b.trgOf u).pos.t0 = some a →
      t = a + (b.trgOf u).word 4 * 65536 → (∃ b', exec (.triggerTimeout u) ⟨b, q⟩ = .next ⟨b', q⟩ ∧
      b' = ((((b.advanceTo ((t + 65535) / 65536)).setTrg u { b.trgOf u with pos := { (b.trgOf u).pos with t0 := none }, neg := { (b.trgOf u).neg with t0 := none } }).showPhase u).trgFire u t false).commit)) ∧
    (∀ k g, (b.csetOf k).cur = some g → g.stop ≤ (b.csetOf k).hi → (b.csetOf k).mode = 2 → (∃ b', exec (.segmentComplete k) ⟨b, q⟩ = .next ⟨b', q⟩ ∧
      b'.get (ACQ_CSETs_STAT_STATE k) = csSTOPPED ∧ (b'.csetOf k).cur = none ∧ (b'.csetOf k).queue = [])) ∧
    (∀ k v, k < 8 → (b.csetOf k).gap = none →
      (2 ^ 32 + v.toNat - (b.rd (ACQ_CSETs_CONS k)).toNat) % 2 ^ 32 ≤ (2 ^ 32 + (b.rd (ACQ_CSETs_PROD k)).toNat - (b.rd (ACQ_CSETs_CONS k)).toNat) % 2 ^ 32 →
      (∃ b', exec (.acqConsWrite k v) ⟨b, q⟩ = .next ⟨b', q⟩ ∧
      b'.rd (ACQ_CSETs_CONS k) = v ∧ Frame (within [ACQ_CSETs_CONS k]) Block.noAcq b b')) ∧
    (∀ k e, (b.csetOf k).xtEnd = some e → (∃ b', exec (.xtrigRelease k) ⟨b, q⟩ = .next ⟨b', q⟩ ∧
      (b'.csetOf k).xtEnd = none ∧ (∀ j, j ≠ k → b'.csetOf j = b.csetOf j) ∧ Frame (within []) (fun x => x.noAcq.noTime) b b'))

/-- The Rope, on a member that has it, in a module that is up: a lane that is not retired and runs no pattern takes LINK and FEC lock with event
904, and losing one of two lanes clears them with the same event (R432); the keepalive period passes and a frame is sent (R433); a change
of the partner's line shows in BELAY_IN (R424); a silent Rope goes down (R433); the lease's end drops it, with event 899 (R425); the
alone time, a double claim while the partner's line is active (R431) and a late follow step (R441) run their course.

Says that exec answers a next state, under conditions on the state and the operands alone, for: linkUp, linkLoss, keepaliveTx, ropeTimeout,
belayInChange, leaseExpiry, aloneTimeout, doubleClaim, followTimeout. -/
def Obligations.RopeLineAndTimers : Prop :=
  ∀ (b : Block) (q : List Instr), b.up → b.hasRope = true →
    (∀ k s e, k < 2 → b.on (ROPE_LANEk_STAT_LINK k) = false → b.on (ROPE_LANEk_CFG_PRBS k) = false → b.isRetired (180 + k) = false →
      (∃ b', exec (.linkUp (20 + k) s e) ⟨b, q⟩ = .next ⟨b', q⟩ ∧
      b'.get (ROPE_LANEk_STAT_LINK k) = 1 ∧ b'.get (ROPE_LANEk_STAT_FEC_LOCK k) = 1 ∧
        b'.pendingEvent 904 = true ∧ Frame (withEvt [ROPE_LANEk_STAT k]) id b b')) ∧
    (∀ k, k < 2 → b.on (ROPE_LANEk_STAT_LINK k) = true → b.on (ROPE_LANEk_STAT_LINK (1 - k)) = true → ∀ r, (∃ b', exec (.linkLoss ⟨20 + k, r⟩) ⟨b, q⟩ = .next ⟨b', q⟩ ∧
      b'.get (ROPE_LANEk_STAT_LINK k) = 0 ∧ b'.get (ROPE_LANEk_STAT_FEC_LOCK k) = 0 ∧ b'.pendingEvent 904 = true ∧
      Frame (withEvt [ROPE_LANEk_STAT k]) id b b')) ∧
    (b.paired = true → b.ropeUp = false → (∃ b', exec .keepaliveTx ⟨b, q⟩ = .next ⟨b', q⟩ ∧
      b' = ((b.advanceXtal (b.rope.lastTx + 100000)).helloSend).commit)) ∧
    (b.paired = true → b.ropeUp = true → b.role = rSTANDBY → (∃ b', exec .keepaliveTx ⟨b, q⟩ = .next ⟨b', q⟩ ∧
      b' = ((b.advanceXtal (b.rope.lastTx + 100000)).ropeSend 2 []).commit)) ∧
    (b.ropeUp = true → (∃ b', exec .ropeTimeout ⟨b, q⟩ = .next ⟨b', q⟩ ∧
      b' = (((b.advanceXtal (b.rope.lastRx + clampN 200 1023 (b.get ROPE_TIMING_TMO_US) * 1000)).ropeDown).ropeFollow).commit)) ∧
    (∀ v, b.on ROPE_ROLE_BELAY_IN ≠ v → b.paired = false → b.rope.claim = false → b.following = false → b.gin.notices = [] →
      (∃ b', exec (.belayInChange v) ⟨b, q⟩ = .next ⟨b', q⟩ ∧
      b'.get ROPE_ROLE_BELAY_IN = (if v then 1 else 0) ∧ Frame (within [ROPE_ROLE]) Block.noRope b b')) ∧
    (b.rope.lease = true → b.role ≠ rACTIVE → (∃ b', exec .leaseExpiry ⟨b, q⟩ = .next ⟨b', q⟩ ∧
      b'.rope.lease = false ∧ b'.get ROPE_LEASE_REMAIN_MS = 0 ∧ b'.pendingEvent 899 = true ∧ b'.get SWC_GATE_OPEN = 0)) ∧
    (b.paired = true → b.rst.ran = true → b.role = rSYNCING → b.on ROPE_ROLE_BELAY_IN = false → (∃ b', exec .aloneTimeout ⟨b, q⟩ = .next ⟨b', q⟩ ∧
      b' = ((b.advanceXtal (b.rope.aloneFrom + b.aloneNs)).ropeEval).commit)) ∧
    (b.paired = true → b.on ROPE_ROLE_BELAY_IN = true → (∃ b', exec .doubleClaim ⟨b, q⟩ = .next ⟨b', q⟩ ∧
      b' = (b.claimSeen).commit)) ∧
    (∀ w l, b.rope.waits = w :: l → b.following = true → (∃ b', exec .followTimeout ⟨b, q⟩ = .next ⟨b', q⟩ ∧
      b' = (((((((b.advanceXtal (w.2.2 + clampN 10 1023 (b.get ROPE_TIMING_FOLLOW_US) * 1000)).ropeCnt 2).raise 908).setRole rSYNCING).settleWaits).ledgerRun).ropeFollow).commit))

/-- A Rope frame that the receiver accepts on a lane (R434) does what its TYPE says (R435) and the pair is judged anew: HELLO judges the
handshake (R437), KEEPALIVE nothing more, CLAIM from an ACTIVE partner a double claim (R431), LEDGER joins the last 64 of the partner's
(R442), GOOSE_FWD a forwarded frame on the active module, RESOLVE of kind 0 starts a resolution on the active module (R446), DIGESTS are
compared on the standby only (R443), HEALTH is shown in PHEALTH, with event 915 on a failure (R449); an unknown type is counted in ROPE_UNKNOWN and ignored
(R435).

Says that exec answers a next state, under conditions on the state and the operands alone, for: hello, keepalive, claim, ledger, gooseFwd,
resolve, digests, health, unknownRopeFrame. -/
def Obligations.RopeFrames : Prop :=
  ∀ (b : Block) (q : List Instr) (lane : Nat) (l : List Byte) (f : RopeFrame) (c : Block),
    (b.ropeTake lane l (fun t => t == 1) = (some f, c) → (∃ b', exec (.hello lane l) ⟨b, q⟩ = .next ⟨b', q⟩ ∧
      b' = ((c.helloJudge f).ropeFollow).commit)) ∧
    (b.ropeTake lane l (fun t => t == 2) = (some f, c) → (∃ b', exec (.keepalive lane l) ⟨b, q⟩ = .next ⟨b', q⟩ ∧
      b' = (c.ropeFollow).commit)) ∧
    (b.ropeTake lane l (fun t => t == 9) = (some f, c) → f.role = rACTIVE → (∃ b', exec (.claim lane l) ⟨b, q⟩ = .next ⟨b', q⟩ ∧
      b' = ((c.claimSeen).ropeFollow).commit)) ∧
    (b.ropeTake lane l (fun t => t == 8) = (some f, c) → (∃ b', exec (.ledger lane l) ⟨b, q⟩ = .next ⟨b', q⟩ ∧
      b' = (((c.modRope (fun r => { r with pLedgers := ((r.pLedgers ++ [(beAt f.body 0 8, beAt f.body 8 8)]).reverse.take 64).reverse })).ledgerCompare
        (beAt f.body 0 8)).ropeFollow).commit)) ∧
    (b.ropeTake lane l (fun t => t == 6) = (some f, c) → c.role = rACTIVE → beAt f.body 0 1 ≤ 16 → (∃ b', exec (.gooseFwd lane l) ⟨b, q⟩ = .next ⟨b', q⟩ ∧
      b' = ((((c.rhzCnt (beAt f.body 0 1) 9).ropeCnt 12).gooseFrame (beAt f.body 0 1)
        (fwdFrame (beAt f.body 4 8 * 65536 + beAt f.body 12 2) (f.body.drop 16))).ropeFollow).commit)) ∧
    (b.ropeTake lane l (fun t => t == 0xC) = (some f, c) → beAt f.body 2 1 = 0 → c.role = rACTIVE → (∃ b', exec (.resolve lane l) ⟨b, q⟩ = .next ⟨b', q⟩ ∧
      b' = ((c.resolveStart (beAt f.body 0 2) (beAt f.body 4 8)).ropeFollow).commit)) ∧
    (b.ropeTake lane l (fun t => t == 7) = (some f, c) → c.role ≠ rSTANDBY → (∃ b', exec (.digests lane l) ⟨b, q⟩ = .next ⟨b', q⟩ ∧
      b' = (c.ropeFollow).commit)) ∧
    (b.ropeTake lane l (fun t => t == 7) = (some f, c) → c.role = rSTANDBY → beAt f.body 8 2 = 0 → (∃ b', exec (.digests lane l) ⟨b, q⟩ = .next ⟨b', q⟩ ∧
      b' = (((c.modRope (fun r => { r with pDigests := r.pDigests ++ [] })).compareAll).ropeFollow).commit)) ∧
    (b.ropeTake lane l (fun t => t == 0xA) = (some f, c) → (∃ b', exec (.health lane l) ⟨b, q⟩ = .next ⟨b', q⟩ ∧
      b' = ((((c.each 8 (fun w x => x.wr (ROPE_PHEALTHw w) (BitVec.ofNat 32 (leAt (fit 32 f.body) (4 * w) 4)))).modRope (fun p =>
        { p with pHealthAt := c.xtal, pFails := beAt f.body 6 2 != 0 })).raiseIf (beAt f.body 6 2 != 0) 915).ropeFollow).commit)) ∧
    (b.ropeTake lane l (fun t => t == 0 || decide (14 < t)) = (some f, c) → (∃ b', exec (.unknownRopeFrame lane l) ⟨b, q⟩ = .next ⟨b', q⟩ ∧
      b'.rd (ROPE_CNTi 11) = c.rd (ROPE_CNTi 11) + 1 ∧ Frame (withEvt [ROPE_CNTi 11, ROPE_CNT_ROLL]) id c b'))

/-- Frames by which a pair moves together, each accepted on a lane (R434): a RELEASE of an instant still ahead is held and followed (R439), of
an instant the active module has released its lacking ASDUs are sent (R438); an ASDU_FWD for a slot that is not enabled is counted as stale, and one
that does not fit its slot as malformed (R200); a
GIN_LEDGER is kept by its tick while not ACTIVE (R440); JOIN of kind 0 on the active module sets the join tick sixteen ticks ahead (R450);
a SWAP of no tables refuses the active module's armed swap with event 714 (R451); a HANDOVER offer is acknowledged by the standby, and the acknowledgement
of the handover under way is noted (R452).

Says that exec answers a next state, under conditions on the state and the operands alone, for: release, asduFwd, ginLedger, join, swap,
handover. -/
def Obligations.RopePairFrames : Prop :=
  ∀ (b : Block) (q : List Instr) (lane : Nat) (l : List Byte) (f : RopeFrame) (c : Block),
    (b.ropeTake lane l (fun t => t == 3) = (some f, c) → (relOf f.body).g < 16 → (c.grpOf (relOf f.body).g).en = true → c.grpNext (relOf f.body).g ≤ (relOf f.body).i →
      (∃ b', exec (.release lane l) ⟨b, q⟩ = .next ⟨b', q⟩ ∧
      b' = (((c.modRope (fun p => { p with rels := p.rels.filter (fun x => !(x.g == (relOf f.body).g && x.i == (relOf f.body).i)) ++ [relOf f.body] })).tryFollow
          (relOf f.body).g).ropeFollow).commit)) ∧
    (b.ropeTake lane l (fun t => t == 3) = (some f, c) → (relOf f.body).g < 16 → (c.grpOf (relOf f.body).g).en = true → c.role = rACTIVE →
      (relOf f.body).i < c.grpNext (relOf f.body).g → (∃ b', exec (.release lane l) ⟨b, q⟩ = .next ⟨b', q⟩ ∧
      b' = ((c.forwardLacking (relOf f.body)).ropeFollow).commit)) ∧
    (b.ropeTake lane l (fun t => t == 4) = (some f, c) → beAt f.body 0 1 ≤ 16 → c.member.has ⟨.rhz, beAt f.body 0 1⟩ = true →
      (c.slotOf (beAt f.body 1 2)).en = false → (∃ b', exec (.asduFwd lane l) ⟨b, q⟩ = .next ⟨b', q⟩ ∧
      b' = ((((c.rhzCnt (beAt f.body 0 1) 9).ropeCnt 12).stale (beAt f.body 0 1)).ropeFollow).commit)) ∧
    (∀ a g n h x, b.ropeTake lane l (fun t => t == 4) = (some f, c) → beAt f.body 0 1 ≤ 16 → c.member.has ⟨.rhz, beAt f.body 0 1⟩ = true →
      x = c.slotOf (beAt f.body 1 2) → x.en = true → x.profile ≠ 1 → (c.grpOf x.group).en = true → x.names (beAt f.body 0 1) = true → x.svLen ≠ 0 →
      x.svId = a.svId → berHead (f.body.drop 16) = some (g, n, h) → parseAsduN 2 (slice f.body (16 + h) n) = some a →
      ((c.rhzCnt (beAt f.body 0 1) 9).ropeCnt 12).fits (beAt f.body 1 2) a x.nasdu false = false →
      (∃ b', exec (.asduFwd lane l) ⟨b, q⟩ = .next ⟨b', q⟩ ∧
      b' = ((((c.rhzCnt (beAt f.body 0 1) 9).ropeCnt 12).malformed (beAt f.body 0 1)).ropeFollow).commit)) ∧
    (b.ropeTake lane l (fun t => t == 5) = (some f, c) → c.role ≠ rACTIVE → c.rope.flipDone ≤ beAt f.body 0 8 → (∃ b', exec (.ginLedger lane l) ⟨b, q⟩ = .next ⟨b', q⟩ ∧
      b' = (((c.modRope (fun p => { p with flips := (p.flips.filter (fun x => x.1 != beAt f.body 0 8) ++ [(beAt f.body 0 8, f.body)]).take 64 })).tryFlips).ropeFollow).commit)) ∧
    (b.ropeTake lane l (fun t => t == 0xB) = (some f, c) → beAt f.body 0 1 = 0 → c.role = rACTIVE → (∃ b', exec (.join lane l) ⟨b, q⟩ = .next ⟨b', q⟩ ∧
      b' = (((c.modRope (fun p => { p with joinFor := some (c.lastTick + 16), joinCap := [] })).ropeSay 0xB
        ([1, 0, 0, 0] ++ beBytes 8 (c.lastTick + 16) ++ beBytes 1 (c.get ROPE_ROLE_EPOCH))).ropeFollow).commit)) ∧
    (b.ropeTake lane l (fun t => t == 0xD) = (some f, c) → c.role = rACTIVE → (c.swapState = 1 ∨ c.swapState = 3) → beAt f.body 8 1 = 0 →
      (∃ b', exec (.swap lane l) ⟨b, q⟩ = .next ⟨b', q⟩ ∧
      b' = (((c.set CRZ_SWAP_CTRL_STATE 5).raise 714).ropeFollow).commit)) ∧
    (b.ropeTake lane l (fun t => t == 0xE) = (some f, c) → beAt f.body 8 1 = 0 → c.role = rSTANDBY → (∃ b', exec (.handover lane l) ⟨b, q⟩ = .next ⟨b', q⟩ ∧
      b' = ((c.ropeSay 0xE (beBytes 8 (beAt f.body 0 8) ++ [1])).ropeFollow).commit)) ∧
    (b.ropeTake lane l (fun t => t == 0xE) = (some f, c) → beAt f.body 8 1 ≠ 0 → c.role = rACTIVE → c.rope.handover = some (beAt f.body 0 8) →
      (∃ b', exec (.handover lane l) ⟨b, q⟩ = .next ⟨b', q⟩ ∧
      b' = ((c.modRope (fun p => { p with acked := true })).ropeFollow).commit))

/-- Without authentication, in any block: a frame other than HELLO that the receiver accepts on a lane leaves its SEQ as the last one received
and its count one higher, and the same frame, offered again to the block it left, is not accepted (R434); this holds for whatever types the receiver asks for. -/
def Obligations.RopeReplayRejected : Prop :=
  ∀ (b c : Block) (lane : Nat) (l : List Byte) (typ : Nat → Bool) (f : RopeFrame), b.on ROPE_CFG2_AUTH = false → f.typ ≠ 1 →
    b.ropeTake lane l typ = (some f, c) →
      c.rope.seqRx = some f.seq ∧ c.rd (ROPE_CNTi 14) = b.rd (ROPE_CNTi 14) + 1 ∧ c.get ROPE_ROLE_PROLE = f.role % 8 ∧ (c.ropeTake lane l typ).1 = none

/-- The pair, in a module that is up: a targeted self-test's end is recorded for its task (R446); the first resolution that is due ends
(R447); a self-test run that passes counts one run and nothing else (R448); every 100 ms a HEALTH period passes (R449); a partner whose
health is missing raises event 914 (R449); a join whose time is out, or that is commanded to a SYNCING module beside an ACTIVE one, starts (R450);
a handover not acknowledged in time is given up, with HANDOVER_FAIL and event 898; DEMOTE on an active module with a sound standby sets a
handover four ticks ahead; a forced demotion drops the lease (R452).

Says that exec answers a next state, under conditions on the state and the operands alone, for: targetedSelftestDone, resolveTimeout,
selftestResult, healthTx, healthMissing, joinTimeout, ropeJoinCmd, handoverAckTimeout, demote, demoteForce. -/
def Obligations.PairCommands : Prop :=
  ∀ (b : Block) (q : List Instr), b.up → b.hasRope = true →
    (∀ task cs r, b.rope.resolves.find? (fun r => r.task == task && r.own.isNone) = some r → (∃ b', exec (.targetedSelftestDone task true cs) ⟨b, q⟩ = .next ⟨b', q⟩ ∧
      b' = (((((b.putResolve task (fun r => { r with own := some 1 })).set ROPE_RESOLVE_RESULT 1).ropeSay 0xC (resolveBody task 1 r.tick)).resolveBoth task).ropeFollow).commit)) ∧
    (∀ r l, b.rope.resolves = r :: l → (∃ b', exec .resolveTimeout ⟨b, q⟩ = .next ⟨b', q⟩ ∧
      b' = (((b.advanceXtal r.due).resolveEnd r).ropeFollow).commit)) ∧
    (∀ ch x, b.selftests ch = true → (∃ b', exec (.selftestResult ch true x) ⟨b, q⟩ = .next ⟨b', q⟩ ∧
      b'.rope.runs = b.rope.runs + 1 ∧ b'.rope.fails = b.rope.fails ∧ Frame (within []) Block.noRope b b')) ∧
    (b.paired = true → b.ropeUp = false → (∃ b', exec .healthTx ⟨b, q⟩ = .next ⟨b', q⟩ ∧
      b'.rope.period = b.rope.period + 1 ∧ b'.rope.runs = 0 ∧ b'.rope.fails = 0 ∧ Frame (within []) (fun x => x.noRope.noTime) b b')) ∧
    (b.ropeUp = true → (∃ b', exec .healthMissing ⟨b, q⟩ = .next ⟨b', q⟩ ∧
      b'.pendingEvent 914 = true ∧ b'.rope = { b.rope with pHealthAt := b'.xtal } ∧ Frame (withEvt []) (fun x => x.noRope.noTime) b b')) ∧
    (∀ t, b.rope.joinReq = some t → b.role = rSYNCING → (∃ b', exec .joinTimeout ⟨b, q⟩ = .next ⟨b', q⟩ ∧
      b' = ((b.advanceXtal (t + 2000000000)).joinStart).commit)) ∧
    (b.role = rSYNCING → b.partnerIs rACTIVE = true → (∃ b', exec .ropeJoinCmd ⟨b, q⟩ = .next ⟨b', q⟩ ∧
      b' = (b.joinStart).commit)) ∧
    (∀ k, b.rope.handover = some k → b.role = rACTIVE → b.rope.acked = false → (∃ b', exec .handoverAckTimeout ⟨b, q⟩ = .next ⟨b', q⟩ ∧
      b'.rope.handover = none ∧ b'.get ROPE_JOIN_HANDOVER_FAIL = 1 ∧ b'.pendingEvent 898 = true ∧
      Frame (withEvt [ROPE_JOIN]) (fun x => x.noRope.noTime) b b')) ∧
    (b.role = rACTIVE → b.partnerIs rSTANDBY = true → b.rope.pFails = false → (∃ b', exec .demote ⟨b, q⟩ = .next ⟨b', q⟩ ∧
      b' = (((b.modRope (fun p => { p with handover := some (b.lastTick + 4), acked := false })).ropeSay 0xE (beBytes 8 (b.lastTick + 4) ++ [0]))).commit)) ∧
    (b.role = rACTIVE → (∃ b', exec .demoteForce ⟨b, q⟩ = .next ⟨b', q⟩ ∧
      b' = (((b.leaseDrop.raise 898).setRole rSYNCING).ropeEval).commit))

/-- Commands of queue entries, in a module that is up whose host can be reached: for each opcode of the entry table the entry that is carried
out is the one whose first byte is that opcode and whose other 63 bytes are the operand's, on the named queue or, for the commands of
the admin instance, on the admin queue (R471, R473); while the host cannot be reached none of them changes anything; an entry whose generation is
stale is counted as such (R470).

Says that exec answers a next state, under conditions on the state and the operands alone, for: read, writeAtTick, nop, instCreate,
instSetWindows, instMap, instUnmap, instStart, instFreeze, instSave, instRestore, instRestart, instMigrateOut, instCancel, instDestroy,
queueCreate, queueDelete, queueReinit. -/
def Obligations.QueueEntryCommands : Prop :=
  ∀ (b : Block) (q : List Instr), b.up →
    ∀ (i n : Nat) (e : List Byte), i < 256 → n < 1024 →
    ∀ S : Nat → Nat → Nat → Block → Prop, (S = fun j m op b' => b' = (if b.hostReady then b.startEntry j m (leBytes 1 op ++ fit 63 (e.drop 1)) else b).commit) →
    (∃ b', exec (.read i n e) ⟨b, q⟩ = .next ⟨b', q⟩ ∧
      S i n 0x01 b') ∧ (∃ b', exec (.writeAtTick i n e) ⟨b, q⟩ = .next ⟨b', q⟩ ∧
      S i n 0x02 b') ∧ (∃ b', exec (.nop i n e) ⟨b, q⟩ = .next ⟨b', q⟩ ∧
      S i n 0x03 b') ∧
    (∃ b', exec (.instCreate e) ⟨b, q⟩ = .next ⟨b', q⟩ ∧
      S 0 0 0x10 b') ∧ (∃ b', exec (.instSetWindows e) ⟨b, q⟩ = .next ⟨b', q⟩ ∧
      S 0 0 0x11 b') ∧ (∃ b', exec (.instMap e) ⟨b, q⟩ = .next ⟨b', q⟩ ∧
      S 0 0 0x12 b') ∧
    (∃ b', exec (.instUnmap e) ⟨b, q⟩ = .next ⟨b', q⟩ ∧
      S 0 0 0x13 b') ∧ (∃ b', exec (.instStart e) ⟨b, q⟩ = .next ⟨b', q⟩ ∧
      S 0 0 0x14 b') ∧ (∃ b', exec (.instFreeze e) ⟨b, q⟩ = .next ⟨b', q⟩ ∧
      S 0 0 0x15 b') ∧
    (∃ b', exec (.instSave e) ⟨b, q⟩ = .next ⟨b', q⟩ ∧
      S 0 0 0x16 b') ∧ (∃ b', exec (.instRestore e) ⟨b, q⟩ = .next ⟨b', q⟩ ∧
      S 0 0 0x17 b') ∧ (∃ b', exec (.instRestart e) ⟨b, q⟩ = .next ⟨b', q⟩ ∧
      S 0 0 0x18 b') ∧
    (∃ b', exec (.instMigrateOut e) ⟨b, q⟩ = .next ⟨b', q⟩ ∧
      S 0 0 0x19 b') ∧ (∃ b', exec (.instCancel e) ⟨b, q⟩ = .next ⟨b', q⟩ ∧
      S 0 0 0x1A b') ∧ (∃ b', exec (.instDestroy e) ⟨b, q⟩ = .next ⟨b', q⟩ ∧
      S 0 0 0x1B b') ∧
    (∃ b', exec (.queueCreate e) ⟨b, q⟩ = .next ⟨b', q⟩ ∧
      S 0 0 0x20 b') ∧ (∃ b', exec (.queueDelete e) ⟨b, q⟩ = .next ⟨b', q⟩ ∧
      S 0 0 0x21 b') ∧ (∃ b', exec (.queueReinit e) ⟨b, q⟩ = .next ⟨b', q⟩ ∧
      S 0 0 0x22 b') ∧
    (∀ (op : Nat) (l : CtxLine), b.hif.cache.find? (fun x => x.idx == qIdx i n) = some l → (QCtx.of l.bytes).igen ≠ b.instGen i →
      (b.startEntry i n (leBytes 1 op ++ fit 63 (e.drop 1))).rd (VIN_CNTi 1) = b.rd (VIN_CNTi 1) + 1)

/-- Instances and doorbells, in a module that is up: a freezing instance with no task left becomes FROZEN with event 98 (R458); the writes of an
instance that fall due are applied (R474); a write through a slice window is counted and discarded (R465); a doorbell of an instance
that does not exist, or of a queue that is not allocated, is counted as lost (R494); the next entry is fetched only while the host can be
reached (R498); EN set on the admin queue gives its submission queue the next
generation and clears ERR, a write with EN clear on a queue that is off is held (R501).

Says that exec answers a next state, under conditions on the state and the operands alone, for: freezeComplete, writeAtTickApply,
sliceWrite, doorbellWrite, sqEntryFetch, admqEnable. -/
def Obligations.InstanceCommands : Prop :=
  ∀ (b : Block) (q : List Instr), b.up →
    (∀ i, i < 256 → b.instState i = iFREEZING → b.instBusy i = false → (∃ b', exec (.freezeComplete i) ⟨b, q⟩ = .next ⟨b', q⟩ ∧
      b' = ((b.setInst i iFROZEN).raise 98).commit ∧ b'.pendingEvent 98 = true)) ∧
    (∀ i w, b.vin.writes = [w] → w.inst = i → w.tick ≤ b.lastTick → b.crz.runs = [] → (∃ b', exec (.writeAtTickApply i) ⟨b, q⟩ = .next ⟨b', q⟩ ∧
      b' = (b.applyWrites i w.tick).commit)) ∧
    (∀ a, 0x4908000 ≤ a → a < 0x4900000 + 256 * 0x8000 → (∃ b', exec (.sliceWrite a) ⟨b, q⟩ = .next ⟨b', q⟩ ∧
      b'.rd (VIN_CNTi 0) = b.rd (VIN_CNTi 0) + 1 ∧ Frame (withEvt [VIN_CNTi 0, VIN_CNT_ROLL]) id b b')) ∧
    (∀ a n v, b.hostIn = true → a < 0x1000000 → b.member.instances ≤ a / 0x10000 → (∃ b', exec (.doorbellWrite a n v) ⟨b, q⟩ = .next ⟨b', q⟩ ∧
      b'.rd (HIF_CNTi 0) = b.rd (HIF_CNTi 0) + 1 ∧ Frame (withEvt [HIF_CNTi 0, HIF_CNT_ROLL]) id b b')) ∧
    (∀ a v l, b.hostIn = true → a < 0x1000000 → a / 0x10000 < b.member.instances → (a / 0x10000 = 0 ∨ b.instState (a / 0x10000) ≠ 0) → a % 0x40 = 0 →
      (a % 0x10000 / 0x40 < b.get (VIN_INSTi_QUOTA_QUOTA (a / 0x10000)) ∨ a / 0x10000 = 0 ∧ a % 0x10000 / 0x40 < 2) →
      b.hif.cache.find? (fun x => x.idx == qIdx (a / 0x10000) (a % 0x10000 / 0x40)) = some l → (QCtx.of l.bytes).state = 1 →
      bits v.toNat 24 8 = (QCtx.of l.bytes).qgen → (QCtx.of l.bytes).igen = b.instGen (a / 0x10000) → bits v.toNat 0 16 < (QCtx.of l.bytes).size →
      (QCtx.of l.bytes).kind = 0 → qIdx (a / 0x10000) (a % 0x10000 / 0x40) ∈ b.hif.turns → (∃ b', exec (.doorbellWrite a 4 v) ⟨b, q⟩ = .next ⟨b', q⟩ ∧
      b' = (((b.cachePut l).putCtx (qIdx (a / 0x10000) (a % 0x10000 / 0x40)) { QCtx.of l.bytes with tail := bits v.toNat 0 16 }).ltrShow
          (b.hif.busy || ({ QCtx.of l.bytes with tail := bits v.toNat 0 16 } : QCtx).used != 0)).commit)) ∧
    (b.hostReady = false → (∃ b', exec .sqEntryFetch ⟨b, q⟩ = .next ⟨b', q⟩ ∧
      Frame (within []) id b b')) ∧
    (∀ l c d e x, b.hostReady = true → b.on HIF_ADMQ_CFG_EN = true → b.takes ⟨.vin, 0⟩ = true → b.takes ⟨.hif, 0⟩ = true →
      b.hif.cache.find? (fun x => x.idx == 0) = some l → c = QCtx.of l.bytes → c.state = 1 → c.kind = 0 → c.used ≠ 0 → c.cq = 1 →
      b.hif.cache.find? (fun x => x.idx == 1) = some d → (QCtx.of d.bytes).full = false → (b.cachePut l).hostLoad 0 (c.ring + 64 * c.head) 64 = (e, x) →
      (∃ b', exec .sqEntryFetch ⟨b, q⟩ = .next ⟨b', q⟩ ∧
      b' = ((((x.putCtx 0 { c with head := (c.head + 1) % c.size }).modHif (fun h => { h with turns := h.turns.filter (fun x => x != 0) ++ [] })).startEntry
          0 0 e).ltrShow (({ c with head := (c.head + 1) % c.size } : QCtx).used != 0 || !(b.hif.turns.filter (fun x => x != 0)).isEmpty)).commit)) ∧
    (∀ v l, b.on HIF_ADMQ_CFG_EN = false → bit v.toNat 31 = true → b.hif.cache.find? (fun x => x.idx == 0) = some l → (∃ b', exec (.admqEnable v) ⟨b, q⟩ = .next ⟨b', q⟩ ∧
      b'.get HIF_ADMQ_STAT_SQ_QGEN = ((QCtx.of l.bytes).qgen + 1) % 256 ∧ b'.get HIF_ADMQ_CFG_ERR = 0)) ∧
    (∀ v, b.on HIF_ADMQ_CFG_EN = false → bit v.toNat 31 = false → (∃ b', exec (.admqEnable v) ⟨b, q⟩ = .next ⟨b', q⟩ ∧
      b'.get HIF_ADMQ_CFG_EN = 0 ∧ b'.get HIF_ADMQ_CFG_VECTOR = bits v.toNat 16 11 ∧ Frame (within [HIF_ADMQ_CFG]) id b b'))

/-- The host link, in a module that is up: PERST_N going active and inactive shows in HIF_STAT with event 69 (R38); a Function Level Reset keeps
HIF_STAT but its device state (R490); a link that goes down reports event 64 (R506); ASPM L1 is entered from an idle open link (R508);
a change of device state shows with event 66, and to D3hot changes nothing else of the host interface (R509); PME_Turn_Off is
acknowledged and ends the link in L2 with event 64 (R510); a PME is sent from L2 by WAKE_N (R512); training leaves L1 (R513); an unmasked vector's pending
message is sent (R505); a completed link comes up (R516); a read whose completion does not come puts its queue into ERROR with event 71; a
configuration read answers and changes nothing.

Says that exec answers a next state, under conditions on the state and the operands alone, for: perstAssert, perstDeassert,
functionLevelReset, linkDlDown, aspmL1Entry, dStateChange, pmeTurnOff, pmeSend, linkTrainingStart, msixEnable, msixUnmask, dataLinkUp,
completionTimeout, configRequest. -/
def Obligations.HostLinkCommands : Prop :=
  ∀ (b : Block) (q : List Instr), b.up →
    (b.on HIF_STAT_PERST = false → (∃ b', exec .perstAssert ⟨b, q⟩ = .next ⟨b', q⟩ ∧
      b'.get HIF_STAT_PERST = 1 ∧ b'.pendingEvent 69 = true)) ∧
    (b.on HIF_STAT_PERST = true → b.get HIF_STAT_LSTATE ≠ 4 → (∃ b', exec .perstDeassert ⟨b, q⟩ = .next ⟨b', q⟩ ∧
      b'.get HIF_STAT_PERST = 0 ∧ b'.get HIF_STAT_LSTATE = 5 ∧ b'.pendingEvent 69 = true ∧ Frame (withEvt [HIF_STAT]) id b b')) ∧
    (∃ b', exec .functionLevelReset ⟨b, q⟩ = .next ⟨b', q⟩ ∧
      b'.get HIF_STAT_DSTATE = 0 ∧ b'.get HIF_STAT_LINK_UP = b.get HIF_STAT_LINK_UP ∧
      b'.msixEn = false ∧ b'.hif.mse = false ∧ (b.get HIF_STAT_DSTATE ≠ 0 → b'.pendingEvent 66 = true) ∧
      SameRegs (fun a => evtReg a || (decide (0x70040 ≤ a) && decide (a < 0x80000))) b b' ∧ SameBytes b b' ∧
      b'.units.noMsix = b.units.noMsix) ∧
    (∀ n, b.on HIF_STAT_LINK_UP = true → (∃ b', exec (.linkDlDown n) ⟨b, q⟩ = .next ⟨b', q⟩ ∧
      b'.pendingEvent 64 = true)) ∧
    (b.hif.aspm = true → b.hostOpen = true → b.get HIF_STAT_LSTATE = 0 → (∃ b', exec (.aspmL1Entry false) ⟨b, q⟩ = .next ⟨b', q⟩ ∧
      b'.get HIF_STAT_LSTATE = 1 ∧ Frame (within [HIF_STAT]) Block.noTime b b')) ∧
    (b.on HIF_STAT_PERST = false → b.get HIF_STAT_DSTATE ≠ 3 → (∃ b', exec (.dStateChange true) ⟨b, q⟩ = .next ⟨b', q⟩ ∧
      b'.get HIF_STAT_DSTATE = 3 ∧ b'.pendingEvent 66 = true ∧ Frame (withEvt [HIF_STAT]) id b b')) ∧
    (b.on HIF_STAT_LINK_UP = true → b.get HIF_STAT_LSTATE ≠ 4 → (∃ b', exec .pmeTurnOff ⟨b, q⟩ = .next ⟨b', q⟩ ∧
      b'.get HIF_STAT_LSTATE = 4 ∧ b'.get HIF_STAT_LINK_UP = 0 ∧ b'.pendingEvent 64 = true ∧ Frame (withEvt [HIF_STAT]) id b b')) ∧
    (b.hif.pmeReq = true → b.hif.pmeStatus = false → b.get HIF_STAT_LSTATE = 4 → b.on HIF_CTRL_WAKE_N_EN = true → (∃ b', exec .pmeSend ⟨b, q⟩ = .next ⟨b', q⟩ ∧
      b'.hif.wakeN = true ∧ b'.hif.pmeOwed = true ∧ b'.hif.pmeStatus = true ∧
      Frame (withEvt [HIF_CNTi 4]) id b b')) ∧
    (b.get HIF_STAT_LSTATE = 2 → b.hif.pmeReq = false → (∃ b', exec .linkTrainingStart ⟨b, q⟩ = .next ⟨b', q⟩ ∧
      b'.get HIF_STAT_LSTATE = 0 ∧ Frame (within [HIF_STAT]) id b b')) ∧
    (∀ en mask, (∃ b', exec (.msixEnable en mask) ⟨b, q⟩ = .next ⟨b', q⟩ ∧
      b' = (Block.msixFlush { b with msixEn := en, msixMask := mask }).commit)) ∧
    (∀ v, v < 2048 → (∃ b', exec (.msixUnmask v) ⟨b, q⟩ = .next ⟨b', q⟩ ∧
      b' = ((b.set (bitOf (msixWord v 3) 0) 0).msixTry v).commit)) ∧
    (∀ sp w, b.on HIF_STAT_PERST = true → (∃ b', exec (.dataLinkUp sp w) ⟨b, q⟩ = .next ⟨b', q⟩ ∧
      Frame (within []) id b b')) ∧
    (∀ sp w c, b.on HIF_STAT_PERST = false → b.hif.pmeOwed = false →
      c = (((b.set HIF_STAT_LINK_UP 1).set HIF_STAT_LSTATE 0).set HIF_STAT_SPEED sp).set HIF_STAT_WIDTH w → (∃ b', exec (.dataLinkUp sp w) ⟨b, q⟩ = .next ⟨b', q⟩ ∧
      b' = ((((c.raiseIf (!b.on HIF_STAT_LINK_UP) 64).raiseIf (decide (sp < 5) || decide (w < 8)) 65).msixFlush).flushDue).commit)) ∧
    (∀ i n l, i < 256 → n < 1024 → b.hif.cache.find? (fun x => x.idx == qIdx i n) = some l → (QCtx.of l.bytes).state = 1 →
      (∃ b', exec (.completionTimeout i n) ⟨b, q⟩ = .next ⟨b', q⟩ ∧
      b' = (((((b.cachePut l).hifCnt 2).raiseEvery 1 72).queueError (qIdx i n) (QCtx.of l.bytes))).commit ∧ b'.pendingEvent 71 = true)) ∧
    (∀ r v, b.on HIF_STAT_PERST = false → (∃ b', exec (.configRequest r false v) ⟨b, q⟩ = .next ⟨b', q⟩ ∧
      b'.readData = b.cfgRead r ∧ Frame (within []) id b b')) ∧
    (∀ r v, b.on HIF_STAT_PERST = false → (∃ b', exec (.configRequest r true v) ⟨b, q⟩ = .next ⟨b', q⟩ ∧
      b' = (b.cfgWrite r v.toNat).commit))

/-- Memory commands, in a module that is up: a window read of the intake or acquisition bank by a Ridge core answers the little-endian bytes and
changes nothing, and a write to one of them is counted as refused and stores nothing (R523); a tuft-bank write without lease stores its bytes
and nothing else; a window access of the host or of JTAG that takes too long sets HOST_TMO, and a read then answers ones (R524); ZQ calibration shows nothing; each
drifted rank is counted with event 45; MR4 sets the refresh and temperature bits, with event 44 (R532); in Bivouac an idle trained channel
goes to self-refresh (R571).

Says that exec answers a next state, under conditions on the state and the operands alone, for: hostWindowAccess, hostWindowTimeout,
ddrZqCalibration, ddrDqsOscCheck, ddrMr4Read, ddrSelfRefreshEntry. -/
def Obligations.MemoryCommands : Prop :=
  ∀ (b : Block) (q : List Instr), b.up →
    (∀ m a n o sp, b.on IMG_STATUS_RECOVERY = false → 0 < n → a / 4096 = (a + n - 1) / 4096 → 0x8000000 ≤ a → a < 0xDE00000 → thlSpace a = some (sp, o) → (sp = .intake ∨ sp = .acq) →
      (∃ b', exec (.hostWindowAccess (.ridge m) a n false []) ⟨b, q⟩ = .next ⟨b', q⟩ ∧
      b'.readData = b.loadNat sp o n ∧ Frame (within []) id b b')) ∧
    (∀ m a n o sp d, b.on IMG_STATUS_RECOVERY = false → 0 < n → a / 4096 = (a + n - 1) / 4096 → 0x8000000 ≤ a → a < 0xDE00000 → thlSpace a = some (sp, o) → (sp = .intake ∨ sp = .acq) →
      (∃ b', exec (.hostWindowAccess (.ridge m) a n true d) ⟨b, q⟩ = .next ⟨b', q⟩ ∧
      b'.rd (THL_CNTi 2) = b.rd (THL_CNTi 2) + 1 ∧ Frame (withEvt [THL_CNTi 2, THL_CNT_ROLL]) id b b')) ∧
    (∀ m a n o t d, b.on IMG_STATUS_RECOVERY = false → 0 < n → a / 4096 = (a + n - 1) / 4096 → 0x8000000 ≤ a → thlSpace a = some (.tuft t, o) → b.member.has ⟨.tuft, t⟩ = true →
      b.leased = false → b.seg = [] → d.length = n → (∃ b', exec (.hostWindowAccess (.ridge m) a n true d) ⟨b, q⟩ = .next ⟨b', q⟩ ∧
      (∀ i, i < n → b'.byte (.tuft t) (o + i) = d.getD i 0) ∧
        (∀ sp x, (∀ i, i < n → sp.key x ≠ (Space.tuft t).key (o + i)) → b'.byte sp x = b.byte sp x) ∧ SameRegs (within []) b b' ∧ b'.units = b.units)) ∧
    (∀ w n x, b.hostWait = [] → (∃ b', exec (.hostWindowTimeout w n x) ⟨b, q⟩ = .next ⟨b', q⟩ ∧
      Frame (within []) id b b')) ∧
    (∀ m n x t, b.hostWait = [(1, m, n, x, t)] → (∃ b', exec (.hostWindowTimeout (.ridge m) n x) ⟨b, q⟩ = .next ⟨b', q⟩ ∧
      b'.hostWait = [] ∧ (b'.ridge.core.get (fun _ => ({} : RidgeCore)) m).fault = some (if x then 7 else 5) ∧ SameRegs (within []) b b' ∧ SameBytes b b')) ∧
    (∀ n x t, b.hostWait = [(0, 0, n, x, t)] → (∃ b', exec (.hostWindowTimeout .host n x) ⟨b, q⟩ = .next ⟨b', q⟩ ∧
      b'.hostWait = [] ∧ b'.get THL_ERR_HOST_TMO = 1 ∧ (x = false → b'.readData = 2 ^ (8 * n) - 1) ∧
      b'.rd (THL_CNTi 1) = b.rd (THL_CNTi 1) + 1 ∧
      Frame (withEvt [THL_ERR, THL_CNTi 1, THL_CNT_ROLL]) (fun y => ({ y with hostWait := [] } : Block).noTime) b b')) ∧
    (∀ c, (∃ b', exec (.ddrZqCalibration c) ⟨b, q⟩ = .next ⟨b', q⟩ ∧
      Frame (within []) id b b')) ∧
    (∀ c, b.ddrLive c = true → (∃ b', exec (.ddrDqsOscCheck c 1) ⟨b, q⟩ = .next ⟨b', q⟩ ∧
      b'.rd (THL_CNTi 4) = b.rd (THL_CNTi 4) + 1 ∧ b'.pendingEvent 45 = true ∧ Frame (withEvt [THL_CNTi 4, THL_CNT_ROLL]) id b b')) ∧
    (∀ c hot above, b.ddrLive c = true → (∃ b', exec (.ddrMr4Read c hot above) ⟨b, q⟩ = .next ⟨b', q⟩ ∧
      b'.get (THL_DDRc_STAT_REFRESH_2X c) = hot.toNat ∧ b'.get (THL_DDRc_STAT_TEMP_HIGH c) = above.toNat ∧
      (above = true → b'.pendingEvent 44 = true) ∧ Frame (withEvt [THL_DDRc_STAT c]) id b b')) ∧
    (∀ c, b.ddrLive c = true → b.on NRG_STATUS_BIVOUAC = true → (∃ b', exec (.ddrSelfRefreshEntry c) ⟨b, q⟩ = .next ⟨b', q⟩ ∧
      b'.get (THL_DDRc_STAT_SELF_REFRESH c) = 1 ∧ Frame (within [THL_DDRc_STAT c]) id b b'))

/-- Power, in a module that is up: a request for a domain that already has the wanted state changes nothing; otherwise it joins the governor's
queue (R552); the governor's head moves from the queue to the domains in transition and shows SWITCHING, counting a long wait (R552); an
admitted domain that is wanted as it is ends its transition (R553); an idle core's domain is asked down (R550); a PLL that is not locked
cannot be lost, one that is counts the loss with event 26 before what R35 does; the first relock timeout retries (R556); BIV_ENTER under the lease is
refused with event 30, BIV_EXIT outside Bivouac changes nothing (R570, R572); an XTRIG edge outside Bivouac reaches the acquisition
engine alone.

Says that exec answers a next state, under conditions on the state and the operands alone, for: domainPowerRequest, domainAdmit, domainOn,
coreIdleTimeout, pllLossOfLock, relockTimeout, bivEnter, bivExit, xtrigEdge. -/
def Obligations.PowerCommands : Prop :=
  ∀ (b : Block) (q : List Instr), b.up →
    (∀ d, b.domWant d = b.domState d → b.on NRG_STATUS_BIVOUAC = false → (∃ b', exec (.domainPowerRequest d) ⟨b, q⟩ = .next ⟨b', q⟩ ∧
      Frame (within []) id b b')) ∧
    (∀ d, b.member.hasDomain d = true → b.domWant d = dON → b.domState d = dOFF → b.on NRG_STATUS_BIVOUAC = false → b.nrg.up.any (fun r => r.dom == d) = false →
      b.nrg.moving.any (fun r => r.dom == d && r.want == dON) = false → (∃ b', exec (.domainPowerRequest d) ⟨b, q⟩ = .next ⟨b', q⟩ ∧
      b'.nrg.up = b.nrg.up ++ [⟨d, dON, b.xtal⟩] ∧ b'.get (NRG_DOMd_CFG_QUEUED d) = 1 ∧
        Frame (within [NRG_DOMd_CFG d, NRG_RAMP_STAT]) Block.noNrg b b')) ∧
    (∀ r, b.rampHead (if b.nrg.up.isEmpty then b.nrg.down else b.nrg.up) = some r → r.dom < 212 → (∃ b', exec .domainAdmit ⟨b, q⟩ = .next ⟨b', q⟩ ∧
      b'.get (NRG_DOMd_CFG_STATE r.dom) = dSWITCHING ∧ b'.nrg.moving = b.nrg.moving ++ [r] ∧
      b'.nrg.up = b.nrg.up.filter (fun x => x != r) ∧
      Frame (withEvt [NRG_DOMd_CFG r.dom, NRG_RAMP_STAT, NRG_CNTi 3, NRG_CNT_ROLL]) (fun x => x.noNrg.noTime) b b')) ∧
    (∀ d r, 128 ≤ d → d < 212 → b.nrg.moving.find? (fun r => r.dom == d) = some r → r.want = dON → b.domWant d = dON → b.on NRG_STATUS_BIVOUAC = false → (∃ b', exec (.domainOn d) ⟨b, q⟩ = .next ⟨b', q⟩ ∧
      b'.get (NRG_DOMd_CFG_STATE d) = dON ∧ b'.nrg.moving = b.nrg.moving.filter (fun x => x != r) ∧ Frame (within [NRG_DOMd_CFG d]) Block.noNrg b b')) ∧
    (∀ d r, 128 ≤ d → d < 212 → b.nrg.moving.find? (fun r => r.dom == d) = some r → r.want = dOFF → b.domWant d = dOFF → b.on NRG_STATUS_BIVOUAC = false → (∃ b', exec (.domainOn d) ⟨b, q⟩ = .next ⟨b', q⟩ ∧
      b'.get (NRG_DOMd_CFG_STATE d) = dOFF ∧ SameRegs (within [NRG_DOMd_CFG d]) b b' ∧ b'.units.noNrg = b.units.noNrg)) ∧
    (∀ c, c < b.member.units .frond → b.domState c = dON → b.domWant c ≠ dON → b.nrg.up.any (fun r => r.dom == c) = false → (∃ b', exec (.coreIdleTimeout c) ⟨b, q⟩ = .next ⟨b', q⟩ ∧
      b' = ((b.advanceXtal (b.frd.idleAt.get (fun _ => 0) c + b.get NRG_GATE_IDLE_US * 1000)).powerReq c
        ((b.advanceXtal (b.frd.idleAt.get (fun _ => 0) c + b.get NRG_GATE_IDLE_US * 1000)).domWant c)).commit)) ∧
    (∀ p x, p < 16 → b.on (bitOf NRG_CLK_LOCK p) = true → (∃ b', exec (.pllLossOfLock p x) ⟨b, q⟩ = .next ⟨b', q⟩ ∧
      b' = ((((b.set (bitOf NRG_CLK_LOCK p) 0).nrgCnt 5).raise 26).tuftPllLoss p).commit)) ∧
    (∀ p x, b.on (bitOf NRG_CLK_LOCK p) = false → (∃ b', exec (.pllLossOfLock p x) ⟨b, q⟩ = .next ⟨b', q⟩ ∧
      Frame (within []) id b b')) ∧
    (∀ p, p < 16 → b.frd.changing.get (fun _ => false) p = true → b.nrg.retried.get (fun _ => false) p = false → (∃ b', exec (.relockTimeout p) ⟨b, q⟩ = .next ⟨b', q⟩ ∧
      b'.nrg.retried.get (fun _ => false) p = true ∧ Frame (within []) Block.noNrg b b')) ∧
    (b.on NRG_STATUS_BIVOUAC = false → b.leased = true → (∃ b', exec .bivEnter ⟨b, q⟩ = .next ⟨b', q⟩ ∧
      b'.get NRG_STATUS_ENTRY_REFUSED = 1 ∧ b'.pendingEvent 30 = true ∧ Frame (withEvt [NRG_STATUS]) id b b')) ∧
    (b.on NRG_STATUS_BIVOUAC = false → b.leased = false → b.tblState 0 = 0 → b.tblState 1 = 0 → (∃ b', exec .bivEnter ⟨b, q⟩ = .next ⟨b', q⟩ ∧
      b'.pendingEvent 28 = true)) ∧
    (b.on NRG_STATUS_BIVOUAC = true → (∃ b', exec .bivExit ⟨b, q⟩ = .next ⟨b', q⟩ ∧
      b' = ((b.nrgWake 0x10).bivSettle).commit)) ∧
    (∀ n, b.on NRG_STATUS_BIVOUAC = false → (∃ b', exec (.xtrigEdge n) ⟨b, q⟩ = .next ⟨b', q⟩ ∧
      b' = (b.xtrigFalls n).commit))

/-- Sensors and supply, in a module that is up: a sensor sample leaves each reading in its register (R557); a thermal trip asserts THERMTRIP and
resets the module (R560); with the supply monitor off a sample only brings PL_SUPPLY to 0 and PL to PL_THERMAL, and an evaluation changes
nothing (R561, R564, R567); a sample of the monitor leaves VBAT in mV (R561); SOCQ_SET with its bit set loads the charge and clears the
provisional mark of it (R562).

Says that exec answers a next state, under conditions on the state and the operands alone, for: sensorSample, thermalTrip, ssmSample,
socEvaluate, socqSet. -/
def Obligations.SupplyCommands : Prop :=
  ∀ (b : Block) (q : List Instr), b.up →
    (∀ ts i, i < 48 → (∃ b', exec (.sensorSample ts) ⟨b, q⟩ = .next ⟨b', q⟩ ∧
      b'.nrg.sampled = true ∧ b'.get (NRG_SENSs_TEMP i) = uns 16 (ts.getD i 0))) ∧
    (∃ b', exec .thermalTrip ⟨b, q⟩ = .next ⟨b', q⟩ ∧
      b' = (((b.modRst (fun r => { r with thermtrip := true })).leaseDrop).moduleReset 4).commit) ∧
    (∀ v i, b.on NRG_SSM_CFG_EN = false → (∃ b', exec (.ssmSample v i) ⟨b, q⟩ = .next ⟨b', q⟩ ∧
      b'.get NRG_STATUS_PL_SUPPLY = 0 ∧ b'.get NRG_STATUS_PL = b.get NRG_STATUS_PL_THERMAL ∧
      (b.get NRG_STATUS_PL ≠ b.get NRG_STATUS_PL_THERMAL → b'.pendingEvent 16 = true) ∧ Frame (withEvt [NRG_STATUS]) id b b')) ∧
    (∀ v i, b.on NRG_SSM_CFG_EN = true → b.nrg.need ≠ 0 → v ≠ 0 → v ≠ 0xFFFF → i ≠ -32768 → i ≠ 32767 → b.get NRG_SSM_UVLO_LEVEL = 0 →
      b.on NRG_SSM_STAT_UVLO_WARN = true → (∃ b', exec (.ssmSample v i) ⟨b, q⟩ = .next ⟨b', q⟩ ∧
      b'.rd NRG_SSM_VBAT = BitVec.ofNat 32 (rneDiv ((v * b.get NRG_SSM_VSCALE_UV_PER_CODE : Nat) : Int) 1000).toNat ∧ b'.nrg.need = b.nrg.need - 1)) ∧
    (b.on NRG_SSM_CFG_EN = false → (∃ b', exec .socEvaluate ⟨b, q⟩ = .next ⟨b', q⟩ ∧
      Frame (within []) id b b')) ∧
    (b.on NRG_SSM_CFG_EN = true → (∃ b', exec .socEvaluate ⟨b, q⟩ = .next ⟨b', q⟩ ∧
      b'.get NRG_STATUS_PL =
      (if b'.get NRG_STATUS_PL_THERMAL < b'.get NRG_STATUS_PL_SUPPLY then b'.get NRG_STATUS_PL_SUPPLY else b'.get NRG_STATUS_PL_THERMAL))) ∧
    (∀ v, bit v.toNat 31 = true → (∃ b', exec (.socqSet v) ⟨b, q⟩ = .next ⟨b', q⟩ ∧
      b'.nrg.qSet = true ∧ b'.nrg.qProv = false ∧ b'.get NRG_SSM_STAT_ANCHOR_S = 0 ∧
      Frame (within [NRG_SSM_SOC, NRG_SSM_STAT]) Block.noNrg b b'))

/-- The states of a segment that exists, in a module that is up (R586): EN on a DISABLED segment starts it; clearing EN leaves it DISABLED with nothing
remembered; the end of the ramp, GO_LISTEN, GO_NORMAL, SLEEP, WAKE and STAY move it as the state table decides, SLEEP under the lease with
P_C_FEED being refused with REFUSED (R594); the awake timer and the sleep delay end in DRAINING and SLEEP (R591); AUXEN falls after its hold; a wake
lock ends (R590); KICK and CLEAR restart the fail-safe timer (R595, R596).

Says that exec answers a next state, under conditions on the state and the operands alone, for: auxEnable, auxDisable, auxenRampDone,
goListen, goNormal, sleep, wake, stay, awakeTimerExpiry, sleepDelayDone, auxenHoldExpiry, wakeLockExpiry, auxFsKick, auxFsClear. -/
def Obligations.SegmentStates : Prop :=
  ∀ (b : Block) (q : List Instr) (g : Nat), b.up → g < b.member.units .aux →
    (∀ v, b.auxState g ≠ axDISABLED → (∃ b', exec (.auxEnable g v) ⟨b, q⟩ = .next ⟨b', q⟩ ∧
      Frame (within []) id b b')) ∧
    (∀ v c, b.auxState g = axDISABLED → c = (b.wr (AUXs_CFG g) (b.written true (AUXs_CFG g) v)).set (AUXs_CFG_EN g) 1 → (∃ b', exec (.auxEnable g v) ⟨b, q⟩ = .next ⟨b', q⟩ ∧
      b' = ((((c.setAux g { ({} : AuxSeg) with cfg := c.rd (AUXs_CFG g), plca := c.rd (AUXs_PLCA g), plca2 := c.rd (AUXs_PLCA2 g) }).auxStart g 3).fsRestart g)).commit)) ∧
    (b.auxState g ≠ axDISABLED → (∃ b', exec (.auxDisable g) ⟨b, q⟩ = .next ⟨b', q⟩ ∧
      b'.auxOf g = {} ∧ b'.get (AUXs_STAT_AUXEN g) = 0)) ∧
    (b.auxState g = axSTANDBY → (b.auxOf g).ramp ≠ 0 → (∃ b', exec (.auxenRampDone g) ⟨b, q⟩ = .next ⟨b', q⟩ ∧
      b'.auxState g = axNORMAL ∧ (b'.auxOf g).ramp = 0 ∧ (∀ k, k ≠ g → b'.auxOf k = b.auxOf k) ∧
      Frame (withEvt [AUXs_STAT g, AUXs_EVT_CAUSE g]) (fun x => x.noAux.noTime) b b')) ∧
    (b.auxState g = axNORMAL → (∃ b', exec (.goListen g) ⟨b, q⟩ = .next ⟨b', q⟩ ∧
      b'.auxState g = axLISTEN ∧ b'.pendingEvent (928 + 4 * g) = true ∧ Frame (withEvt [AUXs_STAT g, AUXs_EVT_CAUSE g]) id b b')) ∧
    (b.auxState g = axLISTEN → (∃ b', exec (.goNormal g) ⟨b, q⟩ = .next ⟨b', q⟩ ∧
      b'.auxState g = axNORMAL ∧ b'.get (AUXs_STAT_WAKE_LOCK g) = 0 ∧ b'.pendingEvent (928 + 4 * g) = true ∧ (∀ k, k ≠ g → b'.auxOf k = b.auxOf k) ∧
      Frame (withEvt [AUXs_STAT g, AUXs_EVT_CAUSE g]) Block.noAux b b')) ∧
    (b.on (AUXs_CFG_P_C_FEED g) = true → b.leased = true → (∃ b', exec (.sleep g) ⟨b, q⟩ = .next ⟨b', q⟩ ∧
      b'.get (AUXs_STAT_REFUSED g) = 1 ∧ b'.auxState g = b.auxState g ∧ b'.pendingEvent (930 + 4 * g) = true ∧
      Frame (withEvt [AUXs_STAT g, AUXs_EVT_CAUSE g]) id b b')) ∧
    (b.leased = false → (b.auxState g = axNORMAL ∨ b.auxState g = axLISTEN) → (∃ b', exec (.sleep g) ⟨b, q⟩ = .next ⟨b', q⟩ ∧
      b'.auxState g = axDRAINING ∧ b'.get (AUXs_STAT_REASON g) = 0 ∧ (b'.auxOf g).sent = 0 ∧
      Frame (withEvt [AUXs_STAT g, AUXs_EVT_CAUSE g]) Block.noAux b b')) ∧
    (b.auxState g = axNORMAL → (∃ b', exec (.wake g) ⟨b, q⟩ = .next ⟨b', q⟩ ∧
      b'.get (AUXs_STAT_WAKE_LOCK g) = 0 ∧ Frame (within [AUXs_STAT g]) id b b')) ∧
    (b.auxState g = axSLEEP → b.on (AUXs_STAT_FS_LATCHED g) = false → (∃ b', exec (.wake g) ⟨b, q⟩ = .next ⟨b', q⟩ ∧
      b' = ((b.auxUnlock g).auxStart g 2).commit)) ∧
    (b.auxState g = axNORMAL → b.get (AUXs_SLEEP_AWAKE_MAX_S g) ≠ 0 → (∃ b', exec (.stay g) ⟨b, q⟩ = .next ⟨b', q⟩ ∧
      (b'.auxOf g).awake = some (b.xtal + b.get (AUXs_SLEEP_AWAKE_MAX_S g) * 1000000000) ∧ Frame (within []) Block.noAux b b')) ∧
    (∀ e, (b.auxOf g).awake = some e → b.auxState g = axNORMAL → (∃ b', exec (.awakeTimerExpiry g) ⟨b, q⟩ = .next ⟨b', q⟩ ∧
      b'.auxState g = axDRAINING ∧ b'.get (AUXs_STAT_REASON g) = 1 ∧ Frame (withEvt [AUXs_STAT g, AUXs_EVT_CAUSE g]) (fun x => x.noAux.noTime) b b')) ∧
    (b.auxState g = axDRAINING → (b.auxOf g).sent = 3 → (∃ b', exec (.sleepDelayDone g) ⟨b, q⟩ = .next ⟨b', q⟩ ∧
      b' = ((b.advanceXtal (b.auxOf g).next).auxSleep g).commit)) ∧
    (∀ e, (b.auxOf g).hold = some e → (∃ b', exec (.auxenHoldExpiry g) ⟨b, q⟩ = .next ⟨b', q⟩ ∧
      b'.get (AUXs_STAT_AUXEN g) = 0 ∧ (b'.auxOf g).hold = none ∧ Frame (within [AUXs_STAT g]) (fun x => x.noAux.noTime) b b')) ∧
    (b.on (AUXs_STAT_WAKE_LOCK g) = true → (∃ b', exec (.wakeLockExpiry g) ⟨b, q⟩ = .next ⟨b', q⟩ ∧
      b'.get (AUXs_STAT_WAKE_LOCK g) = 0 ∧ Frame (within [AUXs_STAT g]) Block.noTime b b')) ∧
    (b.auxState g ≠ axDISABLED → (b.auxOf g).fsMode ≠ 0 → (∃ b', exec (.auxFsKick g) ⟨b, q⟩ = .next ⟨b', q⟩ ∧
      (b'.auxOf g).fsEnd = some (b.xtal + clampN 10 65535 (b.get (AUXs_FS_TIMEOUT_MS g)) * 1000000) ∧ Frame (within []) Block.noAux b b')) ∧
    (∃ b', exec (.auxFsClear g) ⟨b, q⟩ = .next ⟨b', q⟩ ∧
      b'.get (AUXs_STAT_FS_LATCHED g) = 0 ∧ Frame (within [AUXs_STAT g]) Block.noAux b b')

/-- What happens on a segment that exists, in a module that is up: a frame that fails a MAC check is counted in its counter and delivered nowhere
(R580); a draining segment sends its next sleep frame and counts it (R591); line activity long enough on a sleeping segment with waking
enabled is ignored and counted under the wake lock, and otherwise leads to WAKING with AUXEN driven (R588); a wake burst confirms a
wake (R589); an unconfirmed window returns to SLEEP; the fail-safe timer's end sets FS_LATCHED (R595) and its sequence goes on frame by frame (R596); a PLCA change
and a jabber show with event 3 of the segment (R579, R580).

Says that exec answers a next state, under conditions on the state and the operands alone, for: auxFrameReceived, sleepFrameTx, wakeDetect,
wakeBurstDecoded, wakeWindowExpiry, failsafeTimeout, failsafeFrameTx, plcaStatusChange, jabber. -/
def Obligations.SegmentEvents : Prop :=
  ∀ (b : Block) (q : List Instr) (g : Nat), b.up → g < b.member.units .aux →
    (∀ f i j, b.auxHears g = true → macFault f = some (i, j) → (∃ b', exec (.auxFrameReceived g f) ⟨b, q⟩ = .next ⟨b', q⟩ ∧
      b' = ((b.advanceTo (f.stamp / 65536)).auxCnt g i 1).commit)) ∧
    (∀ f c, b.auxHears g = true → macFault f = none → beAt f.bytes 12 2 ≠ 0x88A8 → beAt f.bytes (afterVlan f.bytes) 2 ≠ 0x8808 → b.auxState g = axNORMAL →
      c = (((b.advanceTo (f.stamp / 65536)).auxCnt g 0 1).auxCnt g 1 (f.bytes.length + 4)).ridgeRx (g + 1) (0x20 + g) f.bytes f.stamp false → c.auxState g ≠ axWAKING →
      (∃ b', exec (.auxFrameReceived g f) ⟨b, q⟩ = .next ⟨b', q⟩ ∧
      b' = c.commit)) ∧
    (∀ x, b.auxState g = axDRAINING → x = b.auxOf g → x.failSafe = false → x.sent < 3 → (∃ b', exec (.sleepFrameTx g) ⟨b, q⟩ = .next ⟨b', q⟩ ∧
      (b'.auxOf g).sent = x.sent + 1 ∧ (∀ k, k ≠ g → b'.auxOf k = b.auxOf k))) ∧
    (∀ us, b.auxState g = axSLEEP → b.on (AUXs_CFG_WAKE_EN g) = true → clampN 20 255 (b.get (AUXs_WAKE_WAKE_MIN_US g)) ≤ us →
      b.on (AUXs_STAT_WAKE_LOCK g) = true → (∃ b', exec (.wakeDetect g us) ⟨b, q⟩ = .next ⟨b', q⟩ ∧
      b'.rd (AUXs_CNTi g 15) = b.rd (AUXs_CNTi g 15) + 1 ∧ b'.auxState g = axSLEEP)) ∧
    (∀ us, b.auxState g = axSLEEP → b.on (AUXs_CFG_WAKE_EN g) = true → clampN 20 255 (b.get (AUXs_WAKE_WAKE_MIN_US g)) ≤ us →
      b.on (AUXs_STAT_WAKE_LOCK g) = false → b.on (AUXs_STAT_FS_LATCHED g) = false → (∃ b', exec (.wakeDetect g us) ⟨b, q⟩ = .next ⟨b', q⟩ ∧
      b'.get (AUXs_STAT_AUXEN g) = 1 ∧ (b'.auxOf g).window = b.xtal + b.get (AUXs_WAKE_FW_WIN_MS g) * 1000000)) ∧
    (b.auxState g = axWAKING → (∃ b', exec (.wakeBurstDecoded g) ⟨b, q⟩ = .next ⟨b', q⟩ ∧
      b' = (b.auxConfirm g).commit)) ∧
    (b.auxState g = axWAKING → b.get (AUXs_FW_FW_LIMIT g) = 255 → (b.auxOf g).falseWakes = [] → (∃ b', exec (.wakeWindowExpiry g) ⟨b, q⟩ = .next ⟨b', q⟩ ∧
      (b'.auxOf g).falseWakes = [(b.advanceXtal (b.auxOf g).window).xtal])) ∧
    (∀ e, (b.auxOf g).fsEnd = some e → b.auxState g = axSLEEP → (∃ b', exec (.failsafeTimeout g) ⟨b, q⟩ = .next ⟨b', q⟩ ∧
      b'.get (AUXs_STAT_FS_LATCHED g) = 1 ∧ (b'.auxOf g).fsEnd = none ∧ Frame (within [AUXs_STAT g]) (fun x => x.noAux.noTime) b b')) ∧
    (∀ x, b.auxState g = axDRAINING → x = b.auxOf g → x.failSafe = true → x.sent < 2 → (∃ b', exec (.failsafeFrameTx g) ⟨b, q⟩ = .next ⟨b', q⟩ ∧
      (b'.auxOf g).sent = x.sent + 1 ∧ (∀ k, k ≠ g → b'.auxOf k = b.auxOf k))) ∧
    (∀ v, bit (b.auxOf g).cfg.toNat 30 = true → b.auxHears g = true → b.on (AUXs_STAT_PLCA_STATUS g) ≠ v → (∃ b', exec (.plcaStatusChange g v) ⟨b, q⟩ = .next ⟨b', q⟩ ∧
      b'.get (AUXs_STAT_PLCA_STATUS g) = (if v then 1 else 0) ∧ b'.pendingEvent (931 + 4 * g) = true ∧
      Frame (withEvt [AUXs_STAT g, AUXs_EVT_CAUSE g]) id b b')) ∧
    (b.auxHears g = true → (∃ b', exec (.jabber g) ⟨b, q⟩ = .next ⟨b', q⟩ ∧
      b'.rd (AUXs_CNTi g 12) = b.rd (AUXs_CNTi g 12) + 1 ∧ b'.pendingEvent (931 + 4 * g) = true ∧
      Frame (withEvt [AUXs_CNTi g 12, AUXs_CNT_ROLL g, AUXs_EVT_CAUSE g]) id b b'))

/-- Module resets at a module that is up (R602). A held source (SYS_RST_N, a rail, WARM_RST_N) leaves the reset asserted, with LEVEL and CAUSE of
RST_LAST and the source's bit alone in RST_LAST_ALL; an unheld one (RST_CMD, the Crozier watchdog) begins the start, at stage 1 after a cold reset
and 5 after a warm one. A cold reset empties DRAM and keeps flash (R601). SYS_RST_N clears STORM (R607). POWER_ON keeps flash and begins at stage 1;
a loss of VDD_AON stops the module and drops the lease (R422). RST_CMD needs its key, and FORCE under the lease (R604): otherwise nothing
happens, or ROOT_ERR shows REFUSED with event 12. A watchdog that is not armed does nothing (R605).

Says that exec answers a next state, under conditions on the state and the operands alone, for: powerOn, lossOfVddAon, sysRstAssert,
railFault, warmRstAssert, rstCmdCold, rstCmdWarm, crzWatchdogExpiry. -/
def Obligations.ResetSources : Prop :=
  ∀ (b : Block) (q : List Instr), b.up →
    (∃ b', exec .powerOn ⟨b, q⟩ = .next ⟨b', q⟩ ∧
      b'.rst.off = false ∧ b'.get RST_START_STAGE = 1 ∧ b'.get RST_LAST_LEVEL = 0 ∧ b'.get RST_LAST_CAUSE = 1 ∧
      b'.rst.rel = false ∧ b'.imgLock = false ∧ (∀ d a, b'.byte (.flash d) a = b.byte (.flash d) a)) ∧
    (∃ b', exec .lossOfVddAon ⟨b, q⟩ = .next ⟨b', q⟩ ∧
      b'.rst.off = true ∧ b'.leased = false ∧ b'.mem = b.commit.mem) ∧
    (b.leased = false → (∃ b', exec .lossOfVddAon ⟨b, q⟩ = .next ⟨b', q⟩ ∧
      Frame (within []) Block.noRst b b')) ∧
    (∀ cool, (∃ b', exec (.sysRstAssert cool) ⟨b, q⟩ = .next ⟨b', q⟩ ∧
      b'.rst.asserted = true ∧ b'.rst.level = 1 ∧ bit b'.rst.held 2 = true ∧ b'.get RST_LAST_LEVEL = 1 ∧ b'.get RST_LAST_CAUSE = 2 ∧
      b'.rd RST_LAST_ALL = 4 ∧ b'.get RST_START_STORM = 0 ∧ b'.rst.rel = false ∧ b'.imgLock = false ∧ b'.leased = false ∧
      (∀ a, a < 2 ^ 64 → b'.byte .dram a = 0) ∧ (∀ d a, b'.byte (.flash d) a = b.byte (.flash d) a))) ∧
    (∃ b', exec .railFault ⟨b, q⟩ = .next ⟨b', q⟩ ∧
      b'.rst.asserted = true ∧ b'.rst.level = 1 ∧ bit b'.rst.held 3 = true ∧ b'.get RST_LAST_LEVEL = 1 ∧ b'.get RST_LAST_CAUSE = 3 ∧
      b'.rd RST_LAST_ALL = 8 ∧ b'.rst.rel = false ∧ b'.leased = false ∧ (∀ a, a < 2 ^ 64 → b'.byte .dram a = 0) ∧
      (∀ d a, b'.byte (.flash d) a = b.byte (.flash d) a)) ∧
    (∃ b', exec .warmRstAssert ⟨b, q⟩ = .next ⟨b', q⟩ ∧
      b'.rst.asserted = true ∧ b'.rst.level = 2 ∧ bit b'.rst.held 6 = true ∧ b'.get RST_LAST_LEVEL = 2 ∧ b'.get RST_LAST_CAUSE = 6 ∧
      b'.rd RST_LAST_ALL = 64 ∧ b'.rst.rel = false ∧ b'.leased = false) ∧
    (∀ who v, b.reaches who = true → bits v.toNat 0 16 = 0xA5C3 → (b.leased = false ∨ bit v.toNat 29 = true) → (∃ b', exec (.rstCmdCold who v) ⟨b, q⟩ = .next ⟨b', q⟩ ∧
      b'.rst.asserted = false ∧ b'.rst.level = 1 ∧ b'.get RST_START_STAGE = 1 ∧ b'.get RST_LAST_LEVEL = 1 ∧ b'.get RST_LAST_CAUSE = 9 ∧
      b'.rd RST_LAST_ALL = 512 ∧ b'.rst.rel = false ∧ (∀ a, a < 2 ^ 64 → b'.byte .dram a = 0) ∧
      (∀ d a, b'.byte (.flash d) a = b.byte (.flash d) a))) ∧
    (∀ who v, b.reaches who = true → bits v.toNat 0 16 = 0xA5C3 → (b.leased = false ∨ bit v.toNat 29 = true) → (∃ b', exec (.rstCmdWarm who v) ⟨b, q⟩ = .next ⟨b', q⟩ ∧
      b'.rst.asserted = false ∧ b'.rst.level = 2 ∧ b'.get RST_START_STAGE = 5 ∧ b'.get RST_LAST_LEVEL = 2 ∧ b'.get RST_LAST_CAUSE = 10 ∧
      b'.rd RST_LAST_ALL = 1024 ∧ b'.rst.rel = false)) ∧
    (∀ who v, (b.reaches who = false ∨ bits v.toNat 0 16 ≠ 0xA5C3) → (∃ b', exec (.rstCmdCold who v) ⟨b, q⟩ = .next ⟨b', q⟩ ∧
      Frame (within []) id b b') ∧
      (∃ b', exec (.rstCmdWarm who v) ⟨b, q⟩ = .next ⟨b', q⟩ ∧
      Frame (within []) id b b')) ∧
    (∀ who v, b.reaches who = true → bits v.toNat 0 16 = 0xA5C3 → b.leased = true → bit v.toNat 29 = false →
      (∃ b', exec (.rstCmdCold who v) ⟨b, q⟩ = .next ⟨b', q⟩ ∧
      b'.get ROOT_ERR_REFUSED = 1 ∧ b'.pendingEvent 12 = true ∧ Frame (withEvt [ROOT_ERR, ROOT_ERR_ADDR]) id b b') ∧
      (∃ b', exec (.rstCmdWarm who v) ⟨b, q⟩ = .next ⟨b', q⟩ ∧
      b'.get ROOT_ERR_REFUSED = 1 ∧ b'.pendingEvent 12 = true ∧ Frame (withEvt [ROOT_ERR, ROOT_ERR_ADDR]) id b b')) ∧
    (b.rst.crzDue = none → (∃ b', exec .crzWatchdogExpiry ⟨b, q⟩ = .next ⟨b', q⟩ ∧
      Frame (within []) id b b')) ∧
    (∀ t, b.rst.crzDue = some t → (∃ b', exec .crzWatchdogExpiry ⟨b, q⟩ = .next ⟨b', q⟩ ∧
      b'.rst.asserted = false ∧ b'.rst.level = 2 ∧ b'.get RST_START_STAGE = 5 ∧ b'.get RST_LAST_LEVEL = 2 ∧ b'.get RST_LAST_CAUSE = 7 ∧ b'.rd RST_LAST_ALL = 128))

/-- The release of a held reset (R602): the last held cause begins the start, at stage 5 after a warm reset and 1 otherwise; another only ends its own hold. The
Ridge watchdog (R606): its half raises event 2, its end resets core m where ACT says so and m is not 0, and otherwise causes the warm reset 0x08; RST_KICK
reloads the armed ones. A wipe (R527) starts by invalidating every slot and its key bytes; its end shows WIPED with event 46, or WIPE_FAIL and a closed key
store; TAMPER_N starts one with event 965 and has the warm reset 0x0D follow (R658).

Says that exec answers a next state, under conditions on the state and the operands alone, for: resetRelease, ridgeWatchdogHalf,
ridgeWatchdogExpiry, rstKick, wipeStart, wipeDone, tamper. -/
def Obligations.ResetReleaseAndWipe : Prop :=
  ∀ (b : Block) (q : List Instr),
    (∀ c, b.rst.off = false → bit b.rst.held c = true → c ≠ 4 → c ≠ 5 → b.rst.held = 2 ^ c → (∃ b', exec (.resetRelease c) ⟨b, q⟩ = .next ⟨b', q⟩ ∧
      b'.rst.asserted = false ∧ b'.rst.held = 0 ∧ b'.get RST_START_STAGE = (if b.rst.level = 2 then 5 else 1) ∧ Frame (withEvt [RST_START]) Block.noRst b b')) ∧
    (∀ c, b.rst.off = false → bit b.rst.held c = true → c ≠ 4 → c ≠ 5 → b.rst.held ≠ 2 ^ c → (∃ b', exec (.resetRelease c) ⟨b, q⟩ = .next ⟨b', q⟩ ∧
      b'.rst.held = b.rst.held - 2 ^ c ∧ b'.rst.asserted = b.rst.asserted ∧ Frame (within []) Block.noRst b b')) ∧
    (∀ c, bit b.rst.held c = false → (∃ b', exec (.resetRelease c) ⟨b, q⟩ = .next ⟨b', q⟩ ∧
      Frame (within []) id b b')) ∧
    (∀ m t, b.ridgeLoaded m = some t → b.rst.ridgeHalf.get (fun _ => false) m = false → (∃ b', exec (.ridgeWatchdogHalf m) ⟨b, q⟩ = .next ⟨b', q⟩ ∧
      b'.pendingEvent 2 = true ∧ b'.rst.ridgeHalf.get (fun _ => false) m = true ∧ Frame (withEvt []) (fun x => x.noRst.noTime) b b')) ∧
    (∀ m t, b.ridgeLoaded m = some t → m ≠ 0 → b.on RST_WDOG_RIDGE_ACT = true → b.on (stResetBusy (⟨.ridge, m⟩ : UnitRef).hdr) = false →
      (∃ b', exec (.ridgeWatchdogExpiry m) ⟨b, q⟩ = .next ⟨b', q⟩ ∧
      b'.get (stResetBusy (⟨.ridge, m⟩ : UnitRef).hdr) = 1 ∧ b'.get (ctlReset (⟨.ridge, m⟩ : UnitRef).hdr) = 1 ∧
        b'.rst.ridgeAt.get (fun _ => none) m = none ∧
        Frame (within [(⟨.ridge, m⟩ : UnitRef).hdr + 8, (⟨.ridge, m⟩ : UnitRef).hdr + 0xC]) (fun x => x.noRst.noTime) b b')) ∧
    (∀ m t, b.up → b.ridgeLoaded m = some t → (m = 0 ∨ b.on RST_WDOG_RIDGE_ACT = false) → (∃ b', exec (.ridgeWatchdogExpiry m) ⟨b, q⟩ = .next ⟨b', q⟩ ∧
      b'.rst.asserted = false ∧ b'.rst.level = 2 ∧ b'.get RST_START_STAGE = 5 ∧ b'.get RST_LAST_CAUSE = 8 ∧ b'.rd RST_LAST_ALL = 256)) ∧
    (∀ v, b.rst.off = false → (∃ b', exec (.rstKick v) ⟨b, q⟩ = .next ⟨b', q⟩ ∧
      (∀ m, m < 4 → bit v.toNat m = true → (b.ridgeLoaded m).isSome = true →
        b'.rst.ridgeAt.get (fun _ => none) m = some b.xtal ∧ b'.rst.ridgeHalf.get (fun _ => false) m = false) ∧
      (∀ m, bit v.toNat m = false → b'.rst.ridgeAt.get (fun _ => none) m = b.rst.ridgeAt.get (fun _ => none) m) ∧ Frame (within []) Block.noRst b b')) ∧
    (b.rst.off = false → b.on THL_SEC_STAT_WIPING = false → (∃ b', exec .wipeStart ⟨b, q⟩ = .next ⟨b', q⟩ ∧
      b'.get THL_SEC_STAT_WIPING = 1 ∧ b'.get THL_SEC_STAT_WIPE_PEND = 1 ∧ b'.get KEY_STATUS_ROOT_OK = 0 ∧
      (∀ n, n < 512 → b'.get (KEY_SLOTn_ATTR_VALID n) = 0 ∧ (b.on (KEY_SLOTn_ATTR_VALID n) = true → ∀ i, i < 64 → b'.byte .secure (keyAt n + i) = 0)) ∧
      SameRegs (fun a => within [THL_SEC_STAT, KEY_STATUS] a || (decide (0x31000 ≤ a) && decide (a < 0x33000))) b b' ∧ b'.units.noKey = b.units.noKey)) ∧
    (b.rst.off = false → b.on THL_SEC_STAT_WIPING = true → (∃ b', exec .wipeStart ⟨b, q⟩ = .next ⟨b', q⟩ ∧
      Frame (within []) id b b')) ∧
    (b.rst.off = false → b.on THL_SEC_STAT_WIPING = true → b.rst.afterWipe = 0 → (∃ b', exec (.wipeDone true) ⟨b, q⟩ = .next ⟨b', q⟩ ∧
      b'.get THL_SEC_STAT_WIPING = 0 ∧ b'.get THL_SEC_STAT_WIPED = 1 ∧ b'.get THL_SEC_STAT_WIPE_PEND = 0 ∧ b'.get THL_SEC_STAT_WIPE_FAIL = 0 ∧
      b'.pendingEvent 46 = true ∧ Frame (withEvt [THL_SEC_STAT, KEY_STATUS]) id b b')) ∧
    (b.rst.off = false → b.on THL_SEC_STAT_WIPING = true → b.rst.afterWipe = 0 → (∃ b', exec (.wipeDone false) ⟨b, q⟩ = .next ⟨b', q⟩ ∧
      b'.get THL_SEC_STAT_WIPING = 0 ∧ b'.get THL_SEC_STAT_WIPE_FAIL = 1 ∧ b'.get THL_ERR_WIPE_FAIL = 1 ∧ b'.get KEY_STATUS_CLOSED = 1 ∧
      b'.pendingEvent 46 = true ∧ Frame (withEvt [THL_SEC_STAT, THL_ERR, KEY_STATUS]) id b b')) ∧
    (b.up → b.on THL_SEC_STAT_WIPING = true → b.rst.afterWipe = 2 ^ 0xD → (∃ b', exec (.wipeDone true) ⟨b, q⟩ = .next ⟨b', q⟩ ∧
      b'.rst.asserted = true ∧ b'.rst.level = 2 ∧ b'.get RST_LAST_CAUSE = 13 ∧ b'.rst.afterWipe = 0)) ∧
    (b.rst.off = false → (∃ b', exec .tamper ⟨b, q⟩ = .next ⟨b', q⟩ ∧
      b'.get KEY_STATUS_TAMPER_SEEN = 1 ∧ b'.pendingEvent 965 = true ∧ b'.get THL_SEC_STAT_WIPING = 1 ∧ bit b'.rst.afterWipe 0xD = true ∧
      SameRegs (fun a => withCrn [THL_SEC_STAT, KEY_STATUS] a || (decide (0x31000 ≤ a) && decide (a < 0x33000))) b b'))

/-- START_STAGE_DONE ends the stage that RST_START.STAGE shows (R613); without power or under an asserted reset it changes nothing. Stage 1 latches SLOT_ID and
PAIR_ID (R40), wipes the secure bank (R528) and goes to 2; stage 2 locks the PLLs and goes to 3; stage 3 reads the journal, regenerates the root and goes to 4;
stage 4 goes to 5 where the slot holds a valid header; stage 5 goes to 6 with no enabled channel, and to the recovery state 0xD where an enabled channel shows
TRAIN_FAIL (R616); stage 6 of a warm start only goes to 7; stage 7 with a stream error restarts the stream or falls back; a cold start's stage 8 falls back where the
signature fails (R616) and otherwise latches the running anchor and goes to 9; stage 9 releases the units of step 7 and scrubs; a start that waits for the
time base ends the wait (R618).

Says that exec answers a next state, under conditions on the state and the operands alone, for: startStageDone. -/
def Obligations.StartStages : Prop :=
  ∀ (b : Block) (q : List Instr) (w : StageIn),
    ((b.rst.off = true ∨ b.rst.asserted = true) → (∃ b', exec (.startStageDone w) ⟨b, q⟩ = .next ⟨b', q⟩ ∧
      Frame (within []) id b b')) ∧
    (b.rst.off = false → b.rst.asserted = false →
      (b.get RST_START_STAGE = 1 → w.wipeOk = true → (∃ b', exec (.startStageDone w) ⟨b, q⟩ = .next ⟨b', q⟩ ∧
      b'.get RST_START_STAGE = 2 ∧ b'.rst.slotId = w.slotId % 64 ∧ b'.rst.pairId = w.pairId % 2 ∧
        b'.get HIF_SLOT_SLOT_ID = w.slotId % 64 ∧ b'.get HIF_SLOT_PAIR_ID = w.pairId % 2 ∧
        b'.get THL_SEC_STAT_WIPING = 0 ∧ b'.get THL_SEC_STAT_WIPED = 1 ∧ b'.get THL_SEC_STAT_WIPE_FAIL = 0 ∧
        (b.on THL_SEC_STAT_WIPING = false → ∀ n, n < 512 → b'.get (KEY_SLOTn_ATTR_VALID n) = 0))) ∧
      (b.get RST_START_STAGE = 2 → (∃ b', exec (.startStageDone w) ⟨b, q⟩ = .next ⟨b', q⟩ ∧
      b'.get RST_START_STAGE = 3 ∧ b'.get NRG_CLK_LOCK_MAIN = 9 ∧ Frame (within [RST_START, NRG_CLK_LOCK]) id b b')) ∧
      (b.get RST_START_STAGE = 3 → (∃ b', exec (.startStageDone w) ⟨b, q⟩ = .next ⟨b', q⟩ ∧
      b'.get RST_START_STAGE = 4 ∧ b'.get IMG_STATUS_BCR_SLOT = b'.rst.slot ∧ (b.get KEY_STATUS_LC ≠ 4 → b'.get KEY_STATUS_ROOT_OK = w.rootOk.toNat))) ∧
      (b.get RST_START_STAGE = 4 → b.slotOk b.rst.slot = true → (∃ b', exec (.startStageDone w) ⟨b, q⟩ = .next ⟨b', q⟩ ∧
      b'.get RST_START_STAGE = 5 ∧ b'.rst.hif = true ∧ b'.img.slot = b.rst.slot)) ∧
      (b.get RST_START_STAGE = 4 → b.slotOk b.rst.slot = false → (∃ b', exec (.startStageDone w) ⟨b, q⟩ = .next ⟨b', q⟩ ∧
      b' = (b.startFails).commit)) ∧
      (b.get RST_START_STAGE = 5 → b.rst.warm = false → (∀ c, c < 2 → b.on (THL_DDRc_CFG_EN c) = false) → (∃ b', exec (.startStageDone w) ⟨b, q⟩ = .next ⟨b', q⟩ ∧
      b'.get RST_START_STAGE = 6 ∧ Frame (within [RST_START]) id b b')) ∧
      (b.get RST_START_STAGE = 6 → b.rst.warm = true → (∃ b', exec (.startStageDone w) ⟨b, q⟩ = .next ⟨b', q⟩ ∧
      b'.get RST_START_STAGE = 7 ∧ Frame (within [RST_START]) id b b')) ∧
      (b.get RST_START_STAGE = 7 → w.err = true → (∃ b', exec (.startStageDone w) ⟨b, q⟩ = .next ⟨b', q⟩ ∧
      b' = (b.streamFails w true).commit)) ∧
      (b.get RST_START_STAGE = 8 → b.rst.warm = false → w.err = false → (∃ b', exec (.startStageDone w) ⟨b, q⟩ = .next ⟨b', q⟩ ∧
      (b.signCheck b.imgSource false ≠ iDone → b' = b.startFails.commit) ∧
        (b.signCheck b.imgSource false = iDone →
          b'.get RST_START_STAGE = 9 ∧ b'.rst.digest = some (b.imgDigest b.imgSource) ∧ b'.key.runSvn = b.imgNat b.imgSource 24 4))) ∧
      (b.get RST_START_STAGE = 9 → b.rst.rel = true → b.rst.waiting = false → (∃ b', exec (.startStageDone w) ⟨b, q⟩ = .next ⟨b', q⟩ ∧
      Frame (within []) id b b')) ∧
      (b.get RST_START_STAGE = 9 → b.rst.rel = true → b.rst.waiting = true → (b.get TIM_STATUS_STATE = timLOCKED ∨ b.get TIM_STATUS_STATE = timHOLDOVER) →
        (∃ b', exec (.startStageDone w) ⟨b, q⟩ = .next ⟨b', q⟩ ∧
      b' = b.policyActs.commit)) ∧
      (b.get RST_START_STAGE = 9 → b.rst.rel = false → (∃ b', exec (.startStageDone w) ⟨b, q⟩ = .next ⟨b', q⟩ ∧
      b' = (b.stage9 w).commit)))

/-- The image loader's commands at a module that is up and takes them; d is SLOT of the command. While one is busy, another is ignored. ERASE and PROGRAM of
the slot the image runs from, or under a scrub, answer 0b001; an accepted ERASE shows BUSY, clears STAGED_VALID and records its range; its end answers 0b000 with
event 8, a first device error retries it, a second answers 0b100. PROGRAM from the page of an erased 256-byte place stores the page's bytes there. VERIFY of a slot whose checks hold
answers what the signature check gives and stages it with its image ID where that is 0; of another it answers 0b011. ACTIVATE of a staged slot makes it BCR_SLOT, of another answers 0b011. READ stores the slot's bytes at
its destination. LOAD_SWAP of an image whose checks hold answers the same way and,
where that is 0, writes its sections and its trigger.

Says that exec answers a next state, under conditions on the state and the operands alone, for: erase, program, verify, activate, loadSwap,
imgRead, flashEraseDone. -/
def Obligations.ImageCommands : Prop :=
  ∀ (b : Block) (q : List Instr), b.up → b.takes ⟨.img, 0⟩ = true →
    (b.on IMG_CMD_BUSY = true → ∀ v bad, (∃ b', exec (.erase v) ⟨b, q⟩ = .next ⟨b', q⟩ ∧
      Frame (within []) id b b') ∧
      (∃ b', exec (.program v bad) ⟨b, q⟩ = .next ⟨b', q⟩ ∧
      Frame (within []) id b b') ∧ (∃ b', exec (.verify v bad) ⟨b, q⟩ = .next ⟨b', q⟩ ∧
      Frame (within []) id b b') ∧
      (∃ b', exec (.activate v bad) ⟨b, q⟩ = .next ⟨b', q⟩ ∧
      Frame (within []) id b b') ∧ (∃ b', exec (.loadSwap v) ⟨b, q⟩ = .next ⟨b', q⟩ ∧
      Frame (within []) id b b') ∧
      (∃ b', exec (.imgRead v bad) ⟨b, q⟩ = .next ⟨b', q⟩ ∧
      Frame (within []) id b b')) ∧
    (b.on IMG_CMD_BUSY = false →
      (∀ v, (b.runsFrom (bits v.toNat 4 1) = true ∨ b.scrubCovers (bits v.toNat 4 1) = true) → (∃ b', exec (.erase v) ⟨b, q⟩ = .next ⟨b', q⟩ ∧
      b'.get IMG_CMD_RESULT = 1 ∧ b'.pendingEvent 8 = true ∧ Frame (withEvt [IMG_CMD]) id b b')) ∧
      (∀ v o n, b.runsFrom (bits v.toNat 4 1) = false → b.scrubCovers (bits v.toNat 4 1) = false → o = (b.rd IMG_OFFSET).toNat → n = (b.rd IMG_LEN).toNat →
        o % sectorBytes = 0 → n % sectorBytes = 0 → n ≠ 0 → o + n ≤ slotBytes → (∃ b', exec (.erase v) ⟨b, q⟩ = .next ⟨b', q⟩ ∧
      b'.get IMG_CMD_BUSY = 1 ∧ b'.get IMG_STATUS_STAGED_VALID = 0 ∧
          (∃ k, b'.img.erase = some ⟨bits v.toNat 4 1, slotSector + o / sectorBytes, n / sectorBytes, k, false⟩) ∧
          SameRegs (within [IMG_CMD, IMG_STATUS, IMG_JSEQ]) b b' ∧ (∀ sp a, sp.index < 288 → b'.byte sp a = b.byte sp a) ∧ b'.units.noImg = b.units.noImg)) ∧
      (∀ v o, b.runsFrom (bits v.toNat 4 1) = false → b.scrubCovers (bits v.toNat 4 1) = false → bit v.toNat 8 = true → o = (b.rd IMG_OFFSET).toNat →
        (b.rd IMG_LEN).toNat = 256 → o % 256 = 0 → o + 256 ≤ slotBytes → b.sectorOpen (bits v.toNat 4 1) (slotSector + o / sectorBytes) = false →
        (b.flashRead (bits v.toNat 4 1) (slotSector * sectorBytes + o) 256).all (fun x => x == 0xFF) = true →
        (∃ b', exec (.program v false) ⟨b, q⟩ = .next ⟨b', q⟩ ∧
      b'.get IMG_CMD_RESULT = 0 ∧ b'.pendingEvent 8 = true ∧
          (∀ i, i < 256 → b'.byte (.flash (bits v.toNat 4 1)) (slotSector * sectorBytes + o + i) = b.imgPage.getD i 0) ∧
          (∀ sp x, (∀ i, i < 256 → sp.key x ≠ (Space.flash (bits v.toNat 4 1)).key (slotSector * sectorBytes + o + i)) → b'.byte sp x = b.byte sp x) ∧
          SameRegs (withEvt [IMG_CMD]) b b' ∧ b'.units = b.units)) ∧
      (∀ v, b.scrubCovers (bits v.toNat 4 1) = false → b.slotOk (bits v.toNat 4 1) = true → (∃ b', exec (.verify v false) ⟨b, q⟩ = .next ⟨b', q⟩ ∧
      b'.get IMG_CMD_RESULT = b.signCheck (slotAt (bits v.toNat 4 1)) false ∧ b'.pendingEvent 8 = true ∧
        (b.signCheck (slotAt (bits v.toNat 4 1)) false = iDone → b'.get IMG_STATUS_STAGED_VALID = 1 ∧ b'.get IMG_STATUS_STAGED_SLOT = bits v.toNat 4 1 ∧
          b'.img.stagedFull = true ∧ Frame (withEvt [IMG_CMD, IMG_STATUS, IMG_STAGED_ID_LO, IMG_STAGED_ID_HI]) Block.noImg b b') ∧
        (b.signCheck (slotAt (bits v.toNat 4 1)) false ≠ iDone → Frame (withEvt [IMG_CMD]) id b b'))) ∧
      (∀ v, b.scrubCovers (bits v.toNat 4 1) = false → b.slotOk (bits v.toNat 4 1) = false → (∃ b', exec (.verify v false) ⟨b, q⟩ = .next ⟨b', q⟩ ∧
      b'.get IMG_CMD_RESULT = 3 ∧ b'.pendingEvent 8 = true ∧ Frame (withEvt [IMG_CMD]) id b b')) ∧
      (∀ v, b.scrubCovers (bits v.toNat 4 1) = false → b.runsFrom (bits v.toNat 4 1) = false → b.on IMG_STATUS_STAGED_VALID = true →
        b.get IMG_STATUS_STAGED_SLOT = bits v.toNat 4 1 → b.img.stagedFull = true → (∃ b', exec (.activate v false) ⟨b, q⟩ = .next ⟨b', q⟩ ∧
      b'.get IMG_CMD_RESULT = 0 ∧ b'.pendingEvent 8 = true ∧ b'.get IMG_STATUS_BCR_SLOT = bits v.toNat 4 1 ∧
          SameRegs (withEvt [IMG_CMD, IMG_STATUS, IMG_JSEQ, IMG_CNTi 0, IMG_CNT_ROLL]) b b' ∧ (∀ sp a, sp.index < 288 → b'.byte sp a = b.byte sp a))) ∧
      (∀ v, b.scrubCovers (bits v.toNat 4 1) = false → b.runsFrom (bits v.toNat 4 1) = false → b.on IMG_STATUS_STAGED_VALID = false →
        (∃ b', exec (.activate v false) ⟨b, q⟩ = .next ⟨b', q⟩ ∧
      b'.get IMG_CMD_RESULT = 3 ∧ b'.pendingEvent 8 = true ∧ Frame (withEvt [IMG_CMD]) id b b')) ∧
      (∀ v o n dst, b.scrubCovers (bits v.toNat 4 1) = false → b.img.scrub = none → b.on IMG_STATUS_RECOVERY = false → o = (b.rd IMG_OFFSET).toNat →
        n = (b.rd IMG_LEN).toNat → dst = b.rd64 IMG_SRC_LO → o + n ≤ slotBytes → (b.regionOfRange dst n).isSome = true → (∃ b', exec (.imgRead v false) ⟨b, q⟩ = .next ⟨b', q⟩ ∧
      b'.get IMG_CMD_RESULT = 0 ∧ b'.pendingEvent 8 = true ∧
          b'.mem = (b.dramStore dst (b.flashRead (bits v.toNat 4 1) (slotSector * sectorBytes + o) n)).commit.mem ∧
          SameRegs (withEvt [IMG_CMD]) b b' ∧ b'.units = b.units)) ∧
      (∀ v c m r, c = b.wr IMG_CMD (BitVec.ofNat 32 (5 + 16 * bits v.toNat 4 1 + 256 * bits v.toNat 8 1)) → m = (⟨.dram, c.rd64 IMG_SRC_LO⟩ : ImgAt) →
        (c.regionOfRange (c.rd64 IMG_SRC_LO) 192).isSome = true → (c.regionOfRange (c.rd64 IMG_SRC_LO) (c.imgLen m + 128)).isSome = true →
        c.badLine (c.rd64 IMG_SRC_LO) (c.imgLen m + 128) = none → c.headerOk m 1 (2 ^ 37) = true → c.sectsLie m = true →
        (c.sects m).all (c.sectOk m true) = true → c.imgNat m 28 8 = c.rd64 IMG_RUN_ID_LO → c.swapState ≠ 1 → c.swapState ≠ 3 →
        r = upTo (Block.swapSect m) c (c.sects m) → r.1 = true → (∃ b', exec (.loadSwap v) ⟨b, q⟩ = .next ⟨b', q⟩ ∧
      b'.get IMG_CMD_RESULT = c.signCheck m true ∧ b'.pendingEvent 8 = true ∧
          (c.signCheck m true = iDone → b'.get CRZ_SWAP_CTRL_TABLES = bits (c.imgNat m 36 4) 0 4 ∧
            b'.get CRZ_SWAP_CTRL_TRIG = bits (c.imgNat m 36 4) 4 1 ∧ b'.get CRZ_SWAP_CTRL_CARRY_COUNT = bits (c.imgNat m 36 4) 9 12 ∧
            Frame (withEvt [IMG_CMD, CRZ_SWAP_CTRL, IMG_STAGED_ID_LO, IMG_STAGED_ID_HI]) id r.2 b') ∧
          (c.signCheck m true ≠ iDone → Frame (withEvt [IMG_CMD]) id b b')))) ∧
    (∀ e, b.img.erase = some e → (∃ b', exec (.flashEraseDone true) ⟨b, q⟩ = .next ⟨b', q⟩ ∧
      b'.img.erase = none ∧ b'.get IMG_CMD_BUSY = 0 ∧ b'.get IMG_CMD_RESULT = 0 ∧ b'.pendingEvent 8 = true ∧ b'.units.noImg = b.units.noImg)) ∧
    (∀ e, b.img.erase = some e → e.retried = false → (∃ b', exec (.flashEraseDone false) ⟨b, q⟩ = .next ⟨b', q⟩ ∧
      b'.img.erase = some { e with retried := true } ∧ b'.rd (IMG_CNTi 3) = b.rd (IMG_CNTi 3) + 1 ∧
      Frame (withEvt [IMG_CNTi 3, IMG_CNT_ROLL]) Block.noImg b b')) ∧
    (∀ e, b.img.erase = some e → e.retried = true → (∃ b', exec (.flashEraseDone false) ⟨b, q⟩ = .next ⟨b', q⟩ ∧
      b'.img.erase = none ∧ b'.get IMG_CMD_BUSY = 0 ∧ b'.get IMG_CMD_RESULT = 4 ∧ b'.pendingEvent 8 = true ∧
      Frame (withEvt [IMG_CMD, IMG_CNTi 3, IMG_CNT_ROLL]) Block.noImg b b')) ∧
    (b.img.erase = none → b.img.scrub = none → ∀ ok, (∃ b', exec (.flashEraseDone ok) ⟨b, q⟩ = .next ⟨b', q⟩ ∧
      Frame (within []) id b b'))

/-- The registers that a key command may change: KEY_CMD, KEY_CONFIRM, KEY_DATA and KEY_RDATA, those of a list, and what an event's report changes. -/
def Sys2Proof.Machine.keyRegs (l : List Nat) (a : Nat) : Bool :=
  withEvt l a || a == KEY_CMD || a == KEY_CONFIRM || (List.range 16).any (fun w => a == KEY_DATAw w || a == KEY_RDATAw w)

/-- The registers of a key slot. -/
def Sys2Proof.Machine.slotRegs (n : Nat) : List Nat := [KEY_SLOTn_ATTR n, KEY_SLOTn_GEN n, KEY_SLOTn_KEYID n]

/-- What every key command that ends leaves (R650): RESULT, zeros in KEY_DATA and KEY_CONFIRM, and event 960. -/
def Sys2Proof.Machine.keyEnds (r : Nat) (b' : Block) : Prop :=
  b'.get KEY_CMD_RESULT = r ∧ b'.rd KEY_CONFIRM = 0 ∧ (∀ w, w < 16 → b'.rd (KEY_DATAw w) = 0) ∧ b'.pendingEvent 960 = true

/-- Slot commands at a module that is up, with the key store open and taking commands; n is SLOT of the command. WRITE of 16 to 64 bytes loads the slot with
KEY_DATA, its attributes and KEYID, and increments its GEN (R653); another length answers 0b010. DERIVE from a usable parent or from the root stores the KDF's
output (R652); from an unusable parent it answers 0b011, with no root 0b100. INVALIDATE clears VALID and the material and increments GEN. READ of a readable
slot shows its material in KEY_RDATA for 1 ms of the crystal, otherwise 0b010 (R651); the time's end and CLR zero KEY_RDATA. Each ends as R650 says, and
touches no other slot. While the store is closed a command ends with 0b101 (R655).

Says that exec answers a next state, under conditions on the state and the operands alone, for: keyWrite, derive, invalidate, keyRead,
rdataTimeout, keyClr. -/
def Obligations.KeySlotCommands : Prop :=
  ∀ (b : Block) (q : List Instr) (v : Word) (n len : Nat), b.up → n = cmdSlot v → len = b.get KEY_ATTR_IN_LEN →
    (b.takes ⟨.key, 0⟩ = false → (∃ b', exec (.keyWrite v) ⟨b, q⟩ = .next ⟨b', q⟩ ∧
      Frame (within []) id b b')) ∧
    (b.takes ⟨.key, 0⟩ = true → b.on KEY_STATUS_CLOSED = true → (∃ b', exec (.keyWrite v) ⟨b, q⟩ = .next ⟨b', q⟩ ∧
      keyEnds 5 b' ∧ Frame (keyRegs []) Block.noKey b b')) ∧
    (b.takes ⟨.key, 0⟩ = true → b.on KEY_STATUS_CLOSED = false →
      (16 ≤ len → len ≤ 64 → (∃ b', exec (.keyWrite v) ⟨b, q⟩ = .next ⟨b', q⟩ ∧
      keyEnds 0 b' ∧
        b'.get (KEY_SLOTn_ATTR_VALID n) = 1 ∧ b'.get (KEY_SLOTn_ATTR_ROOTED n) = 0 ∧ b'.get (KEY_SLOTn_ATTR_PARENT_EN n) = 0 ∧
        b'.get (KEY_SLOTn_ATTR_NOREAD n) = b.get KEY_ATTR_IN_NOREAD ∧ b'.get (KEY_SLOTn_ATTR_DEST n) = b.get KEY_ATTR_IN_DEST ∧
        b'.get (KEY_SLOTn_ATTR_LEN n) = len ∧ b'.get (KEY_SLOTn_GEN_GEN n) = (b.keyGen n + 1) % 256 ∧ b'.rd (KEY_SLOTn_KEYID n) = b.rd KEY_KEYID_IN ∧
        (∀ i, i < len → b'.byte .secure (keyAt n + i) = b.keyData.getD i 0) ∧
        (∀ sp a, (∀ i, i < 64 → sp.key a ≠ Space.secure.key (keyAt n + i)) → b'.byte sp a = b.byte sp a) ∧
        SameRegs (keyRegs (slotRegs n)) b b' ∧ b'.units.noKey = b.units.noKey)) ∧
      ((len < 16 ∨ 64 < len) → (∃ b', exec (.keyWrite v) ⟨b, q⟩ = .next ⟨b', q⟩ ∧
      keyEnds 2 b' ∧ Frame (keyRegs []) Block.noKey b b')) ∧
      (16 ≤ len → len ≤ 64 → b.get KEY_ATTR_IN_CTX_LEN ≤ 48 → cmdRoot v = false → b.keyOk (cmdParent v) 5 = true → (∃ b', exec (.derive v) ⟨b, q⟩ = .next ⟨b', q⟩ ∧
      keyEnds 0 b' ∧ b'.get (KEY_SLOTn_ATTR_VALID n) = 1 ∧ b'.get (KEY_SLOTn_ATTR_PARENT_EN n) = 1 ∧ b'.get (KEY_SLOTn_ATTR_PARENT n) = cmdParent v ∧
        b'.get (KEY_SLOTn_GEN_GEN n) = (b.keyGen n + 1) % 256 ∧ b'.get (KEY_SLOTn_GEN_PGEN n) = b.keyGen (cmdParent v) ∧
        (∀ i, i < len → b'.byte .secure (keyAt n + i) =
          (kdf (b.keyMaterial (cmdParent v)) (b.keyData.take 16) ((b.keyData.drop 16).take (b.get KEY_ATTR_IN_CTX_LEN)) len).getD i 0) ∧
        SameRegs (keyRegs (slotRegs n)) b b' ∧ b'.units.noKey = b.units.noKey)) ∧
      (16 ≤ len → len ≤ 64 → b.get KEY_ATTR_IN_CTX_LEN ≤ 48 → cmdRoot v = false → b.keyOk (cmdParent v) 5 = false → (∃ b', exec (.derive v) ⟨b, q⟩ = .next ⟨b', q⟩ ∧
      keyEnds 3 b' ∧ SameBytes b b')) ∧
      (16 ≤ len → len ≤ 64 → b.get KEY_ATTR_IN_CTX_LEN ≤ 48 → cmdRoot v = true → b.on KEY_STATUS_ROOT_FAIL = false → b.key.root ≠ 0 → (∃ b', exec (.derive v) ⟨b, q⟩ = .next ⟨b', q⟩ ∧
      keyEnds 0 b' ∧ b'.get (KEY_SLOTn_ATTR_ROOTED n) = 1 ∧ b'.key.repoch.get (fun _ => 0) n = b.key.rootEpoch ∧
        (∀ i, i < len → b'.byte .secure (keyAt n + i) = (kdf (if b.key.root = 2 then Config.testRoot else Config.deviceRoot b.key.enrolled)
          (b.keyData.take 16) ((b.keyData.drop 16).take (b.get KEY_ATTR_IN_CTX_LEN)) len).getD i 0) ∧
        SameRegs (keyRegs (slotRegs n)) b b' ∧ b'.units.noKey = b.units.noKey)) ∧
      (16 ≤ len → len ≤ 64 → b.get KEY_ATTR_IN_CTX_LEN ≤ 48 → cmdRoot v = true → b.key.root = 0 → (∃ b', exec (.derive v) ⟨b, q⟩ = .next ⟨b', q⟩ ∧
      keyEnds 4 b' ∧ Frame (keyRegs []) Block.noKey b b')) ∧
      (∃ b', exec (.invalidate v) ⟨b, q⟩ = .next ⟨b', q⟩ ∧
      keyEnds 0 b' ∧ b'.get (KEY_SLOTn_ATTR_VALID n) = 0 ∧ b'.get (KEY_SLOTn_GEN_GEN n) = (b.keyGen n + 1) % 256 ∧
        (∀ i, i < 64 → b'.byte .secure (keyAt n + i) = 0) ∧
        (∀ sp a, (∀ i, i < 64 → sp.key a ≠ Space.secure.key (keyAt n + i)) → b'.byte sp a = b.byte sp a) ∧
        SameRegs (keyRegs (slotRegs n)) b b' ∧ b'.units.noKey = b.units.noKey) ∧
      (b.on (KEY_SLOTn_ATTR_VALID n) = true → b.on (KEY_SLOTn_ATTR_NOREAD n) = false → (∃ b', exec (.keyRead v) ⟨b, q⟩ = .next ⟨b', q⟩ ∧
      keyEnds 0 b' ∧
        (∀ w, w < 16 → b'.rd (KEY_RDATAw w) = BitVec.ofNat 32 (leAt (fit 64 (b.keyMaterial n)) (4 * w) 4)) ∧
        b'.key.rdata = true ∧ b'.key.rdataEnd = b.xtal + 1000000 ∧ Frame (keyRegs []) Block.noKey b b')) ∧
      ((b.on (KEY_SLOTn_ATTR_VALID n) = false ∨ b.on (KEY_SLOTn_ATTR_NOREAD n) = true) → (∃ b', exec (.keyRead v) ⟨b, q⟩ = .next ⟨b', q⟩ ∧
      keyEnds 2 b' ∧
        (∀ w, w < 16 → b'.rd (KEY_RDATAw w) = 0) ∧ Frame (keyRegs []) Block.noKey b b'))) ∧
    (b.key.rdata = true → (∃ b', exec .rdataTimeout ⟨b, q⟩ = .next ⟨b', q⟩ ∧
      (∀ w, w < 16 → b'.rd (KEY_RDATAw w) = 0) ∧ b'.key.rdata = false ∧
      Frame (within ((List.range 16).map KEY_RDATAw)) (fun x => x.noKey.noTime) b b')) ∧
    (b.key.rdata = false → (∃ b', exec .rdataTimeout ⟨b, q⟩ = .next ⟨b', q⟩ ∧
      Frame (within []) id b b')) ∧
    (∃ b', exec .keyClr ⟨b, q⟩ = .next ⟨b', q⟩ ∧
      (∀ w, w < 16 → b'.rd (KEY_RDATAw w) = 0) ∧ b'.key.rdata = false ∧
      Frame (within ((List.range 16).map KEY_RDATAw)) Block.noKey b b')

/-- The commands that need KEY_CONFIRM, at a module that is up with the key store open and taking commands: without it each answers 0b001 and changes nothing else.
WIPE starts the wipe; ENROL before OPERATIONAL sets ENROL_PEND (R646); LC_ADVANCE with idle tables and no lease moves to the next life cycle,
starts the wipe and has the cold reset follow (R642); SVN_RAISE increments SVN_MIN while the running image's version is above it, else 0b011; ANCHOR_REVOKE sets
the anchor's REVOKED bit, except that of the running image (R657); DBG_ARM and DBG_DISARM set and clear DBG_ARMED where R647 allows them, else 0b001.

Says that exec answers a next state, under conditions on the state and the operands alone, for: wipe, enrol, lcAdvance, svnRaise,
anchorRevoke, dbgArm, dbgDisarm. -/
def Obligations.LifeCycleCommands : Prop :=
  ∀ (b : Block) (q : List Instr) (v : Word), b.up → b.takes ⟨.key, 0⟩ = true → b.on KEY_STATUS_CLOSED = false →
    (b.confirmed = false → ∀ c, c ∈ [Instr.wipe v, .enrol v, .lcAdvance v, .svnRaise v, .anchorRevoke v, .dbgArm v, .dbgDisarm v] →
      (∃ b', exec c ⟨b, q⟩ = .next ⟨b', q⟩ ∧
      keyEnds 1 b' ∧ Frame (keyRegs []) Block.noKey b b')) ∧
    (b.confirmed = true →
      (b.on THL_SEC_STAT_WIPING = false → (∃ b', exec (.wipe v) ⟨b, q⟩ = .next ⟨b', q⟩ ∧
      keyEnds 0 b' ∧ b'.get THL_SEC_STAT_WIPING = 1 ∧ b'.get THL_SEC_STAT_WIPE_PEND = 1 ∧
        (∀ n, n < 512 → b'.get (KEY_SLOTn_ATTR_VALID n) = 0))) ∧
      (b.get KEY_STATUS_LC < 2 → (∃ b', exec (.enrol v) ⟨b, q⟩ = .next ⟨b', q⟩ ∧
      keyEnds 0 b' ∧ b'.get KEY_STATUS_ENROL_PEND = 1 ∧
        Frame (keyRegs [KEY_STATUS]) Block.noKey b b')) ∧
      (2 ≤ b.get KEY_STATUS_LC → (∃ b', exec (.enrol v) ⟨b, q⟩ = .next ⟨b', q⟩ ∧
      keyEnds 1 b' ∧ Frame (keyRegs []) Block.noKey b b')) ∧
      (b.leased = false → b.tablesIdle = true → b.get KEY_STATUS_LC < 4 → b.on THL_SEC_STAT_WIPING = false →
        (b.get KEY_STATUS_LC = 1 → b.on KEY_STATUS_ROOT_OK = true ∧ b.get KEY_FUSE_REVOKED ≠ 15) → (∃ b', exec (.lcAdvance v) ⟨b, q⟩ = .next ⟨b', q⟩ ∧
      keyEnds 0 b' ∧ b'.get KEY_STATUS_LC = b.get KEY_STATUS_LC + 1 ∧ b'.get THL_SEC_STAT_WIPING = 1 ∧ bit b'.rst.afterWipe 9 = true)) ∧
      (b.leased = true → (∃ b', exec (.lcAdvance v) ⟨b, q⟩ = .next ⟨b', q⟩ ∧
      keyEnds 1 b' ∧ Frame (keyRegs []) Block.noKey b b')) ∧
      (b.get KEY_FUSE_SVN_MIN < b.key.runSvn → b.get KEY_FUSE_SVN_MIN < 64 → (∃ b', exec (.svnRaise v) ⟨b, q⟩ = .next ⟨b', q⟩ ∧
      keyEnds 0 b' ∧ b'.get KEY_FUSE_SVN_MIN = b.get KEY_FUSE_SVN_MIN + 1 ∧ Frame (keyRegs [KEY_FUSE]) Block.noKey b b')) ∧
      (b.key.runSvn ≤ b.get KEY_FUSE_SVN_MIN → (∃ b', exec (.svnRaise v) ⟨b, q⟩ = .next ⟨b', q⟩ ∧
      keyEnds 3 b' ∧ Frame (keyRegs []) Block.noKey b b')) ∧
      (bits v.toNat 0 2 ≠ b.get KEY_STATUS_RUN_ANCHOR → (∃ b', exec (.anchorRevoke v) ⟨b, q⟩ = .next ⟨b', q⟩ ∧
      keyEnds 0 b' ∧ b'.get (bitOf KEY_FUSE (bits v.toNat 0 2)) = 1 ∧ Frame (keyRegs [KEY_FUSE]) Block.noKey b b')) ∧
      (bits v.toNat 0 2 = b.get KEY_STATUS_RUN_ANCHOR → b.on KEY_STATUS_TEST_IMAGE = false → b.imgLock = true → (∃ b', exec (.anchorRevoke v) ⟨b, q⟩ = .next ⟨b', q⟩ ∧
      keyEnds 3 b' ∧ Frame (keyRegs []) Block.noKey b b')) ∧
      (b.dbgAllowed = true → (∃ b', exec (.dbgArm v) ⟨b, q⟩ = .next ⟨b', q⟩ ∧
      keyEnds 0 b' ∧ b'.get KEY_STATUS_DBG_ARMED = 1 ∧ Frame (keyRegs [KEY_STATUS]) Block.noKey b b') ∧
        (∃ b', exec (.dbgDisarm v) ⟨b, q⟩ = .next ⟨b', q⟩ ∧
      keyEnds 0 b' ∧ b'.get KEY_STATUS_DBG_ARMED = 0 ∧ Frame (keyRegs [KEY_STATUS]) Block.noKey b b')) ∧
      (b.dbgAllowed = false → (∃ b', exec (.dbgArm v) ⟨b, q⟩ = .next ⟨b', q⟩ ∧
      keyEnds 1 b' ∧ Frame (keyRegs []) Block.noKey b b') ∧
        (∃ b', exec (.dbgDisarm v) ⟨b, q⟩ = .next ⟨b', q⟩ ∧
      keyEnds 1 b' ∧ Frame (keyRegs []) Block.noKey b b')))

/-- LOG_RECORD_WRITE at a module that is up writes the FIFO's head as the next 64-byte record (R670, R672): PROD moves on by one and the head leaves the FIFO;
while Cairn is off, frozen or empty nothing changes; with the log full the record stays and STOPPED shows, with event 994; a record that fails to be written
stays at the head with WR_FAIL and is written by the retry (R679), and an
address in no region shows in NOREGION (R534). CRN_CONS takes a value between CONS and PROD, clearing STOPPED, and no other (R674).

Says that exec answers a next state, under conditions on the state and the operands alone, for: logRecordWrite, recordWriteRetry,
crnConsWrite. -/
def Obligations.RecorderLog : Prop :=
  ∀ (b : Block) (q : List Instr), b.up →
    ((b.on CRN_CTRL_EN = false ∨ b.on CRN_CTRL_FREEZE = true ∨ (b.fifo = [] ∧ b.marker ≠ some 0)) → b.crn.failing = false → (∃ b', exec .logRecordWrite ⟨b, q⟩ = .next ⟨b', q⟩ ∧
      Frame (within []) id b b' ∧ b'.fifo = b.fifo)) ∧
    (∀ r rest f, b.on CRN_CTRL_EN = true → b.on CRN_CTRL_FREEZE = false → b.marker = none → b.fifo = r :: rest → rest.length < 64 → b.crn.failing = f →
      sub32 (b.rd CRN_PROD).toNat (b.rd CRN_CONS).toNat < b.logCap → b.logWritable (b.logBase + 65536 + 64 * ((b.rd CRN_PROD).toNat % b.logCap)) = true →
      (∃ b', exec (if f then .recordWriteRetry else .logRecordWrite) ⟨b, q⟩ = .next ⟨b', q⟩ ∧
      b'.rd CRN_PROD = b.rd CRN_PROD + 1 ∧ b'.fifo = rest ∧ b'.get CRN_STAT_FIFO_FILL = rest.length ∧ b'.crn.failing = false ∧ b'.crn.prior = false ∧
        b'.mem = (b.dramStore (b.logBase + 65536 + 64 * ((b.rd CRN_PROD).toNat % b.logCap))
          (recordBytes (b.rd CRN_PROD).toNat (r.flags + (if b.crn.prior then 2 else 0)) r)).commit.mem ∧
        SameRegs (withEvt [CRN_PROD, CRN_STAT, CRN_CNTi 0, CRN_CNT_ROLL]) b b' ∧ b'.units.noCrn = b.units.noCrn)) ∧
    (∀ r rest, b.on CRN_CTRL_EN = true → b.on CRN_CTRL_FREEZE = false → b.marker = none → b.fifo = r :: rest → b.crn.failing = false →
      b.logCap ≤ sub32 (b.rd CRN_PROD).toNat (b.rd CRN_CONS).toNat → (∃ b', exec .logRecordWrite ⟨b, q⟩ = .next ⟨b', q⟩ ∧
      b'.get CRN_STAT_STOPPED = 1 ∧ b'.fifo = b.fifo ∧ (b.on CRN_STAT_STOPPED = false → b'.pendingEvent 994 = true) ∧ Frame (withEvt [CRN_STAT]) id b b')) ∧
    (∀ r rest a, b.on CRN_CTRL_EN = true → b.on CRN_CTRL_FREEZE = false → b.marker = none → b.fifo = r :: rest →
      a = b.logBase + 65536 + 64 * ((b.rd CRN_PROD).toNat % b.logCap) →
      sub32 (b.rd CRN_PROD).toNat (b.rd CRN_CONS).toNat < b.logCap → b.logWritable a = false →
      (b.crn.failing = false → (∃ b', exec .logRecordWrite ⟨b, q⟩ = .next ⟨b', q⟩ ∧
      b'.get CRN_STAT_WR_FAIL = 1 ∧ b'.crn.failing = true ∧ b'.pendingEvent 1001 = true ∧
        ((b.regionOfRange a 64).isNone = true → b'.get THL_ERR_NOREGION = 1) ∧ b'.fifo = b.fifo ∧
        Frame (withEvt [CRN_STAT, THL_ERR, THL_CNTi 5, THL_CNT_ROLL]) Block.noCrn b b')) ∧
      (b.crn.failing = true → (∃ b', exec .recordWriteRetry ⟨b, q⟩ = .next ⟨b', q⟩ ∧
      b'.get CRN_STAT_WR_FAIL = 1 ∧ b'.fifo = b.fifo ∧
        ((b.regionOfRange a 64).isNone = true → b'.get THL_ERR_NOREGION = 1) ∧
        Frame (withEvt [CRN_STAT, THL_ERR, THL_CNTi 5, THL_CNT_ROLL]) id b b'))) ∧
    (b.crn.failing = false → (∃ b', exec .recordWriteRetry ⟨b, q⟩ = .next ⟨b', q⟩ ∧
      Frame (within []) id b b')) ∧
    (∀ v, sub32 v.toNat (b.rd CRN_CONS).toNat ≤ sub32 (b.rd CRN_PROD).toNat (b.rd CRN_CONS).toNat → (∃ b', exec (.crnConsWrite v) ⟨b, q⟩ = .next ⟨b', q⟩ ∧
      b'.rd CRN_CONS = v ∧ (sub32 (b.rd CRN_PROD).toNat v.toNat < b.logCap → b'.get CRN_STAT_STOPPED = 0) ∧ Frame (within [CRN_CONS, CRN_STAT]) id b b')) ∧
    (∀ v, sub32 (b.rd CRN_PROD).toNat (b.rd CRN_CONS).toNat < sub32 v.toNat (b.rd CRN_CONS).toNat → (∃ b', exec (.crnConsWrite v) ⟨b, q⟩ = .next ⟨b', q⟩ ∧
      Frame (within []) id b b'))

/-- FREEZE at a module that is up stops the writing and sets its end FREEZE_MAX_MS later; its clearing and its end resume it, the end counting and raising event
997 (R677). NOTE puts a report of source 0xFFFF with the eight words of CRN_NOTE at the FIFO's end (R676). RETIRE of a channel the module does not have
answers 0b10, of a retired one 0b11, of one the running table names and no spare stands for, under the lease, 0b01, each changing nothing else; otherwise it
retires the channel with event 999 and answers 0b00 (R686).

Says that exec answers a next state, under conditions on the state and the operands alone, for: freeze, freezeTimeout, note, retireCmd. -/
def Obligations.RecorderCommands : Prop :=
  ∀ (b : Block) (q : List Instr), b.up →
    (b.on CRN_CTRL_FREEZE = false → (∃ b', exec (.freeze true) ⟨b, q⟩ = .next ⟨b', q⟩ ∧
      b'.get CRN_CTRL_FREEZE = 1 ∧ b'.get CRN_STAT_FROZEN = 1 ∧
      b'.crn.freezeEnd = b.xtal + clampN 1 65535 (b.get CRN_CTRL_FREEZE_MAX_MS) * 1000000 ∧ Frame (within [CRN_CTRL, CRN_STAT]) Block.noCrn b b')) ∧
    (b.on CRN_CTRL_FREEZE = true → (∃ b', exec (.freeze true) ⟨b, q⟩ = .next ⟨b', q⟩ ∧
      b'.get CRN_CTRL_FREEZE = 1 ∧ b'.get CRN_STAT_FROZEN = 1 ∧
      Frame (within [CRN_CTRL, CRN_STAT]) id b b')) ∧
    (∃ b', exec (.freeze false) ⟨b, q⟩ = .next ⟨b', q⟩ ∧
      b'.get CRN_CTRL_FREEZE = 0 ∧ b'.get CRN_STAT_FROZEN = 0 ∧ Frame (within [CRN_CTRL, CRN_STAT]) id b b') ∧
    (b.on CRN_CTRL_FREEZE = true → (∃ b', exec .freezeTimeout ⟨b, q⟩ = .next ⟨b', q⟩ ∧
      b'.get CRN_CTRL_FREEZE = 0 ∧ b'.get CRN_STAT_FROZEN = 0 ∧
      b'.rd (CRN_CNTi 5) = b.rd (CRN_CNTi 5) + 1 ∧ b'.pendingEvent 997 = true ∧
      Frame (withEvt [CRN_CTRL, CRN_STAT, CRN_CNTi 5, CRN_CNT_ROLL]) Block.noTime b b')) ∧
    (b.on CRN_CTRL_FREEZE = false → (∃ b', exec .freezeTimeout ⟨b, q⟩ = .next ⟨b', q⟩ ∧
      Frame (within []) id b b')) ∧
    (b.fifo.length < 64 → (∃ b', exec .note ⟨b, q⟩ = .next ⟨b', q⟩ ∧
      (∃ r : Report, b'.fifo = b.fifo ++ [r] ∧ r.typ = 8 ∧ r.source = 0xFFFF ∧ r.ns = b.ns ∧
        ∀ w, w < 8 → leAt (r.data.map (fun n => BitVec.ofNat 8 n)) (4 * w) 4 = (b.rd (CRN_NOTEw w)).toNat) ∧
      b'.get CRN_STAT_FIFO_FILL = b.fifo.length + 1 ∧ Frame (within [CRN_STAT]) id b b')) ∧
    (∀ c, c < 4096 → b.hasChannel c = false → (∃ b', exec (.retireCmd c) ⟨b, q⟩ = .next ⟨b', q⟩ ∧
      b'.get CRN_RETIRE_RESULT = 2 ∧ b'.get CRN_RETIRE_CHANNEL = c ∧ Frame (within [CRN_RETIRE]) id b b')) ∧
    (∀ c, c < 4096 → b.hasChannel c = true → b.isRetired c = true → (∃ b', exec (.retireCmd c) ⟨b, q⟩ = .next ⟨b', q⟩ ∧
      b'.get CRN_RETIRE_RESULT = 3 ∧ b'.get CRN_RETIRE_CHANNEL = c ∧ Frame (within [CRN_RETIRE]) id b b')) ∧
    (∀ c, c < 4096 → b.hasChannel c = true → b.isRetired c = false → b.leased = true → b.channelNamed c = true → b.channelSpare c = false →
      (∃ b', exec (.retireCmd c) ⟨b, q⟩ = .next ⟨b', q⟩ ∧
      b'.get CRN_RETIRE_RESULT = 1 ∧ b'.get CRN_RETIRE_CHANNEL = c ∧ Frame (within [CRN_RETIRE]) id b b')) ∧
    (∀ c x, c < 4096 → b.hasChannel c = true → b.isRetired c = false → (b.leased = false ∨ b.channelNamed c = false ∨ b.channelSpare c = true) →
      x = b.set CRN_RETIRE_CHANNEL c → (∃ b', exec (.retireCmd c) ⟨b, q⟩ = .next ⟨b', q⟩ ∧
      b' = ((x.retireWith c 4 (channelUnit c).id (Block.retireAct c)).set CRN_RETIRE_RESULT 0).commit ∧
        b'.get CRN_RETIRE_RESULT = 0 ∧ b'.pendingEvent 999 = true))

/-- Accesses to BAR0 by a requester whom the module answers. A write to a unit that is absent, retired or not released changes nothing; to a unit's
UNIT_QTMO it loads the timeout; a write of 1 to FORCED clears it; to a listed register of an open unit outside the table and timer windows it acts as the access
type of each field says. The first access to a
reserved range since ROOT_ERR was clear leaves its address in ROOT_ERR_ADDR (R60 is a statement of its own); one to a listed word of a present unit sets nothing; one that crosses a word or is narrower than 32 bits for a
write sets WIDTH (R62), stores nothing, and a read answers zero. A requester that does not reach the module changes nothing.

Says that exec answers a next state, under conditions on the state and the operands alone, for: registerWrite, unmappedAccess,
misalignedAccess. -/
def Obligations.RegisterAccess : Prop :=
  ∀ (b : Block) (q : List Instr) (who : Requester),
    (b.reaches who = false → ∀ a n v w, (∃ b', exec (.registerWrite who a v) ⟨b, q⟩ = .next ⟨b', q⟩ ∧
      Frame (within []) id b b') ∧
      (∃ b', exec (.unmappedAccess who a w) ⟨b, q⟩ = .next ⟨b', q⟩ ∧
      Frame (within []) id b b') ∧
      (∃ b', exec (.misalignedAccess who a n w) ⟨b, q⟩ = .next ⟨b', q⟩ ∧
      Frame (within []) id b b')) ∧
    (b.reaches who = true →
      (∀ a v u, a % 4 = 0 → a < 0x1100000 → unitOf a = some u → a ≠ u.hdr + 8 → b.unitOpen a = false → (∃ b', exec (.registerWrite who a v) ⟨b, q⟩ = .next ⟨b', q⟩ ∧
      Frame (within []) id b b')) ∧
      (∀ a v u, a % 4 = 0 → a < 0x1100000 → unitOf a = some u → a = u.hdr + 0x18 → b.unitOpen a = true → (∃ b', exec (.registerWrite who a v) ⟨b, q⟩ = .next ⟨b', q⟩ ∧
      b'.get (qtmo u.hdr) = v.toNat % 65536 ∧ Frame (within [a]) id b b')) ∧
      (∀ a v u, a % 4 = 0 → a < 0x1100000 → unitOf a = some u → a = u.hdr + 8 → b.member.has u = true → bit v.toNat 4 = true →
        (∃ b', exec (.registerWrite who a v) ⟨b, q⟩ = .next ⟨b', q⟩ ∧
      b'.get (stForced u.hdr) = 0 ∧ Frame (within [a]) id b b')) ∧
      (∀ a v u, a % 4 = 0 → a < 0x1100000 → unitOf a = some u → a ∉ [u.hdr + 8, u.hdr + 0x18, u.hdr + 0x1C] → b.unitOpen a = true → loadLo a = false → loadLo (a - 4) = false → (rowOf a).isSome = true →
        b.get RST_START_STAGE = 15 → (∃ b', exec (.registerWrite who a v) ⟨b, q⟩ = .next ⟨b', q⟩ ∧
      b' = (b.regWrite false a v).commit)) ∧
      (∀ a w, a < 0x8000000 → unitOf a = none → b.rd ROOT_ERR = 0 → (∃ b', exec (.unmappedAccess who a w) ⟨b, q⟩ = .next ⟨b', q⟩ ∧
      b'.get ROOT_ERR_UNMAPPED = 1 ∧ b'.get ROOT_ERR_ADDR_ADDR = a ∧ Frame (withEvt [ROOT_ERR, ROOT_ERR_ADDR]) id b b')) ∧
      (∀ a u w, a < 0x8000000 → unitOf a = some u → b.member.has u = true → listed (a / 4 * 4) = true → (∃ b', exec (.unmappedAccess who a w) ⟨b, q⟩ = .next ⟨b', q⟩ ∧
      Frame (within []) id b b')) ∧
      (∀ a n w, a < 0x8000000 → ((n = 8 ∧ a % 8 ≠ 0) ∨ (n ≠ 8 ∧ 4 < a % 4 + n) ∨ (w = true ∧ n < 4)) → (∃ b', exec (.misalignedAccess who a n w) ⟨b, q⟩ = .next ⟨b', q⟩ ∧
      b'.get ROOT_ERR_WIDTH = 1 ∧ b'.pendingEvent 12 = true ∧ (w = false → b'.readData = 0) ∧ Frame (withEvt [ROOT_ERR, ROOT_ERR_ADDR]) id b b')))

/-- 64-bit counters, for a requester whom the module answers, in a unit that is open. A read of _LO answers the live low word and latches the high word, and
where there is a _FRAC below it the fraction, into that requester's shadows, changing no register (R64). Where R66 governs, a write to _HI stages its value and leaves the counter
and a write to _LO, be it a register write, loads the whole counter from the staged value and the written word. A 64-bit access to such a pair, or to _FRAC and _LO, loads or
returns both words at once (R67); to any other pair a 64-bit write acts as two accesses.

Says that exec answers a next state, under conditions on the state and the operands alone, for: counterLoRead, counter64Access,
counterHiWrite, counterLoWrite, registerWrite. -/
def Obligations.Counters64 : Prop :=
  ∀ (b : Block) (q : List Instr) (who : Requester) (a : Nat), b.reaches who = true → b.unitOpen a = true →
    (∀ fr, (snapLo a = some fr ∨ (snapLo a = none ∧ loadLo a = true ∧ fr = false)) →
      (∃ b', exec (.counterLoRead who a) ⟨b, q⟩ = .next ⟨b', q⟩ ∧
      b'.readData = b.live64 a % 2 ^ 32 ∧
        b'.shadow.get (fun _ => 0) (shadowKey who (a + 4)) = BitVec.ofNat 32 (b.live64 a / 2 ^ 32) ∧
        (fr = true → b'.shadow.get (fun _ => 0) (shadowKey who (a - 4)) = BitVec.ofNat 32 (b.liveFrac a)) ∧ Frame (within []) Block.noShadow b b') ∧
      (∀ v, a % 8 = 0 → a < 0x8000000 → (∃ b', exec (.counter64Access who a false v) ⟨b, q⟩ = .next ⟨b', q⟩ ∧
      b'.readData = b.live64 a ∧
        b'.shadow.get (fun _ => 0) (shadowKey who (a + 4)) = BitVec.ofNat 32 (b.live64 a / 2 ^ 32) ∧ Frame (within []) Block.noShadow b b'))) ∧
    (snapLo a = none → loadLo a = false → (∃ b', exec (.counterLoRead who a) ⟨b, q⟩ = .next ⟨b', q⟩ ∧
      Frame (within []) id b b')) ∧
    (∀ v, a % 8 = 0 → a < 0x8000000 → snapLo a = none → snapLo (a + 4) = some true → (∃ b', exec (.counter64Access who a false v) ⟨b, q⟩ = .next ⟨b', q⟩ ∧
      b'.readData = b.liveFrac (a + 4) + 2 ^ 32 * (b.live64 (a + 4) % 2 ^ 32) ∧
      b'.shadow.get (fun _ => 0) (shadowKey who (a + 8)) = BitVec.ofNat 32 (b.live64 (a + 4) / 2 ^ 32) ∧ Frame (within []) Block.noShadow b b')) ∧
    (loadLo a = true →
      (∀ v, b.unitOpen (a + 4) = true → (∃ b', exec (.counterHiWrite who (a + 4) v) ⟨b, q⟩ = .next ⟨b', q⟩ ∧
      b'.staging.get (fun _ => 0) a = v ∧ b'.rd64 a = b.rd64 a ∧ Frame (within []) Block.noShadow b b')) ∧
      (∀ v, (∃ b', exec (.counterLoWrite who a v) ⟨b, q⟩ = .next ⟨b', q⟩ ∧
      b'.rd a = v ∧ b'.rd (a + 4) = b.staging.get (fun _ => 0) a ∧ Frame (within [a, a + 4]) id b b')) ∧
      (∀ v, a % 4 = 0 → a < 0x1000000 → (∃ b', exec (.registerWrite who a v) ⟨b, q⟩ = .next ⟨b', q⟩ ∧
      b'.rd a = v ∧ b'.rd (a + 4) = b.staging.get (fun _ => 0) a ∧ Frame (within [a, a + 4]) id b b'))) ∧
    (loadLo a = false →
      (∀ v, (∃ b', exec (.counterHiWrite who (a + 4) v) ⟨b, q⟩ = .next ⟨b', q⟩ ∧
      Frame (within []) id b b')) ∧
      (∀ v, (∃ b', exec (.counterLoWrite who a v) ⟨b, q⟩ = .next ⟨b', q⟩ ∧
      Frame (within []) id b b')) ∧
      (∀ v, a % 8 = 0 → a < 0x8000000 → (∃ b', exec (.counter64Access who a true v) ⟨b, q⟩ = .next ⟨b', q⟩ ∧
      b' = ((b.access a (BitVec.ofNat 32 v)).access (a + 4) (BitVec.ofNat 32 (v / 2 ^ 32))).commit)))

/-- UNIT_CTRL of a unit u that a requester reaches; of a group each acts on every unit of the group; of a single unit: QUIESCE sets QUIESCE and QUIESCING; its clearing clears both and IDLE (R78). Idle reached shows IDLE.
RESET sets RESET_BUSY, RESET and QUIESCE (R79); with IDLE reached, or at the timeout with FORCED, the unit's reset ends all of them. A unit that is not
resettable, and under the lease a unit the running table names, answers with ROOT_ERR.REFUSED and nothing else (R80, R81). A header nobody reaches changes nothing.

Says that exec answers a next state, under conditions on the state and the operands alone, for: unitQuiesceWrite, unitResetRequest,
unitIdleReached, quiesceTimeout. -/
def Obligations.UnitControl : Prop :=
  ∀ (b : Block) (q : List Instr) (who : Requester) (h : Nat),
    (b.unitFor who h = none → ∀ v, (∃ b', exec (.unitQuiesceWrite who h v) ⟨b, q⟩ = .next ⟨b', q⟩ ∧
      Frame (within []) id b b') ∧
      (∃ b', exec (.unitResetRequest who h) ⟨b, q⟩ = .next ⟨b', q⟩ ∧
      Frame (within []) id b b')) ∧
    (∀ u, b.unitFor who h = some u → u.cls.isGroup = false →
      (b.leaseRefuses u = true → (∃ b', exec (.unitQuiesceWrite who h true) ⟨b, q⟩ = .next ⟨b', q⟩ ∧
      b'.get ROOT_ERR_REFUSED = 1 ∧ b'.pendingEvent 12 = true ∧
          Frame (withEvt [ROOT_ERR, ROOT_ERR_ADDR]) id b b') ∧
        (∃ b', exec (.unitResetRequest who h) ⟨b, q⟩ = .next ⟨b', q⟩ ∧
      b'.get ROOT_ERR_REFUSED = 1 ∧ b'.pendingEvent 12 = true ∧
          Frame (withEvt [ROOT_ERR, ROOT_ERR_ADDR]) id b b')) ∧
      (b.leaseRefuses u = false → b.on (stResetBusy h) = false → (∃ b', exec (.unitQuiesceWrite who h true) ⟨b, q⟩ = .next ⟨b', q⟩ ∧
      b'.get (ctlQuiesce h) = 1 ∧ (b.on (ctlQuiesce h) = false → b'.get (stQuiescing h) = 1) ∧ Frame (within [h + 8, h + 0xC]) id b b')) ∧
      (b.on (stResetBusy h) = false → (∃ b', exec (.unitQuiesceWrite who h false) ⟨b, q⟩ = .next ⟨b', q⟩ ∧
      b'.get (ctlQuiesce h) = 0 ∧ b'.get (stQuiescing h) = 0 ∧ b'.get (stIdle h) = 0 ∧ Frame (within [h + 8, h + 0xC]) id b b')) ∧
      (b.on (stResetBusy h) = true → ∀ v, (v = false ∨ b.leaseRefuses u = false) → (∃ b', exec (.unitQuiesceWrite who h v) ⟨b, q⟩ = .next ⟨b', q⟩ ∧
      Frame (within []) id b b')) ∧
      (b.leaseRefuses u = false → u.cls.resettable = true → b.on (stResetBusy h) = false → (∃ b', exec (.unitResetRequest who h) ⟨b, q⟩ = .next ⟨b', q⟩ ∧
      b'.get (stResetBusy h) = 1 ∧ b'.get (ctlReset h) = 1 ∧ b'.get (ctlQuiesce h) = 1 ∧ Frame (within [h + 8, h + 0xC]) Block.noRst b b')) ∧
      (b.leaseRefuses u = false → u.cls.resettable = false → (∃ b', exec (.unitResetRequest who h) ⟨b, q⟩ = .next ⟨b', q⟩ ∧
      b'.get ROOT_ERR_REFUSED = 1 ∧
        b'.pendingEvent 12 = true ∧ Frame (withEvt [ROOT_ERR, ROOT_ERR_ADDR]) id b b'))) ∧
    (∀ u, b.unitFor who h = some u → u.cls.isGroup = true → b.leaseRefuses u = false →
      (∀ v, (∃ b', exec (.unitQuiesceWrite who h v) ⟨b, q⟩ = .next ⟨b', q⟩ ∧
      b' = (((b.targets u).foldl (fun c t => c.quiesce1 v t) b).set (ctlQuiesce h) v.toNat).commit)) ∧
      ((b.targets u).all (fun c => c.cls.resettable) = true → (∃ b', exec (.unitResetRequest who h) ⟨b, q⟩ = .next ⟨b', q⟩ ∧
      b' = ((b.targets u).foldl (fun c t => c.resetBegin t (Requester.code who) u.hdr) b).commit))) ∧
    (∀ u, unitAt h = some u → b.released u.cls = true →
      (b.on (ctlQuiesce h) = true → b.on (stQuiescing h) = true → b.on (stResetBusy h) = false → (∃ b', exec (.unitIdleReached h) ⟨b, q⟩ = .next ⟨b', q⟩ ∧
      b'.get (stIdle h) = 1 ∧ b'.get (stQuiescing h) = 0 ∧ Frame (within [h + 8]) id b b')) ∧
      (b.on (ctlQuiesce h) = true → b.on (stResetBusy h) = true → (∃ b', exec (.unitIdleReached h) ⟨b, q⟩ = .next ⟨b', q⟩ ∧
      b'.get (stResetBusy h) = 0 ∧ b'.get (ctlReset h) = 0 ∧ b'.get (ctlQuiesce h) = 0 ∧ b'.get (stIdle h) = 0)) ∧
      (b.on (stResetBusy h) = true → b.on (stIdle h) = false → (∃ b', exec (.quiesceTimeout h) ⟨b, q⟩ = .next ⟨b', q⟩ ∧
      b'.get (stResetBusy h) = 0 ∧ b'.get (ctlReset h) = 0 ∧ b'.get (ctlQuiesce h) = 0 ∧ b'.get (stIdle h) = 0)) ∧
      (b.on (stResetBusy h) = false → (∃ b', exec (.quiesceTimeout h) ⟨b, q⟩ = .next ⟨b', q⟩ ∧
      Frame (within []) id b b')))

/-- R60, for every requester whom the module answers: an access to a reserved range of BAR0 completes; a read returns zero, a write is discarded, and each sets
ROOT_ERR.UNMAPPED with event 12; so does each write to the window of an absent unit; a read of such a window returns zero and sets nothing. No other
register and no memory byte changes.

Says that exec answers a next state, under conditions on the state and the operands alone, for: unmappedAccess. -/
def Obligations.ReservedAndAbsent : Prop :=
  ∀ (b : Block) (q : List Instr) (who : Requester) (a : Nat), b.reaches who = true →
    (((a < 0x8000000 ∧ unitOf a = none) ∨ (0xDE00000 ≤ a ∧ a < 0xE000000)) →
      (∃ b', exec (.unmappedAccess who a false) ⟨b, q⟩ = .next ⟨b', q⟩ ∧
      b'.readData = 0 ∧ b'.get ROOT_ERR_UNMAPPED = 1 ∧ b'.pendingEvent 12 = true ∧
        Frame (withEvt [ROOT_ERR, ROOT_ERR_ADDR]) id b b') ∧
      (∃ b', exec (.unmappedAccess who a true) ⟨b, q⟩ = .next ⟨b', q⟩ ∧
      b'.get ROOT_ERR_UNMAPPED = 1 ∧ b'.pendingEvent 12 = true ∧
        Frame (withEvt [ROOT_ERR, ROOT_ERR_ADDR]) id b b')) ∧
    (∀ u, a < 0x8000000 → unitOf a = some u → b.member.has u = false →
      (∃ b', exec (.unmappedAccess who a false) ⟨b, q⟩ = .next ⟨b', q⟩ ∧
      b'.readData = 0 ∧ Frame (within []) id b b') ∧
      (∃ b', exec (.unmappedAccess who a true) ⟨b, q⟩ = .next ⟨b', q⟩ ∧
      b'.get ROOT_ERR_UNMAPPED = 1 ∧ b'.pendingEvent 12 = true ∧
        Frame (withEvt [ROOT_ERR, ROOT_ERR_ADDR]) id b b'))

/-- Ridge's queues at a module that is up. A write of CONS of a receive queue up to PROD moves it, beyond PROD it changes nothing; enabling a queue clears PROD and
CONS and shows its size (fixed for the queues of segments); a write of PROD of a transmit queue makes its descriptors known. A queue that is disabled or empty, or of a segment
that is not NORMAL, sends nothing; a descriptor that is not valid completes with status 6; a frame for a segment is sent
and its descriptor completes. A pop of the transmit time-stamp FIFO answers RIDGE_TSF3 and drops the oldest stamp.

Says that exec answers a next state, under conditions on the state and the operands alone, for: ridgeRqConsWrite, ridgeQueueEnable,
ridgeTqProdWrite, ridgeTxDescriptor, ridgeTsfPop. -/
def Obligations.RidgeQueues : Prop :=
  ∀ (b : Block) (q : List Instr), b.up →
    (∀ k v, k < 9 → sub32 v.toNat (b.rd (RIDGE_RQq_CONS k)).toNat ≤ sub32 (b.rd (RIDGE_RQq_PROD k)).toNat (b.rd (RIDGE_RQq_CONS k)).toNat →
      (∃ b', exec (.ridgeRqConsWrite k v) ⟨b, q⟩ = .next ⟨b', q⟩ ∧
      b'.rd (RIDGE_RQq_CONS k) = v ∧ Frame (within [RIDGE_RQq_CONS k]) id b b')) ∧
    (∀ k v, k < 9 → sub32 (b.rd (RIDGE_RQq_PROD k)).toNat (b.rd (RIDGE_RQq_CONS k)).toNat < sub32 v.toNat (b.rd (RIDGE_RQq_CONS k)).toNat →
      (∃ b', exec (.ridgeRqConsWrite k v) ⟨b, q⟩ = .next ⟨b', q⟩ ∧
      Frame (within []) id b b')) ∧
    (∀ k v, k < 9 → bit v.toNat 31 = true → b.on (RIDGE_TQq_CFG_EN k) = false → (∃ b', exec (.ridgeQueueEnable true k v) ⟨b, q⟩ = .next ⟨b', q⟩ ∧
      b'.get (RIDGE_TQq_CFG_EN k) = 1 ∧ b'.get (RIDGE_TQq_CFG_CEVT k) = bits v.toNat 30 1 ∧
      b'.get (RIDGE_TQq_CFG_SIZE_LOG k) = (if k = 0 then bits v.toNat 0 4 else 5) ∧ b'.rd (RIDGE_TQq_PROD k) = 0 ∧ b'.rd (RIDGE_TQq_CONS k) = 0 ∧
      Frame (within [RIDGE_TQq_CFG k, RIDGE_TQq_PROD k, RIDGE_TQq_CONS k]) id b b')) ∧
    (∀ k v, k < 9 → bit v.toNat 31 = true → b.on (RIDGE_RQq_CFG_EN k) = false → (∃ b', exec (.ridgeQueueEnable false k v) ⟨b, q⟩ = .next ⟨b', q⟩ ∧
      b'.get (RIDGE_RQq_CFG_EN k) = 1 ∧ b'.get (RIDGE_RQq_CFG_SIZE_LOG k) = (if k = 0 then bits v.toNat 0 4 else 6) ∧ b'.rd (RIDGE_RQq_PROD k) = 0 ∧
      b'.rd (RIDGE_RQq_CONS k) = 0 ∧ Frame (within [RIDGE_RQq_CFG k, RIDGE_RQq_PROD k, RIDGE_RQq_CONS k]) id b b')) ∧
    (∀ k v, k < 9 → (∃ b', exec (.ridgeTqProdWrite k v) ⟨b, q⟩ = .next ⟨b', q⟩ ∧
      b'.rd (RIDGE_TQq_PROD k) = v ∧ Frame (within [RIDGE_TQq_PROD k]) id b b')) ∧
    (∀ k c, (b.on (RIDGE_TQq_CFG_EN k) = false ∨ (0 < k ∧ b.txWaiting k = 0) ∨ (0 < k ∧ b.auxState (k - 1) ≠ axNORMAL)) →
      (∃ b', exec (.ridgeTxDescriptor k c) ⟨b, q⟩ = .next ⟨b', q⟩ ∧
      Frame (within []) id b b')) ∧
    (∀ k c d, 0 < k → k < 9 → b.on (RIDGE_TQq_CFG_EN k) = true → 0 < b.txWaiting k → b.auxState (k - 1) = axNORMAL → d = TxDesc.of (b.load .dram (b.txDescAt k 0) 32) →
      b.txValid k d = true → (∃ b', exec (.ridgeTxDescriptor k c) ⟨b, q⟩ = .next ⟨b', q⟩ ∧
      b' = (b.txAux (k - 1) c d (b.load .dram d.buf d.len)).commit ∧ b'.rd (RIDGE_TQq_CONS k) = b.rd (RIDGE_TQq_CONS k) + 1)) ∧
    (∀ k c, 0 < k → k < 9 → b.on (RIDGE_TQq_CFG_EN k) = true → 0 < b.txWaiting k → b.auxState (k - 1) = axNORMAL →
      b.txValid k (TxDesc.of (b.load .dram (b.txDescAt k 0) 32)) = false → (∃ b', exec (.ridgeTxDescriptor k c) ⟨b, q⟩ = .next ⟨b', q⟩ ∧
      b'.rd (RIDGE_TQq_CONS k) = b.rd (RIDGE_TQq_CONS k) + 1 ∧ SameRegs (withEvt [RIDGE_TQq_CONS k]) b b' ∧ b'.units = b.units)) ∧
    (∀ c d, b.on (RIDGE_TQq_CFG_EN 0) = true → b.swc.txRing.length < b.txWaiting 0 → d = TxDesc.of (b.load .dram (b.txDescAt 0 b.swc.txRing.length) 32) →
      b.txValid 0 d = true → (∃ b', exec (.ridgeTxDescriptor 0 c) ⟨b, q⟩ = .next ⟨b', q⟩ ∧
      b' = (b.txSwitch d (b.load .dram d.buf d.len)).commit)) ∧
    (∃ b', exec .ridgeTsfPop ⟨b, q⟩ = .next ⟨b', q⟩ ∧
      b'.readData = (b.rd RIDGE_TSF3).toNat ∧ b'.tim.tsf = b.tim.tsf.drop 1 ∧
      Frame (within [RIDGE_TSF0, RIDGE_TSF1, RIDGE_TSF2, RIDGE_TSF3, RIDGE_TSF_FILL]) Block.noTime b b')

/-- A unit with an index at or above the member's count is absent (R4, R714), and so are slots, channels, comparators and power domains at or
above the member's numbers (R715): a command addressed to one completes and changes nothing at any state, released or not. It is stated for
every command of the process and station ports, the cores, tufts, lanes, intake engines, DDR channels and auxiliary segments, and, of a
member without Rope or acquisition engine, for their timers, inputs, frames and commands. -/
def Obligations.AbsentUnits : Prop :=
  ∀ (s : State) (k n : Nat) (x y : Bool) (v : Word) (t : BitVec 64) (f : RxFrame) (l : List Byte) (ns : List Nat),
    ∀ Idle : List Instr → Prop, (Idle = fun cs => ∀ c, c ∈ cs → (∃ b', exec c s = .next ⟨b', s.pending⟩ ∧
      Frame (within []) id s.block b')) →
    (k < 20 → s.block.member.has (portUnit k) = false → Idle [.portEnable k v, .portDisable k x, .linkUp k n x, .linkLoss ⟨k, x⟩, .laneRetrain k,
      .lpiReceived k, .nodeEntryForget k n, .supervisionTx k, .lanSilent k, .portFrameReceived k f]) ∧
    (s.block.member.has ⟨.stn, k⟩ = false → Idle [.stationFrameReceived k f, .eeeLpiEntry k, .eeeWake k, .eeeTwWrite k v, .saEnable k n v]) ∧
    (s.block.member.has ⟨.frond, k⟩ = false → ∀ rd r1 r2, Idle [.riscvInstruction k, .taskFault k n t x, .debugHalt k x, .debugResume k,
      .gld16 k rd r1 r2 n, .qadd k rd r1 r2, .qsub k rd r1 r2, .qmul k rd r1 r2, .qneg k rd r1, .qshl k rd r1 r2, .qrshr k rd r1 r2,
      .cmul k rd r1 r2, .cmulc k rd r1 r2, .cmac k r1 r2, .cmacc k r1 r2, .caccrd k rd r1, .caccclr k, .cmag k rd r1, .cang k rd r1]) ∧
    (s.block.member.has ⟨.tuft, k⟩ = false → Idle [.tcmRead k v, .tcmWrite k v, .tuftFreqWrite k v, .tuftClockChange k x]) ∧
    (s.block.member.has ⟨.sor, k⟩ = false → Idle [.goldenVectorRun k x y]) ∧
    (s.block.member.has ⟨.rhz, k⟩ = false → Idle [.rhizoidSvFrame k, .gooseFrameIntake k]) ∧
    (s.block.member.has ⟨.ddr, k⟩ = false → Idle [.ddrZqCalibration k, .ddrDqsOscCheck k n, .ddrMr4Read k x y, .ddrSelfRefreshEntry k]) ∧
    (s.block.member.units .aux ≤ k → Idle [.auxEnable k v, .auxDisable k, .auxenRampDone k, .auxFrameReceived k f, .goListen k, .goNormal k,
      .sleep k, .wake k, .stay k, .awakeTimerExpiry k, .sleepFrameTx k, .sleepDelayDone k, .auxenHoldExpiry k, .wakeDetect k n,
      .wakeWindowExpiry k, .wakeLockExpiry k, .auxFsKick k, .auxFsClear k, .failsafeTimeout k, .failsafeFrameTx k, .plcaStatusChange k x,
      .jabber k, .wakeBurstDecoded k]) ∧
    (s.block.hasRope = false → Idle [.keepaliveTx, .ropeTimeout, .healthTx, .healthMissing, .joinTimeout, .targetedSelftestDone n x ns,
      .resolveTimeout, .handoverAckTimeout, .selftestResult n x y, .demote, .demoteForce, .ropeJoinCmd, .doubleClaim, .aloneTimeout,
      .belayInChange x, .hello k l, .keepalive k l, .release k l, .asduFwd k l, .ginLedger k l, .gooseFwd k l, .digests k l, .ledger k l,
      .claim k l, .health k l, .join k l, .resolve k l, .swap k l, .handover k l, .unknownRopeFrame k l]) ∧
    (s.block.member.has ⟨.acq, 0⟩ = false → Idle [.feiEdge k x n y, .tdcCalibrationStart k x, .calNow, .tdcCalibrationDone k x ns, .xtrigRelease k,
      .triggerTimeout k, .settleWindowEnd k, .autoTrigger k, .force k, .rearm k, .csetEnable k v, .csetDisable k, .segmentComplete k,
      .acqConsWrite k v]) ∧
    (s.block.member.slots ≤ k → Idle [.slotEnable k v, .slotDisable k]) ∧
    (s.block.member.channels ≤ k → Idle [.channelEnable k v]) ∧
    (4 * s.block.member.channels ≤ k → Idle [.comparatorEnable k v]) ∧
    (s.block.member.hasDomain k = false → Idle [.domainPowerRequest k])

/-- Errors that the codes find in control state, in a module that is up, as the start of a task on a tuft without work carries them (R44): a
single-bit error of a key slot counts in SECDED_CORR of KEY, with event 968 unless the second had one (R656), one of a table or descriptor in
Crozier's own counter, one of an instance's words in that of the instances, and each writes a record of type CONTROL; a double-bit error of a key
slot or of a table leads to a warm reset with cause 11, and of a key slot it stays noted for the warm start; a double-bit error of an instance's
words begins the unit reset of their unit. That the errors come with a task's start is the model's choice (notes/assumptions/187.md).

Says that exec answers a next state, under conditions on the state and the operands alone, for: taskStart. -/
def Obligations.ControlStateErrors : Prop :=
  ∀ (b : Block) (q : List Instr) (t n : Nat), b.up → t < 16 → b.crz.runs = [] →
    (b.fifo.length < 64 → (∃ b', exec (.taskStart ⟨t, [⟨.key, n, false⟩]⟩) ⟨b, q⟩ = .next ⟨b', q⟩ ∧
      b'.rd (KEY_CNTi 6) = b.rd (KEY_CNTi 6) + 1 ∧ (b.gates.get (fun _ => 0) 968 ≠ b.ns / 10 ^ 9 + 1 → b'.pendingEvent 968 = true) ∧
      b'.fifo.dropLast = b.fifo ∧ b'.fifo.getLast?.map (fun r => (r.typ, r.source)) = some (2, 968) ∧ SameBytes b b' ∧ b'.crz = b.crz ∧ b'.key = b.key)) ∧
    (b.fifo.length < 64 → (∃ b', exec (.taskStart ⟨t, [⟨.seq, n, false⟩]⟩) ⟨b, q⟩ = .next ⟨b', q⟩ ∧
      b'.rd (CRZ_CNTi 10) = b.rd (CRZ_CNTi 10) + 1 ∧ b'.fifo.dropLast = b.fifo ∧ b'.fifo.getLast?.map (fun r => r.typ) = some 2 ∧ SameBytes b b' ∧ b'.crz = b.crz)) ∧
    (∀ st, st = .inst ∨ st = .ctx ∨ st = .tu → b.fifo.length < 64 → (∃ b', exec (.taskStart ⟨t, [⟨st, n, false⟩]⟩) ⟨b, q⟩ = .next ⟨b', q⟩ ∧
      b'.rd (VIN_CNTi 8) = b.rd (VIN_CNTi 8) + 1 ∧ b'.fifo.dropLast = b.fifo ∧ b'.fifo.getLast?.map (fun r => r.typ) = some 2 ∧ SameBytes b b' ∧ b'.vin = b.vin)) ∧
    (∃ b', exec (.taskStart ⟨t, [⟨.key, n, true⟩]⟩) ⟨b, q⟩ = .next ⟨b', q⟩ ∧
      n ∈ b'.rst.ecc ∧ b'.rst.level = 2 ∧ b'.get RST_START_STAGE = 5 ∧ b'.get RST_LAST_CAUSE = 11 ∧ b'.rst.rel = false) ∧
    (∃ b', exec (.taskStart ⟨t, [⟨.seq, n, true⟩]⟩) ⟨b, q⟩ = .next ⟨b', q⟩ ∧
      b'.rst.level = 2 ∧ b'.get RST_START_STAGE = 5 ∧ b'.get RST_LAST_CAUSE = 11 ∧ b'.rst.rel = false) ∧
    (∀ st, st = .inst ∨ st = .ctx ∨ st = .tu → (∃ b', exec (.taskStart ⟨t, [⟨st, n, true⟩]⟩) ⟨b, q⟩ = .next ⟨b', q⟩ ∧
      b'.on (stResetBusy (UnitRef.hdr ⟨.vin, 0⟩)) = true ∧ b'.on (stFault (UnitRef.hdr ⟨.vin, 0⟩)) = true))
end

