-- ==== Sys2Proof/Laws/Sparse.lean ====
section
/-! SUPPORT. What reading, writing and the canonical form of a sparse table do. -/

namespace Sys2Proof

variable {α : Type}

@[simp] theorem Sparse.get_nil (d : Nat → α) (k : Nat) : Sparse.get d [] k = d k := rfl

theorem Sparse.get_cons (d : Nat → α) (k j : Nat) (v : α) (t : Sparse α) :
    Sparse.get d ((j, v) :: t) k = if j = k then v else Sparse.get d t k := rfl

@[simp] theorem Sparse.get_cons_self (d : Nat → α) (k : Nat) (v : α) (t : Sparse α) : Sparse.get d ((k, v) :: t) k = v := by
  simp [Sparse.get]

theorem Sparse.get_cons_ne (d : Nat → α) {k j : Nat} (h : j ≠ k) (v : α) (t : Sparse α) :
    Sparse.get d ((j, v) :: t) k = Sparse.get d t k := by simp [Sparse.get, h]

theorem Sparse.get_erase (d : Nat → α) (k j : Nat) (m : Sparse α) :
    Sparse.get d (Sparse.erase k m) j = if k = j then d j else Sparse.get d m j := by
  induction m with
  | nil => simp [Sparse.erase]
  | cons e t ih =>
    obtain ⟨a, v⟩ := e
    by_cases h : a = k
    · subst h
      simp only [Sparse.erase, if_true, ih, Sparse.get_cons]
      split <;> rfl
    · simp only [Sparse.erase, h, if_false, Sparse.get_cons, ih]
      by_cases hk : k = j
      · subst hk; simp [h]
      · simp [hk]

theorem Sparse.get_insert (d : Nat → α) (k : Nat) (v : α) (j : Nat) (m : Sparse α) (h : ∀ e ∈ m, e.1 ≠ k) :
    Sparse.get d (Sparse.insert k v m) j = if k = j then v else Sparse.get d m j := by
  induction m with
  | nil => simp [Sparse.insert, Sparse.get_cons]
  | cons e t ih =>
    obtain ⟨a, w⟩ := e
    have ha : a ≠ k := h (a, w) (by simp)
    have ht := ih (fun e he => h e (by simp [he]))
    by_cases hlt : k < a
    · simp [Sparse.insert, hlt, Sparse.get_cons]
    · simp only [Sparse.insert, hlt, if_false, Sparse.get_cons, ht]
      by_cases hj : k = j
      · subst hj; simp [ha]
      · simp [hj]

theorem Sparse.erase_ne (k : Nat) (m : Sparse α) : ∀ e ∈ Sparse.erase k m, e.1 ≠ k := by
  induction m with
  | nil => simp [Sparse.erase]
  | cons e t ih =>
    obtain ⟨a, v⟩ := e
    by_cases h : a = k
    · simpa [Sparse.erase, h] using ih
    · intro x hx
      simp only [Sparse.erase, h, if_false, List.mem_cons] at hx
      rcases hx with rfl | hx
      · exact h
      · exact ih x hx

theorem Sparse.get_put [DecidableEq α] (d : Nat → α) (k : Nat) (v : α) (j : Nat) (m : Sparse α) :
    Sparse.get d (Sparse.put d k v m) j = if k = j then v else Sparse.get d m j := by
  unfold Sparse.put
  split
  · rename_i h
    rw [Sparse.get_erase]
    by_cases hk : k = j
    · subst hk; simp [h]
    · simp [hk]
  · rw [Sparse.get_insert _ _ _ _ _ (Sparse.erase_ne k m), Sparse.get_erase]
    by_cases hk : k = j <;> simp [hk]

/-- The canonical form reads as the list it was made from. -/
@[simp] theorem Sparse.get_norm [DecidableEq α] (d : Nat → α) (m : Sparse α) (k : Nat) :
    Sparse.get d (Sparse.norm d m) k = Sparse.get d m k := by
  induction m with
  | nil => rfl
  | cons e t ih =>
    obtain ⟨a, v⟩ := e
    rw [Sparse.norm, Sparse.get_put, Sparse.get_cons, ih]

theorem Sparse.above_le {n m : Nat} (h : n ≤ m) (t : Sparse α) (ha : Sparse.above m t = true) : Sparse.above n t = true := by
  cases t with
  | nil => rfl
  | cons e t =>
    simp only [Sparse.above, Bool.and_eq_true, decide_eq_true_eq] at ha ⊢
    exact ⟨by omega, ha.2⟩

theorem Sparse.above_erase (n k : Nat) (m : Sparse α) (h : Sparse.above n m = true) : Sparse.above n (Sparse.erase k m) = true := by
  induction m generalizing n with
  | nil => rfl
  | cons e t ih =>
    obtain ⟨a, v⟩ := e
    simp only [Sparse.above, Bool.and_eq_true, decide_eq_true_eq] at h
    by_cases hk : a = k
    · simp only [Sparse.erase, hk, if_true]
      exact ih n (Sparse.above_le (by omega) t h.2)
    · simp only [Sparse.erase, hk, if_false, Sparse.above, Bool.and_eq_true, decide_eq_true_eq]
      exact ⟨h.1, ih _ h.2⟩

theorem Sparse.above_insert (n k : Nat) (v : α) (m : Sparse α) (hn : n ≤ k) (hk : ∀ e ∈ m, e.1 ≠ k) (h : Sparse.above n m = true) :
    Sparse.above n (Sparse.insert k v m) = true := by
  induction m generalizing n with
  | nil => simp [Sparse.insert, Sparse.above]; omega
  | cons e t ih =>
    obtain ⟨a, w⟩ := e
    have ha : a ≠ k := hk (a, w) (by simp)
    simp only [Sparse.above, Bool.and_eq_true, decide_eq_true_eq] at h
    by_cases hlt : k < a
    · simp only [Sparse.insert, hlt, if_true, Sparse.above, Bool.and_eq_true, decide_eq_true_eq]
      exact ⟨by omega, by omega, h.2⟩
    · simp only [Sparse.insert, hlt, if_false, Sparse.above, Bool.and_eq_true, decide_eq_true_eq]
      exact ⟨h.1, ih (a + 1) (by omega) (fun e he => hk e (by simp [he])) h.2⟩

theorem Sparse.mem_insert (k : Nat) (v : α) (m : Sparse α) (e : Nat × α) (h : e ∈ Sparse.insert k v m) : e = (k, v) ∨ e ∈ m := by
  induction m with
  | nil => simpa [Sparse.insert] using h
  | cons x t ih =>
    obtain ⟨a, w⟩ := x
    by_cases hlt : k < a
    · simpa [Sparse.insert, hlt] using h
    · simp only [Sparse.insert, hlt, if_false, List.mem_cons] at h
      rcases h with h | h
      · exact .inr (by simp [h])
      · rcases ih h with h | h
        · exact .inl h
        · exact .inr (by simp [h])

theorem Sparse.mem_erase (k : Nat) (m : Sparse α) (e : Nat × α) (h : e ∈ Sparse.erase k m) : e ∈ m := by
  induction m with
  | nil => simp [Sparse.erase] at h
  | cons x t ih =>
    obtain ⟨a, w⟩ := x
    by_cases hk : a = k
    · simp only [Sparse.erase, hk, if_true] at h
      simp [ih h]
    · simp only [Sparse.erase, hk, if_false, List.mem_cons] at h
      rcases h with h | h
      · simp [h]
      · simp [ih h]

theorem Sparse.canon_iff [DecidableEq α] (d : Nat → α) (m : Sparse α) :
    Sparse.canon d m = true ↔ Sparse.above 0 m = true ∧ ∀ e ∈ m, e.2 ≠ d e.1 := by
  simp [Sparse.canon]

theorem Sparse.canon_put [DecidableEq α] (d : Nat → α) (k : Nat) (v : α) (m : Sparse α) (h : Sparse.canon d m = true) :
    Sparse.canon d (Sparse.put d k v m) = true := by
  rw [Sparse.canon_iff] at h ⊢
  unfold Sparse.put
  split
  · exact ⟨Sparse.above_erase 0 k m h.1, fun e he => h.2 e (Sparse.mem_erase k m e he)⟩
  · rename_i hv
    refine ⟨Sparse.above_insert 0 k v _ (by omega) (Sparse.erase_ne k m) (Sparse.above_erase 0 k m h.1), fun e he => ?_⟩
    rcases Sparse.mem_insert k v _ e he with rfl | he
    · exact hv
    · exact h.2 e (Sparse.mem_erase k m e he)

/-- Whatever list it is made from, the canonical form is one. -/
@[simp] theorem Sparse.canon_norm [DecidableEq α] (d : Nat → α) (m : Sparse α) : Sparse.canon d (Sparse.norm d m) = true := by
  induction m with
  | nil => rfl
  | cons e t ih => exact Sparse.canon_put d _ _ _ ih

theorem Sparse.get_below (d : Nat → α) (n k : Nat) (m : Sparse α) (h : Sparse.above n m = true) (hk : k < n) : Sparse.get d m k = d k := by
  induction m generalizing n with
  | nil => rfl
  | cons e t ih =>
    obtain ⟨a, v⟩ := e
    simp only [Sparse.above, Bool.and_eq_true, decide_eq_true_eq] at h
    rw [Sparse.get_cons, if_neg (by omega)]
    exact ih (a + 1) h.2 (by omega)

/-- Two canonical forms that read alike are equal. -/
theorem Sparse.canon_ext [DecidableEq α] (d : Nat → α) (l m : Sparse α) (hl : Sparse.canon d l = true) (hm : Sparse.canon d m = true)
    (h : ∀ k, Sparse.get d l k = Sparse.get d m k) : l = m := by
  suffices H : ∀ n (l m : Sparse α), Sparse.above n l = true → Sparse.above n m = true → (∀ e ∈ l, e.2 ≠ d e.1) → (∀ e ∈ m, e.2 ≠ d e.1) →
      (∀ k, Sparse.get d l k = Sparse.get d m k) → l = m from
    H 0 l m ((Sparse.canon_iff d l).1 hl).1 ((Sparse.canon_iff d m).1 hm).1 ((Sparse.canon_iff d l).1 hl).2 ((Sparse.canon_iff d m).1 hm).2 h
  intro n l
  induction l generalizing n with
  | nil =>
    intro m _ hm' _ hdm hk
    cases m with
    | nil => rfl
    | cons e t =>
      obtain ⟨a, v⟩ := e
      have := hk a
      simp only [Sparse.get_nil, Sparse.get_cons_self] at this
      exact absurd this.symm (hdm (a, v) (by simp))
  | cons e t ih =>
    obtain ⟨a, v⟩ := e
    intro m hl' hm' hdl hdm hk
    simp only [Sparse.above, Bool.and_eq_true, decide_eq_true_eq] at hl'
    cases m with
    | nil =>
      have := hk a
      simp only [Sparse.get_nil, Sparse.get_cons_self] at this
      exact absurd this (hdl (a, v) (by simp))
    | cons f u =>
      obtain ⟨c, w⟩ := f
      simp only [Sparse.above, Bool.and_eq_true, decide_eq_true_eq] at hm'
      have hac : a = c := by
        rcases Nat.lt_trichotomy a c with hlt | heq | hgt
        · have := hk a
          rw [Sparse.get_cons_self, Sparse.get_below d c a ((c, w) :: u) (by simp [Sparse.above, hm'.2]) hlt] at this
          exact absurd this (hdl (a, v) (by simp))
        · exact heq
        · have := hk c
          rw [Sparse.get_cons_self, Sparse.get_below d a c ((a, v) :: t) (by simp [Sparse.above, hl'.2]) hgt] at this
          exact absurd this.symm (hdm (c, w) (by simp))
      subst hac
      have hvw : v = w := by simpa using hk a
      subst hvw
      have htu : t = u := by
        refine ih (a + 1) u hl'.2 hm'.2 (fun e he => hdl e (by simp [he])) (fun e he => hdm e (by simp [he])) (fun k => ?_)
        by_cases hk' : a = k
        · subst hk'
          rw [Sparse.get_below d _ _ t hl'.2 (by omega), Sparse.get_below d _ _ u hm'.2 (by omega)]
        · have := hk k
          rwa [Sparse.get_cons_ne d hk', Sparse.get_cons_ne d hk'] at this
      rw [htu]

end Sys2Proof
end

