-- ==== Sys2Proof/Laws/Regs.lean ====
section
/-! SUPPORT. Registers and memories: what a read gives after a write, a field after a field, and both after the end of a command. -/

namespace Sys2Proof.Machine

open Sys2Proof Sys2Proof.Reg

/-! Registers -/

theorem Block.rd_wr (b : Block) (a c : Nat) (v : Word) : (b.wr a v).rd c = if a = c then v else b.rd c := rfl

@[simp] theorem Block.rd_wr_self (b : Block) (a : Nat) (v : Word) : (b.wr a v).rd a = v := by simp [Block.rd_wr]

theorem Block.rd_wr_ne (b : Block) {a c : Nat} (h : a ≠ c) (v : Word) : (b.wr a v).rd c = b.rd c := by simp [Block.rd_wr, h]

theorem Block.get_wr (b : Block) (a : Nat) (v : Word) (f : Fld) :
    (b.wr a v).get f = if a = f.addr then bits v.toNat f.lo f.width else b.get f := by
  simp only [Block.get, Block.rd_wr]; split <;> rfl

theorem Block.get_wr_ne (b : Block) {a : Nat} {f : Fld} (h : a ≠ f.addr) (v : Word) : (b.wr a v).get f = b.get f := by
  simp [Block.get_wr, h]

theorem Block.get_wr_self (b : Block) (v : Word) (f : Fld) : (b.wr f.addr v).get f = bits v.toNat f.lo f.width := by
  simp [Block.get_wr]

theorem Block.get_lt (b : Block) (f : Fld) : b.get f < 2 ^ f.width := bits_lt _ _ _

theorem Block.rd_set_ne (b : Block) {f : Fld} {a : Nat} (h : f.addr ≠ a) (v : Nat) : (b.set f v).rd a = b.rd a := by
  simp [Block.set, Block.rd_wr, h]

/-- A field of a register reads as the value that was put into it. -/
theorem Block.get_set_self (b : Block) (f : Fld) (v : Nat) (h : f.lo + f.width ≤ 32) : (b.set f v).get f = v % 2 ^ f.width := by
  simp only [Block.set, Block.get_wr_self, BitVec.toNat_ofNat]
  rw [bits_mod32 _ _ _ h, bits_putBits_self]

/-- Fields of other registers, and fields that do not meet it, read as before. -/
theorem Block.get_set_ne (b : Block) (f g : Fld) (v : Nat) (h : f.addr ≠ g.addr ∨ g.lo + g.width ≤ f.lo ∨ f.lo + f.width ≤ g.lo)
    (hg : g.lo + g.width ≤ 32) : (b.set f v).get g = b.get g := by
  by_cases ha : f.addr = g.addr
  · simp only [Block.set, Block.get_wr, ha, if_true, BitVec.toNat_ofNat]
    rw [bits_mod32 _ _ _ hg, bits_putBits_ne _ _ _ _ _ _ (h.resolve_left (fun hn => hn ha))]
    rfl
  · simp [Block.set, Block.get_wr, ha]

theorem Block.get_set_addr (b : Block) {f g : Fld} (h : f.addr ≠ g.addr) (v : Nat) : (b.set f v).get g = b.get g := by
  simp [Block.set, Block.get_wr, h]

theorem Block.on_iff (b : Block) (f : Fld) : b.on f = true ↔ b.get f ≠ 0 := by simp [Block.on]

theorem Block.on_false_iff (b : Block) (f : Fld) : b.on f = false ↔ b.get f = 0 := by simp [Block.on]

@[simp] theorem Block.doIf_true (b : Block) (f : Block → Block) : b.doIf true f = f b := rfl
@[simp] theorem Block.doIf_false (b : Block) (f : Block → Block) : b.doIf false f = b := rfl
@[simp] theorem Block.setIf_true (b : Block) (f : Fld) (v : Nat) : b.setIf true f v = b.set f v := rfl
@[simp] theorem Block.setIf_false (b : Block) (f : Fld) (v : Nat) : b.setIf false f v = b := rfl
@[simp] theorem Block.raiseIf_true (b : Block) (n : Nat) : b.raiseIf true n = b.raise n := rfl
@[simp] theorem Block.raiseIf_false (b : Block) (n : Nat) : b.raiseIf false n = b := rfl

/-! Memories -/

theorem Block.byte_store (b : Block) (sp sp' : Space) (a a' : Nat) (v : Byte) (h : segOpen b.seg sp a = true) :
    (b.store sp a v).byte sp' a' = if sp.key a = sp'.key a' then v else b.byte sp' a' := by
  simp [Block.store, h, Block.byte, Sparse.get_cons]

theorem cells_get (seg : Sparse Nat) (sp : Space) (a : Nat) (l : List Byte) (m : List Host.Cell) (k : Nat)
    (h : ∀ i < l.length, sp.key (a + i) ≠ k) : Sparse.get memDefault (cells seg sp a l m) k = Sparse.get memDefault m k := by
  induction l generalizing a m with
  | nil => rfl
  | cons v t ih =>
    simp only [cells]
    rw [ih]
    · have h0 := h 0 (by simp)
      split
      · rw [Sparse.get_cons_ne]; simpa using h0
      · rfl
    · intro i hi
      have := h (i + 1) (by simpa using hi)
      rwa [show a + (i + 1) = a + 1 + i by omega] at this

/-- Every byte outside the stored ones reads as before. -/
theorem Block.byte_stores_ne (b : Block) (sp sp' : Space) (a a' : Nat) (l : List Byte) (h : ∀ i < l.length, sp.key (a + i) ≠ sp'.key a') :
    (b.stores sp a l).byte sp' a' = b.byte sp' a' := cells_get b.seg sp a l b.mem _ h

/-- Bytes of one space have different keys at different addresses below 2⁶⁴. -/
theorem Space.key_inj (sp : Space) (a c : Nat) (ha : a < 2 ^ 64) (hc : c < 2 ^ 64) : sp.key a = sp.key c ↔ a = c := by
  simp only [Space.key, Nat.mod_eq_of_lt ha, Nat.mod_eq_of_lt hc]; omega

/-- Bytes of spaces with different numbers have different keys. -/
theorem Space.key_ne (sp sp' : Space) (a c : Nat) (h : sp.index ≠ sp'.index) : sp.key a ≠ sp'.key c := by
  have h1 : a % 2 ^ 64 < 2 ^ 64 := Nat.mod_lt _ (by positivity)
  have h2 : c % 2 ^ 64 < 2 ^ 64 := Nat.mod_lt _ (by positivity)
  simp only [Space.key]
  generalize a % 2 ^ 64 = x at *
  generalize c % 2 ^ 64 = y at *
  omega

theorem cells_hit (seg : Sparse Nat) (sp : Space) (a : Nat) (l : List Byte) (m : List Host.Cell) (i : Nat) (hi : i < l.length)
    (ha : a + l.length ≤ 2 ^ 64) (ho : segOpen seg sp (a + i) = true) :
    Sparse.get memDefault (cells seg sp a l m) (sp.key (a + i)) = l[i] := by
  induction l generalizing a m i with
  | nil => simp at hi
  | cons v t ih =>
    simp only [cells]
    cases i with
    | zero =>
      rw [cells_get]
      · simp only [Nat.add_zero] at ho
        simp [ho]
      · intro j hj
        simp only [List.length_cons] at ha
        rw [ne_eq, Space.key_inj _ _ _ (by omega) (by omega)]; omega
    | succ j =>
      simp only [List.length_cons] at hi ha
      have := ih (a + 1) (if segOpen seg sp a = true then (sp.key a, v) :: m else m) j (by omega) (by omega) (by rwa [show a + 1 + j = a + (j + 1) by omega])
      rw [show a + (j + 1) = a + 1 + j by omega]
      simpa using this

/-- A stored byte reads back. -/
theorem Block.byte_stores (b : Block) (sp : Space) (a : Nat) (l : List Byte) (i : Nat) (hi : i < l.length) (ha : a + l.length ≤ 2 ^ 64)
    (ho : segOpen b.seg sp (a + i) = true) : (b.stores sp a l).byte sp (a + i) = l[i] := cells_hit b.seg sp a l b.mem i hi ha ho

theorem segOpen_other (seg : Sparse Nat) (sp : Space) (a : Nat) (h : segOf sp a = none) : segOpen seg sp a = true := by simp [segOpen, h]

/-! The end of a command -/

@[simp] theorem Block.rd_commit (b : Block) (a : Nat) : b.commit.rd a = b.rd a := by simp [Block.commit, Block.rd]
@[simp] theorem Block.get_commit (b : Block) (f : Fld) : b.commit.get f = b.get f := by simp [Block.get]
@[simp] theorem Block.on_commit (b : Block) (f : Fld) : b.commit.on f = b.on f := by simp [Block.on]
@[simp] theorem Block.rd64_commit (b : Block) (a : Nat) : b.commit.rd64 a = b.rd64 a := by simp [Block.rd64]
@[simp] theorem Block.byte_commit (b : Block) (sp : Space) (a : Nat) : b.commit.byte sp a = b.byte sp a := by simp [Block.commit, Block.byte]

@[simp] theorem Block.load_commit (b : Block) (sp : Space) (a n : Nat) : b.commit.load sp a n = b.load sp a n := by
  induction n generalizing a with
  | zero => rfl
  | succ n ih => simp [Block.load, ih]

/-- Whatever a command did, its end leaves both tables in their canonical form. -/
@[simp] theorem Sparse.canon_regs (b : Block) : Sparse.canon resetOf b.commit.regs = true := Sparse.canon_norm _ _
@[simp] theorem Sparse.canon_mem (b : Block) : Sparse.canon memDefault b.commit.mem = true := Sparse.canon_norm _ _

/-! What commands answer -/

theorem run_eq (f : Block → Block) (s : State) : run f s = .next ⟨(f s.block).commit, s.pending⟩ := rfl
theorem runAt_eq (c : Cls) (f : Block → Block) (s : State) (h : s.block.released c = true) (hm : 0 < s.block.member.units c) :
    runAt c f s = .next ⟨(f s.block).commit, s.pending⟩ := by
  simp [runAt, h, hm, run]
theorem runUnit_eq (u : UnitRef) (f : Block → Block) (s : State) (h : s.block.released u.cls = true) (hm : s.block.member.has u = true) :
    runUnit u f s = .next ⟨(f s.block).commit, s.pending⟩ := by
  simp [runUnit, h, hm, run]

/-- A command of units that are held in reset, or of which the member has none, changes nothing (R608, R714). -/
theorem runAt_idle (c : Cls) (f : Block → Block) (s : State) (h : s.block.released c = false ∨ s.block.member.units c = 0) : runAt c f s = .next s := by
  rcases h with h | h <;> simp [runAt, h]
/-- A command of a unit that is held in reset, or that the member lacks, changes nothing (R608, R714). -/
theorem runUnit_idle (u : UnitRef) (f : Block → Block) (s : State) (h : s.block.released u.cls = false ∨ s.block.member.has u = false) :
    runUnit u f s = .next s := by
  rcases h with h | h <;> simp [runUnit, h]

end Sys2Proof.Machine
end

