-- ==== Sys2Proof/Laws/State.lean ====
section
/-! SUPPORT. Each update of the block and each field it leaves alone: one lemma a field, true by unfolding. -/

namespace Sys2Proof.Machine

open Sys2Proof Sys2Proof.Reg

section
variable (b : Block)

@[simp] theorem Block.wr_member (a : Nat) (v : Word) : (b.wr a v).member = b.member := rfl
@[simp] theorem Block.wr_mem (a : Nat) (v : Word) : (b.wr a v).mem = b.mem := rfl
@[simp] theorem Block.wr_outs (a : Nat) (v : Word) : (b.wr a v).outs = b.outs := rfl
@[simp] theorem Block.wr_freeCtr (a : Nat) (v : Word) : (b.wr a v).freeCtr = b.freeCtr := rfl
@[simp] theorem Block.wr_readData (a : Nat) (v : Word) : (b.wr a v).readData = b.readData := rfl
@[simp] theorem Block.wr_shadow (a : Nat) (v : Word) : (b.wr a v).shadow = b.shadow := rfl
@[simp] theorem Block.wr_staging (a : Nat) (v : Word) : (b.wr a v).staging = b.staging := rfl
@[simp] theorem Block.wr_imgLock (a : Nat) (v : Word) : (b.wr a v).imgLock = b.imgLock := rfl
@[simp] theorem Block.wr_xtal (a : Nat) (v : Word) : (b.wr a v).xtal = b.xtal := rfl
@[simp] theorem Block.wr_gates (a : Nat) (v : Word) : (b.wr a v).gates = b.gates := rfl
@[simp] theorem Block.wr_msixEn (a : Nat) (v : Word) : (b.wr a v).msixEn = b.msixEn := rfl
@[simp] theorem Block.wr_msixMask (a : Nat) (v : Word) : (b.wr a v).msixMask = b.msixMask := rfl
@[simp] theorem Block.wr_crzEvt (a : Nat) (v : Word) : (b.wr a v).crzEvt = b.crzEvt := rfl
@[simp] theorem Block.wr_fifo (a : Nat) (v : Word) : (b.wr a v).fifo = b.fifo := rfl
@[simp] theorem Block.wr_marker (a : Nat) (v : Word) : (b.wr a v).marker = b.marker := rfl
@[simp] theorem Block.wr_firstLost (a : Nat) (v : Word) : (b.wr a v).firstLost = b.firstLost := rfl
@[simp] theorem Block.wr_ridge (a : Nat) (v : Word) : (b.wr a v).ridge = b.ridge := rfl
@[simp] theorem Block.wr_tim (a : Nat) (v : Word) : (b.wr a v).tim = b.tim := rfl
@[simp] theorem Block.wr_port (a : Nat) (v : Word) : (b.wr a v).port = b.port := rfl
@[simp] theorem Block.wr_swc (a : Nat) (v : Word) : (b.wr a v).swc = b.swc := rfl
@[simp] theorem Block.wr_pub (a : Nat) (v : Word) : (b.wr a v).pub = b.pub := rfl
@[simp] theorem Block.wr_rhz (a : Nat) (v : Word) : (b.wr a v).rhz = b.rhz := rfl
@[simp] theorem Block.wr_sor (a : Nat) (v : Word) : (b.wr a v).sor = b.sor := rfl
@[simp] theorem Block.wr_crz (a : Nat) (v : Word) : (b.wr a v).crz = b.crz := rfl
@[simp] theorem Block.wr_frd (a : Nat) (v : Word) : (b.wr a v).frd = b.frd := rfl
@[simp] theorem Block.wr_gin (a : Nat) (v : Word) : (b.wr a v).gin = b.gin := rfl
@[simp] theorem Block.wr_acq (a : Nat) (v : Word) : (b.wr a v).acq = b.acq := rfl
@[simp] theorem Block.wr_rope (a : Nat) (v : Word) : (b.wr a v).rope = b.rope := rfl
@[simp] theorem Block.wr_vin (a : Nat) (v : Word) : (b.wr a v).vin = b.vin := rfl
@[simp] theorem Block.wr_hif (a : Nat) (v : Word) : (b.wr a v).hif = b.hif := rfl
@[simp] theorem Block.wr_seg (a : Nat) (v : Word) : (b.wr a v).seg = b.seg := rfl
@[simp] theorem Block.wr_hostWait (a : Nat) (v : Word) : (b.wr a v).hostWait = b.hostWait := rfl
@[simp] theorem Block.wr_nrg (a : Nat) (v : Word) : (b.wr a v).nrg = b.nrg := rfl
@[simp] theorem Block.wr_aux (a : Nat) (v : Word) : (b.wr a v).aux = b.aux := rfl
@[simp] theorem Block.wr_rst (a : Nat) (v : Word) : (b.wr a v).rst = b.rst := rfl
@[simp] theorem Block.wr_img (a : Nat) (v : Word) : (b.wr a v).img = b.img := rfl
@[simp] theorem Block.wr_key (a : Nat) (v : Word) : (b.wr a v).key = b.key := rfl
@[simp] theorem Block.wr_crn (a : Nat) (v : Word) : (b.wr a v).crn = b.crn := rfl
@[simp] theorem Block.wr_byte (a : Nat) (v : Word) (sp' : Space) (x : Nat) : (b.wr a v).byte sp' x = b.byte sp' x := rfl
@[simp] theorem Block.set_member (f : Fld) (v : Nat) : (b.set f v).member = b.member := rfl
@[simp] theorem Block.set_mem (f : Fld) (v : Nat) : (b.set f v).mem = b.mem := rfl
@[simp] theorem Block.set_outs (f : Fld) (v : Nat) : (b.set f v).outs = b.outs := rfl
@[simp] theorem Block.set_freeCtr (f : Fld) (v : Nat) : (b.set f v).freeCtr = b.freeCtr := rfl
@[simp] theorem Block.set_readData (f : Fld) (v : Nat) : (b.set f v).readData = b.readData := rfl
@[simp] theorem Block.set_shadow (f : Fld) (v : Nat) : (b.set f v).shadow = b.shadow := rfl
@[simp] theorem Block.set_staging (f : Fld) (v : Nat) : (b.set f v).staging = b.staging := rfl
@[simp] theorem Block.set_imgLock (f : Fld) (v : Nat) : (b.set f v).imgLock = b.imgLock := rfl
@[simp] theorem Block.set_xtal (f : Fld) (v : Nat) : (b.set f v).xtal = b.xtal := rfl
@[simp] theorem Block.set_gates (f : Fld) (v : Nat) : (b.set f v).gates = b.gates := rfl
@[simp] theorem Block.set_msixEn (f : Fld) (v : Nat) : (b.set f v).msixEn = b.msixEn := rfl
@[simp] theorem Block.set_msixMask (f : Fld) (v : Nat) : (b.set f v).msixMask = b.msixMask := rfl
@[simp] theorem Block.set_crzEvt (f : Fld) (v : Nat) : (b.set f v).crzEvt = b.crzEvt := rfl
@[simp] theorem Block.set_fifo (f : Fld) (v : Nat) : (b.set f v).fifo = b.fifo := rfl
@[simp] theorem Block.set_marker (f : Fld) (v : Nat) : (b.set f v).marker = b.marker := rfl
@[simp] theorem Block.set_firstLost (f : Fld) (v : Nat) : (b.set f v).firstLost = b.firstLost := rfl
@[simp] theorem Block.set_ridge (f : Fld) (v : Nat) : (b.set f v).ridge = b.ridge := rfl
@[simp] theorem Block.set_tim (f : Fld) (v : Nat) : (b.set f v).tim = b.tim := rfl
@[simp] theorem Block.set_port (f : Fld) (v : Nat) : (b.set f v).port = b.port := rfl
@[simp] theorem Block.set_swc (f : Fld) (v : Nat) : (b.set f v).swc = b.swc := rfl
@[simp] theorem Block.set_pub (f : Fld) (v : Nat) : (b.set f v).pub = b.pub := rfl
@[simp] theorem Block.set_rhz (f : Fld) (v : Nat) : (b.set f v).rhz = b.rhz := rfl
@[simp] theorem Block.set_sor (f : Fld) (v : Nat) : (b.set f v).sor = b.sor := rfl
@[simp] theorem Block.set_crz (f : Fld) (v : Nat) : (b.set f v).crz = b.crz := rfl
@[simp] theorem Block.set_frd (f : Fld) (v : Nat) : (b.set f v).frd = b.frd := rfl
@[simp] theorem Block.set_gin (f : Fld) (v : Nat) : (b.set f v).gin = b.gin := rfl
@[simp] theorem Block.set_acq (f : Fld) (v : Nat) : (b.set f v).acq = b.acq := rfl
@[simp] theorem Block.set_rope (f : Fld) (v : Nat) : (b.set f v).rope = b.rope := rfl
@[simp] theorem Block.set_vin (f : Fld) (v : Nat) : (b.set f v).vin = b.vin := rfl
@[simp] theorem Block.set_hif (f : Fld) (v : Nat) : (b.set f v).hif = b.hif := rfl
@[simp] theorem Block.set_seg (f : Fld) (v : Nat) : (b.set f v).seg = b.seg := rfl
@[simp] theorem Block.set_hostWait (f : Fld) (v : Nat) : (b.set f v).hostWait = b.hostWait := rfl
@[simp] theorem Block.set_nrg (f : Fld) (v : Nat) : (b.set f v).nrg = b.nrg := rfl
@[simp] theorem Block.set_aux (f : Fld) (v : Nat) : (b.set f v).aux = b.aux := rfl
@[simp] theorem Block.set_rst (f : Fld) (v : Nat) : (b.set f v).rst = b.rst := rfl
@[simp] theorem Block.set_img (f : Fld) (v : Nat) : (b.set f v).img = b.img := rfl
@[simp] theorem Block.set_key (f : Fld) (v : Nat) : (b.set f v).key = b.key := rfl
@[simp] theorem Block.set_crn (f : Fld) (v : Nat) : (b.set f v).crn = b.crn := rfl
@[simp] theorem Block.set_byte (f : Fld) (v : Nat) (sp' : Space) (x : Nat) : (b.set f v).byte sp' x = b.byte sp' x := rfl
@[simp] theorem Block.wr64_member (a v : Nat) : (b.wr64 a v).member = b.member := rfl
@[simp] theorem Block.wr64_mem (a v : Nat) : (b.wr64 a v).mem = b.mem := rfl
@[simp] theorem Block.wr64_outs (a v : Nat) : (b.wr64 a v).outs = b.outs := rfl
@[simp] theorem Block.wr64_freeCtr (a v : Nat) : (b.wr64 a v).freeCtr = b.freeCtr := rfl
@[simp] theorem Block.wr64_readData (a v : Nat) : (b.wr64 a v).readData = b.readData := rfl
@[simp] theorem Block.wr64_shadow (a v : Nat) : (b.wr64 a v).shadow = b.shadow := rfl
@[simp] theorem Block.wr64_staging (a v : Nat) : (b.wr64 a v).staging = b.staging := rfl
@[simp] theorem Block.wr64_imgLock (a v : Nat) : (b.wr64 a v).imgLock = b.imgLock := rfl
@[simp] theorem Block.wr64_xtal (a v : Nat) : (b.wr64 a v).xtal = b.xtal := rfl
@[simp] theorem Block.wr64_gates (a v : Nat) : (b.wr64 a v).gates = b.gates := rfl
@[simp] theorem Block.wr64_msixEn (a v : Nat) : (b.wr64 a v).msixEn = b.msixEn := rfl
@[simp] theorem Block.wr64_msixMask (a v : Nat) : (b.wr64 a v).msixMask = b.msixMask := rfl
@[simp] theorem Block.wr64_crzEvt (a v : Nat) : (b.wr64 a v).crzEvt = b.crzEvt := rfl
@[simp] theorem Block.wr64_fifo (a v : Nat) : (b.wr64 a v).fifo = b.fifo := rfl
@[simp] theorem Block.wr64_marker (a v : Nat) : (b.wr64 a v).marker = b.marker := rfl
@[simp] theorem Block.wr64_firstLost (a v : Nat) : (b.wr64 a v).firstLost = b.firstLost := rfl
@[simp] theorem Block.wr64_ridge (a v : Nat) : (b.wr64 a v).ridge = b.ridge := rfl
@[simp] theorem Block.wr64_tim (a v : Nat) : (b.wr64 a v).tim = b.tim := rfl
@[simp] theorem Block.wr64_port (a v : Nat) : (b.wr64 a v).port = b.port := rfl
@[simp] theorem Block.wr64_swc (a v : Nat) : (b.wr64 a v).swc = b.swc := rfl
@[simp] theorem Block.wr64_pub (a v : Nat) : (b.wr64 a v).pub = b.pub := rfl
@[simp] theorem Block.wr64_rhz (a v : Nat) : (b.wr64 a v).rhz = b.rhz := rfl
@[simp] theorem Block.wr64_sor (a v : Nat) : (b.wr64 a v).sor = b.sor := rfl
@[simp] theorem Block.wr64_crz (a v : Nat) : (b.wr64 a v).crz = b.crz := rfl
@[simp] theorem Block.wr64_frd (a v : Nat) : (b.wr64 a v).frd = b.frd := rfl
@[simp] theorem Block.wr64_gin (a v : Nat) : (b.wr64 a v).gin = b.gin := rfl
@[simp] theorem Block.wr64_acq (a v : Nat) : (b.wr64 a v).acq = b.acq := rfl
@[simp] theorem Block.wr64_rope (a v : Nat) : (b.wr64 a v).rope = b.rope := rfl
@[simp] theorem Block.wr64_vin (a v : Nat) : (b.wr64 a v).vin = b.vin := rfl
@[simp] theorem Block.wr64_hif (a v : Nat) : (b.wr64 a v).hif = b.hif := rfl
@[simp] theorem Block.wr64_seg (a v : Nat) : (b.wr64 a v).seg = b.seg := rfl
@[simp] theorem Block.wr64_hostWait (a v : Nat) : (b.wr64 a v).hostWait = b.hostWait := rfl
@[simp] theorem Block.wr64_nrg (a v : Nat) : (b.wr64 a v).nrg = b.nrg := rfl
@[simp] theorem Block.wr64_aux (a v : Nat) : (b.wr64 a v).aux = b.aux := rfl
@[simp] theorem Block.wr64_rst (a v : Nat) : (b.wr64 a v).rst = b.rst := rfl
@[simp] theorem Block.wr64_img (a v : Nat) : (b.wr64 a v).img = b.img := rfl
@[simp] theorem Block.wr64_key (a v : Nat) : (b.wr64 a v).key = b.key := rfl
@[simp] theorem Block.wr64_crn (a v : Nat) : (b.wr64 a v).crn = b.crn := rfl
@[simp] theorem Block.wr64_byte (a v : Nat) (sp' : Space) (x : Nat) : (b.wr64 a v).byte sp' x = b.byte sp' x := rfl
@[simp] theorem Block.emit_member (o : Output) : (b.emit o).member = b.member := rfl
@[simp] theorem Block.emit_regs (o : Output) : (b.emit o).regs = b.regs := rfl
@[simp] theorem Block.emit_mem (o : Output) : (b.emit o).mem = b.mem := rfl
@[simp] theorem Block.emit_freeCtr (o : Output) : (b.emit o).freeCtr = b.freeCtr := rfl
@[simp] theorem Block.emit_readData (o : Output) : (b.emit o).readData = b.readData := rfl
@[simp] theorem Block.emit_shadow (o : Output) : (b.emit o).shadow = b.shadow := rfl
@[simp] theorem Block.emit_staging (o : Output) : (b.emit o).staging = b.staging := rfl
@[simp] theorem Block.emit_imgLock (o : Output) : (b.emit o).imgLock = b.imgLock := rfl
@[simp] theorem Block.emit_xtal (o : Output) : (b.emit o).xtal = b.xtal := rfl
@[simp] theorem Block.emit_gates (o : Output) : (b.emit o).gates = b.gates := rfl
@[simp] theorem Block.emit_msixEn (o : Output) : (b.emit o).msixEn = b.msixEn := rfl
@[simp] theorem Block.emit_msixMask (o : Output) : (b.emit o).msixMask = b.msixMask := rfl
@[simp] theorem Block.emit_crzEvt (o : Output) : (b.emit o).crzEvt = b.crzEvt := rfl
@[simp] theorem Block.emit_fifo (o : Output) : (b.emit o).fifo = b.fifo := rfl
@[simp] theorem Block.emit_marker (o : Output) : (b.emit o).marker = b.marker := rfl
@[simp] theorem Block.emit_firstLost (o : Output) : (b.emit o).firstLost = b.firstLost := rfl
@[simp] theorem Block.emit_ridge (o : Output) : (b.emit o).ridge = b.ridge := rfl
@[simp] theorem Block.emit_tim (o : Output) : (b.emit o).tim = b.tim := rfl
@[simp] theorem Block.emit_port (o : Output) : (b.emit o).port = b.port := rfl
@[simp] theorem Block.emit_swc (o : Output) : (b.emit o).swc = b.swc := rfl
@[simp] theorem Block.emit_pub (o : Output) : (b.emit o).pub = b.pub := rfl
@[simp] theorem Block.emit_rhz (o : Output) : (b.emit o).rhz = b.rhz := rfl
@[simp] theorem Block.emit_sor (o : Output) : (b.emit o).sor = b.sor := rfl
@[simp] theorem Block.emit_crz (o : Output) : (b.emit o).crz = b.crz := rfl
@[simp] theorem Block.emit_frd (o : Output) : (b.emit o).frd = b.frd := rfl
@[simp] theorem Block.emit_gin (o : Output) : (b.emit o).gin = b.gin := rfl
@[simp] theorem Block.emit_acq (o : Output) : (b.emit o).acq = b.acq := rfl
@[simp] theorem Block.emit_rope (o : Output) : (b.emit o).rope = b.rope := rfl
@[simp] theorem Block.emit_vin (o : Output) : (b.emit o).vin = b.vin := rfl
@[simp] theorem Block.emit_hif (o : Output) : (b.emit o).hif = b.hif := rfl
@[simp] theorem Block.emit_seg (o : Output) : (b.emit o).seg = b.seg := rfl
@[simp] theorem Block.emit_hostWait (o : Output) : (b.emit o).hostWait = b.hostWait := rfl
@[simp] theorem Block.emit_nrg (o : Output) : (b.emit o).nrg = b.nrg := rfl
@[simp] theorem Block.emit_aux (o : Output) : (b.emit o).aux = b.aux := rfl
@[simp] theorem Block.emit_rst (o : Output) : (b.emit o).rst = b.rst := rfl
@[simp] theorem Block.emit_img (o : Output) : (b.emit o).img = b.img := rfl
@[simp] theorem Block.emit_key (o : Output) : (b.emit o).key = b.key := rfl
@[simp] theorem Block.emit_crn (o : Output) : (b.emit o).crn = b.crn := rfl
@[simp] theorem Block.emit_rd (o : Output) (x : Nat) : (b.emit o).rd x = b.rd x := rfl
@[simp] theorem Block.emit_get (o : Output) (x : Fld) : (b.emit o).get x = b.get x := rfl
@[simp] theorem Block.emit_on (o : Output) (x : Fld) : (b.emit o).on x = b.on x := rfl
@[simp] theorem Block.emit_byte (o : Output) (sp' : Space) (x : Nat) : (b.emit o).byte sp' x = b.byte sp' x := rfl
@[simp] theorem Block.answer_member (v : Nat) : (b.answer v).member = b.member := rfl
@[simp] theorem Block.answer_regs (v : Nat) : (b.answer v).regs = b.regs := rfl
@[simp] theorem Block.answer_mem (v : Nat) : (b.answer v).mem = b.mem := rfl
@[simp] theorem Block.answer_outs (v : Nat) : (b.answer v).outs = b.outs := rfl
@[simp] theorem Block.answer_freeCtr (v : Nat) : (b.answer v).freeCtr = b.freeCtr := rfl
@[simp] theorem Block.answer_shadow (v : Nat) : (b.answer v).shadow = b.shadow := rfl
@[simp] theorem Block.answer_staging (v : Nat) : (b.answer v).staging = b.staging := rfl
@[simp] theorem Block.answer_imgLock (v : Nat) : (b.answer v).imgLock = b.imgLock := rfl
@[simp] theorem Block.answer_xtal (v : Nat) : (b.answer v).xtal = b.xtal := rfl
@[simp] theorem Block.answer_gates (v : Nat) : (b.answer v).gates = b.gates := rfl
@[simp] theorem Block.answer_msixEn (v : Nat) : (b.answer v).msixEn = b.msixEn := rfl
@[simp] theorem Block.answer_msixMask (v : Nat) : (b.answer v).msixMask = b.msixMask := rfl
@[simp] theorem Block.answer_crzEvt (v : Nat) : (b.answer v).crzEvt = b.crzEvt := rfl
@[simp] theorem Block.answer_fifo (v : Nat) : (b.answer v).fifo = b.fifo := rfl
@[simp] theorem Block.answer_marker (v : Nat) : (b.answer v).marker = b.marker := rfl
@[simp] theorem Block.answer_firstLost (v : Nat) : (b.answer v).firstLost = b.firstLost := rfl
@[simp] theorem Block.answer_ridge (v : Nat) : (b.answer v).ridge = b.ridge := rfl
@[simp] theorem Block.answer_tim (v : Nat) : (b.answer v).tim = b.tim := rfl
@[simp] theorem Block.answer_port (v : Nat) : (b.answer v).port = b.port := rfl
@[simp] theorem Block.answer_swc (v : Nat) : (b.answer v).swc = b.swc := rfl
@[simp] theorem Block.answer_pub (v : Nat) : (b.answer v).pub = b.pub := rfl
@[simp] theorem Block.answer_rhz (v : Nat) : (b.answer v).rhz = b.rhz := rfl
@[simp] theorem Block.answer_sor (v : Nat) : (b.answer v).sor = b.sor := rfl
@[simp] theorem Block.answer_crz (v : Nat) : (b.answer v).crz = b.crz := rfl
@[simp] theorem Block.answer_frd (v : Nat) : (b.answer v).frd = b.frd := rfl
@[simp] theorem Block.answer_gin (v : Nat) : (b.answer v).gin = b.gin := rfl
@[simp] theorem Block.answer_acq (v : Nat) : (b.answer v).acq = b.acq := rfl
@[simp] theorem Block.answer_rope (v : Nat) : (b.answer v).rope = b.rope := rfl
@[simp] theorem Block.answer_vin (v : Nat) : (b.answer v).vin = b.vin := rfl
@[simp] theorem Block.answer_hif (v : Nat) : (b.answer v).hif = b.hif := rfl
@[simp] theorem Block.answer_seg (v : Nat) : (b.answer v).seg = b.seg := rfl
@[simp] theorem Block.answer_hostWait (v : Nat) : (b.answer v).hostWait = b.hostWait := rfl
@[simp] theorem Block.answer_nrg (v : Nat) : (b.answer v).nrg = b.nrg := rfl
@[simp] theorem Block.answer_aux (v : Nat) : (b.answer v).aux = b.aux := rfl
@[simp] theorem Block.answer_rst (v : Nat) : (b.answer v).rst = b.rst := rfl
@[simp] theorem Block.answer_img (v : Nat) : (b.answer v).img = b.img := rfl
@[simp] theorem Block.answer_key (v : Nat) : (b.answer v).key = b.key := rfl
@[simp] theorem Block.answer_crn (v : Nat) : (b.answer v).crn = b.crn := rfl
@[simp] theorem Block.answer_rd (v : Nat) (x : Nat) : (b.answer v).rd x = b.rd x := rfl
@[simp] theorem Block.answer_get (v : Nat) (x : Fld) : (b.answer v).get x = b.get x := rfl
@[simp] theorem Block.answer_on (v : Nat) (x : Fld) : (b.answer v).on x = b.on x := rfl
@[simp] theorem Block.answer_byte (v : Nat) (sp' : Space) (x : Nat) : (b.answer v).byte sp' x = b.byte sp' x := rfl
@[simp] theorem Block.stores_member (sp : Space) (a : Nat) (l : List Byte) : (b.stores sp a l).member = b.member := rfl
@[simp] theorem Block.stores_regs (sp : Space) (a : Nat) (l : List Byte) : (b.stores sp a l).regs = b.regs := rfl
@[simp] theorem Block.stores_outs (sp : Space) (a : Nat) (l : List Byte) : (b.stores sp a l).outs = b.outs := rfl
@[simp] theorem Block.stores_freeCtr (sp : Space) (a : Nat) (l : List Byte) : (b.stores sp a l).freeCtr = b.freeCtr := rfl
@[simp] theorem Block.stores_readData (sp : Space) (a : Nat) (l : List Byte) : (b.stores sp a l).readData = b.readData := rfl
@[simp] theorem Block.stores_shadow (sp : Space) (a : Nat) (l : List Byte) : (b.stores sp a l).shadow = b.shadow := rfl
@[simp] theorem Block.stores_staging (sp : Space) (a : Nat) (l : List Byte) : (b.stores sp a l).staging = b.staging := rfl
@[simp] theorem Block.stores_imgLock (sp : Space) (a : Nat) (l : List Byte) : (b.stores sp a l).imgLock = b.imgLock := rfl
@[simp] theorem Block.stores_xtal (sp : Space) (a : Nat) (l : List Byte) : (b.stores sp a l).xtal = b.xtal := rfl
@[simp] theorem Block.stores_gates (sp : Space) (a : Nat) (l : List Byte) : (b.stores sp a l).gates = b.gates := rfl
@[simp] theorem Block.stores_msixEn (sp : Space) (a : Nat) (l : List Byte) : (b.stores sp a l).msixEn = b.msixEn := rfl
@[simp] theorem Block.stores_msixMask (sp : Space) (a : Nat) (l : List Byte) : (b.stores sp a l).msixMask = b.msixMask := rfl
@[simp] theorem Block.stores_crzEvt (sp : Space) (a : Nat) (l : List Byte) : (b.stores sp a l).crzEvt = b.crzEvt := rfl
@[simp] theorem Block.stores_fifo (sp : Space) (a : Nat) (l : List Byte) : (b.stores sp a l).fifo = b.fifo := rfl
@[simp] theorem Block.stores_marker (sp : Space) (a : Nat) (l : List Byte) : (b.stores sp a l).marker = b.marker := rfl
@[simp] theorem Block.stores_firstLost (sp : Space) (a : Nat) (l : List Byte) : (b.stores sp a l).firstLost = b.firstLost := rfl
@[simp] theorem Block.stores_ridge (sp : Space) (a : Nat) (l : List Byte) : (b.stores sp a l).ridge = b.ridge := rfl
@[simp] theorem Block.stores_tim (sp : Space) (a : Nat) (l : List Byte) : (b.stores sp a l).tim = b.tim := rfl
@[simp] theorem Block.stores_port (sp : Space) (a : Nat) (l : List Byte) : (b.stores sp a l).port = b.port := rfl
@[simp] theorem Block.stores_swc (sp : Space) (a : Nat) (l : List Byte) : (b.stores sp a l).swc = b.swc := rfl
@[simp] theorem Block.stores_pub (sp : Space) (a : Nat) (l : List Byte) : (b.stores sp a l).pub = b.pub := rfl
@[simp] theorem Block.stores_rhz (sp : Space) (a : Nat) (l : List Byte) : (b.stores sp a l).rhz = b.rhz := rfl
@[simp] theorem Block.stores_sor (sp : Space) (a : Nat) (l : List Byte) : (b.stores sp a l).sor = b.sor := rfl
@[simp] theorem Block.stores_crz (sp : Space) (a : Nat) (l : List Byte) : (b.stores sp a l).crz = b.crz := rfl
@[simp] theorem Block.stores_frd (sp : Space) (a : Nat) (l : List Byte) : (b.stores sp a l).frd = b.frd := rfl
@[simp] theorem Block.stores_gin (sp : Space) (a : Nat) (l : List Byte) : (b.stores sp a l).gin = b.gin := rfl
@[simp] theorem Block.stores_acq (sp : Space) (a : Nat) (l : List Byte) : (b.stores sp a l).acq = b.acq := rfl
@[simp] theorem Block.stores_rope (sp : Space) (a : Nat) (l : List Byte) : (b.stores sp a l).rope = b.rope := rfl
@[simp] theorem Block.stores_vin (sp : Space) (a : Nat) (l : List Byte) : (b.stores sp a l).vin = b.vin := rfl
@[simp] theorem Block.stores_hif (sp : Space) (a : Nat) (l : List Byte) : (b.stores sp a l).hif = b.hif := rfl
@[simp] theorem Block.stores_seg (sp : Space) (a : Nat) (l : List Byte) : (b.stores sp a l).seg = b.seg := rfl
@[simp] theorem Block.stores_hostWait (sp : Space) (a : Nat) (l : List Byte) : (b.stores sp a l).hostWait = b.hostWait := rfl
@[simp] theorem Block.stores_nrg (sp : Space) (a : Nat) (l : List Byte) : (b.stores sp a l).nrg = b.nrg := rfl
@[simp] theorem Block.stores_aux (sp : Space) (a : Nat) (l : List Byte) : (b.stores sp a l).aux = b.aux := rfl
@[simp] theorem Block.stores_rst (sp : Space) (a : Nat) (l : List Byte) : (b.stores sp a l).rst = b.rst := rfl
@[simp] theorem Block.stores_img (sp : Space) (a : Nat) (l : List Byte) : (b.stores sp a l).img = b.img := rfl
@[simp] theorem Block.stores_key (sp : Space) (a : Nat) (l : List Byte) : (b.stores sp a l).key = b.key := rfl
@[simp] theorem Block.stores_crn (sp : Space) (a : Nat) (l : List Byte) : (b.stores sp a l).crn = b.crn := rfl
@[simp] theorem Block.stores_rd (sp : Space) (a : Nat) (l : List Byte) (x : Nat) : (b.stores sp a l).rd x = b.rd x := rfl
@[simp] theorem Block.stores_get (sp : Space) (a : Nat) (l : List Byte) (x : Fld) : (b.stores sp a l).get x = b.get x := rfl
@[simp] theorem Block.stores_on (sp : Space) (a : Nat) (l : List Byte) (x : Fld) : (b.stores sp a l).on x = b.on x := rfl
@[simp] theorem Block.storeNat_member (sp : Space) (a n v : Nat) : (b.storeNat sp a n v).member = b.member := rfl
@[simp] theorem Block.storeNat_regs (sp : Space) (a n v : Nat) : (b.storeNat sp a n v).regs = b.regs := rfl
@[simp] theorem Block.storeNat_outs (sp : Space) (a n v : Nat) : (b.storeNat sp a n v).outs = b.outs := rfl
@[simp] theorem Block.storeNat_freeCtr (sp : Space) (a n v : Nat) : (b.storeNat sp a n v).freeCtr = b.freeCtr := rfl
@[simp] theorem Block.storeNat_readData (sp : Space) (a n v : Nat) : (b.storeNat sp a n v).readData = b.readData := rfl
@[simp] theorem Block.storeNat_shadow (sp : Space) (a n v : Nat) : (b.storeNat sp a n v).shadow = b.shadow := rfl
@[simp] theorem Block.storeNat_staging (sp : Space) (a n v : Nat) : (b.storeNat sp a n v).staging = b.staging := rfl
@[simp] theorem Block.storeNat_imgLock (sp : Space) (a n v : Nat) : (b.storeNat sp a n v).imgLock = b.imgLock := rfl
@[simp] theorem Block.storeNat_xtal (sp : Space) (a n v : Nat) : (b.storeNat sp a n v).xtal = b.xtal := rfl
@[simp] theorem Block.storeNat_gates (sp : Space) (a n v : Nat) : (b.storeNat sp a n v).gates = b.gates := rfl
@[simp] theorem Block.storeNat_msixEn (sp : Space) (a n v : Nat) : (b.storeNat sp a n v).msixEn = b.msixEn := rfl
@[simp] theorem Block.storeNat_msixMask (sp : Space) (a n v : Nat) : (b.storeNat sp a n v).msixMask = b.msixMask := rfl
@[simp] theorem Block.storeNat_crzEvt (sp : Space) (a n v : Nat) : (b.storeNat sp a n v).crzEvt = b.crzEvt := rfl
@[simp] theorem Block.storeNat_fifo (sp : Space) (a n v : Nat) : (b.storeNat sp a n v).fifo = b.fifo := rfl
@[simp] theorem Block.storeNat_marker (sp : Space) (a n v : Nat) : (b.storeNat sp a n v).marker = b.marker := rfl
@[simp] theorem Block.storeNat_firstLost (sp : Space) (a n v : Nat) : (b.storeNat sp a n v).firstLost = b.firstLost := rfl
@[simp] theorem Block.storeNat_ridge (sp : Space) (a n v : Nat) : (b.storeNat sp a n v).ridge = b.ridge := rfl
@[simp] theorem Block.storeNat_tim (sp : Space) (a n v : Nat) : (b.storeNat sp a n v).tim = b.tim := rfl
@[simp] theorem Block.storeNat_port (sp : Space) (a n v : Nat) : (b.storeNat sp a n v).port = b.port := rfl
@[simp] theorem Block.storeNat_swc (sp : Space) (a n v : Nat) : (b.storeNat sp a n v).swc = b.swc := rfl
@[simp] theorem Block.storeNat_pub (sp : Space) (a n v : Nat) : (b.storeNat sp a n v).pub = b.pub := rfl
@[simp] theorem Block.storeNat_rhz (sp : Space) (a n v : Nat) : (b.storeNat sp a n v).rhz = b.rhz := rfl
@[simp] theorem Block.storeNat_sor (sp : Space) (a n v : Nat) : (b.storeNat sp a n v).sor = b.sor := rfl
@[simp] theorem Block.storeNat_crz (sp : Space) (a n v : Nat) : (b.storeNat sp a n v).crz = b.crz := rfl
@[simp] theorem Block.storeNat_frd (sp : Space) (a n v : Nat) : (b.storeNat sp a n v).frd = b.frd := rfl
@[simp] theorem Block.storeNat_gin (sp : Space) (a n v : Nat) : (b.storeNat sp a n v).gin = b.gin := rfl
@[simp] theorem Block.storeNat_acq (sp : Space) (a n v : Nat) : (b.storeNat sp a n v).acq = b.acq := rfl
@[simp] theorem Block.storeNat_rope (sp : Space) (a n v : Nat) : (b.storeNat sp a n v).rope = b.rope := rfl
@[simp] theorem Block.storeNat_vin (sp : Space) (a n v : Nat) : (b.storeNat sp a n v).vin = b.vin := rfl
@[simp] theorem Block.storeNat_hif (sp : Space) (a n v : Nat) : (b.storeNat sp a n v).hif = b.hif := rfl
@[simp] theorem Block.storeNat_seg (sp : Space) (a n v : Nat) : (b.storeNat sp a n v).seg = b.seg := rfl
@[simp] theorem Block.storeNat_hostWait (sp : Space) (a n v : Nat) : (b.storeNat sp a n v).hostWait = b.hostWait := rfl
@[simp] theorem Block.storeNat_nrg (sp : Space) (a n v : Nat) : (b.storeNat sp a n v).nrg = b.nrg := rfl
@[simp] theorem Block.storeNat_aux (sp : Space) (a n v : Nat) : (b.storeNat sp a n v).aux = b.aux := rfl
@[simp] theorem Block.storeNat_rst (sp : Space) (a n v : Nat) : (b.storeNat sp a n v).rst = b.rst := rfl
@[simp] theorem Block.storeNat_img (sp : Space) (a n v : Nat) : (b.storeNat sp a n v).img = b.img := rfl
@[simp] theorem Block.storeNat_key (sp : Space) (a n v : Nat) : (b.storeNat sp a n v).key = b.key := rfl
@[simp] theorem Block.storeNat_crn (sp : Space) (a n v : Nat) : (b.storeNat sp a n v).crn = b.crn := rfl
@[simp] theorem Block.storeNat_rd (sp : Space) (a n v : Nat) (x : Nat) : (b.storeNat sp a n v).rd x = b.rd x := rfl
@[simp] theorem Block.storeNat_get (sp : Space) (a n v : Nat) (x : Fld) : (b.storeNat sp a n v).get x = b.get x := rfl
@[simp] theorem Block.storeNat_on (sp : Space) (a n v : Nat) (x : Fld) : (b.storeNat sp a n v).on x = b.on x := rfl
@[simp] theorem Block.modTim_member (f : Tim → Tim) : (b.modTim f).member = b.member := rfl
@[simp] theorem Block.modTim_regs (f : Tim → Tim) : (b.modTim f).regs = b.regs := rfl
@[simp] theorem Block.modTim_mem (f : Tim → Tim) : (b.modTim f).mem = b.mem := rfl
@[simp] theorem Block.modTim_outs (f : Tim → Tim) : (b.modTim f).outs = b.outs := rfl
@[simp] theorem Block.modTim_freeCtr (f : Tim → Tim) : (b.modTim f).freeCtr = b.freeCtr := rfl
@[simp] theorem Block.modTim_readData (f : Tim → Tim) : (b.modTim f).readData = b.readData := rfl
@[simp] theorem Block.modTim_shadow (f : Tim → Tim) : (b.modTim f).shadow = b.shadow := rfl
@[simp] theorem Block.modTim_staging (f : Tim → Tim) : (b.modTim f).staging = b.staging := rfl
@[simp] theorem Block.modTim_imgLock (f : Tim → Tim) : (b.modTim f).imgLock = b.imgLock := rfl
@[simp] theorem Block.modTim_xtal (f : Tim → Tim) : (b.modTim f).xtal = b.xtal := rfl
@[simp] theorem Block.modTim_gates (f : Tim → Tim) : (b.modTim f).gates = b.gates := rfl
@[simp] theorem Block.modTim_msixEn (f : Tim → Tim) : (b.modTim f).msixEn = b.msixEn := rfl
@[simp] theorem Block.modTim_msixMask (f : Tim → Tim) : (b.modTim f).msixMask = b.msixMask := rfl
@[simp] theorem Block.modTim_crzEvt (f : Tim → Tim) : (b.modTim f).crzEvt = b.crzEvt := rfl
@[simp] theorem Block.modTim_fifo (f : Tim → Tim) : (b.modTim f).fifo = b.fifo := rfl
@[simp] theorem Block.modTim_marker (f : Tim → Tim) : (b.modTim f).marker = b.marker := rfl
@[simp] theorem Block.modTim_firstLost (f : Tim → Tim) : (b.modTim f).firstLost = b.firstLost := rfl
@[simp] theorem Block.modTim_ridge (f : Tim → Tim) : (b.modTim f).ridge = b.ridge := rfl
@[simp] theorem Block.modTim_port (f : Tim → Tim) : (b.modTim f).port = b.port := rfl
@[simp] theorem Block.modTim_swc (f : Tim → Tim) : (b.modTim f).swc = b.swc := rfl
@[simp] theorem Block.modTim_pub (f : Tim → Tim) : (b.modTim f).pub = b.pub := rfl
@[simp] theorem Block.modTim_rhz (f : Tim → Tim) : (b.modTim f).rhz = b.rhz := rfl
@[simp] theorem Block.modTim_sor (f : Tim → Tim) : (b.modTim f).sor = b.sor := rfl
@[simp] theorem Block.modTim_crz (f : Tim → Tim) : (b.modTim f).crz = b.crz := rfl
@[simp] theorem Block.modTim_frd (f : Tim → Tim) : (b.modTim f).frd = b.frd := rfl
@[simp] theorem Block.modTim_gin (f : Tim → Tim) : (b.modTim f).gin = b.gin := rfl
@[simp] theorem Block.modTim_acq (f : Tim → Tim) : (b.modTim f).acq = b.acq := rfl
@[simp] theorem Block.modTim_rope (f : Tim → Tim) : (b.modTim f).rope = b.rope := rfl
@[simp] theorem Block.modTim_vin (f : Tim → Tim) : (b.modTim f).vin = b.vin := rfl
@[simp] theorem Block.modTim_hif (f : Tim → Tim) : (b.modTim f).hif = b.hif := rfl
@[simp] theorem Block.modTim_seg (f : Tim → Tim) : (b.modTim f).seg = b.seg := rfl
@[simp] theorem Block.modTim_hostWait (f : Tim → Tim) : (b.modTim f).hostWait = b.hostWait := rfl
@[simp] theorem Block.modTim_nrg (f : Tim → Tim) : (b.modTim f).nrg = b.nrg := rfl
@[simp] theorem Block.modTim_aux (f : Tim → Tim) : (b.modTim f).aux = b.aux := rfl
@[simp] theorem Block.modTim_rst (f : Tim → Tim) : (b.modTim f).rst = b.rst := rfl
@[simp] theorem Block.modTim_img (f : Tim → Tim) : (b.modTim f).img = b.img := rfl
@[simp] theorem Block.modTim_key (f : Tim → Tim) : (b.modTim f).key = b.key := rfl
@[simp] theorem Block.modTim_crn (f : Tim → Tim) : (b.modTim f).crn = b.crn := rfl
@[simp] theorem Block.modTim_rd (f : Tim → Tim) (x : Nat) : (b.modTim f).rd x = b.rd x := rfl
@[simp] theorem Block.modTim_get (f : Tim → Tim) (x : Fld) : (b.modTim f).get x = b.get x := rfl
@[simp] theorem Block.modTim_on (f : Tim → Tim) (x : Fld) : (b.modTim f).on x = b.on x := rfl
@[simp] theorem Block.modTim_byte (f : Tim → Tim) (sp' : Space) (x : Nat) : (b.modTim f).byte sp' x = b.byte sp' x := rfl
@[simp] theorem Block.modTim_tim (f : Tim → Tim) : (b.modTim f).tim = f b.tim := rfl
@[simp] theorem Block.modSwc_member (f : Swc → Swc) : (b.modSwc f).member = b.member := rfl
@[simp] theorem Block.modSwc_regs (f : Swc → Swc) : (b.modSwc f).regs = b.regs := rfl
@[simp] theorem Block.modSwc_mem (f : Swc → Swc) : (b.modSwc f).mem = b.mem := rfl
@[simp] theorem Block.modSwc_outs (f : Swc → Swc) : (b.modSwc f).outs = b.outs := rfl
@[simp] theorem Block.modSwc_freeCtr (f : Swc → Swc) : (b.modSwc f).freeCtr = b.freeCtr := rfl
@[simp] theorem Block.modSwc_readData (f : Swc → Swc) : (b.modSwc f).readData = b.readData := rfl
@[simp] theorem Block.modSwc_shadow (f : Swc → Swc) : (b.modSwc f).shadow = b.shadow := rfl
@[simp] theorem Block.modSwc_staging (f : Swc → Swc) : (b.modSwc f).staging = b.staging := rfl
@[simp] theorem Block.modSwc_imgLock (f : Swc → Swc) : (b.modSwc f).imgLock = b.imgLock := rfl
@[simp] theorem Block.modSwc_xtal (f : Swc → Swc) : (b.modSwc f).xtal = b.xtal := rfl
@[simp] theorem Block.modSwc_gates (f : Swc → Swc) : (b.modSwc f).gates = b.gates := rfl
@[simp] theorem Block.modSwc_msixEn (f : Swc → Swc) : (b.modSwc f).msixEn = b.msixEn := rfl
@[simp] theorem Block.modSwc_msixMask (f : Swc → Swc) : (b.modSwc f).msixMask = b.msixMask := rfl
@[simp] theorem Block.modSwc_crzEvt (f : Swc → Swc) : (b.modSwc f).crzEvt = b.crzEvt := rfl
@[simp] theorem Block.modSwc_fifo (f : Swc → Swc) : (b.modSwc f).fifo = b.fifo := rfl
@[simp] theorem Block.modSwc_marker (f : Swc → Swc) : (b.modSwc f).marker = b.marker := rfl
@[simp] theorem Block.modSwc_firstLost (f : Swc → Swc) : (b.modSwc f).firstLost = b.firstLost := rfl
@[simp] theorem Block.modSwc_ridge (f : Swc → Swc) : (b.modSwc f).ridge = b.ridge := rfl
@[simp] theorem Block.modSwc_tim (f : Swc → Swc) : (b.modSwc f).tim = b.tim := rfl
@[simp] theorem Block.modSwc_port (f : Swc → Swc) : (b.modSwc f).port = b.port := rfl
@[simp] theorem Block.modSwc_pub (f : Swc → Swc) : (b.modSwc f).pub = b.pub := rfl
@[simp] theorem Block.modSwc_rhz (f : Swc → Swc) : (b.modSwc f).rhz = b.rhz := rfl
@[simp] theorem Block.modSwc_sor (f : Swc → Swc) : (b.modSwc f).sor = b.sor := rfl
@[simp] theorem Block.modSwc_crz (f : Swc → Swc) : (b.modSwc f).crz = b.crz := rfl
@[simp] theorem Block.modSwc_frd (f : Swc → Swc) : (b.modSwc f).frd = b.frd := rfl
@[simp] theorem Block.modSwc_gin (f : Swc → Swc) : (b.modSwc f).gin = b.gin := rfl
@[simp] theorem Block.modSwc_acq (f : Swc → Swc) : (b.modSwc f).acq = b.acq := rfl
@[simp] theorem Block.modSwc_rope (f : Swc → Swc) : (b.modSwc f).rope = b.rope := rfl
@[simp] theorem Block.modSwc_vin (f : Swc → Swc) : (b.modSwc f).vin = b.vin := rfl
@[simp] theorem Block.modSwc_hif (f : Swc → Swc) : (b.modSwc f).hif = b.hif := rfl
@[simp] theorem Block.modSwc_seg (f : Swc → Swc) : (b.modSwc f).seg = b.seg := rfl
@[simp] theorem Block.modSwc_hostWait (f : Swc → Swc) : (b.modSwc f).hostWait = b.hostWait := rfl
@[simp] theorem Block.modSwc_nrg (f : Swc → Swc) : (b.modSwc f).nrg = b.nrg := rfl
@[simp] theorem Block.modSwc_aux (f : Swc → Swc) : (b.modSwc f).aux = b.aux := rfl
@[simp] theorem Block.modSwc_rst (f : Swc → Swc) : (b.modSwc f).rst = b.rst := rfl
@[simp] theorem Block.modSwc_img (f : Swc → Swc) : (b.modSwc f).img = b.img := rfl
@[simp] theorem Block.modSwc_key (f : Swc → Swc) : (b.modSwc f).key = b.key := rfl
@[simp] theorem Block.modSwc_crn (f : Swc → Swc) : (b.modSwc f).crn = b.crn := rfl
@[simp] theorem Block.modSwc_rd (f : Swc → Swc) (x : Nat) : (b.modSwc f).rd x = b.rd x := rfl
@[simp] theorem Block.modSwc_get (f : Swc → Swc) (x : Fld) : (b.modSwc f).get x = b.get x := rfl
@[simp] theorem Block.modSwc_on (f : Swc → Swc) (x : Fld) : (b.modSwc f).on x = b.on x := rfl
@[simp] theorem Block.modSwc_byte (f : Swc → Swc) (sp' : Space) (x : Nat) : (b.modSwc f).byte sp' x = b.byte sp' x := rfl
@[simp] theorem Block.modSwc_swc (f : Swc → Swc) : (b.modSwc f).swc = f b.swc := rfl
@[simp] theorem Block.modNrg_member (f : Nrg → Nrg) : (b.modNrg f).member = b.member := rfl
@[simp] theorem Block.modNrg_regs (f : Nrg → Nrg) : (b.modNrg f).regs = b.regs := rfl
@[simp] theorem Block.modNrg_mem (f : Nrg → Nrg) : (b.modNrg f).mem = b.mem := rfl
@[simp] theorem Block.modNrg_outs (f : Nrg → Nrg) : (b.modNrg f).outs = b.outs := rfl
@[simp] theorem Block.modNrg_freeCtr (f : Nrg → Nrg) : (b.modNrg f).freeCtr = b.freeCtr := rfl
@[simp] theorem Block.modNrg_readData (f : Nrg → Nrg) : (b.modNrg f).readData = b.readData := rfl
@[simp] theorem Block.modNrg_shadow (f : Nrg → Nrg) : (b.modNrg f).shadow = b.shadow := rfl
@[simp] theorem Block.modNrg_staging (f : Nrg → Nrg) : (b.modNrg f).staging = b.staging := rfl
@[simp] theorem Block.modNrg_imgLock (f : Nrg → Nrg) : (b.modNrg f).imgLock = b.imgLock := rfl
@[simp] theorem Block.modNrg_xtal (f : Nrg → Nrg) : (b.modNrg f).xtal = b.xtal := rfl
@[simp] theorem Block.modNrg_gates (f : Nrg → Nrg) : (b.modNrg f).gates = b.gates := rfl
@[simp] theorem Block.modNrg_msixEn (f : Nrg → Nrg) : (b.modNrg f).msixEn = b.msixEn := rfl
@[simp] theorem Block.modNrg_msixMask (f : Nrg → Nrg) : (b.modNrg f).msixMask = b.msixMask := rfl
@[simp] theorem Block.modNrg_crzEvt (f : Nrg → Nrg) : (b.modNrg f).crzEvt = b.crzEvt := rfl
@[simp] theorem Block.modNrg_fifo (f : Nrg → Nrg) : (b.modNrg f).fifo = b.fifo := rfl
@[simp] theorem Block.modNrg_marker (f : Nrg → Nrg) : (b.modNrg f).marker = b.marker := rfl
@[simp] theorem Block.modNrg_firstLost (f : Nrg → Nrg) : (b.modNrg f).firstLost = b.firstLost := rfl
@[simp] theorem Block.modNrg_ridge (f : Nrg → Nrg) : (b.modNrg f).ridge = b.ridge := rfl
@[simp] theorem Block.modNrg_tim (f : Nrg → Nrg) : (b.modNrg f).tim = b.tim := rfl
@[simp] theorem Block.modNrg_port (f : Nrg → Nrg) : (b.modNrg f).port = b.port := rfl
@[simp] theorem Block.modNrg_swc (f : Nrg → Nrg) : (b.modNrg f).swc = b.swc := rfl
@[simp] theorem Block.modNrg_pub (f : Nrg → Nrg) : (b.modNrg f).pub = b.pub := rfl
@[simp] theorem Block.modNrg_rhz (f : Nrg → Nrg) : (b.modNrg f).rhz = b.rhz := rfl
@[simp] theorem Block.modNrg_sor (f : Nrg → Nrg) : (b.modNrg f).sor = b.sor := rfl
@[simp] theorem Block.modNrg_crz (f : Nrg → Nrg) : (b.modNrg f).crz = b.crz := rfl
@[simp] theorem Block.modNrg_frd (f : Nrg → Nrg) : (b.modNrg f).frd = b.frd := rfl
@[simp] theorem Block.modNrg_gin (f : Nrg → Nrg) : (b.modNrg f).gin = b.gin := rfl
@[simp] theorem Block.modNrg_acq (f : Nrg → Nrg) : (b.modNrg f).acq = b.acq := rfl
@[simp] theorem Block.modNrg_rope (f : Nrg → Nrg) : (b.modNrg f).rope = b.rope := rfl
@[simp] theorem Block.modNrg_vin (f : Nrg → Nrg) : (b.modNrg f).vin = b.vin := rfl
@[simp] theorem Block.modNrg_hif (f : Nrg → Nrg) : (b.modNrg f).hif = b.hif := rfl
@[simp] theorem Block.modNrg_seg (f : Nrg → Nrg) : (b.modNrg f).seg = b.seg := rfl
@[simp] theorem Block.modNrg_hostWait (f : Nrg → Nrg) : (b.modNrg f).hostWait = b.hostWait := rfl
@[simp] theorem Block.modNrg_aux (f : Nrg → Nrg) : (b.modNrg f).aux = b.aux := rfl
@[simp] theorem Block.modNrg_rst (f : Nrg → Nrg) : (b.modNrg f).rst = b.rst := rfl
@[simp] theorem Block.modNrg_img (f : Nrg → Nrg) : (b.modNrg f).img = b.img := rfl
@[simp] theorem Block.modNrg_key (f : Nrg → Nrg) : (b.modNrg f).key = b.key := rfl
@[simp] theorem Block.modNrg_crn (f : Nrg → Nrg) : (b.modNrg f).crn = b.crn := rfl
@[simp] theorem Block.modNrg_rd (f : Nrg → Nrg) (x : Nat) : (b.modNrg f).rd x = b.rd x := rfl
@[simp] theorem Block.modNrg_get (f : Nrg → Nrg) (x : Fld) : (b.modNrg f).get x = b.get x := rfl
@[simp] theorem Block.modNrg_on (f : Nrg → Nrg) (x : Fld) : (b.modNrg f).on x = b.on x := rfl
@[simp] theorem Block.modNrg_byte (f : Nrg → Nrg) (sp' : Space) (x : Nat) : (b.modNrg f).byte sp' x = b.byte sp' x := rfl
@[simp] theorem Block.modNrg_nrg (f : Nrg → Nrg) : (b.modNrg f).nrg = f b.nrg := rfl
@[simp] theorem Block.modRst_member (f : Rst → Rst) : (b.modRst f).member = b.member := rfl
@[simp] theorem Block.modRst_regs (f : Rst → Rst) : (b.modRst f).regs = b.regs := rfl
@[simp] theorem Block.modRst_mem (f : Rst → Rst) : (b.modRst f).mem = b.mem := rfl
@[simp] theorem Block.modRst_outs (f : Rst → Rst) : (b.modRst f).outs = b.outs := rfl
@[simp] theorem Block.modRst_freeCtr (f : Rst → Rst) : (b.modRst f).freeCtr = b.freeCtr := rfl
@[simp] theorem Block.modRst_readData (f : Rst → Rst) : (b.modRst f).readData = b.readData := rfl
@[simp] theorem Block.modRst_shadow (f : Rst → Rst) : (b.modRst f).shadow = b.shadow := rfl
@[simp] theorem Block.modRst_staging (f : Rst → Rst) : (b.modRst f).staging = b.staging := rfl
@[simp] theorem Block.modRst_imgLock (f : Rst → Rst) : (b.modRst f).imgLock = b.imgLock := rfl
@[simp] theorem Block.modRst_xtal (f : Rst → Rst) : (b.modRst f).xtal = b.xtal := rfl
@[simp] theorem Block.modRst_gates (f : Rst → Rst) : (b.modRst f).gates = b.gates := rfl
@[simp] theorem Block.modRst_msixEn (f : Rst → Rst) : (b.modRst f).msixEn = b.msixEn := rfl
@[simp] theorem Block.modRst_msixMask (f : Rst → Rst) : (b.modRst f).msixMask = b.msixMask := rfl
@[simp] theorem Block.modRst_crzEvt (f : Rst → Rst) : (b.modRst f).crzEvt = b.crzEvt := rfl
@[simp] theorem Block.modRst_fifo (f : Rst → Rst) : (b.modRst f).fifo = b.fifo := rfl
@[simp] theorem Block.modRst_marker (f : Rst → Rst) : (b.modRst f).marker = b.marker := rfl
@[simp] theorem Block.modRst_firstLost (f : Rst → Rst) : (b.modRst f).firstLost = b.firstLost := rfl
@[simp] theorem Block.modRst_ridge (f : Rst → Rst) : (b.modRst f).ridge = b.ridge := rfl
@[simp] theorem Block.modRst_tim (f : Rst → Rst) : (b.modRst f).tim = b.tim := rfl
@[simp] theorem Block.modRst_port (f : Rst → Rst) : (b.modRst f).port = b.port := rfl
@[simp] theorem Block.modRst_swc (f : Rst → Rst) : (b.modRst f).swc = b.swc := rfl
@[simp] theorem Block.modRst_pub (f : Rst → Rst) : (b.modRst f).pub = b.pub := rfl
@[simp] theorem Block.modRst_rhz (f : Rst → Rst) : (b.modRst f).rhz = b.rhz := rfl
@[simp] theorem Block.modRst_sor (f : Rst → Rst) : (b.modRst f).sor = b.sor := rfl
@[simp] theorem Block.modRst_crz (f : Rst → Rst) : (b.modRst f).crz = b.crz := rfl
@[simp] theorem Block.modRst_frd (f : Rst → Rst) : (b.modRst f).frd = b.frd := rfl
@[simp] theorem Block.modRst_gin (f : Rst → Rst) : (b.modRst f).gin = b.gin := rfl
@[simp] theorem Block.modRst_acq (f : Rst → Rst) : (b.modRst f).acq = b.acq := rfl
@[simp] theorem Block.modRst_rope (f : Rst → Rst) : (b.modRst f).rope = b.rope := rfl
@[simp] theorem Block.modRst_vin (f : Rst → Rst) : (b.modRst f).vin = b.vin := rfl
@[simp] theorem Block.modRst_hif (f : Rst → Rst) : (b.modRst f).hif = b.hif := rfl
@[simp] theorem Block.modRst_seg (f : Rst → Rst) : (b.modRst f).seg = b.seg := rfl
@[simp] theorem Block.modRst_hostWait (f : Rst → Rst) : (b.modRst f).hostWait = b.hostWait := rfl
@[simp] theorem Block.modRst_nrg (f : Rst → Rst) : (b.modRst f).nrg = b.nrg := rfl
@[simp] theorem Block.modRst_aux (f : Rst → Rst) : (b.modRst f).aux = b.aux := rfl
@[simp] theorem Block.modRst_img (f : Rst → Rst) : (b.modRst f).img = b.img := rfl
@[simp] theorem Block.modRst_key (f : Rst → Rst) : (b.modRst f).key = b.key := rfl
@[simp] theorem Block.modRst_crn (f : Rst → Rst) : (b.modRst f).crn = b.crn := rfl
@[simp] theorem Block.modRst_rd (f : Rst → Rst) (x : Nat) : (b.modRst f).rd x = b.rd x := rfl
@[simp] theorem Block.modRst_get (f : Rst → Rst) (x : Fld) : (b.modRst f).get x = b.get x := rfl
@[simp] theorem Block.modRst_on (f : Rst → Rst) (x : Fld) : (b.modRst f).on x = b.on x := rfl
@[simp] theorem Block.modRst_byte (f : Rst → Rst) (sp' : Space) (x : Nat) : (b.modRst f).byte sp' x = b.byte sp' x := rfl
@[simp] theorem Block.modRst_rst (f : Rst → Rst) : (b.modRst f).rst = f b.rst := rfl
@[simp] theorem Block.modImg_member (f : Img → Img) : (b.modImg f).member = b.member := rfl
@[simp] theorem Block.modImg_regs (f : Img → Img) : (b.modImg f).regs = b.regs := rfl
@[simp] theorem Block.modImg_mem (f : Img → Img) : (b.modImg f).mem = b.mem := rfl
@[simp] theorem Block.modImg_outs (f : Img → Img) : (b.modImg f).outs = b.outs := rfl
@[simp] theorem Block.modImg_freeCtr (f : Img → Img) : (b.modImg f).freeCtr = b.freeCtr := rfl
@[simp] theorem Block.modImg_readData (f : Img → Img) : (b.modImg f).readData = b.readData := rfl
@[simp] theorem Block.modImg_shadow (f : Img → Img) : (b.modImg f).shadow = b.shadow := rfl
@[simp] theorem Block.modImg_staging (f : Img → Img) : (b.modImg f).staging = b.staging := rfl
@[simp] theorem Block.modImg_imgLock (f : Img → Img) : (b.modImg f).imgLock = b.imgLock := rfl
@[simp] theorem Block.modImg_xtal (f : Img → Img) : (b.modImg f).xtal = b.xtal := rfl
@[simp] theorem Block.modImg_gates (f : Img → Img) : (b.modImg f).gates = b.gates := rfl
@[simp] theorem Block.modImg_msixEn (f : Img → Img) : (b.modImg f).msixEn = b.msixEn := rfl
@[simp] theorem Block.modImg_msixMask (f : Img → Img) : (b.modImg f).msixMask = b.msixMask := rfl
@[simp] theorem Block.modImg_crzEvt (f : Img → Img) : (b.modImg f).crzEvt = b.crzEvt := rfl
@[simp] theorem Block.modImg_fifo (f : Img → Img) : (b.modImg f).fifo = b.fifo := rfl
@[simp] theorem Block.modImg_marker (f : Img → Img) : (b.modImg f).marker = b.marker := rfl
@[simp] theorem Block.modImg_firstLost (f : Img → Img) : (b.modImg f).firstLost = b.firstLost := rfl
@[simp] theorem Block.modImg_ridge (f : Img → Img) : (b.modImg f).ridge = b.ridge := rfl
@[simp] theorem Block.modImg_tim (f : Img → Img) : (b.modImg f).tim = b.tim := rfl
@[simp] theorem Block.modImg_port (f : Img → Img) : (b.modImg f).port = b.port := rfl
@[simp] theorem Block.modImg_swc (f : Img → Img) : (b.modImg f).swc = b.swc := rfl
@[simp] theorem Block.modImg_pub (f : Img → Img) : (b.modImg f).pub = b.pub := rfl
@[simp] theorem Block.modImg_rhz (f : Img → Img) : (b.modImg f).rhz = b.rhz := rfl
@[simp] theorem Block.modImg_sor (f : Img → Img) : (b.modImg f).sor = b.sor := rfl
@[simp] theorem Block.modImg_crz (f : Img → Img) : (b.modImg f).crz = b.crz := rfl
@[simp] theorem Block.modImg_frd (f : Img → Img) : (b.modImg f).frd = b.frd := rfl
@[simp] theorem Block.modImg_gin (f : Img → Img) : (b.modImg f).gin = b.gin := rfl
@[simp] theorem Block.modImg_acq (f : Img → Img) : (b.modImg f).acq = b.acq := rfl
@[simp] theorem Block.modImg_rope (f : Img → Img) : (b.modImg f).rope = b.rope := rfl
@[simp] theorem Block.modImg_vin (f : Img → Img) : (b.modImg f).vin = b.vin := rfl
@[simp] theorem Block.modImg_hif (f : Img → Img) : (b.modImg f).hif = b.hif := rfl
@[simp] theorem Block.modImg_seg (f : Img → Img) : (b.modImg f).seg = b.seg := rfl
@[simp] theorem Block.modImg_hostWait (f : Img → Img) : (b.modImg f).hostWait = b.hostWait := rfl
@[simp] theorem Block.modImg_nrg (f : Img → Img) : (b.modImg f).nrg = b.nrg := rfl
@[simp] theorem Block.modImg_aux (f : Img → Img) : (b.modImg f).aux = b.aux := rfl
@[simp] theorem Block.modImg_rst (f : Img → Img) : (b.modImg f).rst = b.rst := rfl
@[simp] theorem Block.modImg_key (f : Img → Img) : (b.modImg f).key = b.key := rfl
@[simp] theorem Block.modImg_crn (f : Img → Img) : (b.modImg f).crn = b.crn := rfl
@[simp] theorem Block.modImg_rd (f : Img → Img) (x : Nat) : (b.modImg f).rd x = b.rd x := rfl
@[simp] theorem Block.modImg_get (f : Img → Img) (x : Fld) : (b.modImg f).get x = b.get x := rfl
@[simp] theorem Block.modImg_on (f : Img → Img) (x : Fld) : (b.modImg f).on x = b.on x := rfl
@[simp] theorem Block.modImg_byte (f : Img → Img) (sp' : Space) (x : Nat) : (b.modImg f).byte sp' x = b.byte sp' x := rfl
@[simp] theorem Block.modImg_img (f : Img → Img) : (b.modImg f).img = f b.img := rfl
@[simp] theorem Block.modCrz_member (f : Crz → Crz) : (b.modCrz f).member = b.member := rfl
@[simp] theorem Block.modCrz_regs (f : Crz → Crz) : (b.modCrz f).regs = b.regs := rfl
@[simp] theorem Block.modCrz_mem (f : Crz → Crz) : (b.modCrz f).mem = b.mem := rfl
@[simp] theorem Block.modCrz_outs (f : Crz → Crz) : (b.modCrz f).outs = b.outs := rfl
@[simp] theorem Block.modCrz_freeCtr (f : Crz → Crz) : (b.modCrz f).freeCtr = b.freeCtr := rfl
@[simp] theorem Block.modCrz_readData (f : Crz → Crz) : (b.modCrz f).readData = b.readData := rfl
@[simp] theorem Block.modCrz_shadow (f : Crz → Crz) : (b.modCrz f).shadow = b.shadow := rfl
@[simp] theorem Block.modCrz_staging (f : Crz → Crz) : (b.modCrz f).staging = b.staging := rfl
@[simp] theorem Block.modCrz_imgLock (f : Crz → Crz) : (b.modCrz f).imgLock = b.imgLock := rfl
@[simp] theorem Block.modCrz_xtal (f : Crz → Crz) : (b.modCrz f).xtal = b.xtal := rfl
@[simp] theorem Block.modCrz_gates (f : Crz → Crz) : (b.modCrz f).gates = b.gates := rfl
@[simp] theorem Block.modCrz_msixEn (f : Crz → Crz) : (b.modCrz f).msixEn = b.msixEn := rfl
@[simp] theorem Block.modCrz_msixMask (f : Crz → Crz) : (b.modCrz f).msixMask = b.msixMask := rfl
@[simp] theorem Block.modCrz_crzEvt (f : Crz → Crz) : (b.modCrz f).crzEvt = b.crzEvt := rfl
@[simp] theorem Block.modCrz_fifo (f : Crz → Crz) : (b.modCrz f).fifo = b.fifo := rfl
@[simp] theorem Block.modCrz_marker (f : Crz → Crz) : (b.modCrz f).marker = b.marker := rfl
@[simp] theorem Block.modCrz_firstLost (f : Crz → Crz) : (b.modCrz f).firstLost = b.firstLost := rfl
@[simp] theorem Block.modCrz_ridge (f : Crz → Crz) : (b.modCrz f).ridge = b.ridge := rfl
@[simp] theorem Block.modCrz_tim (f : Crz → Crz) : (b.modCrz f).tim = b.tim := rfl
@[simp] theorem Block.modCrz_port (f : Crz → Crz) : (b.modCrz f).port = b.port := rfl
@[simp] theorem Block.modCrz_swc (f : Crz → Crz) : (b.modCrz f).swc = b.swc := rfl
@[simp] theorem Block.modCrz_pub (f : Crz → Crz) : (b.modCrz f).pub = b.pub := rfl
@[simp] theorem Block.modCrz_rhz (f : Crz → Crz) : (b.modCrz f).rhz = b.rhz := rfl
@[simp] theorem Block.modCrz_sor (f : Crz → Crz) : (b.modCrz f).sor = b.sor := rfl
@[simp] theorem Block.modCrz_frd (f : Crz → Crz) : (b.modCrz f).frd = b.frd := rfl
@[simp] theorem Block.modCrz_gin (f : Crz → Crz) : (b.modCrz f).gin = b.gin := rfl
@[simp] theorem Block.modCrz_acq (f : Crz → Crz) : (b.modCrz f).acq = b.acq := rfl
@[simp] theorem Block.modCrz_rope (f : Crz → Crz) : (b.modCrz f).rope = b.rope := rfl
@[simp] theorem Block.modCrz_vin (f : Crz → Crz) : (b.modCrz f).vin = b.vin := rfl
@[simp] theorem Block.modCrz_hif (f : Crz → Crz) : (b.modCrz f).hif = b.hif := rfl
@[simp] theorem Block.modCrz_seg (f : Crz → Crz) : (b.modCrz f).seg = b.seg := rfl
@[simp] theorem Block.modCrz_hostWait (f : Crz → Crz) : (b.modCrz f).hostWait = b.hostWait := rfl
@[simp] theorem Block.modCrz_nrg (f : Crz → Crz) : (b.modCrz f).nrg = b.nrg := rfl
@[simp] theorem Block.modCrz_aux (f : Crz → Crz) : (b.modCrz f).aux = b.aux := rfl
@[simp] theorem Block.modCrz_rst (f : Crz → Crz) : (b.modCrz f).rst = b.rst := rfl
@[simp] theorem Block.modCrz_img (f : Crz → Crz) : (b.modCrz f).img = b.img := rfl
@[simp] theorem Block.modCrz_key (f : Crz → Crz) : (b.modCrz f).key = b.key := rfl
@[simp] theorem Block.modCrz_crn (f : Crz → Crz) : (b.modCrz f).crn = b.crn := rfl
@[simp] theorem Block.modCrz_rd (f : Crz → Crz) (x : Nat) : (b.modCrz f).rd x = b.rd x := rfl
@[simp] theorem Block.modCrz_get (f : Crz → Crz) (x : Fld) : (b.modCrz f).get x = b.get x := rfl
@[simp] theorem Block.modCrz_on (f : Crz → Crz) (x : Fld) : (b.modCrz f).on x = b.on x := rfl
@[simp] theorem Block.modCrz_byte (f : Crz → Crz) (sp' : Space) (x : Nat) : (b.modCrz f).byte sp' x = b.byte sp' x := rfl
@[simp] theorem Block.modCrz_crz (f : Crz → Crz) : (b.modCrz f).crz = f b.crz := rfl
@[simp] theorem Block.modHif_member (f : Hif → Hif) : (b.modHif f).member = b.member := rfl
@[simp] theorem Block.modHif_regs (f : Hif → Hif) : (b.modHif f).regs = b.regs := rfl
@[simp] theorem Block.modHif_mem (f : Hif → Hif) : (b.modHif f).mem = b.mem := rfl
@[simp] theorem Block.modHif_outs (f : Hif → Hif) : (b.modHif f).outs = b.outs := rfl
@[simp] theorem Block.modHif_freeCtr (f : Hif → Hif) : (b.modHif f).freeCtr = b.freeCtr := rfl
@[simp] theorem Block.modHif_readData (f : Hif → Hif) : (b.modHif f).readData = b.readData := rfl
@[simp] theorem Block.modHif_shadow (f : Hif → Hif) : (b.modHif f).shadow = b.shadow := rfl
@[simp] theorem Block.modHif_staging (f : Hif → Hif) : (b.modHif f).staging = b.staging := rfl
@[simp] theorem Block.modHif_imgLock (f : Hif → Hif) : (b.modHif f).imgLock = b.imgLock := rfl
@[simp] theorem Block.modHif_xtal (f : Hif → Hif) : (b.modHif f).xtal = b.xtal := rfl
@[simp] theorem Block.modHif_gates (f : Hif → Hif) : (b.modHif f).gates = b.gates := rfl
@[simp] theorem Block.modHif_msixEn (f : Hif → Hif) : (b.modHif f).msixEn = b.msixEn := rfl
@[simp] theorem Block.modHif_msixMask (f : Hif → Hif) : (b.modHif f).msixMask = b.msixMask := rfl
@[simp] theorem Block.modHif_crzEvt (f : Hif → Hif) : (b.modHif f).crzEvt = b.crzEvt := rfl
@[simp] theorem Block.modHif_fifo (f : Hif → Hif) : (b.modHif f).fifo = b.fifo := rfl
@[simp] theorem Block.modHif_marker (f : Hif → Hif) : (b.modHif f).marker = b.marker := rfl
@[simp] theorem Block.modHif_firstLost (f : Hif → Hif) : (b.modHif f).firstLost = b.firstLost := rfl
@[simp] theorem Block.modHif_ridge (f : Hif → Hif) : (b.modHif f).ridge = b.ridge := rfl
@[simp] theorem Block.modHif_tim (f : Hif → Hif) : (b.modHif f).tim = b.tim := rfl
@[simp] theorem Block.modHif_port (f : Hif → Hif) : (b.modHif f).port = b.port := rfl
@[simp] theorem Block.modHif_swc (f : Hif → Hif) : (b.modHif f).swc = b.swc := rfl
@[simp] theorem Block.modHif_pub (f : Hif → Hif) : (b.modHif f).pub = b.pub := rfl
@[simp] theorem Block.modHif_rhz (f : Hif → Hif) : (b.modHif f).rhz = b.rhz := rfl
@[simp] theorem Block.modHif_sor (f : Hif → Hif) : (b.modHif f).sor = b.sor := rfl
@[simp] theorem Block.modHif_crz (f : Hif → Hif) : (b.modHif f).crz = b.crz := rfl
@[simp] theorem Block.modHif_frd (f : Hif → Hif) : (b.modHif f).frd = b.frd := rfl
@[simp] theorem Block.modHif_gin (f : Hif → Hif) : (b.modHif f).gin = b.gin := rfl
@[simp] theorem Block.modHif_acq (f : Hif → Hif) : (b.modHif f).acq = b.acq := rfl
@[simp] theorem Block.modHif_rope (f : Hif → Hif) : (b.modHif f).rope = b.rope := rfl
@[simp] theorem Block.modHif_vin (f : Hif → Hif) : (b.modHif f).vin = b.vin := rfl
@[simp] theorem Block.modHif_seg (f : Hif → Hif) : (b.modHif f).seg = b.seg := rfl
@[simp] theorem Block.modHif_hostWait (f : Hif → Hif) : (b.modHif f).hostWait = b.hostWait := rfl
@[simp] theorem Block.modHif_nrg (f : Hif → Hif) : (b.modHif f).nrg = b.nrg := rfl
@[simp] theorem Block.modHif_aux (f : Hif → Hif) : (b.modHif f).aux = b.aux := rfl
@[simp] theorem Block.modHif_rst (f : Hif → Hif) : (b.modHif f).rst = b.rst := rfl
@[simp] theorem Block.modHif_img (f : Hif → Hif) : (b.modHif f).img = b.img := rfl
@[simp] theorem Block.modHif_key (f : Hif → Hif) : (b.modHif f).key = b.key := rfl
@[simp] theorem Block.modHif_crn (f : Hif → Hif) : (b.modHif f).crn = b.crn := rfl
@[simp] theorem Block.modHif_rd (f : Hif → Hif) (x : Nat) : (b.modHif f).rd x = b.rd x := rfl
@[simp] theorem Block.modHif_get (f : Hif → Hif) (x : Fld) : (b.modHif f).get x = b.get x := rfl
@[simp] theorem Block.modHif_on (f : Hif → Hif) (x : Fld) : (b.modHif f).on x = b.on x := rfl
@[simp] theorem Block.modHif_byte (f : Hif → Hif) (sp' : Space) (x : Nat) : (b.modHif f).byte sp' x = b.byte sp' x := rfl
@[simp] theorem Block.modHif_hif (f : Hif → Hif) : (b.modHif f).hif = f b.hif := rfl
@[simp] theorem Block.modVin_member (f : Vin → Vin) : (b.modVin f).member = b.member := rfl
@[simp] theorem Block.modVin_regs (f : Vin → Vin) : (b.modVin f).regs = b.regs := rfl
@[simp] theorem Block.modVin_mem (f : Vin → Vin) : (b.modVin f).mem = b.mem := rfl
@[simp] theorem Block.modVin_outs (f : Vin → Vin) : (b.modVin f).outs = b.outs := rfl
@[simp] theorem Block.modVin_freeCtr (f : Vin → Vin) : (b.modVin f).freeCtr = b.freeCtr := rfl
@[simp] theorem Block.modVin_readData (f : Vin → Vin) : (b.modVin f).readData = b.readData := rfl
@[simp] theorem Block.modVin_shadow (f : Vin → Vin) : (b.modVin f).shadow = b.shadow := rfl
@[simp] theorem Block.modVin_staging (f : Vin → Vin) : (b.modVin f).staging = b.staging := rfl
@[simp] theorem Block.modVin_imgLock (f : Vin → Vin) : (b.modVin f).imgLock = b.imgLock := rfl
@[simp] theorem Block.modVin_xtal (f : Vin → Vin) : (b.modVin f).xtal = b.xtal := rfl
@[simp] theorem Block.modVin_gates (f : Vin → Vin) : (b.modVin f).gates = b.gates := rfl
@[simp] theorem Block.modVin_msixEn (f : Vin → Vin) : (b.modVin f).msixEn = b.msixEn := rfl
@[simp] theorem Block.modVin_msixMask (f : Vin → Vin) : (b.modVin f).msixMask = b.msixMask := rfl
@[simp] theorem Block.modVin_crzEvt (f : Vin → Vin) : (b.modVin f).crzEvt = b.crzEvt := rfl
@[simp] theorem Block.modVin_fifo (f : Vin → Vin) : (b.modVin f).fifo = b.fifo := rfl
@[simp] theorem Block.modVin_marker (f : Vin → Vin) : (b.modVin f).marker = b.marker := rfl
@[simp] theorem Block.modVin_firstLost (f : Vin → Vin) : (b.modVin f).firstLost = b.firstLost := rfl
@[simp] theorem Block.modVin_ridge (f : Vin → Vin) : (b.modVin f).ridge = b.ridge := rfl
@[simp] theorem Block.modVin_tim (f : Vin → Vin) : (b.modVin f).tim = b.tim := rfl
@[simp] theorem Block.modVin_port (f : Vin → Vin) : (b.modVin f).port = b.port := rfl
@[simp] theorem Block.modVin_swc (f : Vin → Vin) : (b.modVin f).swc = b.swc := rfl
@[simp] theorem Block.modVin_pub (f : Vin → Vin) : (b.modVin f).pub = b.pub := rfl
@[simp] theorem Block.modVin_rhz (f : Vin → Vin) : (b.modVin f).rhz = b.rhz := rfl
@[simp] theorem Block.modVin_sor (f : Vin → Vin) : (b.modVin f).sor = b.sor := rfl
@[simp] theorem Block.modVin_crz (f : Vin → Vin) : (b.modVin f).crz = b.crz := rfl
@[simp] theorem Block.modVin_frd (f : Vin → Vin) : (b.modVin f).frd = b.frd := rfl
@[simp] theorem Block.modVin_gin (f : Vin → Vin) : (b.modVin f).gin = b.gin := rfl
@[simp] theorem Block.modVin_acq (f : Vin → Vin) : (b.modVin f).acq = b.acq := rfl
@[simp] theorem Block.modVin_rope (f : Vin → Vin) : (b.modVin f).rope = b.rope := rfl
@[simp] theorem Block.modVin_hif (f : Vin → Vin) : (b.modVin f).hif = b.hif := rfl
@[simp] theorem Block.modVin_seg (f : Vin → Vin) : (b.modVin f).seg = b.seg := rfl
@[simp] theorem Block.modVin_hostWait (f : Vin → Vin) : (b.modVin f).hostWait = b.hostWait := rfl
@[simp] theorem Block.modVin_nrg (f : Vin → Vin) : (b.modVin f).nrg = b.nrg := rfl
@[simp] theorem Block.modVin_aux (f : Vin → Vin) : (b.modVin f).aux = b.aux := rfl
@[simp] theorem Block.modVin_rst (f : Vin → Vin) : (b.modVin f).rst = b.rst := rfl
@[simp] theorem Block.modVin_img (f : Vin → Vin) : (b.modVin f).img = b.img := rfl
@[simp] theorem Block.modVin_key (f : Vin → Vin) : (b.modVin f).key = b.key := rfl
@[simp] theorem Block.modVin_crn (f : Vin → Vin) : (b.modVin f).crn = b.crn := rfl
@[simp] theorem Block.modVin_rd (f : Vin → Vin) (x : Nat) : (b.modVin f).rd x = b.rd x := rfl
@[simp] theorem Block.modVin_get (f : Vin → Vin) (x : Fld) : (b.modVin f).get x = b.get x := rfl
@[simp] theorem Block.modVin_on (f : Vin → Vin) (x : Fld) : (b.modVin f).on x = b.on x := rfl
@[simp] theorem Block.modVin_byte (f : Vin → Vin) (sp' : Space) (x : Nat) : (b.modVin f).byte sp' x = b.byte sp' x := rfl
@[simp] theorem Block.modVin_vin (f : Vin → Vin) : (b.modVin f).vin = f b.vin := rfl
@[simp] theorem Block.modRope_member (f : Rope → Rope) : (b.modRope f).member = b.member := rfl
@[simp] theorem Block.modRope_regs (f : Rope → Rope) : (b.modRope f).regs = b.regs := rfl
@[simp] theorem Block.modRope_mem (f : Rope → Rope) : (b.modRope f).mem = b.mem := rfl
@[simp] theorem Block.modRope_outs (f : Rope → Rope) : (b.modRope f).outs = b.outs := rfl
@[simp] theorem Block.modRope_freeCtr (f : Rope → Rope) : (b.modRope f).freeCtr = b.freeCtr := rfl
@[simp] theorem Block.modRope_readData (f : Rope → Rope) : (b.modRope f).readData = b.readData := rfl
@[simp] theorem Block.modRope_shadow (f : Rope → Rope) : (b.modRope f).shadow = b.shadow := rfl
@[simp] theorem Block.modRope_staging (f : Rope → Rope) : (b.modRope f).staging = b.staging := rfl
@[simp] theorem Block.modRope_imgLock (f : Rope → Rope) : (b.modRope f).imgLock = b.imgLock := rfl
@[simp] theorem Block.modRope_xtal (f : Rope → Rope) : (b.modRope f).xtal = b.xtal := rfl
@[simp] theorem Block.modRope_gates (f : Rope → Rope) : (b.modRope f).gates = b.gates := rfl
@[simp] theorem Block.modRope_msixEn (f : Rope → Rope) : (b.modRope f).msixEn = b.msixEn := rfl
@[simp] theorem Block.modRope_msixMask (f : Rope → Rope) : (b.modRope f).msixMask = b.msixMask := rfl
@[simp] theorem Block.modRope_crzEvt (f : Rope → Rope) : (b.modRope f).crzEvt = b.crzEvt := rfl
@[simp] theorem Block.modRope_fifo (f : Rope → Rope) : (b.modRope f).fifo = b.fifo := rfl
@[simp] theorem Block.modRope_marker (f : Rope → Rope) : (b.modRope f).marker = b.marker := rfl
@[simp] theorem Block.modRope_firstLost (f : Rope → Rope) : (b.modRope f).firstLost = b.firstLost := rfl
@[simp] theorem Block.modRope_ridge (f : Rope → Rope) : (b.modRope f).ridge = b.ridge := rfl
@[simp] theorem Block.modRope_tim (f : Rope → Rope) : (b.modRope f).tim = b.tim := rfl
@[simp] theorem Block.modRope_port (f : Rope → Rope) : (b.modRope f).port = b.port := rfl
@[simp] theorem Block.modRope_swc (f : Rope → Rope) : (b.modRope f).swc = b.swc := rfl
@[simp] theorem Block.modRope_pub (f : Rope → Rope) : (b.modRope f).pub = b.pub := rfl
@[simp] theorem Block.modRope_rhz (f : Rope → Rope) : (b.modRope f).rhz = b.rhz := rfl
@[simp] theorem Block.modRope_sor (f : Rope → Rope) : (b.modRope f).sor = b.sor := rfl
@[simp] theorem Block.modRope_crz (f : Rope → Rope) : (b.modRope f).crz = b.crz := rfl
@[simp] theorem Block.modRope_frd (f : Rope → Rope) : (b.modRope f).frd = b.frd := rfl
@[simp] theorem Block.modRope_gin (f : Rope → Rope) : (b.modRope f).gin = b.gin := rfl
@[simp] theorem Block.modRope_acq (f : Rope → Rope) : (b.modRope f).acq = b.acq := rfl
@[simp] theorem Block.modRope_vin (f : Rope → Rope) : (b.modRope f).vin = b.vin := rfl
@[simp] theorem Block.modRope_hif (f : Rope → Rope) : (b.modRope f).hif = b.hif := rfl
@[simp] theorem Block.modRope_seg (f : Rope → Rope) : (b.modRope f).seg = b.seg := rfl
@[simp] theorem Block.modRope_hostWait (f : Rope → Rope) : (b.modRope f).hostWait = b.hostWait := rfl
@[simp] theorem Block.modRope_nrg (f : Rope → Rope) : (b.modRope f).nrg = b.nrg := rfl
@[simp] theorem Block.modRope_aux (f : Rope → Rope) : (b.modRope f).aux = b.aux := rfl
@[simp] theorem Block.modRope_rst (f : Rope → Rope) : (b.modRope f).rst = b.rst := rfl
@[simp] theorem Block.modRope_img (f : Rope → Rope) : (b.modRope f).img = b.img := rfl
@[simp] theorem Block.modRope_key (f : Rope → Rope) : (b.modRope f).key = b.key := rfl
@[simp] theorem Block.modRope_crn (f : Rope → Rope) : (b.modRope f).crn = b.crn := rfl
@[simp] theorem Block.modRope_rd (f : Rope → Rope) (x : Nat) : (b.modRope f).rd x = b.rd x := rfl
@[simp] theorem Block.modRope_get (f : Rope → Rope) (x : Fld) : (b.modRope f).get x = b.get x := rfl
@[simp] theorem Block.modRope_on (f : Rope → Rope) (x : Fld) : (b.modRope f).on x = b.on x := rfl
@[simp] theorem Block.modRope_byte (f : Rope → Rope) (sp' : Space) (x : Nat) : (b.modRope f).byte sp' x = b.byte sp' x := rfl
@[simp] theorem Block.modRope_rope (f : Rope → Rope) : (b.modRope f).rope = f b.rope := rfl
@[simp] theorem Block.setFei_member (i : Nat) (y : Fei) : (b.setFei i y).member = b.member := rfl
@[simp] theorem Block.setFei_regs (i : Nat) (y : Fei) : (b.setFei i y).regs = b.regs := rfl
@[simp] theorem Block.setFei_mem (i : Nat) (y : Fei) : (b.setFei i y).mem = b.mem := rfl
@[simp] theorem Block.setFei_outs (i : Nat) (y : Fei) : (b.setFei i y).outs = b.outs := rfl
@[simp] theorem Block.setFei_freeCtr (i : Nat) (y : Fei) : (b.setFei i y).freeCtr = b.freeCtr := rfl
@[simp] theorem Block.setFei_readData (i : Nat) (y : Fei) : (b.setFei i y).readData = b.readData := rfl
@[simp] theorem Block.setFei_shadow (i : Nat) (y : Fei) : (b.setFei i y).shadow = b.shadow := rfl
@[simp] theorem Block.setFei_staging (i : Nat) (y : Fei) : (b.setFei i y).staging = b.staging := rfl
@[simp] theorem Block.setFei_imgLock (i : Nat) (y : Fei) : (b.setFei i y).imgLock = b.imgLock := rfl
@[simp] theorem Block.setFei_xtal (i : Nat) (y : Fei) : (b.setFei i y).xtal = b.xtal := rfl
@[simp] theorem Block.setFei_gates (i : Nat) (y : Fei) : (b.setFei i y).gates = b.gates := rfl
@[simp] theorem Block.setFei_msixEn (i : Nat) (y : Fei) : (b.setFei i y).msixEn = b.msixEn := rfl
@[simp] theorem Block.setFei_msixMask (i : Nat) (y : Fei) : (b.setFei i y).msixMask = b.msixMask := rfl
@[simp] theorem Block.setFei_crzEvt (i : Nat) (y : Fei) : (b.setFei i y).crzEvt = b.crzEvt := rfl
@[simp] theorem Block.setFei_fifo (i : Nat) (y : Fei) : (b.setFei i y).fifo = b.fifo := rfl
@[simp] theorem Block.setFei_marker (i : Nat) (y : Fei) : (b.setFei i y).marker = b.marker := rfl
@[simp] theorem Block.setFei_firstLost (i : Nat) (y : Fei) : (b.setFei i y).firstLost = b.firstLost := rfl
@[simp] theorem Block.setFei_ridge (i : Nat) (y : Fei) : (b.setFei i y).ridge = b.ridge := rfl
@[simp] theorem Block.setFei_tim (i : Nat) (y : Fei) : (b.setFei i y).tim = b.tim := rfl
@[simp] theorem Block.setFei_port (i : Nat) (y : Fei) : (b.setFei i y).port = b.port := rfl
@[simp] theorem Block.setFei_swc (i : Nat) (y : Fei) : (b.setFei i y).swc = b.swc := rfl
@[simp] theorem Block.setFei_pub (i : Nat) (y : Fei) : (b.setFei i y).pub = b.pub := rfl
@[simp] theorem Block.setFei_rhz (i : Nat) (y : Fei) : (b.setFei i y).rhz = b.rhz := rfl
@[simp] theorem Block.setFei_sor (i : Nat) (y : Fei) : (b.setFei i y).sor = b.sor := rfl
@[simp] theorem Block.setFei_crz (i : Nat) (y : Fei) : (b.setFei i y).crz = b.crz := rfl
@[simp] theorem Block.setFei_frd (i : Nat) (y : Fei) : (b.setFei i y).frd = b.frd := rfl
@[simp] theorem Block.setFei_gin (i : Nat) (y : Fei) : (b.setFei i y).gin = b.gin := rfl
@[simp] theorem Block.setFei_rope (i : Nat) (y : Fei) : (b.setFei i y).rope = b.rope := rfl
@[simp] theorem Block.setFei_vin (i : Nat) (y : Fei) : (b.setFei i y).vin = b.vin := rfl
@[simp] theorem Block.setFei_hif (i : Nat) (y : Fei) : (b.setFei i y).hif = b.hif := rfl
@[simp] theorem Block.setFei_seg (i : Nat) (y : Fei) : (b.setFei i y).seg = b.seg := rfl
@[simp] theorem Block.setFei_hostWait (i : Nat) (y : Fei) : (b.setFei i y).hostWait = b.hostWait := rfl
@[simp] theorem Block.setFei_nrg (i : Nat) (y : Fei) : (b.setFei i y).nrg = b.nrg := rfl
@[simp] theorem Block.setFei_aux (i : Nat) (y : Fei) : (b.setFei i y).aux = b.aux := rfl
@[simp] theorem Block.setFei_rst (i : Nat) (y : Fei) : (b.setFei i y).rst = b.rst := rfl
@[simp] theorem Block.setFei_img (i : Nat) (y : Fei) : (b.setFei i y).img = b.img := rfl
@[simp] theorem Block.setFei_key (i : Nat) (y : Fei) : (b.setFei i y).key = b.key := rfl
@[simp] theorem Block.setFei_crn (i : Nat) (y : Fei) : (b.setFei i y).crn = b.crn := rfl
@[simp] theorem Block.setFei_rd (i : Nat) (y : Fei) (x : Nat) : (b.setFei i y).rd x = b.rd x := rfl
@[simp] theorem Block.setFei_get (i : Nat) (y : Fei) (x : Fld) : (b.setFei i y).get x = b.get x := rfl
@[simp] theorem Block.setFei_on (i : Nat) (y : Fei) (x : Fld) : (b.setFei i y).on x = b.on x := rfl
@[simp] theorem Block.setFei_byte (i : Nat) (y : Fei) (sp' : Space) (x : Nat) : (b.setFei i y).byte sp' x = b.byte sp' x := rfl
@[simp] theorem Block.setTrg_member (i : Nat) (y : Trg) : (b.setTrg i y).member = b.member := rfl
@[simp] theorem Block.setTrg_regs (i : Nat) (y : Trg) : (b.setTrg i y).regs = b.regs := rfl
@[simp] theorem Block.setTrg_mem (i : Nat) (y : Trg) : (b.setTrg i y).mem = b.mem := rfl
@[simp] theorem Block.setTrg_outs (i : Nat) (y : Trg) : (b.setTrg i y).outs = b.outs := rfl
@[simp] theorem Block.setTrg_freeCtr (i : Nat) (y : Trg) : (b.setTrg i y).freeCtr = b.freeCtr := rfl
@[simp] theorem Block.setTrg_readData (i : Nat) (y : Trg) : (b.setTrg i y).readData = b.readData := rfl
@[simp] theorem Block.setTrg_shadow (i : Nat) (y : Trg) : (b.setTrg i y).shadow = b.shadow := rfl
@[simp] theorem Block.setTrg_staging (i : Nat) (y : Trg) : (b.setTrg i y).staging = b.staging := rfl
@[simp] theorem Block.setTrg_imgLock (i : Nat) (y : Trg) : (b.setTrg i y).imgLock = b.imgLock := rfl
@[simp] theorem Block.setTrg_xtal (i : Nat) (y : Trg) : (b.setTrg i y).xtal = b.xtal := rfl
@[simp] theorem Block.setTrg_gates (i : Nat) (y : Trg) : (b.setTrg i y).gates = b.gates := rfl
@[simp] theorem Block.setTrg_msixEn (i : Nat) (y : Trg) : (b.setTrg i y).msixEn = b.msixEn := rfl
@[simp] theorem Block.setTrg_msixMask (i : Nat) (y : Trg) : (b.setTrg i y).msixMask = b.msixMask := rfl
@[simp] theorem Block.setTrg_crzEvt (i : Nat) (y : Trg) : (b.setTrg i y).crzEvt = b.crzEvt := rfl
@[simp] theorem Block.setTrg_fifo (i : Nat) (y : Trg) : (b.setTrg i y).fifo = b.fifo := rfl
@[simp] theorem Block.setTrg_marker (i : Nat) (y : Trg) : (b.setTrg i y).marker = b.marker := rfl
@[simp] theorem Block.setTrg_firstLost (i : Nat) (y : Trg) : (b.setTrg i y).firstLost = b.firstLost := rfl
@[simp] theorem Block.setTrg_ridge (i : Nat) (y : Trg) : (b.setTrg i y).ridge = b.ridge := rfl
@[simp] theorem Block.setTrg_tim (i : Nat) (y : Trg) : (b.setTrg i y).tim = b.tim := rfl
@[simp] theorem Block.setTrg_port (i : Nat) (y : Trg) : (b.setTrg i y).port = b.port := rfl
@[simp] theorem Block.setTrg_swc (i : Nat) (y : Trg) : (b.setTrg i y).swc = b.swc := rfl
@[simp] theorem Block.setTrg_pub (i : Nat) (y : Trg) : (b.setTrg i y).pub = b.pub := rfl
@[simp] theorem Block.setTrg_rhz (i : Nat) (y : Trg) : (b.setTrg i y).rhz = b.rhz := rfl
@[simp] theorem Block.setTrg_sor (i : Nat) (y : Trg) : (b.setTrg i y).sor = b.sor := rfl
@[simp] theorem Block.setTrg_crz (i : Nat) (y : Trg) : (b.setTrg i y).crz = b.crz := rfl
@[simp] theorem Block.setTrg_frd (i : Nat) (y : Trg) : (b.setTrg i y).frd = b.frd := rfl
@[simp] theorem Block.setTrg_gin (i : Nat) (y : Trg) : (b.setTrg i y).gin = b.gin := rfl
@[simp] theorem Block.setTrg_rope (i : Nat) (y : Trg) : (b.setTrg i y).rope = b.rope := rfl
@[simp] theorem Block.setTrg_vin (i : Nat) (y : Trg) : (b.setTrg i y).vin = b.vin := rfl
@[simp] theorem Block.setTrg_hif (i : Nat) (y : Trg) : (b.setTrg i y).hif = b.hif := rfl
@[simp] theorem Block.setTrg_seg (i : Nat) (y : Trg) : (b.setTrg i y).seg = b.seg := rfl
@[simp] theorem Block.setTrg_hostWait (i : Nat) (y : Trg) : (b.setTrg i y).hostWait = b.hostWait := rfl
@[simp] theorem Block.setTrg_nrg (i : Nat) (y : Trg) : (b.setTrg i y).nrg = b.nrg := rfl
@[simp] theorem Block.setTrg_aux (i : Nat) (y : Trg) : (b.setTrg i y).aux = b.aux := rfl
@[simp] theorem Block.setTrg_rst (i : Nat) (y : Trg) : (b.setTrg i y).rst = b.rst := rfl
@[simp] theorem Block.setTrg_img (i : Nat) (y : Trg) : (b.setTrg i y).img = b.img := rfl
@[simp] theorem Block.setTrg_key (i : Nat) (y : Trg) : (b.setTrg i y).key = b.key := rfl
@[simp] theorem Block.setTrg_crn (i : Nat) (y : Trg) : (b.setTrg i y).crn = b.crn := rfl
@[simp] theorem Block.setTrg_rd (i : Nat) (y : Trg) (x : Nat) : (b.setTrg i y).rd x = b.rd x := rfl
@[simp] theorem Block.setTrg_get (i : Nat) (y : Trg) (x : Fld) : (b.setTrg i y).get x = b.get x := rfl
@[simp] theorem Block.setTrg_on (i : Nat) (y : Trg) (x : Fld) : (b.setTrg i y).on x = b.on x := rfl
@[simp] theorem Block.setTrg_byte (i : Nat) (y : Trg) (sp' : Space) (x : Nat) : (b.setTrg i y).byte sp' x = b.byte sp' x := rfl
@[simp] theorem Block.setCset_member (i : Nat) (y : Cset) : (b.setCset i y).member = b.member := rfl
@[simp] theorem Block.setCset_regs (i : Nat) (y : Cset) : (b.setCset i y).regs = b.regs := rfl
@[simp] theorem Block.setCset_mem (i : Nat) (y : Cset) : (b.setCset i y).mem = b.mem := rfl
@[simp] theorem Block.setCset_outs (i : Nat) (y : Cset) : (b.setCset i y).outs = b.outs := rfl
@[simp] theorem Block.setCset_freeCtr (i : Nat) (y : Cset) : (b.setCset i y).freeCtr = b.freeCtr := rfl
@[simp] theorem Block.setCset_readData (i : Nat) (y : Cset) : (b.setCset i y).readData = b.readData := rfl
@[simp] theorem Block.setCset_shadow (i : Nat) (y : Cset) : (b.setCset i y).shadow = b.shadow := rfl
@[simp] theorem Block.setCset_staging (i : Nat) (y : Cset) : (b.setCset i y).staging = b.staging := rfl
@[simp] theorem Block.setCset_imgLock (i : Nat) (y : Cset) : (b.setCset i y).imgLock = b.imgLock := rfl
@[simp] theorem Block.setCset_xtal (i : Nat) (y : Cset) : (b.setCset i y).xtal = b.xtal := rfl
@[simp] theorem Block.setCset_gates (i : Nat) (y : Cset) : (b.setCset i y).gates = b.gates := rfl
@[simp] theorem Block.setCset_msixEn (i : Nat) (y : Cset) : (b.setCset i y).msixEn = b.msixEn := rfl
@[simp] theorem Block.setCset_msixMask (i : Nat) (y : Cset) : (b.setCset i y).msixMask = b.msixMask := rfl
@[simp] theorem Block.setCset_crzEvt (i : Nat) (y : Cset) : (b.setCset i y).crzEvt = b.crzEvt := rfl
@[simp] theorem Block.setCset_fifo (i : Nat) (y : Cset) : (b.setCset i y).fifo = b.fifo := rfl
@[simp] theorem Block.setCset_marker (i : Nat) (y : Cset) : (b.setCset i y).marker = b.marker := rfl
@[simp] theorem Block.setCset_firstLost (i : Nat) (y : Cset) : (b.setCset i y).firstLost = b.firstLost := rfl
@[simp] theorem Block.setCset_ridge (i : Nat) (y : Cset) : (b.setCset i y).ridge = b.ridge := rfl
@[simp] theorem Block.setCset_tim (i : Nat) (y : Cset) : (b.setCset i y).tim = b.tim := rfl
@[simp] theorem Block.setCset_port (i : Nat) (y : Cset) : (b.setCset i y).port = b.port := rfl
@[simp] theorem Block.setCset_swc (i : Nat) (y : Cset) : (b.setCset i y).swc = b.swc := rfl
@[simp] theorem Block.setCset_pub (i : Nat) (y : Cset) : (b.setCset i y).pub = b.pub := rfl
@[simp] theorem Block.setCset_rhz (i : Nat) (y : Cset) : (b.setCset i y).rhz = b.rhz := rfl
@[simp] theorem Block.setCset_sor (i : Nat) (y : Cset) : (b.setCset i y).sor = b.sor := rfl
@[simp] theorem Block.setCset_crz (i : Nat) (y : Cset) : (b.setCset i y).crz = b.crz := rfl
@[simp] theorem Block.setCset_frd (i : Nat) (y : Cset) : (b.setCset i y).frd = b.frd := rfl
@[simp] theorem Block.setCset_gin (i : Nat) (y : Cset) : (b.setCset i y).gin = b.gin := rfl
@[simp] theorem Block.setCset_rope (i : Nat) (y : Cset) : (b.setCset i y).rope = b.rope := rfl
@[simp] theorem Block.setCset_vin (i : Nat) (y : Cset) : (b.setCset i y).vin = b.vin := rfl
@[simp] theorem Block.setCset_hif (i : Nat) (y : Cset) : (b.setCset i y).hif = b.hif := rfl
@[simp] theorem Block.setCset_seg (i : Nat) (y : Cset) : (b.setCset i y).seg = b.seg := rfl
@[simp] theorem Block.setCset_hostWait (i : Nat) (y : Cset) : (b.setCset i y).hostWait = b.hostWait := rfl
@[simp] theorem Block.setCset_nrg (i : Nat) (y : Cset) : (b.setCset i y).nrg = b.nrg := rfl
@[simp] theorem Block.setCset_aux (i : Nat) (y : Cset) : (b.setCset i y).aux = b.aux := rfl
@[simp] theorem Block.setCset_rst (i : Nat) (y : Cset) : (b.setCset i y).rst = b.rst := rfl
@[simp] theorem Block.setCset_img (i : Nat) (y : Cset) : (b.setCset i y).img = b.img := rfl
@[simp] theorem Block.setCset_key (i : Nat) (y : Cset) : (b.setCset i y).key = b.key := rfl
@[simp] theorem Block.setCset_crn (i : Nat) (y : Cset) : (b.setCset i y).crn = b.crn := rfl
@[simp] theorem Block.setCset_rd (i : Nat) (y : Cset) (x : Nat) : (b.setCset i y).rd x = b.rd x := rfl
@[simp] theorem Block.setCset_get (i : Nat) (y : Cset) (x : Fld) : (b.setCset i y).get x = b.get x := rfl
@[simp] theorem Block.setCset_on (i : Nat) (y : Cset) (x : Fld) : (b.setCset i y).on x = b.on x := rfl
@[simp] theorem Block.setCset_byte (i : Nat) (y : Cset) (sp' : Space) (x : Nat) : (b.setCset i y).byte sp' x = b.byte sp' x := rfl
@[simp] theorem Block.setSlot_member (i : Nat) (y : Slot) : (b.setSlot i y).member = b.member := rfl
@[simp] theorem Block.setSlot_regs (i : Nat) (y : Slot) : (b.setSlot i y).regs = b.regs := rfl
@[simp] theorem Block.setSlot_mem (i : Nat) (y : Slot) : (b.setSlot i y).mem = b.mem := rfl
@[simp] theorem Block.setSlot_outs (i : Nat) (y : Slot) : (b.setSlot i y).outs = b.outs := rfl
@[simp] theorem Block.setSlot_freeCtr (i : Nat) (y : Slot) : (b.setSlot i y).freeCtr = b.freeCtr := rfl
@[simp] theorem Block.setSlot_readData (i : Nat) (y : Slot) : (b.setSlot i y).readData = b.readData := rfl
@[simp] theorem Block.setSlot_shadow (i : Nat) (y : Slot) : (b.setSlot i y).shadow = b.shadow := rfl
@[simp] theorem Block.setSlot_staging (i : Nat) (y : Slot) : (b.setSlot i y).staging = b.staging := rfl
@[simp] theorem Block.setSlot_imgLock (i : Nat) (y : Slot) : (b.setSlot i y).imgLock = b.imgLock := rfl
@[simp] theorem Block.setSlot_xtal (i : Nat) (y : Slot) : (b.setSlot i y).xtal = b.xtal := rfl
@[simp] theorem Block.setSlot_gates (i : Nat) (y : Slot) : (b.setSlot i y).gates = b.gates := rfl
@[simp] theorem Block.setSlot_msixEn (i : Nat) (y : Slot) : (b.setSlot i y).msixEn = b.msixEn := rfl
@[simp] theorem Block.setSlot_msixMask (i : Nat) (y : Slot) : (b.setSlot i y).msixMask = b.msixMask := rfl
@[simp] theorem Block.setSlot_crzEvt (i : Nat) (y : Slot) : (b.setSlot i y).crzEvt = b.crzEvt := rfl
@[simp] theorem Block.setSlot_fifo (i : Nat) (y : Slot) : (b.setSlot i y).fifo = b.fifo := rfl
@[simp] theorem Block.setSlot_marker (i : Nat) (y : Slot) : (b.setSlot i y).marker = b.marker := rfl
@[simp] theorem Block.setSlot_firstLost (i : Nat) (y : Slot) : (b.setSlot i y).firstLost = b.firstLost := rfl
@[simp] theorem Block.setSlot_ridge (i : Nat) (y : Slot) : (b.setSlot i y).ridge = b.ridge := rfl
@[simp] theorem Block.setSlot_tim (i : Nat) (y : Slot) : (b.setSlot i y).tim = b.tim := rfl
@[simp] theorem Block.setSlot_port (i : Nat) (y : Slot) : (b.setSlot i y).port = b.port := rfl
@[simp] theorem Block.setSlot_swc (i : Nat) (y : Slot) : (b.setSlot i y).swc = b.swc := rfl
@[simp] theorem Block.setSlot_pub (i : Nat) (y : Slot) : (b.setSlot i y).pub = b.pub := rfl
@[simp] theorem Block.setSlot_sor (i : Nat) (y : Slot) : (b.setSlot i y).sor = b.sor := rfl
@[simp] theorem Block.setSlot_crz (i : Nat) (y : Slot) : (b.setSlot i y).crz = b.crz := rfl
@[simp] theorem Block.setSlot_frd (i : Nat) (y : Slot) : (b.setSlot i y).frd = b.frd := rfl
@[simp] theorem Block.setSlot_gin (i : Nat) (y : Slot) : (b.setSlot i y).gin = b.gin := rfl
@[simp] theorem Block.setSlot_acq (i : Nat) (y : Slot) : (b.setSlot i y).acq = b.acq := rfl
@[simp] theorem Block.setSlot_rope (i : Nat) (y : Slot) : (b.setSlot i y).rope = b.rope := rfl
@[simp] theorem Block.setSlot_vin (i : Nat) (y : Slot) : (b.setSlot i y).vin = b.vin := rfl
@[simp] theorem Block.setSlot_hif (i : Nat) (y : Slot) : (b.setSlot i y).hif = b.hif := rfl
@[simp] theorem Block.setSlot_seg (i : Nat) (y : Slot) : (b.setSlot i y).seg = b.seg := rfl
@[simp] theorem Block.setSlot_hostWait (i : Nat) (y : Slot) : (b.setSlot i y).hostWait = b.hostWait := rfl
@[simp] theorem Block.setSlot_nrg (i : Nat) (y : Slot) : (b.setSlot i y).nrg = b.nrg := rfl
@[simp] theorem Block.setSlot_aux (i : Nat) (y : Slot) : (b.setSlot i y).aux = b.aux := rfl
@[simp] theorem Block.setSlot_rst (i : Nat) (y : Slot) : (b.setSlot i y).rst = b.rst := rfl
@[simp] theorem Block.setSlot_img (i : Nat) (y : Slot) : (b.setSlot i y).img = b.img := rfl
@[simp] theorem Block.setSlot_key (i : Nat) (y : Slot) : (b.setSlot i y).key = b.key := rfl
@[simp] theorem Block.setSlot_crn (i : Nat) (y : Slot) : (b.setSlot i y).crn = b.crn := rfl
@[simp] theorem Block.setSlot_rd (i : Nat) (y : Slot) (x : Nat) : (b.setSlot i y).rd x = b.rd x := rfl
@[simp] theorem Block.setSlot_get (i : Nat) (y : Slot) (x : Fld) : (b.setSlot i y).get x = b.get x := rfl
@[simp] theorem Block.setSlot_on (i : Nat) (y : Slot) (x : Fld) : (b.setSlot i y).on x = b.on x := rfl
@[simp] theorem Block.setSlot_byte (i : Nat) (y : Slot) (sp' : Space) (x : Nat) : (b.setSlot i y).byte sp' x = b.byte sp' x := rfl
@[simp] theorem Block.setGrp_member (i : Nat) (y : Grp) : (b.setGrp i y).member = b.member := rfl
@[simp] theorem Block.setGrp_regs (i : Nat) (y : Grp) : (b.setGrp i y).regs = b.regs := rfl
@[simp] theorem Block.setGrp_mem (i : Nat) (y : Grp) : (b.setGrp i y).mem = b.mem := rfl
@[simp] theorem Block.setGrp_outs (i : Nat) (y : Grp) : (b.setGrp i y).outs = b.outs := rfl
@[simp] theorem Block.setGrp_freeCtr (i : Nat) (y : Grp) : (b.setGrp i y).freeCtr = b.freeCtr := rfl
@[simp] theorem Block.setGrp_readData (i : Nat) (y : Grp) : (b.setGrp i y).readData = b.readData := rfl
@[simp] theorem Block.setGrp_shadow (i : Nat) (y : Grp) : (b.setGrp i y).shadow = b.shadow := rfl
@[simp] theorem Block.setGrp_staging (i : Nat) (y : Grp) : (b.setGrp i y).staging = b.staging := rfl
@[simp] theorem Block.setGrp_imgLock (i : Nat) (y : Grp) : (b.setGrp i y).imgLock = b.imgLock := rfl
@[simp] theorem Block.setGrp_xtal (i : Nat) (y : Grp) : (b.setGrp i y).xtal = b.xtal := rfl
@[simp] theorem Block.setGrp_gates (i : Nat) (y : Grp) : (b.setGrp i y).gates = b.gates := rfl
@[simp] theorem Block.setGrp_msixEn (i : Nat) (y : Grp) : (b.setGrp i y).msixEn = b.msixEn := rfl
@[simp] theorem Block.setGrp_msixMask (i : Nat) (y : Grp) : (b.setGrp i y).msixMask = b.msixMask := rfl
@[simp] theorem Block.setGrp_crzEvt (i : Nat) (y : Grp) : (b.setGrp i y).crzEvt = b.crzEvt := rfl
@[simp] theorem Block.setGrp_fifo (i : Nat) (y : Grp) : (b.setGrp i y).fifo = b.fifo := rfl
@[simp] theorem Block.setGrp_marker (i : Nat) (y : Grp) : (b.setGrp i y).marker = b.marker := rfl
@[simp] theorem Block.setGrp_firstLost (i : Nat) (y : Grp) : (b.setGrp i y).firstLost = b.firstLost := rfl
@[simp] theorem Block.setGrp_ridge (i : Nat) (y : Grp) : (b.setGrp i y).ridge = b.ridge := rfl
@[simp] theorem Block.setGrp_tim (i : Nat) (y : Grp) : (b.setGrp i y).tim = b.tim := rfl
@[simp] theorem Block.setGrp_port (i : Nat) (y : Grp) : (b.setGrp i y).port = b.port := rfl
@[simp] theorem Block.setGrp_swc (i : Nat) (y : Grp) : (b.setGrp i y).swc = b.swc := rfl
@[simp] theorem Block.setGrp_pub (i : Nat) (y : Grp) : (b.setGrp i y).pub = b.pub := rfl
@[simp] theorem Block.setGrp_sor (i : Nat) (y : Grp) : (b.setGrp i y).sor = b.sor := rfl
@[simp] theorem Block.setGrp_crz (i : Nat) (y : Grp) : (b.setGrp i y).crz = b.crz := rfl
@[simp] theorem Block.setGrp_frd (i : Nat) (y : Grp) : (b.setGrp i y).frd = b.frd := rfl
@[simp] theorem Block.setGrp_gin (i : Nat) (y : Grp) : (b.setGrp i y).gin = b.gin := rfl
@[simp] theorem Block.setGrp_acq (i : Nat) (y : Grp) : (b.setGrp i y).acq = b.acq := rfl
@[simp] theorem Block.setGrp_rope (i : Nat) (y : Grp) : (b.setGrp i y).rope = b.rope := rfl
@[simp] theorem Block.setGrp_vin (i : Nat) (y : Grp) : (b.setGrp i y).vin = b.vin := rfl
@[simp] theorem Block.setGrp_hif (i : Nat) (y : Grp) : (b.setGrp i y).hif = b.hif := rfl
@[simp] theorem Block.setGrp_seg (i : Nat) (y : Grp) : (b.setGrp i y).seg = b.seg := rfl
@[simp] theorem Block.setGrp_hostWait (i : Nat) (y : Grp) : (b.setGrp i y).hostWait = b.hostWait := rfl
@[simp] theorem Block.setGrp_nrg (i : Nat) (y : Grp) : (b.setGrp i y).nrg = b.nrg := rfl
@[simp] theorem Block.setGrp_aux (i : Nat) (y : Grp) : (b.setGrp i y).aux = b.aux := rfl
@[simp] theorem Block.setGrp_rst (i : Nat) (y : Grp) : (b.setGrp i y).rst = b.rst := rfl
@[simp] theorem Block.setGrp_img (i : Nat) (y : Grp) : (b.setGrp i y).img = b.img := rfl
@[simp] theorem Block.setGrp_key (i : Nat) (y : Grp) : (b.setGrp i y).key = b.key := rfl
@[simp] theorem Block.setGrp_crn (i : Nat) (y : Grp) : (b.setGrp i y).crn = b.crn := rfl
@[simp] theorem Block.setGrp_rd (i : Nat) (y : Grp) (x : Nat) : (b.setGrp i y).rd x = b.rd x := rfl
@[simp] theorem Block.setGrp_get (i : Nat) (y : Grp) (x : Fld) : (b.setGrp i y).get x = b.get x := rfl
@[simp] theorem Block.setGrp_on (i : Nat) (y : Grp) (x : Fld) : (b.setGrp i y).on x = b.on x := rfl
@[simp] theorem Block.setGrp_byte (i : Nat) (y : Grp) (sp' : Space) (x : Nat) : (b.setGrp i y).byte sp' x = b.byte sp' x := rfl
@[simp] theorem Block.setAux_member (i : Nat) (y : AuxSeg) : (b.setAux i y).member = b.member := rfl
@[simp] theorem Block.setAux_regs (i : Nat) (y : AuxSeg) : (b.setAux i y).regs = b.regs := rfl
@[simp] theorem Block.setAux_mem (i : Nat) (y : AuxSeg) : (b.setAux i y).mem = b.mem := rfl
@[simp] theorem Block.setAux_outs (i : Nat) (y : AuxSeg) : (b.setAux i y).outs = b.outs := rfl
@[simp] theorem Block.setAux_freeCtr (i : Nat) (y : AuxSeg) : (b.setAux i y).freeCtr = b.freeCtr := rfl
@[simp] theorem Block.setAux_readData (i : Nat) (y : AuxSeg) : (b.setAux i y).readData = b.readData := rfl
@[simp] theorem Block.setAux_shadow (i : Nat) (y : AuxSeg) : (b.setAux i y).shadow = b.shadow := rfl
@[simp] theorem Block.setAux_staging (i : Nat) (y : AuxSeg) : (b.setAux i y).staging = b.staging := rfl
@[simp] theorem Block.setAux_imgLock (i : Nat) (y : AuxSeg) : (b.setAux i y).imgLock = b.imgLock := rfl
@[simp] theorem Block.setAux_xtal (i : Nat) (y : AuxSeg) : (b.setAux i y).xtal = b.xtal := rfl
@[simp] theorem Block.setAux_gates (i : Nat) (y : AuxSeg) : (b.setAux i y).gates = b.gates := rfl
@[simp] theorem Block.setAux_msixEn (i : Nat) (y : AuxSeg) : (b.setAux i y).msixEn = b.msixEn := rfl
@[simp] theorem Block.setAux_msixMask (i : Nat) (y : AuxSeg) : (b.setAux i y).msixMask = b.msixMask := rfl
@[simp] theorem Block.setAux_crzEvt (i : Nat) (y : AuxSeg) : (b.setAux i y).crzEvt = b.crzEvt := rfl
@[simp] theorem Block.setAux_fifo (i : Nat) (y : AuxSeg) : (b.setAux i y).fifo = b.fifo := rfl
@[simp] theorem Block.setAux_marker (i : Nat) (y : AuxSeg) : (b.setAux i y).marker = b.marker := rfl
@[simp] theorem Block.setAux_firstLost (i : Nat) (y : AuxSeg) : (b.setAux i y).firstLost = b.firstLost := rfl
@[simp] theorem Block.setAux_ridge (i : Nat) (y : AuxSeg) : (b.setAux i y).ridge = b.ridge := rfl
@[simp] theorem Block.setAux_tim (i : Nat) (y : AuxSeg) : (b.setAux i y).tim = b.tim := rfl
@[simp] theorem Block.setAux_port (i : Nat) (y : AuxSeg) : (b.setAux i y).port = b.port := rfl
@[simp] theorem Block.setAux_swc (i : Nat) (y : AuxSeg) : (b.setAux i y).swc = b.swc := rfl
@[simp] theorem Block.setAux_pub (i : Nat) (y : AuxSeg) : (b.setAux i y).pub = b.pub := rfl
@[simp] theorem Block.setAux_rhz (i : Nat) (y : AuxSeg) : (b.setAux i y).rhz = b.rhz := rfl
@[simp] theorem Block.setAux_sor (i : Nat) (y : AuxSeg) : (b.setAux i y).sor = b.sor := rfl
@[simp] theorem Block.setAux_crz (i : Nat) (y : AuxSeg) : (b.setAux i y).crz = b.crz := rfl
@[simp] theorem Block.setAux_frd (i : Nat) (y : AuxSeg) : (b.setAux i y).frd = b.frd := rfl
@[simp] theorem Block.setAux_gin (i : Nat) (y : AuxSeg) : (b.setAux i y).gin = b.gin := rfl
@[simp] theorem Block.setAux_acq (i : Nat) (y : AuxSeg) : (b.setAux i y).acq = b.acq := rfl
@[simp] theorem Block.setAux_rope (i : Nat) (y : AuxSeg) : (b.setAux i y).rope = b.rope := rfl
@[simp] theorem Block.setAux_vin (i : Nat) (y : AuxSeg) : (b.setAux i y).vin = b.vin := rfl
@[simp] theorem Block.setAux_hif (i : Nat) (y : AuxSeg) : (b.setAux i y).hif = b.hif := rfl
@[simp] theorem Block.setAux_seg (i : Nat) (y : AuxSeg) : (b.setAux i y).seg = b.seg := rfl
@[simp] theorem Block.setAux_hostWait (i : Nat) (y : AuxSeg) : (b.setAux i y).hostWait = b.hostWait := rfl
@[simp] theorem Block.setAux_nrg (i : Nat) (y : AuxSeg) : (b.setAux i y).nrg = b.nrg := rfl
@[simp] theorem Block.setAux_rst (i : Nat) (y : AuxSeg) : (b.setAux i y).rst = b.rst := rfl
@[simp] theorem Block.setAux_img (i : Nat) (y : AuxSeg) : (b.setAux i y).img = b.img := rfl
@[simp] theorem Block.setAux_key (i : Nat) (y : AuxSeg) : (b.setAux i y).key = b.key := rfl
@[simp] theorem Block.setAux_crn (i : Nat) (y : AuxSeg) : (b.setAux i y).crn = b.crn := rfl
@[simp] theorem Block.setAux_rd (i : Nat) (y : AuxSeg) (x : Nat) : (b.setAux i y).rd x = b.rd x := rfl
@[simp] theorem Block.setAux_get (i : Nat) (y : AuxSeg) (x : Fld) : (b.setAux i y).get x = b.get x := rfl
@[simp] theorem Block.setAux_on (i : Nat) (y : AuxSeg) (x : Fld) : (b.setAux i y).on x = b.on x := rfl
@[simp] theorem Block.setAux_byte (i : Nat) (y : AuxSeg) (sp' : Space) (x : Nat) : (b.setAux i y).byte sp' x = b.byte sp' x := rfl
@[simp] theorem Block.setCore_member (i : Nat) (y : Core) : (b.setCore i y).member = b.member := rfl
@[simp] theorem Block.setCore_regs (i : Nat) (y : Core) : (b.setCore i y).regs = b.regs := rfl
@[simp] theorem Block.setCore_mem (i : Nat) (y : Core) : (b.setCore i y).mem = b.mem := rfl
@[simp] theorem Block.setCore_outs (i : Nat) (y : Core) : (b.setCore i y).outs = b.outs := rfl
@[simp] theorem Block.setCore_freeCtr (i : Nat) (y : Core) : (b.setCore i y).freeCtr = b.freeCtr := rfl
@[simp] theorem Block.setCore_readData (i : Nat) (y : Core) : (b.setCore i y).readData = b.readData := rfl
@[simp] theorem Block.setCore_shadow (i : Nat) (y : Core) : (b.setCore i y).shadow = b.shadow := rfl
@[simp] theorem Block.setCore_staging (i : Nat) (y : Core) : (b.setCore i y).staging = b.staging := rfl
@[simp] theorem Block.setCore_imgLock (i : Nat) (y : Core) : (b.setCore i y).imgLock = b.imgLock := rfl
@[simp] theorem Block.setCore_xtal (i : Nat) (y : Core) : (b.setCore i y).xtal = b.xtal := rfl
@[simp] theorem Block.setCore_gates (i : Nat) (y : Core) : (b.setCore i y).gates = b.gates := rfl
@[simp] theorem Block.setCore_msixEn (i : Nat) (y : Core) : (b.setCore i y).msixEn = b.msixEn := rfl
@[simp] theorem Block.setCore_msixMask (i : Nat) (y : Core) : (b.setCore i y).msixMask = b.msixMask := rfl
@[simp] theorem Block.setCore_crzEvt (i : Nat) (y : Core) : (b.setCore i y).crzEvt = b.crzEvt := rfl
@[simp] theorem Block.setCore_fifo (i : Nat) (y : Core) : (b.setCore i y).fifo = b.fifo := rfl
@[simp] theorem Block.setCore_marker (i : Nat) (y : Core) : (b.setCore i y).marker = b.marker := rfl
@[simp] theorem Block.setCore_firstLost (i : Nat) (y : Core) : (b.setCore i y).firstLost = b.firstLost := rfl
@[simp] theorem Block.setCore_ridge (i : Nat) (y : Core) : (b.setCore i y).ridge = b.ridge := rfl
@[simp] theorem Block.setCore_tim (i : Nat) (y : Core) : (b.setCore i y).tim = b.tim := rfl
@[simp] theorem Block.setCore_port (i : Nat) (y : Core) : (b.setCore i y).port = b.port := rfl
@[simp] theorem Block.setCore_swc (i : Nat) (y : Core) : (b.setCore i y).swc = b.swc := rfl
@[simp] theorem Block.setCore_pub (i : Nat) (y : Core) : (b.setCore i y).pub = b.pub := rfl
@[simp] theorem Block.setCore_rhz (i : Nat) (y : Core) : (b.setCore i y).rhz = b.rhz := rfl
@[simp] theorem Block.setCore_sor (i : Nat) (y : Core) : (b.setCore i y).sor = b.sor := rfl
@[simp] theorem Block.setCore_crz (i : Nat) (y : Core) : (b.setCore i y).crz = b.crz := rfl
@[simp] theorem Block.setCore_gin (i : Nat) (y : Core) : (b.setCore i y).gin = b.gin := rfl
@[simp] theorem Block.setCore_acq (i : Nat) (y : Core) : (b.setCore i y).acq = b.acq := rfl
@[simp] theorem Block.setCore_rope (i : Nat) (y : Core) : (b.setCore i y).rope = b.rope := rfl
@[simp] theorem Block.setCore_vin (i : Nat) (y : Core) : (b.setCore i y).vin = b.vin := rfl
@[simp] theorem Block.setCore_hif (i : Nat) (y : Core) : (b.setCore i y).hif = b.hif := rfl
@[simp] theorem Block.setCore_seg (i : Nat) (y : Core) : (b.setCore i y).seg = b.seg := rfl
@[simp] theorem Block.setCore_hostWait (i : Nat) (y : Core) : (b.setCore i y).hostWait = b.hostWait := rfl
@[simp] theorem Block.setCore_nrg (i : Nat) (y : Core) : (b.setCore i y).nrg = b.nrg := rfl
@[simp] theorem Block.setCore_aux (i : Nat) (y : Core) : (b.setCore i y).aux = b.aux := rfl
@[simp] theorem Block.setCore_rst (i : Nat) (y : Core) : (b.setCore i y).rst = b.rst := rfl
@[simp] theorem Block.setCore_img (i : Nat) (y : Core) : (b.setCore i y).img = b.img := rfl
@[simp] theorem Block.setCore_key (i : Nat) (y : Core) : (b.setCore i y).key = b.key := rfl
@[simp] theorem Block.setCore_crn (i : Nat) (y : Core) : (b.setCore i y).crn = b.crn := rfl
@[simp] theorem Block.setCore_rd (i : Nat) (y : Core) (x : Nat) : (b.setCore i y).rd x = b.rd x := rfl
@[simp] theorem Block.setCore_get (i : Nat) (y : Core) (x : Fld) : (b.setCore i y).get x = b.get x := rfl
@[simp] theorem Block.setCore_on (i : Nat) (y : Core) (x : Fld) : (b.setCore i y).on x = b.on x := rfl
@[simp] theorem Block.setCore_byte (i : Nat) (y : Core) (sp' : Space) (x : Nat) : (b.setCore i y).byte sp' x = b.byte sp' x := rfl
@[simp] theorem Block.setSub_member (i : Nat) (y : GSub) : (b.setSub i y).member = b.member := rfl
@[simp] theorem Block.setSub_regs (i : Nat) (y : GSub) : (b.setSub i y).regs = b.regs := rfl
@[simp] theorem Block.setSub_mem (i : Nat) (y : GSub) : (b.setSub i y).mem = b.mem := rfl
@[simp] theorem Block.setSub_outs (i : Nat) (y : GSub) : (b.setSub i y).outs = b.outs := rfl
@[simp] theorem Block.setSub_freeCtr (i : Nat) (y : GSub) : (b.setSub i y).freeCtr = b.freeCtr := rfl
@[simp] theorem Block.setSub_readData (i : Nat) (y : GSub) : (b.setSub i y).readData = b.readData := rfl
@[simp] theorem Block.setSub_shadow (i : Nat) (y : GSub) : (b.setSub i y).shadow = b.shadow := rfl
@[simp] theorem Block.setSub_staging (i : Nat) (y : GSub) : (b.setSub i y).staging = b.staging := rfl
@[simp] theorem Block.setSub_imgLock (i : Nat) (y : GSub) : (b.setSub i y).imgLock = b.imgLock := rfl
@[simp] theorem Block.setSub_xtal (i : Nat) (y : GSub) : (b.setSub i y).xtal = b.xtal := rfl
@[simp] theorem Block.setSub_gates (i : Nat) (y : GSub) : (b.setSub i y).gates = b.gates := rfl
@[simp] theorem Block.setSub_msixEn (i : Nat) (y : GSub) : (b.setSub i y).msixEn = b.msixEn := rfl
@[simp] theorem Block.setSub_msixMask (i : Nat) (y : GSub) : (b.setSub i y).msixMask = b.msixMask := rfl
@[simp] theorem Block.setSub_crzEvt (i : Nat) (y : GSub) : (b.setSub i y).crzEvt = b.crzEvt := rfl
@[simp] theorem Block.setSub_fifo (i : Nat) (y : GSub) : (b.setSub i y).fifo = b.fifo := rfl
@[simp] theorem Block.setSub_marker (i : Nat) (y : GSub) : (b.setSub i y).marker = b.marker := rfl
@[simp] theorem Block.setSub_firstLost (i : Nat) (y : GSub) : (b.setSub i y).firstLost = b.firstLost := rfl
@[simp] theorem Block.setSub_ridge (i : Nat) (y : GSub) : (b.setSub i y).ridge = b.ridge := rfl
@[simp] theorem Block.setSub_tim (i : Nat) (y : GSub) : (b.setSub i y).tim = b.tim := rfl
@[simp] theorem Block.setSub_port (i : Nat) (y : GSub) : (b.setSub i y).port = b.port := rfl
@[simp] theorem Block.setSub_swc (i : Nat) (y : GSub) : (b.setSub i y).swc = b.swc := rfl
@[simp] theorem Block.setSub_pub (i : Nat) (y : GSub) : (b.setSub i y).pub = b.pub := rfl
@[simp] theorem Block.setSub_rhz (i : Nat) (y : GSub) : (b.setSub i y).rhz = b.rhz := rfl
@[simp] theorem Block.setSub_sor (i : Nat) (y : GSub) : (b.setSub i y).sor = b.sor := rfl
@[simp] theorem Block.setSub_crz (i : Nat) (y : GSub) : (b.setSub i y).crz = b.crz := rfl
@[simp] theorem Block.setSub_frd (i : Nat) (y : GSub) : (b.setSub i y).frd = b.frd := rfl
@[simp] theorem Block.setSub_acq (i : Nat) (y : GSub) : (b.setSub i y).acq = b.acq := rfl
@[simp] theorem Block.setSub_rope (i : Nat) (y : GSub) : (b.setSub i y).rope = b.rope := rfl
@[simp] theorem Block.setSub_vin (i : Nat) (y : GSub) : (b.setSub i y).vin = b.vin := rfl
@[simp] theorem Block.setSub_hif (i : Nat) (y : GSub) : (b.setSub i y).hif = b.hif := rfl
@[simp] theorem Block.setSub_seg (i : Nat) (y : GSub) : (b.setSub i y).seg = b.seg := rfl
@[simp] theorem Block.setSub_hostWait (i : Nat) (y : GSub) : (b.setSub i y).hostWait = b.hostWait := rfl
@[simp] theorem Block.setSub_nrg (i : Nat) (y : GSub) : (b.setSub i y).nrg = b.nrg := rfl
@[simp] theorem Block.setSub_aux (i : Nat) (y : GSub) : (b.setSub i y).aux = b.aux := rfl
@[simp] theorem Block.setSub_rst (i : Nat) (y : GSub) : (b.setSub i y).rst = b.rst := rfl
@[simp] theorem Block.setSub_img (i : Nat) (y : GSub) : (b.setSub i y).img = b.img := rfl
@[simp] theorem Block.setSub_key (i : Nat) (y : GSub) : (b.setSub i y).key = b.key := rfl
@[simp] theorem Block.setSub_crn (i : Nat) (y : GSub) : (b.setSub i y).crn = b.crn := rfl
@[simp] theorem Block.setSub_rd (i : Nat) (y : GSub) (x : Nat) : (b.setSub i y).rd x = b.rd x := rfl
@[simp] theorem Block.setSub_get (i : Nat) (y : GSub) (x : Fld) : (b.setSub i y).get x = b.get x := rfl
@[simp] theorem Block.setSub_on (i : Nat) (y : GSub) (x : Fld) : (b.setSub i y).on x = b.on x := rfl
@[simp] theorem Block.setSub_byte (i : Nat) (y : GSub) (sp' : Space) (x : Nat) : (b.setSub i y).byte sp' x = b.byte sp' x := rfl
@[simp] theorem Block.setPub_member (i : Nat) (y : Pub) : (b.setPub i y).member = b.member := rfl
@[simp] theorem Block.setPub_regs (i : Nat) (y : Pub) : (b.setPub i y).regs = b.regs := rfl
@[simp] theorem Block.setPub_mem (i : Nat) (y : Pub) : (b.setPub i y).mem = b.mem := rfl
@[simp] theorem Block.setPub_outs (i : Nat) (y : Pub) : (b.setPub i y).outs = b.outs := rfl
@[simp] theorem Block.setPub_freeCtr (i : Nat) (y : Pub) : (b.setPub i y).freeCtr = b.freeCtr := rfl
@[simp] theorem Block.setPub_readData (i : Nat) (y : Pub) : (b.setPub i y).readData = b.readData := rfl
@[simp] theorem Block.setPub_shadow (i : Nat) (y : Pub) : (b.setPub i y).shadow = b.shadow := rfl
@[simp] theorem Block.setPub_staging (i : Nat) (y : Pub) : (b.setPub i y).staging = b.staging := rfl
@[simp] theorem Block.setPub_imgLock (i : Nat) (y : Pub) : (b.setPub i y).imgLock = b.imgLock := rfl
@[simp] theorem Block.setPub_xtal (i : Nat) (y : Pub) : (b.setPub i y).xtal = b.xtal := rfl
@[simp] theorem Block.setPub_gates (i : Nat) (y : Pub) : (b.setPub i y).gates = b.gates := rfl
@[simp] theorem Block.setPub_msixEn (i : Nat) (y : Pub) : (b.setPub i y).msixEn = b.msixEn := rfl
@[simp] theorem Block.setPub_msixMask (i : Nat) (y : Pub) : (b.setPub i y).msixMask = b.msixMask := rfl
@[simp] theorem Block.setPub_crzEvt (i : Nat) (y : Pub) : (b.setPub i y).crzEvt = b.crzEvt := rfl
@[simp] theorem Block.setPub_fifo (i : Nat) (y : Pub) : (b.setPub i y).fifo = b.fifo := rfl
@[simp] theorem Block.setPub_marker (i : Nat) (y : Pub) : (b.setPub i y).marker = b.marker := rfl
@[simp] theorem Block.setPub_firstLost (i : Nat) (y : Pub) : (b.setPub i y).firstLost = b.firstLost := rfl
@[simp] theorem Block.setPub_ridge (i : Nat) (y : Pub) : (b.setPub i y).ridge = b.ridge := rfl
@[simp] theorem Block.setPub_tim (i : Nat) (y : Pub) : (b.setPub i y).tim = b.tim := rfl
@[simp] theorem Block.setPub_port (i : Nat) (y : Pub) : (b.setPub i y).port = b.port := rfl
@[simp] theorem Block.setPub_swc (i : Nat) (y : Pub) : (b.setPub i y).swc = b.swc := rfl
@[simp] theorem Block.setPub_rhz (i : Nat) (y : Pub) : (b.setPub i y).rhz = b.rhz := rfl
@[simp] theorem Block.setPub_sor (i : Nat) (y : Pub) : (b.setPub i y).sor = b.sor := rfl
@[simp] theorem Block.setPub_crz (i : Nat) (y : Pub) : (b.setPub i y).crz = b.crz := rfl
@[simp] theorem Block.setPub_frd (i : Nat) (y : Pub) : (b.setPub i y).frd = b.frd := rfl
@[simp] theorem Block.setPub_gin (i : Nat) (y : Pub) : (b.setPub i y).gin = b.gin := rfl
@[simp] theorem Block.setPub_acq (i : Nat) (y : Pub) : (b.setPub i y).acq = b.acq := rfl
@[simp] theorem Block.setPub_rope (i : Nat) (y : Pub) : (b.setPub i y).rope = b.rope := rfl
@[simp] theorem Block.setPub_vin (i : Nat) (y : Pub) : (b.setPub i y).vin = b.vin := rfl
@[simp] theorem Block.setPub_hif (i : Nat) (y : Pub) : (b.setPub i y).hif = b.hif := rfl
@[simp] theorem Block.setPub_seg (i : Nat) (y : Pub) : (b.setPub i y).seg = b.seg := rfl
@[simp] theorem Block.setPub_hostWait (i : Nat) (y : Pub) : (b.setPub i y).hostWait = b.hostWait := rfl
@[simp] theorem Block.setPub_nrg (i : Nat) (y : Pub) : (b.setPub i y).nrg = b.nrg := rfl
@[simp] theorem Block.setPub_aux (i : Nat) (y : Pub) : (b.setPub i y).aux = b.aux := rfl
@[simp] theorem Block.setPub_rst (i : Nat) (y : Pub) : (b.setPub i y).rst = b.rst := rfl
@[simp] theorem Block.setPub_img (i : Nat) (y : Pub) : (b.setPub i y).img = b.img := rfl
@[simp] theorem Block.setPub_key (i : Nat) (y : Pub) : (b.setPub i y).key = b.key := rfl
@[simp] theorem Block.setPub_crn (i : Nat) (y : Pub) : (b.setPub i y).crn = b.crn := rfl
@[simp] theorem Block.setPub_rd (i : Nat) (y : Pub) (x : Nat) : (b.setPub i y).rd x = b.rd x := rfl
@[simp] theorem Block.setPub_get (i : Nat) (y : Pub) (x : Fld) : (b.setPub i y).get x = b.get x := rfl
@[simp] theorem Block.setPub_on (i : Nat) (y : Pub) (x : Fld) : (b.setPub i y).on x = b.on x := rfl
@[simp] theorem Block.setPub_byte (i : Nat) (y : Pub) (sp' : Space) (x : Nat) : (b.setPub i y).byte sp' x = b.byte sp' x := rfl
@[simp] theorem Block.setChan_member (i : Nat) (y : Chan) : (b.setChan i y).member = b.member := rfl
@[simp] theorem Block.setChan_regs (i : Nat) (y : Chan) : (b.setChan i y).regs = b.regs := rfl
@[simp] theorem Block.setChan_mem (i : Nat) (y : Chan) : (b.setChan i y).mem = b.mem := rfl
@[simp] theorem Block.setChan_outs (i : Nat) (y : Chan) : (b.setChan i y).outs = b.outs := rfl
@[simp] theorem Block.setChan_freeCtr (i : Nat) (y : Chan) : (b.setChan i y).freeCtr = b.freeCtr := rfl
@[simp] theorem Block.setChan_readData (i : Nat) (y : Chan) : (b.setChan i y).readData = b.readData := rfl
@[simp] theorem Block.setChan_shadow (i : Nat) (y : Chan) : (b.setChan i y).shadow = b.shadow := rfl
@[simp] theorem Block.setChan_staging (i : Nat) (y : Chan) : (b.setChan i y).staging = b.staging := rfl
@[simp] theorem Block.setChan_imgLock (i : Nat) (y : Chan) : (b.setChan i y).imgLock = b.imgLock := rfl
@[simp] theorem Block.setChan_xtal (i : Nat) (y : Chan) : (b.setChan i y).xtal = b.xtal := rfl
@[simp] theorem Block.setChan_gates (i : Nat) (y : Chan) : (b.setChan i y).gates = b.gates := rfl
@[simp] theorem Block.setChan_msixEn (i : Nat) (y : Chan) : (b.setChan i y).msixEn = b.msixEn := rfl
@[simp] theorem Block.setChan_msixMask (i : Nat) (y : Chan) : (b.setChan i y).msixMask = b.msixMask := rfl
@[simp] theorem Block.setChan_crzEvt (i : Nat) (y : Chan) : (b.setChan i y).crzEvt = b.crzEvt := rfl
@[simp] theorem Block.setChan_fifo (i : Nat) (y : Chan) : (b.setChan i y).fifo = b.fifo := rfl
@[simp] theorem Block.setChan_marker (i : Nat) (y : Chan) : (b.setChan i y).marker = b.marker := rfl
@[simp] theorem Block.setChan_firstLost (i : Nat) (y : Chan) : (b.setChan i y).firstLost = b.firstLost := rfl
@[simp] theorem Block.setChan_ridge (i : Nat) (y : Chan) : (b.setChan i y).ridge = b.ridge := rfl
@[simp] theorem Block.setChan_tim (i : Nat) (y : Chan) : (b.setChan i y).tim = b.tim := rfl
@[simp] theorem Block.setChan_port (i : Nat) (y : Chan) : (b.setChan i y).port = b.port := rfl
@[simp] theorem Block.setChan_swc (i : Nat) (y : Chan) : (b.setChan i y).swc = b.swc := rfl
@[simp] theorem Block.setChan_pub (i : Nat) (y : Chan) : (b.setChan i y).pub = b.pub := rfl
@[simp] theorem Block.setChan_rhz (i : Nat) (y : Chan) : (b.setChan i y).rhz = b.rhz := rfl
@[simp] theorem Block.setChan_crz (i : Nat) (y : Chan) : (b.setChan i y).crz = b.crz := rfl
@[simp] theorem Block.setChan_frd (i : Nat) (y : Chan) : (b.setChan i y).frd = b.frd := rfl
@[simp] theorem Block.setChan_gin (i : Nat) (y : Chan) : (b.setChan i y).gin = b.gin := rfl
@[simp] theorem Block.setChan_acq (i : Nat) (y : Chan) : (b.setChan i y).acq = b.acq := rfl
@[simp] theorem Block.setChan_rope (i : Nat) (y : Chan) : (b.setChan i y).rope = b.rope := rfl
@[simp] theorem Block.setChan_vin (i : Nat) (y : Chan) : (b.setChan i y).vin = b.vin := rfl
@[simp] theorem Block.setChan_hif (i : Nat) (y : Chan) : (b.setChan i y).hif = b.hif := rfl
@[simp] theorem Block.setChan_seg (i : Nat) (y : Chan) : (b.setChan i y).seg = b.seg := rfl
@[simp] theorem Block.setChan_hostWait (i : Nat) (y : Chan) : (b.setChan i y).hostWait = b.hostWait := rfl
@[simp] theorem Block.setChan_nrg (i : Nat) (y : Chan) : (b.setChan i y).nrg = b.nrg := rfl
@[simp] theorem Block.setChan_aux (i : Nat) (y : Chan) : (b.setChan i y).aux = b.aux := rfl
@[simp] theorem Block.setChan_rst (i : Nat) (y : Chan) : (b.setChan i y).rst = b.rst := rfl
@[simp] theorem Block.setChan_img (i : Nat) (y : Chan) : (b.setChan i y).img = b.img := rfl
@[simp] theorem Block.setChan_key (i : Nat) (y : Chan) : (b.setChan i y).key = b.key := rfl
@[simp] theorem Block.setChan_crn (i : Nat) (y : Chan) : (b.setChan i y).crn = b.crn := rfl
@[simp] theorem Block.setChan_rd (i : Nat) (y : Chan) (x : Nat) : (b.setChan i y).rd x = b.rd x := rfl
@[simp] theorem Block.setChan_get (i : Nat) (y : Chan) (x : Fld) : (b.setChan i y).get x = b.get x := rfl
@[simp] theorem Block.setChan_on (i : Nat) (y : Chan) (x : Fld) : (b.setChan i y).on x = b.on x := rfl
@[simp] theorem Block.setChan_byte (i : Nat) (y : Chan) (sp' : Space) (x : Nat) : (b.setChan i y).byte sp' x = b.byte sp' x := rfl
@[simp] theorem Block.setTrk_member (i : Nat) (y : Trk) : (b.setTrk i y).member = b.member := rfl
@[simp] theorem Block.setTrk_regs (i : Nat) (y : Trk) : (b.setTrk i y).regs = b.regs := rfl
@[simp] theorem Block.setTrk_mem (i : Nat) (y : Trk) : (b.setTrk i y).mem = b.mem := rfl
@[simp] theorem Block.setTrk_outs (i : Nat) (y : Trk) : (b.setTrk i y).outs = b.outs := rfl
@[simp] theorem Block.setTrk_freeCtr (i : Nat) (y : Trk) : (b.setTrk i y).freeCtr = b.freeCtr := rfl
@[simp] theorem Block.setTrk_readData (i : Nat) (y : Trk) : (b.setTrk i y).readData = b.readData := rfl
@[simp] theorem Block.setTrk_shadow (i : Nat) (y : Trk) : (b.setTrk i y).shadow = b.shadow := rfl
@[simp] theorem Block.setTrk_staging (i : Nat) (y : Trk) : (b.setTrk i y).staging = b.staging := rfl
@[simp] theorem Block.setTrk_imgLock (i : Nat) (y : Trk) : (b.setTrk i y).imgLock = b.imgLock := rfl
@[simp] theorem Block.setTrk_xtal (i : Nat) (y : Trk) : (b.setTrk i y).xtal = b.xtal := rfl
@[simp] theorem Block.setTrk_gates (i : Nat) (y : Trk) : (b.setTrk i y).gates = b.gates := rfl
@[simp] theorem Block.setTrk_msixEn (i : Nat) (y : Trk) : (b.setTrk i y).msixEn = b.msixEn := rfl
@[simp] theorem Block.setTrk_msixMask (i : Nat) (y : Trk) : (b.setTrk i y).msixMask = b.msixMask := rfl
@[simp] theorem Block.setTrk_crzEvt (i : Nat) (y : Trk) : (b.setTrk i y).crzEvt = b.crzEvt := rfl
@[simp] theorem Block.setTrk_fifo (i : Nat) (y : Trk) : (b.setTrk i y).fifo = b.fifo := rfl
@[simp] theorem Block.setTrk_marker (i : Nat) (y : Trk) : (b.setTrk i y).marker = b.marker := rfl
@[simp] theorem Block.setTrk_firstLost (i : Nat) (y : Trk) : (b.setTrk i y).firstLost = b.firstLost := rfl
@[simp] theorem Block.setTrk_ridge (i : Nat) (y : Trk) : (b.setTrk i y).ridge = b.ridge := rfl
@[simp] theorem Block.setTrk_tim (i : Nat) (y : Trk) : (b.setTrk i y).tim = b.tim := rfl
@[simp] theorem Block.setTrk_port (i : Nat) (y : Trk) : (b.setTrk i y).port = b.port := rfl
@[simp] theorem Block.setTrk_swc (i : Nat) (y : Trk) : (b.setTrk i y).swc = b.swc := rfl
@[simp] theorem Block.setTrk_pub (i : Nat) (y : Trk) : (b.setTrk i y).pub = b.pub := rfl
@[simp] theorem Block.setTrk_rhz (i : Nat) (y : Trk) : (b.setTrk i y).rhz = b.rhz := rfl
@[simp] theorem Block.setTrk_crz (i : Nat) (y : Trk) : (b.setTrk i y).crz = b.crz := rfl
@[simp] theorem Block.setTrk_frd (i : Nat) (y : Trk) : (b.setTrk i y).frd = b.frd := rfl
@[simp] theorem Block.setTrk_gin (i : Nat) (y : Trk) : (b.setTrk i y).gin = b.gin := rfl
@[simp] theorem Block.setTrk_acq (i : Nat) (y : Trk) : (b.setTrk i y).acq = b.acq := rfl
@[simp] theorem Block.setTrk_rope (i : Nat) (y : Trk) : (b.setTrk i y).rope = b.rope := rfl
@[simp] theorem Block.setTrk_vin (i : Nat) (y : Trk) : (b.setTrk i y).vin = b.vin := rfl
@[simp] theorem Block.setTrk_hif (i : Nat) (y : Trk) : (b.setTrk i y).hif = b.hif := rfl
@[simp] theorem Block.setTrk_seg (i : Nat) (y : Trk) : (b.setTrk i y).seg = b.seg := rfl
@[simp] theorem Block.setTrk_hostWait (i : Nat) (y : Trk) : (b.setTrk i y).hostWait = b.hostWait := rfl
@[simp] theorem Block.setTrk_nrg (i : Nat) (y : Trk) : (b.setTrk i y).nrg = b.nrg := rfl
@[simp] theorem Block.setTrk_aux (i : Nat) (y : Trk) : (b.setTrk i y).aux = b.aux := rfl
@[simp] theorem Block.setTrk_rst (i : Nat) (y : Trk) : (b.setTrk i y).rst = b.rst := rfl
@[simp] theorem Block.setTrk_img (i : Nat) (y : Trk) : (b.setTrk i y).img = b.img := rfl
@[simp] theorem Block.setTrk_key (i : Nat) (y : Trk) : (b.setTrk i y).key = b.key := rfl
@[simp] theorem Block.setTrk_crn (i : Nat) (y : Trk) : (b.setTrk i y).crn = b.crn := rfl
@[simp] theorem Block.setTrk_rd (i : Nat) (y : Trk) (x : Nat) : (b.setTrk i y).rd x = b.rd x := rfl
@[simp] theorem Block.setTrk_get (i : Nat) (y : Trk) (x : Fld) : (b.setTrk i y).get x = b.get x := rfl
@[simp] theorem Block.setTrk_on (i : Nat) (y : Trk) (x : Fld) : (b.setTrk i y).on x = b.on x := rfl
@[simp] theorem Block.setTrk_byte (i : Nat) (y : Trk) (sp' : Space) (x : Nat) : (b.setTrk i y).byte sp' x = b.byte sp' x := rfl
@[simp] theorem Block.setPrt_member (i : Nat) (y : Port) : (b.setPrt i y).member = b.member := rfl
@[simp] theorem Block.setPrt_regs (i : Nat) (y : Port) : (b.setPrt i y).regs = b.regs := rfl
@[simp] theorem Block.setPrt_mem (i : Nat) (y : Port) : (b.setPrt i y).mem = b.mem := rfl
@[simp] theorem Block.setPrt_outs (i : Nat) (y : Port) : (b.setPrt i y).outs = b.outs := rfl
@[simp] theorem Block.setPrt_freeCtr (i : Nat) (y : Port) : (b.setPrt i y).freeCtr = b.freeCtr := rfl
@[simp] theorem Block.setPrt_readData (i : Nat) (y : Port) : (b.setPrt i y).readData = b.readData := rfl
@[simp] theorem Block.setPrt_shadow (i : Nat) (y : Port) : (b.setPrt i y).shadow = b.shadow := rfl
@[simp] theorem Block.setPrt_staging (i : Nat) (y : Port) : (b.setPrt i y).staging = b.staging := rfl
@[simp] theorem Block.setPrt_imgLock (i : Nat) (y : Port) : (b.setPrt i y).imgLock = b.imgLock := rfl
@[simp] theorem Block.setPrt_xtal (i : Nat) (y : Port) : (b.setPrt i y).xtal = b.xtal := rfl
@[simp] theorem Block.setPrt_gates (i : Nat) (y : Port) : (b.setPrt i y).gates = b.gates := rfl
@[simp] theorem Block.setPrt_msixEn (i : Nat) (y : Port) : (b.setPrt i y).msixEn = b.msixEn := rfl
@[simp] theorem Block.setPrt_msixMask (i : Nat) (y : Port) : (b.setPrt i y).msixMask = b.msixMask := rfl
@[simp] theorem Block.setPrt_crzEvt (i : Nat) (y : Port) : (b.setPrt i y).crzEvt = b.crzEvt := rfl
@[simp] theorem Block.setPrt_fifo (i : Nat) (y : Port) : (b.setPrt i y).fifo = b.fifo := rfl
@[simp] theorem Block.setPrt_marker (i : Nat) (y : Port) : (b.setPrt i y).marker = b.marker := rfl
@[simp] theorem Block.setPrt_firstLost (i : Nat) (y : Port) : (b.setPrt i y).firstLost = b.firstLost := rfl
@[simp] theorem Block.setPrt_ridge (i : Nat) (y : Port) : (b.setPrt i y).ridge = b.ridge := rfl
@[simp] theorem Block.setPrt_tim (i : Nat) (y : Port) : (b.setPrt i y).tim = b.tim := rfl
@[simp] theorem Block.setPrt_swc (i : Nat) (y : Port) : (b.setPrt i y).swc = b.swc := rfl
@[simp] theorem Block.setPrt_pub (i : Nat) (y : Port) : (b.setPrt i y).pub = b.pub := rfl
@[simp] theorem Block.setPrt_rhz (i : Nat) (y : Port) : (b.setPrt i y).rhz = b.rhz := rfl
@[simp] theorem Block.setPrt_sor (i : Nat) (y : Port) : (b.setPrt i y).sor = b.sor := rfl
@[simp] theorem Block.setPrt_crz (i : Nat) (y : Port) : (b.setPrt i y).crz = b.crz := rfl
@[simp] theorem Block.setPrt_frd (i : Nat) (y : Port) : (b.setPrt i y).frd = b.frd := rfl
@[simp] theorem Block.setPrt_gin (i : Nat) (y : Port) : (b.setPrt i y).gin = b.gin := rfl
@[simp] theorem Block.setPrt_acq (i : Nat) (y : Port) : (b.setPrt i y).acq = b.acq := rfl
@[simp] theorem Block.setPrt_rope (i : Nat) (y : Port) : (b.setPrt i y).rope = b.rope := rfl
@[simp] theorem Block.setPrt_vin (i : Nat) (y : Port) : (b.setPrt i y).vin = b.vin := rfl
@[simp] theorem Block.setPrt_hif (i : Nat) (y : Port) : (b.setPrt i y).hif = b.hif := rfl
@[simp] theorem Block.setPrt_seg (i : Nat) (y : Port) : (b.setPrt i y).seg = b.seg := rfl
@[simp] theorem Block.setPrt_hostWait (i : Nat) (y : Port) : (b.setPrt i y).hostWait = b.hostWait := rfl
@[simp] theorem Block.setPrt_nrg (i : Nat) (y : Port) : (b.setPrt i y).nrg = b.nrg := rfl
@[simp] theorem Block.setPrt_aux (i : Nat) (y : Port) : (b.setPrt i y).aux = b.aux := rfl
@[simp] theorem Block.setPrt_rst (i : Nat) (y : Port) : (b.setPrt i y).rst = b.rst := rfl
@[simp] theorem Block.setPrt_img (i : Nat) (y : Port) : (b.setPrt i y).img = b.img := rfl
@[simp] theorem Block.setPrt_key (i : Nat) (y : Port) : (b.setPrt i y).key = b.key := rfl
@[simp] theorem Block.setPrt_crn (i : Nat) (y : Port) : (b.setPrt i y).crn = b.crn := rfl
@[simp] theorem Block.setPrt_rd (i : Nat) (y : Port) (x : Nat) : (b.setPrt i y).rd x = b.rd x := rfl
@[simp] theorem Block.setPrt_get (i : Nat) (y : Port) (x : Fld) : (b.setPrt i y).get x = b.get x := rfl
@[simp] theorem Block.setPrt_on (i : Nat) (y : Port) (x : Fld) : (b.setPrt i y).on x = b.on x := rfl
@[simp] theorem Block.setPrt_byte (i : Nat) (y : Port) (sp' : Space) (x : Nat) : (b.setPrt i y).byte sp' x = b.byte sp' x := rfl
@[simp] theorem Block.setThr_member (i : Nat) (y : Thr) : (b.setThr i y).member = b.member := rfl
@[simp] theorem Block.setThr_regs (i : Nat) (y : Thr) : (b.setThr i y).regs = b.regs := rfl
@[simp] theorem Block.setThr_mem (i : Nat) (y : Thr) : (b.setThr i y).mem = b.mem := rfl
@[simp] theorem Block.setThr_outs (i : Nat) (y : Thr) : (b.setThr i y).outs = b.outs := rfl
@[simp] theorem Block.setThr_freeCtr (i : Nat) (y : Thr) : (b.setThr i y).freeCtr = b.freeCtr := rfl
@[simp] theorem Block.setThr_readData (i : Nat) (y : Thr) : (b.setThr i y).readData = b.readData := rfl
@[simp] theorem Block.setThr_shadow (i : Nat) (y : Thr) : (b.setThr i y).shadow = b.shadow := rfl
@[simp] theorem Block.setThr_staging (i : Nat) (y : Thr) : (b.setThr i y).staging = b.staging := rfl
@[simp] theorem Block.setThr_imgLock (i : Nat) (y : Thr) : (b.setThr i y).imgLock = b.imgLock := rfl
@[simp] theorem Block.setThr_xtal (i : Nat) (y : Thr) : (b.setThr i y).xtal = b.xtal := rfl
@[simp] theorem Block.setThr_gates (i : Nat) (y : Thr) : (b.setThr i y).gates = b.gates := rfl
@[simp] theorem Block.setThr_msixEn (i : Nat) (y : Thr) : (b.setThr i y).msixEn = b.msixEn := rfl
@[simp] theorem Block.setThr_msixMask (i : Nat) (y : Thr) : (b.setThr i y).msixMask = b.msixMask := rfl
@[simp] theorem Block.setThr_crzEvt (i : Nat) (y : Thr) : (b.setThr i y).crzEvt = b.crzEvt := rfl
@[simp] theorem Block.setThr_fifo (i : Nat) (y : Thr) : (b.setThr i y).fifo = b.fifo := rfl
@[simp] theorem Block.setThr_marker (i : Nat) (y : Thr) : (b.setThr i y).marker = b.marker := rfl
@[simp] theorem Block.setThr_firstLost (i : Nat) (y : Thr) : (b.setThr i y).firstLost = b.firstLost := rfl
@[simp] theorem Block.setThr_ridge (i : Nat) (y : Thr) : (b.setThr i y).ridge = b.ridge := rfl
@[simp] theorem Block.setThr_tim (i : Nat) (y : Thr) : (b.setThr i y).tim = b.tim := rfl
@[simp] theorem Block.setThr_port (i : Nat) (y : Thr) : (b.setThr i y).port = b.port := rfl
@[simp] theorem Block.setThr_swc (i : Nat) (y : Thr) : (b.setThr i y).swc = b.swc := rfl
@[simp] theorem Block.setThr_pub (i : Nat) (y : Thr) : (b.setThr i y).pub = b.pub := rfl
@[simp] theorem Block.setThr_rhz (i : Nat) (y : Thr) : (b.setThr i y).rhz = b.rhz := rfl
@[simp] theorem Block.setThr_crz (i : Nat) (y : Thr) : (b.setThr i y).crz = b.crz := rfl
@[simp] theorem Block.setThr_frd (i : Nat) (y : Thr) : (b.setThr i y).frd = b.frd := rfl
@[simp] theorem Block.setThr_gin (i : Nat) (y : Thr) : (b.setThr i y).gin = b.gin := rfl
@[simp] theorem Block.setThr_acq (i : Nat) (y : Thr) : (b.setThr i y).acq = b.acq := rfl
@[simp] theorem Block.setThr_rope (i : Nat) (y : Thr) : (b.setThr i y).rope = b.rope := rfl
@[simp] theorem Block.setThr_vin (i : Nat) (y : Thr) : (b.setThr i y).vin = b.vin := rfl
@[simp] theorem Block.setThr_hif (i : Nat) (y : Thr) : (b.setThr i y).hif = b.hif := rfl
@[simp] theorem Block.setThr_seg (i : Nat) (y : Thr) : (b.setThr i y).seg = b.seg := rfl
@[simp] theorem Block.setThr_hostWait (i : Nat) (y : Thr) : (b.setThr i y).hostWait = b.hostWait := rfl
@[simp] theorem Block.setThr_nrg (i : Nat) (y : Thr) : (b.setThr i y).nrg = b.nrg := rfl
@[simp] theorem Block.setThr_aux (i : Nat) (y : Thr) : (b.setThr i y).aux = b.aux := rfl
@[simp] theorem Block.setThr_rst (i : Nat) (y : Thr) : (b.setThr i y).rst = b.rst := rfl
@[simp] theorem Block.setThr_img (i : Nat) (y : Thr) : (b.setThr i y).img = b.img := rfl
@[simp] theorem Block.setThr_key (i : Nat) (y : Thr) : (b.setThr i y).key = b.key := rfl
@[simp] theorem Block.setThr_crn (i : Nat) (y : Thr) : (b.setThr i y).crn = b.crn := rfl
@[simp] theorem Block.setThr_rd (i : Nat) (y : Thr) (x : Nat) : (b.setThr i y).rd x = b.rd x := rfl
@[simp] theorem Block.setThr_get (i : Nat) (y : Thr) (x : Fld) : (b.setThr i y).get x = b.get x := rfl
@[simp] theorem Block.setThr_on (i : Nat) (y : Thr) (x : Fld) : (b.setThr i y).on x = b.on x := rfl
@[simp] theorem Block.setThr_byte (i : Nat) (y : Thr) (sp' : Space) (x : Nat) : (b.setThr i y).byte sp' x = b.byte sp' x := rfl

end

/-! The end of a command -/

section
variable (b : Block)

@[simp] theorem Block.commit_member : b.commit.member = b.member := rfl
@[simp] theorem Block.commit_outs : b.commit.outs = b.outs := rfl
@[simp] theorem Block.commit_freeCtr : b.commit.freeCtr = b.freeCtr := rfl
@[simp] theorem Block.commit_readData : b.commit.readData = b.readData := rfl
@[simp] theorem Block.commit_shadow : b.commit.shadow = b.shadow := rfl
@[simp] theorem Block.commit_staging : b.commit.staging = b.staging := rfl
@[simp] theorem Block.commit_imgLock : b.commit.imgLock = b.imgLock := rfl
@[simp] theorem Block.commit_xtal : b.commit.xtal = b.xtal := rfl
@[simp] theorem Block.commit_gates : b.commit.gates = b.gates := rfl
@[simp] theorem Block.commit_msixEn : b.commit.msixEn = b.msixEn := rfl
@[simp] theorem Block.commit_msixMask : b.commit.msixMask = b.msixMask := rfl
@[simp] theorem Block.commit_crzEvt : b.commit.crzEvt = b.crzEvt := rfl
@[simp] theorem Block.commit_fifo : b.commit.fifo = b.fifo := rfl
@[simp] theorem Block.commit_marker : b.commit.marker = b.marker := rfl
@[simp] theorem Block.commit_firstLost : b.commit.firstLost = b.firstLost := rfl
@[simp] theorem Block.commit_ridge : b.commit.ridge = b.ridge := rfl
@[simp] theorem Block.commit_tim : b.commit.tim = b.tim := rfl
@[simp] theorem Block.commit_port : b.commit.port = b.port := rfl
@[simp] theorem Block.commit_swc : b.commit.swc = b.swc := rfl
@[simp] theorem Block.commit_pub : b.commit.pub = b.pub := rfl
@[simp] theorem Block.commit_rhz : b.commit.rhz = b.rhz := rfl
@[simp] theorem Block.commit_sor : b.commit.sor = b.sor := rfl
@[simp] theorem Block.commit_crz : b.commit.crz = b.crz := rfl
@[simp] theorem Block.commit_frd : b.commit.frd = b.frd := rfl
@[simp] theorem Block.commit_gin : b.commit.gin = b.gin := rfl
@[simp] theorem Block.commit_acq : b.commit.acq = b.acq := rfl
@[simp] theorem Block.commit_rope : b.commit.rope = b.rope := rfl
@[simp] theorem Block.commit_vin : b.commit.vin = b.vin := rfl
@[simp] theorem Block.commit_hif : b.commit.hif = b.hif := rfl
@[simp] theorem Block.commit_seg : b.commit.seg = b.seg := rfl
@[simp] theorem Block.commit_hostWait : b.commit.hostWait = b.hostWait := rfl
@[simp] theorem Block.commit_nrg : b.commit.nrg = b.nrg := rfl
@[simp] theorem Block.commit_aux : b.commit.aux = b.aux := rfl
@[simp] theorem Block.commit_rst : b.commit.rst = b.rst := rfl
@[simp] theorem Block.commit_img : b.commit.img = b.img := rfl
@[simp] theorem Block.commit_key : b.commit.key = b.key := rfl
@[simp] theorem Block.commit_crn : b.commit.crn = b.crn := rfl

end

end Sys2Proof.Machine
end

