-- ==== Sys2Proof/Laws/Ops.lean ====
section
/-! SUPPORT. What the shared operations can do: events, counters, refused accesses, reports, unit reset requests, free values. Each
leaves a unit's own state, the memories and all but a few registers alone. -/

namespace Sys2Proof.Machine

open Sys2Proof Sys2Proof.Reg

/-- The block less what the shared operations may change. -/
def Block.own (b : Block) : Block :=
  { b with regs := [], outs := [], crzEvt := [], hif := {}, gates := [], fifo := [], marker := none, firstLost := [], freeCtr := 0, readData := 0,
           ridge := { b.ridge with irq := [] } }

theorem own_wr (b : Block) (a : Nat) (v : Word) : (b.wr a v).own = b.own := rfl
theorem own_set (b : Block) (f : Fld) (v : Nat) : (b.set f v).own = b.own := rfl
theorem own_emit (b : Block) (o : Output) : (b.emit o).own = b.own := rfl

/-! Messages and wake causes -/

theorem own_msix (b : Block) (v : Nat) : (b.msix v).1.own = b.own := by
  unfold Block.msix
  split
  · dsimp only
    split <;> rfl
  · rfl

theorem rd_msix (b : Block) (v a : Nat) (hv : v < 2048) (h : evtReg a = false) : (b.msix v).1.rd a = b.rd a := by
  simp only [evtReg, Bool.or_eq_false_iff, beq_eq_false_iff_ne, Bool.and_eq_false_iff, decide_eq_false_iff_not] at h
  have h6 : HIF_CNTi 6 ≠ a := fun e => h.1.1.1.1.1.2 e.symm
  have hr : HIF_CNT_ROLL ≠ a := fun e => h.1.1.1.1.2 e.symm
  have hp : pbaWord v ≠ a := by unfold pbaWord; omega
  unfold Block.msix
  split
  · dsimp only
    split
    · rw [Block.rd_set_ne _ hr, Block.rd_wr_ne _ h6]; rfl
    · rw [Block.rd_wr_ne _ h6]; rfl
  · rw [Block.rd_set_ne _ hp]

theorem own_hif (b : Block) (h : Hif) : Block.own { b with hif := h } = b.own := rfl
theorem rd_hif (b : Block) (h : Hif) (a : Nat) : Block.rd { b with hif := h } a = b.rd a := rfl

theorem own_wakeCause (b : Block) (k i s : Nat) : (b.wakeCause k i s).1.own = b.own := by
  unfold Block.wakeCause
  split
  · rfl
  split
  · rfl
  dsimp only
  split
  · simp only [Block.wr64, own_wr, own_set]
  split
  · split <;> simp only [Block.wr64, own_wr, own_set]
  · rw [own_hif]; simp only [Block.wr64, own_wr, own_set]

theorem rd_wakeCause (b : Block) (k i s a : Nat) (h : evtReg a = false) : (b.wakeCause k i s).1.rd a = b.rd a := by
  simp only [evtReg, Bool.or_eq_false_iff, beq_eq_false_iff_ne, Bool.and_eq_false_iff, decide_eq_false_iff_not] at h
  have h5 : HIF_CNTi 5 ≠ a := fun e => h.1.1.1.1.1.1.2 e.symm
  have hr : HIF_CNT_ROLL ≠ a := fun e => h.1.1.1.1.2 e.symm
  have hw : HIF_WAKE_CAUSE ≠ a := fun e => h.1.1.1.2 e.symm
  have hl : HIF_WAKE_TIME_LO ≠ a := fun e => h.1.1.2 e.symm
  have hh : HIF_WAKE_TIME_LO + 4 ≠ a := fun e => h.1.2 e.symm
  have f1 : HIF_WAKE_CAUSE_COUNT.addr ≠ a := hw
  have f2 : HIF_WAKE_CAUSE_VALID.addr ≠ a := hw
  have f3 : HIF_WAKE_CAUSE_KIND.addr ≠ a := hw
  have f4 : HIF_WAKE_CAUSE_INSTANCE.addr ≠ a := hw
  have f5 : HIF_WAKE_CAUSE_SOURCE.addr ≠ a := hw
  have f6 : HIF_WAKE_CAUSE_WITHDRAWN.addr ≠ a := hw
  have f7 : (bitOf HIF_CNT_ROLL 5).addr ≠ a := hr
  unfold Block.wakeCause
  split
  · rfl
  split
  · rw [Block.rd_set_ne _ f1]
  simp only
  have base : ∀ c : Block, ((((((c.wr HIF_WAKE_CAUSE 0).set HIF_WAKE_CAUSE_VALID 1).set HIF_WAKE_CAUSE_KIND k).set HIF_WAKE_CAUSE_INSTANCE i).set
      HIF_WAKE_CAUSE_SOURCE s).wr64 HIF_WAKE_TIME_LO b.ns).rd a = c.rd a := by
    intro c
    unfold Block.wr64
    rw [Block.rd_wr_ne _ hh, Block.rd_wr_ne _ hl, Block.rd_set_ne _ f5, Block.rd_set_ne _ f4, Block.rd_set_ne _ f3, Block.rd_set_ne _ f2, Block.rd_wr_ne _ hw]
  split
  · exact base b
  split
  · split
    · rw [Block.rd_set_ne _ f7, Block.rd_wr_ne _ h5, Block.rd_set_ne _ f6]; exact base b
    · rw [Block.rd_wr_ne _ h5, Block.rd_set_ne _ f6]; exact base b
  · rw [rd_hif]; exact base b

/-! Events -/

theorem own_doIf (c : Bool) (g : Block → Block) (hg : ∀ x, (g x).own = x.own) (b : Block) : (b.doIf c g).own = b.own := by
  cases c
  · rfl
  · exact hg b


theorem own_irqNote (b : Block) (n : Nat) : (b.irqNote n).own = b.own := rfl
theorem rd_irqNote (b : Block) (n a : Nat) : (b.irqNote n).rd a = b.rd a := rfl
theorem own_crzNote (b : Block) (n : Nat) : (b.crzNote n).own = b.own := by unfold Block.crzNote; split <;> rfl
theorem rd_crzNote (b : Block) (n a : Nat) : (b.crzNote n).rd a = b.rd a := by unfold Block.crzNote; split <;> rfl
theorem own_msixFor (b : Block) (n : Nat) : (b.msixFor n).1.own = b.own := by
  unfold Block.msixFor
  split
  · exact own_msix b _
  · rfl
theorem rd_msixFor (b : Block) (n a : Nat) (h : evtReg a = false) : (b.msixFor n).1.rd a = b.rd a := by
  unfold Block.msixFor
  split
  · exact rd_msix b _ a (Block.get_lt b _) h
  · rfl
theorem own_wakeFor (b : Block) (n : Nat) : (b.wakeFor n).1.own = b.own := by
  unfold Block.wakeFor
  split
  · exact own_wakeCause b _ _ _
  · rfl
theorem rd_wakeFor (b : Block) (n a : Nat) (h : evtReg a = false) : (b.wakeFor n).1.rd a = b.rd a := by
  unfold Block.wakeFor
  split
  · exact rd_wakeCause b _ _ _ a h
  · rfl

theorem own_raise1 (b : Block) (n : Nat) : (b.raise1 n).1.own = b.own := by
  unfold Block.raise1
  split
  · rfl
  · simp only [own_wakeFor, own_crzNote, own_msixFor, own_irqNote, own_set]

theorem evtReg_pend (k : Nat) : evtReg (EVT_PEND_k (k % 32)) = true := by
  have : k % 32 < 32 := Nat.mod_lt _ (by decide)
  have h1 : 0x2000 ≤ EVT_PEND_k (k % 32) := by unfold EVT_PEND_k; omega
  have h2 : EVT_PEND_k (k % 32) < 0x2080 := by unfold EVT_PEND_k; omega
  simp [evtReg, h1, h2]

theorem rd_raise1 (b : Block) (n a : Nat) (h : evtReg a = false) : (b.raise1 n).1.rd a = b.rd a := by
  have hp : (bitOf (EVT_PEND_k (n / 32 % 32)) (n % 32)).addr ≠ a := by
    intro e
    have := evtReg_pend (n / 32)
    rw [show EVT_PEND_k (n / 32 % 32) = a from e, h] at this
    exact absurd this (by decide)
  unfold Block.raise1
  split
  · rfl
  · simp only [rd_wakeFor _ _ _ h, rd_crzNote, rd_msixFor _ _ _ h, rd_irqNote, Block.rd_set_ne _ hp]

theorem own_raiseAll (k : Nat) (l : List Nat) (b : Block) : (Block.raiseAll k l b).own = b.own := by
  induction k generalizing l b with
  | zero => rfl
  | succ k ih =>
    induction l generalizing b with
    | nil => rfl
    | cons x t iht => exact (iht _).trans ((ih _ _).trans (own_raise1 b x))

theorem rd_raiseAll (k : Nat) (l : List Nat) (b : Block) (a : Nat) (h : evtReg a = false) : (Block.raiseAll k l b).rd a = b.rd a := by
  induction k generalizing l b with
  | zero => rfl
  | succ k ih =>
    induction l generalizing b with
    | nil => rfl
    | cons x t iht => exact (iht _).trans ((ih _ _).trans (rd_raise1 b x a h))

/-- The report of an event leaves the units' own state and the memories alone. -/
theorem own_raise (b : Block) (n : Nat) : (b.raise n).own = b.own := own_raiseAll _ _ _

/-- The report of an event changes no register but the pending bits and those of messages and wake causes. -/
theorem rd_raise (b : Block) (n a : Nat) (h : evtReg a = false) : (b.raise n).rd a = b.rd a := rd_raiseAll _ _ _ _ h

theorem get_raise (b : Block) (n : Nat) (f : Fld) (h : evtReg f.addr = false) : (b.raise n).get f = b.get f := by
  simp [Block.get, rd_raise b n f.addr h]

theorem own_raiseIf (b : Block) (c : Bool) (n : Nat) : (b.raiseIf c n).own = b.own := by
  cases c
  · rfl
  · exact own_raise b n
theorem rd_raiseIf (b : Block) (c : Bool) (n a : Nat) (h : evtReg a = false) : (b.raiseIf c n).rd a = b.rd a := by
  cases c
  · rfl
  · exact rd_raise b n a h
theorem get_raiseIf (b : Block) (c : Bool) (n : Nat) (f : Fld) (h : evtReg f.addr = false) : (b.raiseIf c n).get f = b.get f := by
  simp [Block.get, rd_raiseIf b c n f.addr h]

theorem own_raiseEvery (b : Block) (m n : Nat) : (b.raiseEvery m n).own = b.own := by
  unfold Block.raiseEvery
  simp only
  split
  · rfl
  · rw [own_raise]; rfl
theorem rd_raiseEvery (b : Block) (m n a : Nat) (h : evtReg a = false) : (b.raiseEvery m n).rd a = b.rd a := by
  unfold Block.raiseEvery
  simp only
  split
  · rfl
  · rw [rd_raise _ _ _ h]; rfl
theorem get_raiseEvery (b : Block) (m n : Nat) (f : Fld) (h : evtReg f.addr = false) : (b.raiseEvery m n).get f = b.get f := by
  simp [Block.get, rd_raiseEvery b m n f.addr h]

/-! Counters -/

/-- A counter's increment leaves the units' own state and the memories alone. -/
theorem own_count (b : Block) (a n : Nat) (r : Fld) (e : Nat) : (b.count a n r e).own = b.own := by
  unfold Block.count
  simp only
  split
  · rw [own_raise]; rfl
  · rfl

/-- It changes its counter, its rollover bit, and what the report of its rollover changes. -/
theorem rd_count (b : Block) (a n : Nat) (r : Fld) (e x : Nat) (ha : a ≠ x) (hr : r.addr ≠ x) (h : evtReg x = false) :
    (b.count a n r e).rd x = b.rd x := by
  unfold Block.count
  simp only
  split
  · rw [rd_raise _ _ _ h, Block.rd_set_ne _ hr, Block.rd_wr_ne _ ha]
  · rw [Block.rd_wr_ne _ ha]

theorem get_count (b : Block) (a n : Nat) (r : Fld) (e : Nat) (f : Fld) (ha : a ≠ f.addr) (hr : r.addr ≠ f.addr) (h : evtReg f.addr = false) :
    (b.count a n r e).get f = b.get f := by simp [Block.get, rd_count b a n r e f.addr ha hr h]

/-- The counter itself advances, modulo 2³². -/
theorem rd_count_self (b : Block) (a n : Nat) (r : Fld) (e : Nat) (hr : r.addr ≠ a) (h : evtReg a = false) :
    (b.count a n r e).rd a = BitVec.ofNat 32 ((b.rd a).toNat + n) := by
  have hb : BitVec.ofNat 32 (bumped (b.rd a).toNat n).1 = BitVec.ofNat 32 ((b.rd a).toNat + n) := by
    apply BitVec.eq_of_toNat_eq; simp [bumped]
  unfold Block.count
  simp only
  split
  · rw [rd_raise _ _ _ h, Block.rd_set_ne _ hr, Block.rd_wr_self, hb]
  · rw [Block.rd_wr_self, hb]

/-! Refused accesses -/

theorem own_rootErr (b : Block) (w : Requester) (a : Nat) (f : Fld) : (b.rootErr w a f).own = b.own := by
  unfold Block.rootErr
  dsimp only
  rw [own_raise, own_set, own_doIf _ _ (fun x => by rw [own_set, own_set])]

/-- A refused access changes only ROOT_ERR, ROOT_ERR_ADDR and what the report of event 12 changes. -/
theorem rd_rootErr (b : Block) (w : Requester) (a : Nat) (f : Fld) (x : Nat) (hf : f.addr ≠ x) (hx : ROOT_ERR_ADDR ≠ x) (h : evtReg x = false) :
    (b.rootErr w a f).rd x = b.rd x := by
  have h1 : ROOT_ERR_ADDR_PORT.addr ≠ x := hx
  have h2 : ROOT_ERR_ADDR_ADDR.addr ≠ x := hx
  unfold Block.rootErr
  simp only
  rw [rd_raise _ _ _ h, Block.rd_set_ne _ hf]
  generalize ((b.rd ROOT_ERR).toNat == 0) = t
  cases t
  · rfl
  · simp only [Block.doIf_true]
    rw [Block.rd_set_ne _ h2, Block.rd_set_ne _ h1]

/-- It sets its bit. -/
theorem get_rootErr_self (b : Block) (w : Requester) (a : Nat) (f : Fld) (hw : f.width = 1) (hl : f.lo < 32) (h : evtReg f.addr = false) :
    (b.rootErr w a f).get f = 1 := by
  unfold Block.rootErr
  simp only
  rw [get_raise _ _ _ h, Block.get_set_self _ _ _ (by omega), hw]; rfl

/-! Reports -/

theorem own_fifo (b : Block) (l : List Report) : Block.own { b with fifo := l } = b.own := rfl
theorem own_marker (b : Block) (m : Option Nat) : Block.own { b with marker := m } = b.own := rfl
theorem own_firstLost (b : Block) (l : Sparse Nat) : Block.own { b with firstLost := l } = b.own := rfl
theorem rd_fifo (b : Block) (l : List Report) (a : Nat) : Block.rd { b with fifo := l } a = b.rd a := rfl
theorem rd_marker (b : Block) (m : Option Nat) (a : Nat) : Block.rd { b with marker := m } a = b.rd a := rfl
theorem rd_firstLost (b : Block) (l : Sparse Nat) (a : Nat) : Block.rd { b with firstLost := l } a = b.rd a := rfl

/-- A report to Cairn leaves the units' own state and the memories alone. -/
theorem own_report (b : Block) (t s u fl : Nat) (d : List Nat) : (b.report t s u fl d).own = b.own := by
  unfold Block.report
  dsimp only
  split
  · rw [own_set, own_fifo]
  · split
    · rw [own_count, own_set, own_doIf _ _ (fun x => own_firstLost x _)]
    · rw [own_raise, own_set, own_marker, own_count, own_set, own_doIf _ _ (fun x => own_firstLost x _)]

theorem rd_doIf (c : Bool) (g : Block → Block) (a : Nat) (hg : ∀ x, (g x).rd a = x.rd a) (b : Block) : (b.doIf c g).rd a = b.rd a := by
  cases c
  · rfl
  · exact hg b

/-- A report changes no register but Cairn's own and those of events. -/
theorem rd_report (b : Block) (t s u fl : Nat) (d : List Nat) (a : Nat) (h : crnReg a = false) : (b.report t s u fl d).rd a = b.rd a := by
  obtain ⟨he, hw⟩ : evtReg a = false ∧ ¬(0x60000 ≤ a ∧ a < 0x70000) := by
    simp only [crnReg, Bool.or_eq_false_iff, Bool.and_eq_false_iff, decide_eq_false_iff_not] at h
    exact ⟨h.1, by omega⟩
  have f1 : CRN_STAT_FIFO_FILL.addr ≠ a := by intro e; subst e; exact hw (by decide)
  have f2 : ∀ n, n < 1024 → (CRN_LOSTs_COUNT n).addr ≠ a := by
    intro n hn e; apply hw; rw [← e]; simp only [CRN_LOSTs_COUNT, CRN_LOSTs]; omega
  have f3 : CRN_CNTi 1 ≠ a := by intro e; subst e; exact hw (by decide)
  have f4 : (bitOf CRN_CNT_ROLL 1).addr ≠ a := by intro e; subst e; exact hw (by decide)
  have f5 : CRN_STAT_MARKER.addr ≠ a := by intro e; subst e; exact hw (by decide)
  have hs : (if s = 0xFFFF then 992 else s % 1024) < 1024 := by split <;> omega
  unfold Block.report
  dsimp only
  split
  · rw [Block.rd_set_ne _ f1, rd_fifo]
  · split
    · rw [rd_count _ _ _ _ _ _ f3 f4 he, Block.rd_set_ne _ (f2 _ hs), rd_doIf _ _ _ (fun x => rd_firstLost x _ _)]
    · rw [rd_raise _ _ _ he, Block.rd_set_ne _ f5, rd_marker, rd_count _ _ _ _ _ _ f3 f4 he, Block.rd_set_ne _ (f2 _ hs),
        rd_doIf _ _ _ (fun x => rd_firstLost x _ _)]

theorem get_report (b : Block) (t s u fl : Nat) (d : List Nat) (f : Fld) (h : crnReg f.addr = false) : (b.report t s u fl d).get f = b.get f := by
  simp [Block.get, rd_report b t s u fl d f.addr h]

/-! Pending events -/

/-- Is a an offset of EVT_PEND? -/
def pendReg (a : Nat) : Bool := decide (0x2000 ≤ a) && decide (a < 0x2080)

theorem pendReg_iff (a : Nat) : pendReg a = true ↔ 0x2000 ≤ a ∧ a < 0x2080 := by simp [pendReg]

theorem pendReg_word (n : Nat) : pendReg (EVT_PEND_k (n / 32 % 32)) = true := by
  rw [pendReg_iff]; unfold EVT_PEND_k; omega

theorem ne_of_pendReg {x a : Nat} (hx : pendReg x = false) (ha : pendReg a = true) : x ≠ a := by
  intro e; rw [e, ha] at hx; exact absurd hx (by decide)

theorem pend_msix (b : Block) (v a : Nat) (h : pendReg a = true) : (b.msix v).1.rd a = b.rd a := by
  have h6 : HIF_CNTi 6 ≠ a := ne_of_pendReg (by decide) h
  have hr : HIF_CNT_ROLL ≠ a := ne_of_pendReg (by decide) h
  have hp : pbaWord v ≠ a := by rw [pendReg_iff] at h; unfold pbaWord; omega
  unfold Block.msix
  split
  · dsimp only
    split
    · rw [Block.rd_set_ne _ hr, Block.rd_wr_ne _ h6]; rfl
    · rw [Block.rd_wr_ne _ h6]; rfl
  · rw [Block.rd_set_ne _ hp]

theorem pend_wakeCause (b : Block) (k i s a : Nat) (h : pendReg a = true) : (b.wakeCause k i s).1.rd a = b.rd a := by
  have h5 : HIF_CNTi 5 ≠ a := ne_of_pendReg (by decide) h
  have hr : HIF_CNT_ROLL ≠ a := ne_of_pendReg (by decide) h
  have hw : HIF_WAKE_CAUSE ≠ a := ne_of_pendReg (by decide) h
  have hl : HIF_WAKE_TIME_LO ≠ a := ne_of_pendReg (by decide) h
  have hh : HIF_WAKE_TIME_LO + 4 ≠ a := ne_of_pendReg (by decide) h
  have f1 : HIF_WAKE_CAUSE_COUNT.addr ≠ a := hw
  have f2 : HIF_WAKE_CAUSE_VALID.addr ≠ a := hw
  have f3 : HIF_WAKE_CAUSE_KIND.addr ≠ a := hw
  have f4 : HIF_WAKE_CAUSE_INSTANCE.addr ≠ a := hw
  have f5 : HIF_WAKE_CAUSE_SOURCE.addr ≠ a := hw
  have f6 : HIF_WAKE_CAUSE_WITHDRAWN.addr ≠ a := hw
  have f7 : (bitOf HIF_CNT_ROLL 5).addr ≠ a := hr
  unfold Block.wakeCause
  split
  · rfl
  split
  · rw [Block.rd_set_ne _ f1]
  simp only
  have base : ∀ c : Block, ((((((c.wr HIF_WAKE_CAUSE 0).set HIF_WAKE_CAUSE_VALID 1).set HIF_WAKE_CAUSE_KIND k).set HIF_WAKE_CAUSE_INSTANCE i).set
      HIF_WAKE_CAUSE_SOURCE s).wr64 HIF_WAKE_TIME_LO b.ns).rd a = c.rd a := by
    intro c
    unfold Block.wr64
    rw [Block.rd_wr_ne _ hh, Block.rd_wr_ne _ hl, Block.rd_set_ne _ f5, Block.rd_set_ne _ f4, Block.rd_set_ne _ f3, Block.rd_set_ne _ f2, Block.rd_wr_ne _ hw]
  split
  · exact base b
  split
  · split
    · rw [Block.rd_set_ne _ f7, Block.rd_wr_ne _ h5, Block.rd_set_ne _ f6]; exact base b
    · rw [Block.rd_wr_ne _ h5, Block.rd_set_ne _ f6]; exact base b
  · rw [rd_hif]; exact base b

/-- A report changes one pending bit only. -/
theorem pend_raise1 (b : Block) (n a : Nat) (h : pendReg a = true) :
    (b.raise1 n).1.rd a = if bit (b.rd (EVT_PEND_k (n / 32 % 32))).toNat (n % 32) then b.rd a
      else (b.set (bitOf (EVT_PEND_k (n / 32 % 32)) (n % 32)) 1).rd a := by
  have hm : ∀ c : Block, (c.msixFor n).1.rd a = c.rd a := by
    intro c
    unfold Block.msixFor
    split
    · exact pend_msix c _ a h
    · rfl
  have hw : ∀ c : Block, (c.wakeFor n).1.rd a = c.rd a := by
    intro c
    unfold Block.wakeFor
    split
    · exact pend_wakeCause c _ _ _ a h
    · rfl
  unfold Block.raise1
  split
  · rfl
  · simp only [hw, rd_crzNote, hm, rd_irqNote]

theorem pending_raise1 (b : Block) (n m : Nat) : (b.raise1 n).1.pendingEvent m =
    (b.pendingEvent m || decide (n / 32 % 32 = m / 32 % 32 ∧ n % 32 = m % 32)) := by
  have hg : ∀ c : Block, c.pendingEvent m = (c.get (bitOf (EVT_PEND_k (m / 32 % 32)) (m % 32)) == 1) := fun _ => rfl
  have hb : ∀ c : Block, c.pendingEvent n = (c.get (bitOf (EVT_PEND_k (n / 32 % 32)) (n % 32)) == 1) := fun _ => rfl
  have hr := pend_raise1 b n (EVT_PEND_k (m / 32 % 32)) (pendReg_word m)
  have hn : bit (b.rd (EVT_PEND_k (n / 32 % 32))).toNat (n % 32) = b.pendingEvent n := rfl
  rw [hn] at hr
  by_cases hp : b.pendingEvent n = true
  · rw [if_pos hp] at hr
    have : (b.raise1 n).1.pendingEvent m = b.pendingEvent m := by unfold Block.pendingEvent; rw [hr]
    rw [this]
    by_cases hc : n / 32 % 32 = m / 32 % 32 ∧ n % 32 = m % 32
    · have : b.pendingEvent m = true := by rw [← hp]; unfold Block.pendingEvent; rw [hc.1, hc.2]
      simp [this]
    · simp [hc]
  · rw [if_neg hp] at hr
    have : (b.raise1 n).1.pendingEvent m = (b.set (bitOf (EVT_PEND_k (n / 32 % 32)) (n % 32)) 1).pendingEvent m := by
      unfold Block.pendingEvent; rw [hr]
    rw [this, hg, hg]
    by_cases hc : n / 32 % 32 = m / 32 % 32 ∧ n % 32 = m % 32
    · rw [hc.1, hc.2, Block.get_set_self _ _ _ (by simp only [bitOf]; omega)]; simp [bitOf]
    · rw [Block.get_set_ne]
      · simp [hc]
      · simp only [bitOf, EVT_PEND_k]; omega
      · simp only [bitOf]; omega

theorem pending_raiseAll (k : Nat) (l : List Nat) (b : Block) (m : Nat) (h : b.pendingEvent m = true) :
    (Block.raiseAll k l b).pendingEvent m = true := by
  induction k generalizing l b with
  | zero => exact h
  | succ k ih =>
    induction l generalizing b with
    | nil => exact h
    | cons x t iht => exact iht _ (ih _ _ (by rw [pending_raise1, h]; rfl))

/-- A reported event is pending. -/
theorem pending_raise (b : Block) (n : Nat) : (b.raise n).pendingEvent n = true :=
  pending_raiseAll 3 (b.raise1 n).2 (b.raise1 n).1 n (by rw [pending_raise1]; simp)

/-- A report clears no pending bit. -/
theorem pending_raise_mono (b : Block) (n m : Nat) (h : b.pendingEvent m = true) : (b.raise n).pendingEvent m = true :=
  pending_raiseAll _ _ _ _ h

@[simp] theorem pending_commit (b : Block) (n : Nat) : b.commit.pendingEvent n = b.pendingEvent n := by simp [Block.pendingEvent]

/-- A change outside EVT_PEND leaves every pending bit. -/
theorem pending_congr {b b' : Block} (h : ∀ a, pendReg a = true → b'.rd a = b.rd a) (n : Nat) : b'.pendingEvent n = b.pendingEvent n := by
  unfold Block.pendingEvent; rw [h _ (pendReg_word n)]

theorem pending_wr (b : Block) (a : Nat) (v : Word) (n : Nat) (h : pendReg a = false) : (b.wr a v).pendingEvent n = b.pendingEvent n :=
  pending_congr (fun _ hx => Block.rd_wr_ne _ (ne_of_pendReg h hx) _) n
theorem pending_set (b : Block) (f : Fld) (v : Nat) (n : Nat) (h : pendReg f.addr = false) : (b.set f v).pendingEvent n = b.pendingEvent n :=
  pending_wr b _ _ n h

/-! Frames, operation by operation -/

section
variable {p : Nat → Bool} {k : Block → Block} {a b : Block}

theorem units_of_own {b b' : Block} (h : b'.own = b.own) : b'.units = b.units := congrArg (fun x : Block => { x with mem := [] }) h
theorem mem_of_own {b b' : Block} (h : b'.own = b.own) : b'.mem = b.mem := (congrArg Block.mem h : b'.own.mem = b.own.mem)

theorem Frame.refl : Frame p k b b := ⟨fun _ _ => rfl, fun _ _ => rfl, rfl⟩

/-- An operation that leaves `own` alone adds to a frame whatever registers it may change. -/
theorem Frame.own {b' : Block} (h : Frame p k a b) (ho : b'.own = b.own) (hr : ∀ x, p x = false → b'.rd x = b.rd x) : Frame p k a b' :=
  ⟨fun x hx => (hr x hx).trans (h.1 x hx), fun sp x => (by rw [Block.byte, mem_of_own ho]; rfl : b'.byte sp x = b.byte sp x).trans (h.2.1 sp x),
    (congrArg k (units_of_own ho)).trans h.2.2⟩

/-- A change of a unit's own state that the blanking takes out. -/
theorem Frame.unit {b' : Block} (h : Frame p k a b) (hr : b'.regs = b.regs) (hm : b'.mem = b.mem) (hu : k b'.units = k b.units) :
    Frame p k a b' :=
  ⟨fun x hx => (by rw [Block.rd, hr]; rfl : b'.rd x = b.rd x).trans (h.1 x hx),
    fun sp x => (by rw [Block.byte, hm]; rfl : b'.byte sp x = b.byte sp x).trans (h.2.1 sp x), hu.trans h.2.2⟩

theorem Frame.wr {x : Nat} {v : Word} (h : Frame p k a b) (hp : p x = true) : Frame p k a (b.wr x v) :=
  h.own rfl fun y hy => Block.rd_wr_ne _ (fun e => by rw [e, hy] at hp; exact absurd hp (by decide)) _
theorem Frame.wr64 {x v : Nat} (h : Frame p k a b) (hp : p x = true) (hq : p (x + 4) = true) : Frame p k a (b.wr64 x v) := (h.wr hp).wr hq
theorem Frame.set {f : Fld} {v : Nat} (h : Frame p k a b) (hp : p f.addr = true) : Frame p k a (b.set f v) := h.wr hp
theorem Frame.ite {c : Prop} [Decidable c] {x y : Block} (hx : c → Frame p k a x) (hy : ¬c → Frame p k a y) : Frame p k a (if c then x else y) := by
  split
  · exact hx ‹_›
  · exact hy ‹_›
theorem Frame.setIf {c : Bool} {f : Fld} {v : Nat} (h : Frame p k a b) (hp : p f.addr = true) : Frame p k a (b.setIf c f v) := by
  cases c
  · exact h
  · exact h.set hp
theorem Frame.doIf {c : Bool} {g : Block → Block} (h : Frame p k a b) (hg : c = true → Frame p k a (g b)) : Frame p k a (b.doIf c g) := by
  cases c
  · exact h
  · exact hg rfl
theorem Frame.emit {o : Output} (h : Frame p k a b) : Frame p k a (b.emit o) := h.own rfl fun _ _ => rfl
theorem Frame.answer {v : Nat} (h : Frame p k a b) : Frame p k a (b.answer v) := h.own rfl fun _ _ => rfl
theorem Frame.draw {m : Nat} (h : Frame p k a b) : Frame p k a (b.draw m).2 := h.own rfl fun _ _ => rfl

theorem evt_false {x : Nat} (he : ∀ y, evtReg y = true → p y = true) (hx : p x = false) : evtReg x = false := by
  cases hy : evtReg x
  · rfl
  · rw [he x hy] at hx; exact absurd hx (by decide)

theorem Frame.raise {n : Nat} (h : Frame p k a b) (he : ∀ y, evtReg y = true → p y = true) : Frame p k a (b.raise n) :=
  h.own (own_raise b n) fun x hx => rd_raise b n x (evt_false he hx)
theorem Frame.raiseIf {c : Bool} {n : Nat} (h : Frame p k a b) (he : ∀ y, evtReg y = true → p y = true) : Frame p k a (b.raiseIf c n) :=
  h.own (own_raiseIf b c n) fun x hx => rd_raiseIf b c n x (evt_false he hx)
theorem Frame.raiseEvery {m n : Nat} (h : Frame p k a b) (he : ∀ y, evtReg y = true → p y = true) : Frame p k a (b.raiseEvery m n) :=
  h.own (own_raiseEvery b m n) fun x hx => rd_raiseEvery b m n x (evt_false he hx)
theorem Frame.count {x n : Nat} {r : Fld} {e : Nat} (h : Frame p k a b) (hx : p x = true) (hr : p r.addr = true)
    (he : ∀ y, evtReg y = true → p y = true) : Frame p k a (b.count x n r e) :=
  h.own (own_count b x n r e) fun y hy => rd_count b x n r e y (fun q => by rw [q, hy] at hx; exact absurd hx (by decide))
    (fun q => by rw [q, hy] at hr; exact absurd hr (by decide)) (evt_false he hy)
theorem Frame.report {t s u fl : Nat} {d : List Nat} (h : Frame p k a b) (he : ∀ y, crnReg y = true → p y = true) :
    Frame p k a (b.report t s u fl d) :=
  h.own (own_report b t s u fl d) fun x hx => rd_report b t s u fl d x (by
    cases hy : crnReg x
    · rfl
    · rw [he x hy] at hx; exact absurd hx (by decide))

/-- A register outside the set reads as before. -/
theorem Frame.get (h : Frame p k a b) (f : Fld) (hp : p f.addr = false) : b.get f = a.get f := by simp [Block.get, h.1 f.addr hp]

/-- The end of a command keeps a frame. -/
theorem Frame.commit (h : Frame p k a b) : Frame p k a b.commit :=
  ⟨fun x hx => (Block.rd_commit b x).trans (h.1 x hx), fun sp x => (Block.byte_commit b sp x).trans (h.2.1 sp x), h.2.2⟩

end

/-! What commands answer -/

theorem leads_run {c : Instr} {s : State} {P : Block → Prop} {f : Block → Block} (he : exec c s = run f s) (hp : P (f s.block).commit) :
    Leads c s P := ⟨_, he, hp⟩
theorem leads_runAt {c : Instr} {s : State} {P : Block → Prop} {u : Cls} {f : Block → Block} (he : exec c s = runAt u f s)
    (hu : s.block.released u = true) (hm : 0 < s.block.member.units u) (hp : P (f s.block).commit) : Leads c s P :=
  ⟨_, he.trans (runAt_eq u f s hu hm), hp⟩
theorem leads_runUnit {c : Instr} {s : State} {P : Block → Prop} {u : UnitRef} {f : Block → Block} (he : exec c s = runUnit u f s)
    (hu : s.block.released u.cls = true) (hm : s.block.member.has u = true) (hp : P (f s.block).commit) : Leads c s P :=
  ⟨_, he.trans (runUnit_eq u f s hu hm), hp⟩

/-! Released units -/

/-- While the module is up, every unit class is released. -/
theorem released_up (b : Block) (h : b.up) (c : Cls) : b.released c = true := by
  obtain ⟨h1, h2, h3, h4 | h4⟩ := h <;> cases c <;> simp [Block.released, h1, h2, h3, h4]

end Sys2Proof.Machine
end

