-- ==== Sys2Proof/Tests/Slice0.lean ====
section
/-! SUPPORT. Tests: witnesses of the hypotheses of the statements, ill-formed commands that the checks refuse, and examples of the spec. -/

namespace Sys2Proof.Tests

set_option Elab.async false

open Sys2Proof Sys2Proof.Reg Sys2Proof.Machine

/-! Small states -/

/-- A module that is up. -/
def upB : Block := (({ ({} : Block) with rst := { ({} : Rst) with rel := true } }).set RST_START_STAGE 15)
def ofSt (b : Block) : State := ⟨b, []⟩

/-- Port p enabled and its link up. -/
def lnk (p : Nat) : Block := (upB.set (linkBit p) 1).setPrt p { ({} : Port) with en := true, cfg := 1 }
/-- Ports 0 and 1 as a parallel-redundancy pair. -/
def pair (silent : Nat) : Block := ((upB.set (linkBit 0) 1).set (linkBit 1) 1).setPrt 0 { ({} : Port) with en := true, cfg := 1, red := 0x10000001 } |>.setPrt 1
  { ({} : Port) with en := true, cfg := 1, red := BitVec.ofNat 32 (9 + 65536 * silent) }
def frm : RxFrame := { bytes := List.replicate 60 2 }
/-- The widths of the hundred bits of an IRIG-B frame of zeros. -/
def irigW : List Nat := (List.range 100).map (fun i => if i == 0 || i % 10 == 9 then 8000 else 2000)
def swf : SwFrame := { id := 3, src := 0, bytes := List.replicate 60 2 }
/-- A switch that holds the frame swf. -/
def held : Block := let b := lnk 5; { b with swc := { b.swc with store := [swf], nextId := 4 } }
def keySlot (n len dest : Nat) : Block := ((upB.set (KEY_SLOTn_ATTR_VALID n) 1).set (KEY_SLOTn_ATTR_LEN n) len).set (KEY_SLOTn_ATTR_DEST n) dest

def fdbB (st : Bool) : Block := { upB with swc := { upB.swc with fdb := [⟨0, 0, st, 5, 0⟩, ⟨9, 9, !st, 5, 0⟩] } }

/-- Station port 3 with its link and EEE up. -/
def eeeB : Block := ((upB.set (linkBit 19) 1).set (STNs_STAT_EEE_ACTIVE 3) 1).set (STNs_EEE_EN 3) 1

/-- A DRAM region of 32 MiB at 0: kind CONTROL or DATA. -/
def region (kind : Nat) : Block := ((upB.set (THL_RGNr_CFG_EN 0) 1).set (THL_RGNr_CFG_KIND 0) kind).set (THL_RGNr_SIZE_MIB 0) 32
def ready0 : Ready := ⟨0, 0, none⟩
def run0 (st : RunSt) : TaskRun := { task := 5, gen := 0, cls := 2, ev := false, ord := 0, ready := ready0, desc := [0, 0, 1000, 0], st := st, core := 3 }
/-- A module on whose core 3 a run stands in state st. -/
def onCore3 (st : RunSt) : Block := { upB with crz := { upB.crz with runs := [run0 st] } }
def svFrame : EngFrame := ⟨List.replicate 12 1 ++ [0x88, 0xBA] ++ List.replicate 46 0, 0, 0, false, 0, 0, 0, 0⟩
def gsFrame : EngFrame := ⟨List.replicate 12 1 ++ [0x88, 0xB8] ++ List.replicate 46 0, 0, 0, false, 0, 0, 0, 0⟩

def subB (kind : Nat) : Block := { upB with gin := { upB.gin with sub := [(4095, { ({} : GSub) with en := true, talNs := 1000, cfg := [BitVec.ofNat 32 (kind * 2 ^ 30)] })] } }

def core3 : Core := { x := [(5, 0xFFFFFFFF80000000), (6, 0x800000007FFFFFFF), (7, 0x10000)], pmpcfg := [0x0F], pmpaddr := [0x8000], accRe := 5, accIm := -7 }
/-- A module that runs a task on core 3, with addi x5, x5, 1 at address 0. -/
def running3 : Block := let b := (onCore3 .running).set (FRDc_STAT_STATE 3) cRUNNING; ({ b with frd := { b.frd with core := [(3, core3)] } }).stores (.itcm 3) 0 [0x93, 0x82, 0x12, 0]

def fei (x : Fei) : Block := { upB with member := .ny9640, acq := { upB.acq with fei := [(15, x)] } }
def cset (x : Cset) : Block := { upB with acq := { upB.acq with cset := [(7, x)] } }

def seg0 : Seg := ⟨0, 0, 0, 4, 4, ⟨0, 0, 0, false, false, false, 0⟩, 0, false, false, 0, 0, 0⟩

/-- A module whose P table names task 0, on logical core 0, which is physical core 120. -/
def pTask : Block := (((region 1).set (CRZ_LCMAPl_PHYS 0) 120).set (CRZ_TBLx_LEN_LEN_A 0) 1).dramStore 0 (leBytes 4 0x80000000 ++ List.replicate 28 0)

/-- A module of a pair in a role whose partner's HELLO was accepted; lane 0 has its link. -/
def pairM (role : Nat) : Block :=
  let b := (((upB.set ROPE_CFG_PAIRED 1).set ROPE_CFG2_AUTH 0).set (ROPE_LANEk_STAT_LINK 0) 1).set ROPE_ROLE_ROLE role
  { b with rope := { b.rope with pHello := true } }
def ropeBytes (typ role : Nat) (body : List Byte) : List Byte :=
  beBytes 12 0 ++ beBytes 2 0x88B5 ++ [0] ++ beBytes 1 typ ++ beBytes 2 body.length ++ beBytes 4 1 ++ [0] ++ beBytes 1 role ++ beBytes 2 0 ++ beBytes 8 0 ++ body ++ List.replicate (26 - body.length) 0
def takenF (b : Block) (l : List Byte) (typ : Nat → Bool) : RopeFrame :=
  match (b.ropeTake 0 l typ).1 with | some f => f | none => ⟨0, 0, 0, 0, 0, 0, 0, 0, 0, [], [], []⟩

def grpUp (b : Block) (next : Nat) : Block := { b with rhz := { b.rhz with grp := [(0, { ({} : Grp) with en := true })] } }.wr (RHZ_GRPg_NEXT_LO 0) (BitVec.ofNat 32 next)
/-- An ASDU of two channels. -/
def asdu0 : List Byte := [0x80, 1, 0x41, 0x82, 2, 0, 0, 0x83, 4, 0, 0, 0, 0, 0x85, 1, 0, 0x87, 16, 0, 0, 0, 0, 0, 0, 0, 0, 0, 0, 0, 0, 0, 0, 0, 0]

/-- The context of queue n of instance i, and a host link that is up. -/
def ctxB (c : QCtx) : List Byte := c.bytes
def cq0 : QCtx := ⟨0x1000, 4, 0, 7, 1, 1, 0, 2, 3, 0, false, false, false⟩
def cq1 : QCtx := ⟨0x2000, 4, 1, 7, 1, 0, 0, 2, 3, 0, true, false, false⟩
def cached (l : List (Nat × QCtx)) (b : Block) : Block := { b with hif := { b.hif with cache := l.map (fun x => ⟨x.1, x.2.bytes, false⟩), mse := true } }
def linkUp (b : Block) : Block := (b.set HIF_STAT_LINK_UP 1).set HIF_STAT_LSTATE 0

def ddrB (bv : Nat) : Block := (((upB.set (THL_DDRc_STAT_TRAINED 0) 1).set (THL_DDRc_CFG_EN 0) 1)).set NRG_STATUS_BIVOUAC bv

def moving (d want : Nat) : Block := { upB with nrg := { upB.nrg with moving := [⟨d, want, 0⟩] } }

/-- A module whose segment 7 stands in state st, with unit state x. -/
def aux (st : Nat) (x : AuxSeg := {}) : Block := { upB.set (AUXs_STAT_STATE 7) st with aux := [(7, x)] }

def leaseB (b : Block) : Block := { b with rope := { b.rope with lease := true } }
/-- An image header of the NY-9640 with one section that is only skipped, and its bytes up to the signature. -/
def hdr0 (kind : Nat) (crc : Nat) : List Byte :=
  leBytes 4 0x424D484F ++ leBytes 2 1 ++ leBytes 1 kind ++ [0] ++ leBytes 2 0x9640 ++ leBytes 2 0 ++ leBytes 4 256 ++ leBytes 2 1 ++ List.replicate 38 0 ++
  leBytes 4 crc ++ List.replicate 132 0 ++ [0x0F] ++ List.replicate 7 0 ++ leBytes 8 256 ++ List.replicate 16 0
def hdrB (kind : Nat) : List Byte := hdr0 kind (if kind = 0 then 2001469554 else 3790636723)
def cells (k : Nat) (l : List Byte) : List Host.Cell := (l.mapIdx (fun i x => (k + i, x))).filter (fun c => c.2 != memDefault c.1)
def imgFlash : Block := { upB with mem := cells ((Space.flash 0).key (slotSector * sectorBytes)) (hdrB 0) }

/-- A module that starts, at stage st. -/
def starting (st : Nat) (warm rel waiting : Bool) : Block := ({ ({} : Block) with rst := { ({} : Rst) with warm := warm, rel := rel, waiting := waiting } }).set RST_START_STAGE st

def conf (b : Block) : Block := b.set KEY_CONFIRM_VALUE 0x5A3C

def rec0 (b : Block) : Block := b.set IMG_STATUS_RECOVERY 1
def imgSwapB : Block := { region 2 with mem := cells (Space.dram.key 0) (hdrB 1) }

/-- A recorder that runs with a log of 1 MiB at 0 and one report in its FIFO. -/
def rep0 : Report := ⟨8, 0, 5, 5, [], 0, 0, 0, 0, 0⟩
def logB (x : Nat) (f : Bool) : Block :=
  let b := ((((region 2).set CRN_CTRL_EN 1).set CRN_LOG_SIZE_MIB x).wr CRN_PROD 5)
  { b with fifo := [rep0], crn := { b.crn with failing := f } }
def jt (b : Block) : Block := b.set KEY_STATUS_DEBUG 1

/-- A transmit queue k with one descriptor at 0 of region 0: a frame of 60 bytes at 64, with flags fl and ports pt. -/
def txB (k fl pt len : Nat) : Block :=
  (((region 2).set (RIDGE_TQq_CFG_EN k) 1).wr (RIDGE_TQq_PROD k) 1).dramStore 0 (leBytes 8 64 ++ leBytes 2 len ++ leBytes 2 fl ++ leBytes 4 pt ++ List.replicate 16 0)

/-! Witnesses -/

/-- Operands and states that meet the hypotheses of Obligations.EventReport, clause by clause. -/
theorem test_witness_EventReport :
    (let n : Nat := 1023; decide ((n < 1024))) = true ∧
    (let b : Block := upB.raise 40; let n : Nat := 1023; let m : Nat := 40; decide ((n < 1024) ∧ (b.pendingEvent m = true))) = true ∧
    (let b : Block := upB.set (EVT_ROUTE_n_CRZ_EN 1023) 1; let n : Nat := 1023; decide ((n < 1024) ∧ (b.pendingEvent n = false) ∧ (b.on (EVT_ROUTE_n_CRZ_EN n) = true))) = true ∧
    (let b : Block := upB.set (EVT_ROUTE_n_RIDGE 1023) 8; let n : Nat := 1023; let m : Nat := 3; decide ((n < 1024) ∧ (m < 4) ∧ (b.pendingEvent n = false) ∧ (bit (b.get (EVT_ROUTE_n_RIDGE n)) m = true))) = true ∧
    (let b : Block := { ((((upB.set (EVT_ROUTE_n_MSIX_EN 1023) 1).set (EVT_ROUTE_n_VECTOR 1023) 2047).wr (msixWord 2047 3) 0).wr HIF_STAT 0).set HIF_STAT_LINK_UP 1 with msixEn := true, hif := { upB.hif with mse := true } }; let n : Nat := 1023; let v : Nat := 2047; decide ((n < 1024) ∧ (b.pendingEvent n = false) ∧ (b.on (EVT_ROUTE_n_MSIX_EN n) = true) ∧ (b.get (EVT_ROUTE_n_VECTOR n) = v) ∧ (b.hostOpen = true) ∧ (b.msixEn = true) ∧ (b.msixMask = false) ∧ (bit (b.rd (msixWord v 3)).toNat 0 = false))) = true ∧
    (let b : Block := ((upB.set (EVT_ROUTE_n_MSIX_EN 1023) 1).set (EVT_ROUTE_n_VECTOR 1023) 2047); let n : Nat := 1023; let v : Nat := 2047; decide ((n < 1024) ∧ (b.pendingEvent n = false) ∧ (b.on (EVT_ROUTE_n_MSIX_EN n) = true) ∧ (b.get (EVT_ROUTE_n_VECTOR n) = v) ∧ (b.hostOpen = false ∨ b.msixEn = false ∨ b.msixMask = true ∨ bit (b.rd (msixWord v 3)).toNat 0 = true))) = true ∧
    (let n : Nat := 0; decide ((n < 1024))) = true := by
  decide +kernel

/-- Operands and states that meet the hypotheses of Obligations.CounterRollover, clause by clause. -/
theorem test_witness_CounterRollover :
    (let a : Nat := IMG_CNTi 3; let n : Nat := 1; let r : Fld := ⟨IMG_CNT_ROLL, 3, 1⟩; decide ((n < 2 ^ 31) ∧ (r.addr ≠ a) ∧ (r.width = 1) ∧ (r.lo < 32) ∧ (evtReg a = false) ∧ (evtReg r.addr = false))) = true ∧
    (let b : Block := upB.wr (IMG_CNTi 3) 0x7FFFFFFF; let a : Nat := IMG_CNTi 3; let n : Nat := 1; let r : Fld := ⟨IMG_CNT_ROLL, 3, 1⟩; decide ((n < 2 ^ 31) ∧ (r.addr ≠ a) ∧ (r.width = 1) ∧ (r.lo < 32) ∧ (evtReg a = false) ∧ (evtReg r.addr = false) ∧ ((b.rd a).toNat < 2 ^ 31 ∧ 2 ^ 31 ≤ (b.rd a).toNat + n ∨ 2 ^ 32 ≤ (b.rd a).toNat + n))) = true ∧
    (let b : Block := upB.wr (IMG_CNTi 3) 0x80000000; let a : Nat := IMG_CNTi 3; let n : Nat := 1; let r : Fld := ⟨IMG_CNT_ROLL, 3, 1⟩; decide ((n < 2 ^ 31) ∧ (r.addr ≠ a) ∧ (r.width = 1) ∧ (r.lo < 32) ∧ (evtReg a = false) ∧ (evtReg r.addr = false) ∧ (¬((b.rd a).toNat < 2 ^ 31 ∧ 2 ^ 31 ≤ (b.rd a).toNat + n ∨ 2 ^ 32 ≤ (b.rd a).toNat + n)))) = true := by
  decide +kernel

/-- Operands and states that meet the hypotheses of Obligations.TickTimes, clause by clause. -/
theorem test_witness_TickTimes :
    (let N : Nat := 4800; decide ((0 < N))) = true := by
  decide +kernel

/-- Operands and states that meet the hypotheses of Obligations.FreqAdjWrite, clause by clause. -/
theorem test_witness_FreqAdjWrite :
    (let b : Block := upB; decide ((b.up) ∧ (b.get TIM_CTRL_PRIMARY = 0))) = true ∧
    (let b : Block := upB.set TIM_CTRL_PRIMARY 1; decide ((b.up) ∧ (b.get TIM_CTRL_PRIMARY ≠ 0))) = true := by
  decide +kernel

/-- Operands and states that meet the hypotheses of Obligations.EventPendClear, clause by clause. -/
theorem test_witness_EventPendClear :
    (let b : Block := upB.wr (EVT_PEND_k 31) 0xF0F0F0F0; let k : Nat := 31; decide ((b.up) ∧ (k < 32))) = true ∧
    (let b : Block := upB.wr (EVT_PEND_k 31) 0xF0F0F0F0; let k : Nat := 31; let i : Nat := 31; decide ((b.up) ∧ (k < 32) ∧ (i < 32))) = true := by
  decide +kernel

/-- Operands and states that meet the hypotheses of Obligations.TimeRegisterCommands, clause by clause. -/
theorem test_witness_TimeRegisterCommands :
    (let s : State := ofSt (upB); let v : Word := 100; decide ((s.block.up) ∧ (s.block.imgLock = false) ∧ (clampN 100 20000 (bits v.toNat 0 15) ≠ s.block.tickRate))) = true ∧
    (let s : State := ofSt ({ upB with imgLock := true }); decide ((s.block.up) ∧ (s.block.imgLock = true))) = true ∧
    (let s : State := ofSt (upB); let n : Nat := 63; decide ((s.block.up) ∧ (n < 64) ∧ (s.block.takes ⟨.tim, 0⟩ = true))) = true ∧
    (let s : State := ofSt (upB.set (TIM_CMPn_CTRL_ARM 63) 1); let n : Nat := 63; decide ((s.block.up) ∧ (n < 64))) = true ∧
    (let s : State := ofSt (upB.set TIM_STATUS_PLL_LOST 1); decide ((s.block.up) ∧ (s.block.on TIM_STATUS_PLL_LOST = true))) = true ∧
    (let s : State := ofSt (upB.set TIM_LEAP_CTRL_ARM 1); decide ((s.block.up) ∧ (s.block.on TIM_LEAP_CTRL_ARM = true))) = true := by
  decide +kernel

/-- Operands and states that meet the hypotheses of Obligations.TimeSynchronisation, clause by clause. -/
theorem test_witness_TimeSynchronisation :
    (let s : State := ofSt ((upB.set TIM_STATUS_STATE timHOLDOVER).set TIM_HOLD_DRIFT 1); decide ((s.block.up) ∧ (s.block.syncState = timHOLDOVER) ∧ ((s.block.rd TIM_HOLD_LIMIT).toNat ≠ 2 ^ 32 - 1) ∧ (s.block.get TIM_HOLD_DRIFT ≠ 0 ∨ (s.block.rd TIM_HOLD_LIMIT).toNat < s.block.tim.holdErr))) = true ∧
    (let s : State := ⟨upB, []⟩; decide ((s.block.up))) = true ∧
    (let s : State := ofSt ({ upB with tim := { upB.tim with ppsAlive := true } }); decide ((s.block.up) ∧ (s.block.tim.ppsAlive = true))) = true ∧
    (let s : State := ofSt ({ upB with tim := { upB.tim with irigAlive := true } }); decide ((s.block.up) ∧ (s.block.tim.irigAlive = true))) = true ∧
    (let s : State := ofSt ((upB.set TIM_CTRL_STEP_POLICY 2).set TIM_STATUS_STATE timLOCKED); decide ((s.block.up) ∧ (s.block.stepPermitted = false))) = true ∧
    (let s : State := ofSt ((upB.set TIM_STATUS_STATE timFREE)); decide ((s.block.up) ∧ (s.block.stepPermitted = true))) = true ∧
    (let s : State := ofSt (upB.set TIM_OFFSET_TAG_GEN 5); decide ((s.block.up) ∧ (s.block.get TIM_OFFSET_TAG_GEN ≠ s.block.get TIM_STATUS_STEP_GEN))) = true ∧
    (let s : State := ofSt (upB.set TIM_CTRL_PRIMARY srcPTP); decide ((s.block.up) ∧ (s.block.get TIM_OFFSET_TAG_GEN = s.block.get TIM_STATUS_STEP_GEN) ∧ (s.block.get TIM_CTRL_PRIMARY = srcPTP) ∧ (s.block.takes ⟨.tim, 0⟩ = true))) = true := by
  decide +kernel

/-- Operands and states that meet the hypotheses of Obligations.TimeSignalsAndTicks, clause by clause. -/
theorem test_witness_TimeSignalsAndTicks :
    (let s : State := ofSt (upB); let r : Bool := true; decide ((s.block.up) ∧ (r ≠ s.block.on TIM_CTRL_PPS_POL))) = true ∧
    (let s : State := ofSt (upB); let f : IrigFrame := ⟨[], 0, true, 24, 1, 0, 0, 0⟩; decide ((s.block.up) ∧ (irigShape f.widths = false))) = true ∧
    (let s : State := ofSt (upB.set TIM_IRIG_CFG_CODE 4); let f : IrigFrame := ⟨irigW, 4, true, 24, 1, 0, 0, 0⟩; let sec : Nat := ((upB.set TIM_IRIG_CFG_CODE 4).irigTai ⟨irigW, 4, true, 24, 1, 0, 0, 0⟩).getD 0; decide ((s.block.up) ∧ (irigShape f.widths = true) ∧ (f.code = s.block.get TIM_IRIG_CFG_CODE) ∧ (s.block.irigExt = false ∨ f.parity = true) ∧ ((s.block.advanceTo ((f.edge + 65535) / 65536)).irigTai f = some sec))) = true ∧
    (let s : State := ofSt (upB.set (TIM_CMPn_CTRL_ARM 63) 1); let n : Nat := 63; decide ((s.block.up) ∧ (n < 64) ∧ (s.block.on (TIM_CMPn_CTRL_ARM n) = true) ∧ (s.block.on (TIM_CMPn_CTRL_ACQ n) = false) ∧ (s.block.on (TIM_CMPn_CTRL_PG_START n) = false))) = true ∧
    (let s : State := ofSt (upB.set (TIM_PGg_CTRL_EN 7) 1); let g : Nat := 7; decide ((s.block.up) ∧ (g < 8) ∧ (s.block.on (TIM_PGg_CTRL_EN g) = true) ∧ (s.block.on (TIM_PGg_CTRL_RUNNING g) = false))) = true ∧
    (let s : State := ofSt ((((upB.set (TIM_PGg_CTRL_EN 7) 1).set (TIM_PGg_CTRL_RUNNING 7) 1).wr (TIM_PGg_PERIOD 7) 1000).wr (TIM_PGg_COUNT 7) 0); let g : Nat := 7; decide ((s.block.up) ∧ (g < 8) ∧ (s.block.on (TIM_PGg_CTRL_EN g) = true) ∧ (s.block.on (TIM_PGg_CTRL_RUNNING g) = true) ∧ (s.block.tim.pgWait.get (fun _ => false) g = false) ∧ (s.block.pgCount g = 0) ∧ (s.block.get (TIM_PGg_CTRL_OUT g) ≠ 6))) = true ∧
    (let s : State := ofSt { ((upB.set (TIM_PGg_CTRL_EN 7) 1).set (TIM_PGg_CTRL_RUNNING 7) 1) with tim := { upB.tim with pgNext := [(7, 1)] } }; let g : Nat := 7; decide ((s.block.up) ∧ (g < 8) ∧ (s.block.on (TIM_PGg_CTRL_RUNNING g) = true) ∧ (s.block.pgCount g ≠ 0) ∧ (s.block.pgCount g ≤ s.block.tim.pgNext.get (fun _ => 0) g))) = true ∧
    (let s : State := ⟨upB, []⟩; let b : Block := s.block.advanceTo (tickNs s.block.tickRate (s.block.lastTick + 1)); let n : Nat := latestTick b.tickRate b.ns; decide ((s.block.up) ∧ (b.lastTick < n))) = true := by
  decide +kernel

/-- Operands and states that meet the hypotheses of Obligations.PortCommands, clause by clause. -/
theorem test_witness_PortCommands :
    (let b : Block := upB; let p : Nat := 19; decide ((b.up) ∧ (p < 20) ∧ (b.member.has (portUnit p) = true) ∧ ((b.prt p).en = false) ∧ (b.on (stRetired (portUnit p).hdr) = false))) = true ∧
    (let b : Block := lnk 5; let p : Nat := 5; decide ((b.up) ∧ (p < 20) ∧ (b.member.has (portUnit p) = true) ∧ ((b.prt p).en = true))) = true ∧
    (let b : Block := upB.setPrt 19 { ({} : Port) with en := true, cfg := 1 }; let p : Nat := 19; decide ((b.up) ∧ (p < 20) ∧ (b.member.has (portUnit p) = true) ∧ ((b.prt p).en = true) ∧ (b.on (linkBit p) = false) ∧ (b.deadMode p = false) ∧ (b.on (prbsBit p) = false) ∧ (b.on (stRetired (portUnit p).hdr) = false))) = true ∧
    (let b : Block := lnk 19; let p : Nat := 19; decide ((b.up) ∧ (p < 20) ∧ (b.member.has (portUnit p) = true) ∧ ((b.prt p).en = true))) = true ∧
    (let b : Block := lnk 15; let p : Nat := 15; decide ((b.up) ∧ (p < 16) ∧ (b.member.has (portUnit p) = true) ∧ (b.receives p = true))) = true ∧
    (let b : Block := upB.setPrt 3 { ({} : Port) with nodes := [⟨7, 0, 0, 0, [], none⟩] }; let p : Nat := 3; let mac : Nat := 7; decide ((b.up) ∧ (b.member.has (portUnit p) = true) ∧ ((b.prt (b.pairLow p)).nodes.any (fun e => e.mac == mac) = true))) = true := by
  decide +kernel

/-- Operands and states that meet the hypotheses of Obligations.FrameCommands, clause by clause. -/
theorem test_witness_FrameCommands :
    (let b : Block := lnk 5; let p : Nat := 5; decide ((b.up) ∧ (b.member.has (portUnit p) = true))) = true ∧
    (let b : Block := pair 0; let p : Nat := 1; let r : Nat := 0; decide ((b.up) ∧ (b.member.has (portUnit p) = true) ∧ (b.pairOf p = some (1, r)))) = true ∧
    (let b : Block := { upB with swc := { upB.swc with ingress := [swf], nextId := 4 } }; let f : SwFrame := swf; let rest : List SwFrame := []; decide ((b.up) ∧ (b.takes ⟨.swc, 0⟩ = true) ∧ (b.swc.ingress = f :: rest))) = true ∧
    (let b : Block := { held with swc := { held.swc with pubQ := [(5, [3])] } }; let e : Nat := 5; let f : SwFrame := swf; let c : Block := (held.modSwc (fun w => { w with pubQ := dequeue [(5, [3])] 5 })); decide ((b.up) ∧ (e < 23) ∧ (b.portFree e = true) ∧ (b.nextFrame e = some (f, c)) ∧ (b.clearOfLaunch e f.bytes = true))) = true ∧
    (let b : Block := { held with swc := { held.swc with sending := [(5, some 3)], wire := [(5, [1])] } }; let e : Nat := 5; let id : Nat := 3; decide ((b.up) ∧ (b.swc.sending.get (fun _ => none) e = some id))) = true ∧
    (let b : Block := { held with swc := { held.swc with store := [{ swf with launch := some 0 }], launch := [(5, [3])] } }; let e : Nat := 5; let id : Nat := 3; let l : List Nat := []; let f : SwFrame := { swf with launch := some 0 }; let t : Nat := 0; decide ((b.up) ∧ (b.swc.launch.get (fun _ => []) e = id :: l) ∧ (b.portFree e = true) ∧ (b.stored id = some f) ∧ (f.launch = some t) ∧ (tdiff40 b.ns t = 0))) = true ∧
    (let b : Block := lnk 19; let p : Nat := 3; let f : RxFrame := frm; let c1 : Block := ((lnk 19).macCheck 19 frm).2; let c2 : Block := ((((lnk 19).macCheck 19 frm).2).classCheck 19 frm.bytes).2; let g : List Byte := frm.bytes; let c3 : Block := ((((((lnk 19).macCheck 19 frm).2).classCheck 19 frm.bytes).2).secVerify 3 frm.bytes).2; decide ((b.up) ∧ (p < 4) ∧ (b.member.has ⟨.stn, p⟩ = true) ∧ (b.receives (16 + p) = true) ∧ (b.macCheck (16 + p) f = (true, c1)) ∧ (c1.classCheck (16 + p) f.bytes = (true, c2)) ∧ (c2.secVerify p f.bytes = (some g, c3)))) = true := by
  decide +kernel

/-- Operands and states that meet the hypotheses of Obligations.SwitchTables, clause by clause. -/
theorem test_witness_SwitchTables :
    (let b : Block := fdbB true; let e : FdbEntry := ⟨0, 0, true, 5, 0⟩; decide ((b.up) ∧ (b.fdbFind b.fdbKey.1 b.fdbKey.2 = some e))) = true ∧
    (let b : Block := upB; decide ((b.up) ∧ (b.fdbFind b.fdbKey.1 b.fdbKey.2 = none))) = true ∧
    (let b : Block := upB.set SWC_FDB_RES_VALID 1; decide ((b.up) ∧ (b.on SWC_FDB_RES_VALID = true) ∧ (b.fdbFull b.fdbKey.1 b.fdbKey.2 = false))) = true ∧
    (let b : Block := fdbB true; decide ((b.up) ∧ (b.on SWC_FDB_RES_VALID = false))) = true ∧
    (let b : Block := fdbB true; decide ((b.up))) = true ∧
    (let b : Block := fdbB false; let v : Nat := 0; let m : Nat := 0; let e : FdbEntry := ⟨0, 0, false, 5, 0⟩; decide ((b.up) ∧ (b.fdbFind v m = some e) ∧ (e.static = false))) = true ∧
    (let b : Block := upB; let k : Nat := 3; let w : Nat := 7; decide ((b.up) ∧ (k < 4) ∧ (w < 16))) = true ∧
    (let b : Block := upB; let m : Nat := 3; decide ((b.up) ∧ (m < 4))) = true := by
  decide +kernel

/-- Operands and states that meet the hypotheses of Obligations.StationCommands, clause by clause. -/
theorem test_witness_StationCommands :
    (let b : Block := let b := upB.set (STNs_STAT_TX_LPI 3) 1; { b with swc := { b.swc with pubQ := [(19, [3])] } }; let p : Nat := 3; decide ((b.up) ∧ (p < 4) ∧ (b.member.has ⟨.stn, p⟩ = true) ∧ (b.portEmpty (16 + p) = false) ∧ (b.on (STNs_STAT_TX_LPI p) = true))) = true ∧
    (let b : Block := { upB with imgLock := true }; let p : Nat := 3; decide ((b.up) ∧ (p < 4) ∧ (b.member.has ⟨.stn, p⟩ = true) ∧ (b.imgLock = true))) = true ∧
    (let b : Block := keySlot 7 32 4; let p : Nat := 3; let n : Nat := 35; let v : Word := 7; decide ((b.up) ∧ (p < 4) ∧ (n < 36) ∧ (b.member.has ⟨.stn, p⟩ = true) ∧ (b.member.hasMacsec = true) ∧ (b.keyOk (bits v.toNat 0 9) 2 = true) ∧ (b.get (KEY_SLOTn_ATTR_LEN (bits v.toNat 0 9)) = 32))) = true := by
  decide +kernel

/-- Operands and states that meet the hypotheses of Obligations.PublicationCommands, clause by clause. -/
theorem test_witness_PublicationCommands :
    (let b : Block := upB; let k : Nat := 4095; let v : Word := 0x7FFFFFFF; decide ((b.up) ∧ (k < 4096) ∧ (bit v.toNat 31 = false))) = true ∧
    (let b : Block := upB; let k : Nat := 4095; let v : Word := 0xFFFFFFFF; decide ((b.up) ∧ (k < 4096) ∧ (bit v.toNat 31 = true) ∧ ((b.pubOf k).en = false))) = true ∧
    (let b : Block := { upB with pub := [(4095, { ({} : Pub) with en := true, iv := 5 })] }; let k : Nat := 4095; decide ((b.up) ∧ ((b.pubOf k).en = true))) = true ∧
    (let b : Block := upB; decide ((b.up))) = true ∧
    (let b : Block := upB.set SWC_GATE_OPEN 1; decide ((b.up))) = true ∧
    (let b : Block := upB.set SWC_GATE_OPEN 1; decide ((b.up) ∧ (b.leased = false))) = true ∧
    (let b : Block := { upB.set SWC_GATE_OPEN 1 with rope := { upB.rope with lease := true } }; decide ((b.up) ∧ (b.leased = true) ∧ (b.on SWC_GATE_OPEN = true))) = true := by
  decide +kernel

/-- Operands and states that meet the hypotheses of Obligations.IntakeCommands, clause by clause. -/
theorem test_witness_IntakeCommands :
    (let b : Block := { upB with rhz := { upB.rhz with slot := [(1023, { ({} : Slot) with en := true })] } }; let k : Nat := 1023; decide ((b.up) ∧ (k < b.member.slots) ∧ ((b.slotOf k).en = true))) = true ∧
    (let b : Block := upB; let g : Nat := 15; let v : Word := 4; decide ((b.up) ∧ (g < 16) ∧ (bits v.toNat 0 3 < 5) ∧ ((b.grpOf g).en = false))) = true ∧
    (let b : Block := { upB with rhz := { upB.rhz with grp := [(15, { ({} : Grp) with en := true })] } }; let g : Nat := 15; decide ((b.up) ∧ (g < 16))) = true ∧
    (let b : Block := upB; decide ((b.up))) = true ∧
    (let b : Block := upB.set RHZ_CTRL_SIM_MODE 1; decide ((b.up))) = true ∧
    (let b : Block := { upB with rhz := { upB.rhz with queue := [(16, [svFrame])] } }; let e : Nat := 16; let f : EngFrame := svFrame; let l : List EngFrame := []; decide ((b.up) ∧ (b.member.has ⟨.rhz, e⟩ = true) ∧ (b.rhz.queue.get (fun _ => []) e = f :: l) ∧ (isSv f = true))) = true ∧
    (let b : Block := { upB with rhz := { upB.rhz with grp := [(15, { ({} : Grp) with en := true })] } }; let g : Nat := 15; decide ((b.up) ∧ (g < 16) ∧ ((b.grpOf g).en = true) ∧ (b.following = false))) = true := by
  decide +kernel

/-- Operands and states that meet the hypotheses of Obligations.PhasorCommands, clause by clause. -/
theorem test_witness_PhasorCommands :
    (let b : Block := { upB with sor := { upB.sor with chan := [(8191, { ({} : Chan) with en := true })] } }; let c : Nat := 8191; decide ((b.up) ∧ (c < b.member.channels) ∧ ((b.chanOf c).en = true))) = true ∧
    (let b : Block := upB; let t : Nat := 63; let v : Word := 0x80000000; decide ((b.up) ∧ (t < 64) ∧ (bit v.toNat 31 = true) ∧ ((b.trkOf t).en = false))) = true ∧
    (let b : Block := { upB with sor := { upB.sor with trk := [(63, { ({} : Trk) with en := true })] } }; let t : Nat := 63; let v : Word := 0; decide ((b.up) ∧ (t < 64) ∧ (bit v.toNat 31 = false) ∧ ((b.trkOf t).en = true))) = true ∧
    (let b : Block := ((upB.set SOR_CTRL_GV_EN 1).set (NRG_DOMd_CFG_STATE 174) dON).set ROPE_CFG2_SELFTEST 0; let l : Nat := 15; decide ((b.up) ∧ (l < 16) ∧ (b.laneTests l = true) ∧ (b.on ROPE_CFG2_SELFTEST = false))) = true := by
  decide +kernel

/-- Operands and states that meet the hypotheses of Obligations.ComparatorCommands, clause by clause. -/
theorem test_witness_ComparatorCommands :
    (let b : Block := upB.set (THRk_STAT_STICKY 32767) 1; let w : Nat := 1023; let i : Nat := 31; decide ((b.up) ∧ (i < 32) ∧ (32 * w + i < 4 * b.member.channels))) = true ∧
    (let b : Block := upB; let k : Nat := 32767; decide ((b.up) ∧ (k < 4 * b.member.channels))) = true ∧
    (let b : Block := upB; let k : Nat := 32767; let v : Word := 0x08000000; decide ((b.up) ∧ (k < 4 * b.member.channels) ∧ (bits v.toNat 27 3 = 1) ∧ ((b.thrOf k).en = false))) = true := by
  decide +kernel

/-- Operands and states that meet the hypotheses of Obligations.GooseIntakeCommands, clause by clause. -/
theorem test_witness_GooseIntakeCommands :
    (let b : Block := subB 0; let e : Nat := 4095; let v : Word := 0; decide ((b.up) ∧ (e < 4096) ∧ (bit v.toNat 31 = false) ∧ ((b.subOf e).en = true))) = true ∧
    (let b : Block := upB; let e : Nat := 4095; let v : Word := 0x80000000; decide ((b.up) ∧ (e < 4096) ∧ (bit v.toNat 31 = true) ∧ ((b.subOf e).en = false))) = true ∧
    (let b : Block := (subB 0).set (RHZ_GSUBe_STAT_STATE 4095) 2; let e : Nat := 4095; decide ((b.up) ∧ ((b.subOf e).en = true) ∧ (b.get (RHZ_GSUBe_STAT_STATE e) = 2) ∧ ((b.subOf e).talNs ≠ 0))) = true ∧
    (let b : Block := upB; let v : Word := 0xFFF; decide ((b.up) ∧ ((b.subOf (bits v.toNat 0 12)).en = false))) = true ∧
    (let b : Block := subB 1; let v : Word := 0xFFF; decide ((b.up) ∧ ((b.subOf (bits v.toNat 0 12)).en = true) ∧ ((b.subOf (bits v.toNat 0 12)).kind = 1) ∧ ((b.subOf (bits v.toNat 0 12)).lastPost ≤ b.rd64 RHZ_GIN_POST_TS_LO))) = true ∧
    (let b : Block := { upB with rhz := { upB.rhz with queue := [(16, [gsFrame])] } }; let e : Nat := 16; let f : EngFrame := gsFrame; let l : List EngFrame := []; decide ((b.up) ∧ (b.member.has ⟨.rhz, e⟩ = true) ∧ (b.rhz.queue.get (fun _ => []) e = f :: l) ∧ (isSv f = false))) = true := by
  decide +kernel

/-- Operands and states that meet the hypotheses of Obligations.TaskCommands, clause by clause. -/
theorem test_witness_TaskCommands :
    (let b : Block := { upB with crz := { upB.crz with ticks := [7] } }; let n : Nat := 7; let l : List Nat := []; decide ((b.up) ∧ (b.crz.ticks = n :: l))) = true ∧
    (let b : Block := upB; let g : Nat := 15; decide ((b.up) ∧ (g < 16))) = true ∧
    (let b : Block := let b := (onCore3 .pending).set (CRZ_LCMAPl_PHYS 0) 3; { b.set (NRG_DOMd_CFG_STATE 3) dON with crz := { b.crz with inst := [(0, { state := iRUNNING })] } }; let t : Nat := 0; let c : Nat := 3; let r : TaskRun := run0 .pending; decide ((b.up) ∧ (t < 16) ∧ (b.tuftHead t = some (c, r)))) = true ∧
    (let b : Block := let b := ((region 1).set (CRZ_LCMAPl_PHYS 0) 3).dramStore 0 (leBytes 8 (6 * 2 ^ 60 + 2 ^ 55) ++ leBytes 8 0); { b with crz := { b.crz with runs := [{ run0 .pending with ins := [Elem.of (leBytes 8 (6 * 2 ^ 60 + 2 ^ 55) ++ leBytes 8 0)] }] } }; let c : Nat := 3; let r : TaskRun := { run0 .pending with ins := [Elem.of (leBytes 8 (6 * 2 ^ 60 + 2 ^ 55) ++ leBytes 8 0)] }; decide ((b.up) ∧ (b.coreHead c = some r) ∧ (r.late = false) ∧ (r.ins.all (fun e => b.elemReady r e) = false))) = true ∧
    (let b : Block := onCore3 .running; let c : Nat := 3; let r : TaskRun := run0 .running; decide ((b.up) ∧ (b.onCore c = some r) ∧ (c < 128) ∧ (r.st = .running) ∧ (b.elapsedNs - r.start ≤ dBudget r.desc) ∧ (0 < dBudget r.desc))) = true ∧
    (let b : Block := onCore3 .commit; let c : Nat := 3; let r : TaskRun := run0 .commit; decide ((b.up) ∧ (b.onCore c = some r) ∧ (r.st = .commit))) = true ∧
    (let b : Block := onCore3 .running; let c : Nat := 3; let r : TaskRun := run0 .running; decide ((b.up) ∧ (b.onCore c = some r) ∧ (r.st = .running))) = true ∧
    (let b : Block := onCore3 .over; let c : Nat := 3; let r : TaskRun := run0 .over; decide ((b.up) ∧ (b.onCore c = some r) ∧ (r.st = .over))) = true := by
  decide +kernel

/-- Operands and states that meet the hypotheses of Obligations.CrozierControl, clause by clause. -/
theorem test_witness_CrozierControl :
    (let b : Block := { upB.set CRZ_STATUS_FAULTED 1 with member := .ny9602, rst := { upB.rst with ran := true } }; decide ((b.up) ∧ (b.rst.ran = true) ∧ (b.hasRope = false) ∧ (b.rope.lease = false) ∧ (b.role ≠ rSOLO))) = true ∧
    (let b : Block := upB.set CRZ_SWAP_CTRL_STATE 1; decide ((b.up) ∧ (b.swapState = 1))) = true ∧
    (let b : Block := { upB with tim := { upB.tim with now := 10 ^ 9 * 2 ^ 32 } }; let v : Word := 0x80000000; decide ((b.up) ∧ (b.swapState = 0) ∧ (bit v.toNat 31 = true) ∧ (b.rd64 CRZ_SWAP_TICK_LO < b.lastTick + 3))) = true ∧
    (let b : Block := upB.wr CRZ_SWAP_TICK_LO 3; let v : Word := 0x80000800; let c : Block := (((b.set CRZ_SWAP_CTRL_RETRY (bits v.toNat 23 4)).set CRZ_SWAP_CTRL_TABLES (bits v.toNat 15 4)).set CRZ_SWAP_CTRL_TRIG (bits v.toNat 14 1)).set CRZ_SWAP_CTRL_CARRY_COUNT (bits v.toNat 0 13); decide ((b.up) ∧ (b.swapState = 0) ∧ (bit v.toNat 31 = true) ∧ (b.role ≠ rACTIVE) ∧ (b.lastTick + 3 ≤ b.rd64 CRZ_SWAP_TICK_LO) ∧ (c.swapBoundary (b.rd64 CRZ_SWAP_TICK_LO) = true) ∧ (bits v.toNat 0 13 ≤ 2048))) = true ∧
    (let b : Block := (region 1).dramStore 0 (List.replicate 32 0); let ws : List Nat := List.replicate 8 0; decide ((b.up) ∧ (b.desc (b.get CRZ_DESC_IDX_INDEX) = some ws))) = true ∧
    (let b : Block := ({ pTask with crz := { pTask.crz with pinned := [{ task := 5, desc := [] }] } }).set CRZ_DESC_IDX_INDEX 5; decide ((b.up) ∧ (b.descInUse (b.get CRZ_DESC_IDX_INDEX) = true))) = true ∧
    (let b : Block := upB; let r : Nat := 2; let c : Block := upB; decide ((b.up) ∧ (b.descPut (b.get CRZ_DESC_IDX_INDEX) ((List.range 8).map (fun w => (b.rd (CRZ_DESC_DATAw w)).toNat)) = (r, c)) ∧ (b.lineOk (b.descAddr (b.get CRZ_DESC_IDX_INDEX)) = true))) = true ∧
    (let b : Block := { upB.set CRZ_CTRL_TBL_EN 3 with rope := { upB.rope with lease := true } }; let v : Nat := 1; decide ((b.up) ∧ (b.leased = true) ∧ ((b.get CRZ_CTRL_TBL_EN % 4) &&& v % 4 ≠ b.get CRZ_CTRL_TBL_EN % 4))) = true ∧
    (let b : Block := upB; decide ((b.up) ∧ (b.leased = false) ∧ (b.get CRZ_CTRL_TBL_EN = 0))) = true := by
  decide +kernel

/-- Operands and states that meet the hypotheses of Obligations.FrondScalar, clause by clause. -/
theorem test_witness_FrondScalar :
    (let b : Block := running3; let c : Nat := 3; let rd : Nat := 5; let rs1 : Nat := 6; let rs2 : Nat := 5; decide ((b.up) ∧ (b.member.has ⟨.frond, c⟩ = true) ∧ (b.running c = true) ∧ (rd < 32) ∧ (rs1 < 32) ∧ (rs2 < 32))) = true ∧
    (let b : Block := running3; let c : Nat := 3; let rd : Nat := 5; let rs1 : Nat := 5; let rs2 : Nat := 6; decide ((b.up) ∧ (b.member.has ⟨.frond, c⟩ = true) ∧ (b.running c = true) ∧ (rd < 32) ∧ (rs1 < 32) ∧ (rs2 < 32))) = true ∧
    (let b : Block := running3; let c : Nat := 3; let rd : Nat := 5; let rs1 : Nat := 5; let rs2 : Nat := 5; decide ((b.up) ∧ (b.member.has ⟨.frond, c⟩ = true) ∧ (b.running c = true) ∧ (rd < 32) ∧ (rs1 < 32) ∧ (rs2 < 32))) = true := by
  decide +kernel

/-- Operands and states that meet the hypotheses of Obligations.FrondComplex, clause by clause. -/
theorem test_witness_FrondComplex :
    (let b : Block := running3; let c : Nat := 3; let rd : Nat := 5; let rs1 : Nat := 6; let rs2 : Nat := 5; decide ((b.up) ∧ (b.member.has ⟨.frond, c⟩ = true) ∧ (b.running c = true) ∧ (rd < 32) ∧ (rs1 < 32) ∧ (rs2 < 32))) = true ∧
    (let b : Block := running3; let c : Nat := 3; let rd : Nat := 0; let rs1 : Nat := 31; let rs2 : Nat := 5; decide ((b.up) ∧ (b.member.has ⟨.frond, c⟩ = true) ∧ (b.running c = true) ∧ (rd < 32) ∧ (rs1 < 32) ∧ (rs2 < 32))) = true := by
  decide +kernel

/-- Operands and states that meet the hypotheses of Obligations.CoreCommands, clause by clause. -/
theorem test_witness_CoreCommands :
    (let b : Block := running3; let c : Nat := 3; let rd : Nat := 7; let rs1 : Nat := 7; let rs2 : Nat := 7; let k : Core := b.coreSt c; let sp : Space := .dtcm 3; let o : Nat := 0; let sp' : Space := .dtcm 3; let o' : Nat := 0; let sd : Space := .dtcm 3; let od : Nat := 0; decide ((b.up) ∧ (b.member.has ⟨.frond, c⟩ = true) ∧ (b.running c = true) ∧ (rd < 32) ∧ (rs1 < 32) ∧ (rs2 < 32) ∧ (k.gstart = 0) ∧ (k.place c (k.rx rs2).toNat 2 .load true = .inr (sp, o)) ∧ (k.place c (k.rx rs1 + BitVec.ofNat 64 (4 * b.loadNat sp o 2)).toNat 4 .load true = .inr (sp', o')) ∧ (k.place c (k.rx rd).toNat 4 .store true = .inr (sd, od)))) = true ∧
    (let b : Block := running3; let c : Nat := 3; let w : Nat := 0x00128293; let len : Nat := 4; let k : Core := match running3.rvExec 3 core3 4 0x00128293 with | .core k => k | _ => {}; decide ((b.up) ∧ (b.member.has ⟨.frond, c⟩ = true) ∧ (b.running c = true) ∧ (b.rvFetch c (b.coreSt c) = .inr (some w, len)) ∧ (b.rvExec c (b.coreSt c) len w = .core k))) = true ∧
    (let b : Block := { running3 with frd := { running3.frd with core := [(3, { core3 with pmpcfg := [] })] } }; let c : Nat := 3; let e : Nat := 1; let a : DWord := 0; decide ((b.up) ∧ (b.member.has ⟨.frond, c⟩ = true) ∧ (b.running c = true) ∧ (b.rvFetch c (b.coreSt c) = .inl (e, a)))) = true ∧
    (let b : Block := running3; let c : Nat := 3; decide ((b.up) ∧ (b.member.has ⟨.frond, c⟩ = true) ∧ (b.running c = true))) = true ∧
    (let b : Block := running3; let c : Nat := 3; decide ((b.up) ∧ (b.member.has ⟨.frond, c⟩ = true) ∧ (b.member.has ⟨.frond, c⟩ = true))) = true ∧
    (let b : Block := running3.set KEY_STATUS_DEBUG 1; let c : Nat := 3; decide ((b.up) ∧ (b.member.has ⟨.frond, c⟩ = true) ∧ (b.on KEY_STATUS_DEBUG = true) ∧ (b.running c = true))) = true ∧
    (let b : Block := { running3.set (FRDc_STAT_STATE 3) 6 with frd := { running3.frd with core := [(3, { core3 with halted := true })] } }; let c : Nat := 3; let r : TaskRun := run0 .running; decide ((b.up) ∧ (b.member.has ⟨.frond, c⟩ = true) ∧ (b.onCore c = some r) ∧ (r.st = .running) ∧ ((b.coreSt c).halted = true))) = true := by
  decide +kernel

/-- Operands and states that meet the hypotheses of Obligations.TuftCommands, clause by clause. -/
theorem test_witness_TuftCommands :
    (let b : Block := upB; let t : Nat := 15; decide ((b.up) ∧ (t < b.member.units .tuft) ∧ (b.on (FRD_TUFTt_TCM_CTRL_BUSY t) = false))) = true ∧
    (let b : Block := pTask; let t : Nat := 15; decide ((b.up) ∧ (t < b.member.units .tuft) ∧ (b.showPcMapped.on (FRD_TUFTt_STAT_PC_MAPPED t) = true))) = true ∧
    (let b : Block := upB; let t : Nat := 15; decide ((b.up) ∧ (t < b.member.units .tuft) ∧ (b.showPcMapped.on (FRD_TUFTt_STAT_PC_MAPPED t) = false))) = true ∧
    ((fun b : Block => (fun t : Nat => (fun f : Nat => decide ((b.up) ∧ (t < b.member.units .tuft) ∧ (b.frd.freq.get (fun _ => none) t = some f) ∧ (b.frd.changing.get (fun _ => false) t = false) ∧ (∀ k : Nat, k < 8 → b.onCore (8 * t + k) = none))) (800)) (15)) ({ upB with frd := { upB.frd with freq := [(15, some 800)] } })) = true ∧
    (let b : Block := { upB with frd := { upB.frd with freq := [(15, some 800)], changing := [(15, true)] } }; let t : Nat := 15; let f : Nat := 800; decide ((b.up) ∧ (t < b.member.units .tuft) ∧ (b.frd.freq.get (fun _ => none) t = some f) ∧ (b.frd.changing.get (fun _ => false) t = true))) = true := by
  decide +kernel

/-- Operands and states that meet the hypotheses of Obligations.EdgeInputCommands, clause by clause. -/
theorem test_witness_EdgeInputCommands :
    (let b : Block := fei {}; let i : Nat := 15; decide ((b.up) ∧ (b.hasFei = true) ∧ (i < 16) ∧ ((b.feiOf i).en = false))) = true ∧
    (let b : Block := fei { en := true, cfg := 3 }; let i : Nat := 15; let r : Bool := true; decide ((b.up) ∧ (b.hasFei = true) ∧ (i < 16) ∧ ((b.feiOf i).en = true) ∧ (bit (bits (b.feiOf i).cfg.toNat 0 2) (if r then 0 else 1) = true))) = true ∧
    (let b : Block := fei { en := true, cfg := 3 }; let i : Nat := 15; decide ((b.up) ∧ (b.hasFei = true) ∧ (i < 16) ∧ (b.on (ACQ_FEIi_STAT_SINGLE i) = false))) = true ∧
    (let b : Block := fei { en := true, cfg := 3 }; let i : Nat := 15; decide ((b.up) ∧ (b.hasFei = true) ∧ (i < 16) ∧ ((b.feiOf i).en = true) ∧ ((b.feiOf i).busyA = false) ∧ ((b.feiOf i).busyB = false) ∧ (b.on (ACQ_FEIi_STAT_SINGLE i) = false))) = true ∧
    (let b : Block := fei { busyA := true }; let i : Nat := 15; let h : List Nat := List.replicate 64 256; decide ((b.up) ∧ (b.hasFei = true) ∧ (i < 16) ∧ ((b.feiOf i).busyA = true) ∧ ((b.feiOf i).busyB = false) ∧ ((calTable h (2 ^ clampN 14 20 (b.get ACQ_CAL_CAL_LOG))).2.2 = true))) = true := by
  decide +kernel

/-- Operands and states that meet the hypotheses of Obligations.CaptureCommands, clause by clause. -/
theorem test_witness_CaptureCommands :
    (let b : Block := cset { en := true }; let k : Nat := 7; let v : Word := 0; decide ((b.up) ∧ (b.member.has ⟨.acq, 0⟩ = true) ∧ (k < 8) ∧ (bits v.toNat 24 3 = 0) ∧ (bits v.toNat 0 16 = 0) ∧ ((b.csetOf k).en = true))) = true ∧
    (let b : Block := cset { en := true, queue := [⟨0, 0, 0, false, false, false, 0⟩] }; let k : Nat := 7; decide ((b.up) ∧ (b.member.has ⟨.acq, 0⟩ = true) ∧ (k < 8))) = true ∧
    (let b : Block := (cset { en := true }).set (ACQ_CSETs_STAT_STATE 7) csSTOPPED; let k : Nat := 7; decide ((b.up) ∧ (b.member.has ⟨.acq, 0⟩ = true) ∧ (k < 8) ∧ (b.get (ACQ_CSETs_STAT_STATE k) = csSTOPPED) ∧ ((b.csetOf k).queue = []))) = true ∧
    (let b : Block := (cset { en := true }).set (ACQ_CSETs_STAT_STATE 7) csARMED; let k : Nat := 7; decide ((b.up) ∧ (b.member.has ⟨.acq, 0⟩ = true) ∧ (k < 8) ∧ (b.get (ACQ_CSETs_STAT_STATE k) = csARMED) ∧ (b.takes ⟨.acq, 0⟩ = true) ∧ (b.rd64 (ACQ_CSETs_ARM_LO k) * 65536 ≤ b.stamp) ∧ ((b.csetOf k).settle = none))) = true ∧
    (let b : Block := cset { en := true }; let k : Nat := 7; decide ((b.up) ∧ (b.member.has ⟨.acq, 0⟩ = true) ∧ (k < 8) ∧ (b.get (ACQ_CSETs_STAT_STATE k) ≠ csARMED))) = true ∧
    (let b : Block := cset { en := true, settle := some 5, queue := [⟨1, 0, 0, false, false, false, 0⟩] }; let k : Nat := 7; let e : Nat := 5; let t : AcqTrig := ⟨1, 0, 0, false, false, false, 0⟩; let o : List AcqTrig := []; decide ((b.up) ∧ (b.member.has ⟨.acq, 0⟩ = true) ∧ ((b.csetOf k).settle = some e) ∧ (earliest (b.csetOf k).queue = some (t, o)))) = true ∧
    (let b : Block := (cset { en := true, cfg := [0x20000000] }).set (ACQ_CSETs_STAT_STATE 7) csARMED; let k : Nat := 7; decide ((b.up) ∧ (b.member.has ⟨.acq, 0⟩ = true) ∧ (k < 8) ∧ (b.get (ACQ_CSETs_STAT_STATE k) = csARMED) ∧ ((b.csetOf k).mode = 1) ∧ ((b.csetOf k).queue = []))) = true ∧
    (let b : Block := { upB with acq := { upB.acq with trg := [(31, { en := true, cfg := [0x08000000], pos := { t0 := some 7 } })] } }; let u : Nat := 31; let a : Nat := 7; decide ((b.up) ∧ (b.member.has ⟨.acq, 0⟩ = true) ∧ (u < 32) ∧ ((b.trgOf u).en = true) ∧ ((b.trgOf u).kind = 0) ∧ ((b.trgOf u).type = 4) ∧ ((b.trgOf u).pol ≠ 2) ∧ ((b.trgOf u).pos.t0 = some a))) = true ∧
    (let b : Block := (cset { en := true, cfg := [0x40000000], cur := some seg0, hi := 99 }).set (ACQ_CSETs_STAT_STATE 7) csCAPTURING; let k : Nat := 7; let g : Seg := seg0; decide ((b.up) ∧ (b.member.has ⟨.acq, 0⟩ = true) ∧ ((b.csetOf k).cur = some g) ∧ (g.stop ≤ (b.csetOf k).hi) ∧ ((b.csetOf k).mode = 2))) = true ∧
    (let b : Block := (cset {}).wr (ACQ_CSETs_PROD 7) 6; let k : Nat := 7; let v : Word := 5; decide ((b.up) ∧ (b.member.has ⟨.acq, 0⟩ = true) ∧ (k < 8) ∧ ((b.csetOf k).gap = none) ∧ ((2 ^ 32 + v.toNat - (b.rd (ACQ_CSETs_CONS k)).toNat) % 2 ^ 32 ≤ (2 ^ 32 + (b.rd (ACQ_CSETs_PROD k)).toNat - (b.rd (ACQ_CSETs_CONS k)).toNat) % 2 ^ 32))) = true ∧
    (let b : Block := cset { xtEnd := some 5 }; let k : Nat := 7; let e : Nat := 5; decide ((b.up) ∧ (b.member.has ⟨.acq, 0⟩ = true) ∧ ((b.csetOf k).xtEnd = some e))) = true := by
  decide +kernel

/-- Operands and states that meet the hypotheses of Obligations.RopeLineAndTimers, clause by clause. -/
theorem test_witness_RopeLineAndTimers :
    (let b : Block := upB; let k : Nat := 1; decide ((b.up) ∧ (b.hasRope = true) ∧ (k < 2) ∧ (b.on (ROPE_LANEk_STAT_LINK k) = false) ∧ (b.on (ROPE_LANEk_CFG_PRBS k) = false) ∧ (b.isRetired (180 + k) = false))) = true ∧
    (let b : Block := (upB.set (ROPE_LANEk_STAT_LINK 0) 1).set (ROPE_LANEk_STAT_LINK 1) 1; let k : Nat := 1; decide ((b.up) ∧ (b.hasRope = true) ∧ (k < 2) ∧ (b.on (ROPE_LANEk_STAT_LINK k) = true) ∧ (b.on (ROPE_LANEk_STAT_LINK (1 - k)) = true))) = true ∧
    (let b : Block := pairM 1; decide ((b.up) ∧ (b.hasRope = true) ∧ (b.paired = true) ∧ (b.ropeUp = false))) = true ∧
    (let b : Block := (pairM 2).set ROPE_ROLE_ROPE_UP 1; decide ((b.up) ∧ (b.hasRope = true) ∧ (b.paired = true) ∧ (b.ropeUp = true) ∧ (b.role = rSTANDBY))) = true ∧
    (let b : Block := (pairM 2).set ROPE_ROLE_ROPE_UP 1; decide ((b.up) ∧ (b.hasRope = true) ∧ (b.ropeUp = true))) = true ∧
    (let b : Block := upB; let v : Bool := true; decide ((b.up) ∧ (b.hasRope = true) ∧ (b.on ROPE_ROLE_BELAY_IN ≠ v) ∧ (b.paired = false) ∧ (b.rope.claim = false) ∧ (b.following = false) ∧ (b.gin.notices = []))) = true ∧
    (let b : Block := { (pairM 2).set SWC_GATE_OPEN 1 with rope := { (pairM 2).rope with lease := true } }; decide ((b.up) ∧ (b.hasRope = true) ∧ (b.rope.lease = true) ∧ (b.role ≠ rACTIVE))) = true ∧
    (let b : Block := { pairM 1 with rst := { (pairM 1).rst with ran := true } }; decide ((b.up) ∧ (b.hasRope = true) ∧ (b.paired = true) ∧ (b.rst.ran = true) ∧ (b.role = rSYNCING) ∧ (b.on ROPE_ROLE_BELAY_IN = false))) = true ∧
    (let b : Block := (pairM 3).set ROPE_ROLE_BELAY_IN 1; decide ((b.up) ∧ (b.hasRope = true) ∧ (b.paired = true) ∧ (b.on ROPE_ROLE_BELAY_IN = true))) = true ∧
    (let b : Block := let b := (pairM 2).set ROPE_ROLE_ROPE_UP 1; { b with rope := { b.rope with waits := [(0, 0, 0)] } }; let w : Nat × Nat × Nat := (0, 0, 0); let l : List (Nat × Nat × Nat) := []; decide ((b.up) ∧ (b.hasRope = true) ∧ (b.rope.waits = w :: l) ∧ (b.following = true))) = true := by
  decide +kernel

/-- Operands and states that meet the hypotheses of Obligations.RopeFrames, clause by clause. -/
theorem test_witness_RopeFrames :
    (let b : Block := pairM 1; let lane : Nat := 0; let l : List Byte := ropeBytes 1 0 (List.replicate 20 0); let f : RopeFrame := takenF b l (fun t => t == 1); let c : Block := (b.ropeTake lane l (fun t => t == 1)).2; decide ((b.ropeTake lane l (fun t => t == 1) = (some f, c)))) = true ∧
    (let b : Block := pairM 2; let lane : Nat := 0; let l : List Byte := ropeBytes 2 0 ([]); let f : RopeFrame := takenF b l (fun t => t == 2); let c : Block := (b.ropeTake lane l (fun t => t == 2)).2; decide ((b.ropeTake lane l (fun t => t == 2) = (some f, c)))) = true ∧
    (let b : Block := pairM 3; let lane : Nat := 0; let l : List Byte := ropeBytes 9 3 ([]); let f : RopeFrame := takenF b l (fun t => t == 9); let c : Block := (b.ropeTake lane l (fun t => t == 9)).2; decide ((b.ropeTake lane l (fun t => t == 9) = (some f, c)) ∧ (f.role = rACTIVE))) = true ∧
    (let b : Block := pairM 2; let lane : Nat := 0; let l : List Byte := ropeBytes 8 0 (List.replicate 16 1); let f : RopeFrame := takenF b l (fun t => t == 8); let c : Block := (b.ropeTake lane l (fun t => t == 8)).2; decide ((b.ropeTake lane l (fun t => t == 8) = (some f, c)))) = true ∧
    (let b : Block := pairM 3; let lane : Nat := 0; let l : List Byte := ropeBytes 6 0 (List.replicate 80 0); let f : RopeFrame := takenF b l (fun t => t == 6); let c : Block := (b.ropeTake lane l (fun t => t == 6)).2; decide ((b.ropeTake lane l (fun t => t == 6) = (some f, c)) ∧ (c.role = rACTIVE) ∧ (beAt f.body 0 1 ≤ 16))) = true ∧
    (let b : Block := pairM 3; let lane : Nat := 0; let l : List Byte := ropeBytes 0xC 0 (List.replicate 12 0); let f : RopeFrame := takenF b l (fun t => t == 0xC); let c : Block := (b.ropeTake lane l (fun t => t == 0xC)).2; decide ((b.ropeTake lane l (fun t => t == 0xC) = (some f, c)) ∧ (beAt f.body 2 1 = 0) ∧ (c.role = rACTIVE))) = true ∧
    (let b : Block := pairM 3; let lane : Nat := 0; let l : List Byte := ropeBytes 7 0 (List.replicate 16 0); let f : RopeFrame := takenF b l (fun t => t == 7); let c : Block := (b.ropeTake lane l (fun t => t == 7)).2; decide ((b.ropeTake lane l (fun t => t == 7) = (some f, c)) ∧ (c.role ≠ rSTANDBY))) = true ∧
    (let b : Block := pairM 2; let lane : Nat := 0; let l : List Byte := ropeBytes 7 0 (List.replicate 16 0); let f : RopeFrame := takenF b l (fun t => t == 7); let c : Block := (b.ropeTake lane l (fun t => t == 7)).2; decide ((b.ropeTake lane l (fun t => t == 7) = (some f, c)) ∧ (c.role = rSTANDBY) ∧ (beAt f.body 8 2 = 0))) = true ∧
    (let b : Block := pairM 3; let lane : Nat := 0; let l : List Byte := ropeBytes 0xA 0 (List.replicate 32 3); let f : RopeFrame := takenF b l (fun t => t == 0xA); let c : Block := (b.ropeTake lane l (fun t => t == 0xA)).2; decide ((b.ropeTake lane l (fun t => t == 0xA) = (some f, c)))) = true ∧
    (let b : Block := pairM 3; let lane : Nat := 0; let l : List Byte := ropeBytes 15 0 ([]); let f : RopeFrame := takenF b l (fun t => t == 0 || decide (14 < t)); let c : Block := (b.ropeTake lane l (fun t => t == 0 || decide (14 < t))).2; decide ((b.ropeTake lane l (fun t => t == 0 || decide (14 < t)) = (some f, c)))) = true := by
  decide +kernel

/-- Operands and states that meet the hypotheses of Obligations.RopePairFrames, clause by clause. -/
theorem test_witness_RopePairFrames :
    (let b : Block := grpUp (pairM 2) 0; let lane : Nat := 0; let l : List Byte := ropeBytes 3 0 (List.replicate 12 0); let f : RopeFrame := takenF b l (fun t => t == 3); let c : Block := (b.ropeTake lane l (fun t => t == 3)).2; decide ((b.ropeTake lane l (fun t => t == 3) = (some f, c)) ∧ ((relOf f.body).g < 16) ∧ ((c.grpOf (relOf f.body).g).en = true) ∧ (c.grpNext (relOf f.body).g ≤ (relOf f.body).i))) = true ∧
    (let b : Block := grpUp (pairM 3) 1; let lane : Nat := 0; let l : List Byte := ropeBytes 3 0 (List.replicate 12 0); let f : RopeFrame := takenF b l (fun t => t == 3); let c : Block := (b.ropeTake lane l (fun t => t == 3)).2; decide ((b.ropeTake lane l (fun t => t == 3) = (some f, c)) ∧ ((relOf f.body).g < 16) ∧ ((c.grpOf (relOf f.body).g).en = true) ∧ (c.role = rACTIVE) ∧ ((relOf f.body).i < c.grpNext (relOf f.body).g))) = true ∧
    (let b : Block := pairM 3; let lane : Nat := 0; let l : List Byte := ropeBytes 4 0 (List.replicate 40 0); let f : RopeFrame := takenF b l (fun t => t == 4); let c : Block := (b.ropeTake lane l (fun t => t == 4)).2; decide ((b.ropeTake lane l (fun t => t == 4) = (some f, c)) ∧ (beAt f.body 0 1 ≤ 16) ∧ (c.member.has ⟨.rhz, beAt f.body 0 1⟩ = true) ∧ ((c.slotOf (beAt f.body 1 2)).en = false))) = true ∧
    (let b : Block := { pairM 3 with rhz := { upB.rhz with slot := [(0, { ({} : Slot) with en := true, cfg := [0, 0, 0, 0, 0, 0, 0, 1, 0x41] })], grp := [(0, { ({} : Grp) with en := true })] } }; let lane : Nat := 0; let l : List Byte := ropeBytes 4 0 (List.replicate 16 0 ++ [0x30, 34] ++ asdu0); let f : RopeFrame := takenF b l (fun t => t == 4); let c : Block := (b.ropeTake lane l (fun t => t == 4)).2; let a : SvAsdu := match parseAsduN 2 asdu0 with | some a => a | none => ⟨[], 0, 0, 0, none, [], []⟩; let g : Nat := 0x30; let n : Nat := 34; let h : Nat := 2; let x : Slot := c.slotOf 0; decide ((b.ropeTake lane l (fun t => t == 4) = (some f, c)) ∧ (beAt f.body 0 1 ≤ 16) ∧ (c.member.has ⟨.rhz, beAt f.body 0 1⟩ = true) ∧ (x = c.slotOf (beAt f.body 1 2)) ∧ (x.en = true) ∧ (x.profile ≠ 1) ∧ ((c.grpOf x.group).en = true) ∧ (x.names (beAt f.body 0 1) = true) ∧ (x.svLen ≠ 0) ∧ (x.svId = a.svId) ∧ (berHead (f.body.drop 16) = some (g, n, h)) ∧ (parseAsduN 2 (slice f.body (16 + h) n) = some a) ∧ (((c.rhzCnt (beAt f.body 0 1) 9).ropeCnt 12).fits (beAt f.body 1 2) a x.nasdu false = false))) = true ∧
    (let b : Block := pairM 2; let lane : Nat := 0; let l : List Byte := ropeBytes 5 0 (List.replicate 12 0); let f : RopeFrame := takenF b l (fun t => t == 5); let c : Block := (b.ropeTake lane l (fun t => t == 5)).2; decide ((b.ropeTake lane l (fun t => t == 5) = (some f, c)) ∧ (c.role ≠ rACTIVE) ∧ (c.rope.flipDone ≤ beAt f.body 0 8))) = true ∧
    (let b : Block := pairM 3; let lane : Nat := 0; let l : List Byte := ropeBytes 0xB 0 (List.replicate 12 0); let f : RopeFrame := takenF b l (fun t => t == 0xB); let c : Block := (b.ropeTake lane l (fun t => t == 0xB)).2; decide ((b.ropeTake lane l (fun t => t == 0xB) = (some f, c)) ∧ (beAt f.body 0 1 = 0) ∧ (c.role = rACTIVE))) = true ∧
    (let b : Block := (pairM 3).set CRZ_SWAP_CTRL_STATE 1; let lane : Nat := 0; let l : List Byte := ropeBytes 0xD 0 (List.replicate 12 0); let f : RopeFrame := takenF b l (fun t => t == 0xD); let c : Block := (b.ropeTake lane l (fun t => t == 0xD)).2; decide ((b.ropeTake lane l (fun t => t == 0xD) = (some f, c)) ∧ (c.role = rACTIVE) ∧ (c.swapState = 1 ∨ c.swapState = 3) ∧ (beAt f.body 8 1 = 0))) = true ∧
    (let b : Block := pairM 2; let lane : Nat := 0; let l : List Byte := ropeBytes 0xE 0 (List.replicate 12 0); let f : RopeFrame := takenF b l (fun t => t == 0xE); let c : Block := (b.ropeTake lane l (fun t => t == 0xE)).2; decide ((b.ropeTake lane l (fun t => t == 0xE) = (some f, c)) ∧ (beAt f.body 8 1 = 0) ∧ (c.role = rSTANDBY))) = true ∧
    (let b : Block := { pairM 3 with rope := { (pairM 3).rope with handover := some 0 } }; let lane : Nat := 0; let l : List Byte := ropeBytes 0xE 0 (List.replicate 8 0 ++ [1]); let f : RopeFrame := takenF b l (fun t => t == 0xE); let c : Block := (b.ropeTake lane l (fun t => t == 0xE)).2; decide ((b.ropeTake lane l (fun t => t == 0xE) = (some f, c)) ∧ (beAt f.body 8 1 ≠ 0) ∧ (c.role = rACTIVE) ∧ (c.rope.handover = some (beAt f.body 0 8)))) = true := by
  decide +kernel

/-- Operands and states that meet the hypotheses of Obligations.RopeReplayRejected, clause by clause. -/
theorem test_witness_RopeReplayRejected :
    (let b : Block := pairM 3; let lane : Nat := 0; let l : List Byte := ropeBytes 2 5 []; let c : Block := (b.ropeTake lane l (fun t => t == 2)).2; let typ : Nat → Bool := fun t => t == 2; let f : RopeFrame := takenF b l (fun t => t == 2); decide ((b.on ROPE_CFG2_AUTH = false) ∧ (f.typ ≠ 1) ∧ (b.ropeTake lane l typ = (some f, c)))) = true := by
  decide +kernel

/-- Operands and states that meet the hypotheses of Obligations.PairCommands, clause by clause. -/
theorem test_witness_PairCommands :
    (let b : Block := { pairM 3 with rope := { (pairM 3).rope with resolves := [⟨5, 0, 0, none, none⟩] } }; let task : Nat := 5; let r : Resolve := ⟨5, 0, 0, none, none⟩; decide ((b.up) ∧ (b.hasRope = true) ∧ (b.rope.resolves.find? (fun r => r.task == task && r.own.isNone) = some r))) = true ∧
    (let b : Block := { pairM 3 with rope := { (pairM 3).rope with resolves := [⟨5, 0, 0, none, none⟩] } }; let r : Resolve := ⟨5, 0, 0, none, none⟩; let l : List Resolve := []; decide ((b.up) ∧ (b.hasRope = true) ∧ (b.rope.resolves = r :: l))) = true ∧
    (let b : Block := (pairM 3).set ROPE_CFG2_SELFTEST 1; let ch : Nat := 144; decide ((b.up) ∧ (b.hasRope = true) ∧ (b.selftests ch = true))) = true ∧
    (let b : Block := pairM 3; decide ((b.up) ∧ (b.hasRope = true) ∧ (b.paired = true) ∧ (b.ropeUp = false))) = true ∧
    (let b : Block := (pairM 3).set ROPE_ROLE_ROPE_UP 1; decide ((b.up) ∧ (b.hasRope = true) ∧ (b.ropeUp = true))) = true ∧
    (let b : Block := { pairM 1 with rope := { (pairM 1).rope with joinReq := some 5 } }; let t : Nat := 5; decide ((b.up) ∧ (b.hasRope = true) ∧ (b.rope.joinReq = some t) ∧ (b.role = rSYNCING))) = true ∧
    (let b : Block := ((pairM 1).set ROPE_ROLE_ROPE_UP 1).set ROPE_ROLE_PROLE 3; decide ((b.up) ∧ (b.hasRope = true) ∧ (b.role = rSYNCING) ∧ (b.partnerIs rACTIVE = true))) = true ∧
    (let b : Block := { pairM 3 with rope := { (pairM 3).rope with handover := some 5 } }; let k : Nat := 5; decide ((b.up) ∧ (b.hasRope = true) ∧ (b.rope.handover = some k) ∧ (b.role = rACTIVE) ∧ (b.rope.acked = false))) = true ∧
    (let b : Block := ((pairM 3).set ROPE_ROLE_ROPE_UP 1).set ROPE_ROLE_PROLE 2; decide ((b.up) ∧ (b.hasRope = true) ∧ (b.role = rACTIVE) ∧ (b.partnerIs rSTANDBY = true) ∧ (b.rope.pFails = false))) = true ∧
    (let b : Block := pairM 3; decide ((b.up) ∧ (b.hasRope = true) ∧ (b.role = rACTIVE))) = true := by
  decide +kernel

/-- Operands and states that meet the hypotheses of Obligations.QueueEntryCommands, clause by clause. -/
theorem test_witness_QueueEntryCommands :
    (let b : Block := upB; let i : Nat := 255; let n : Nat := 1023; decide ((b.up) ∧ (i < 256) ∧ (n < 1024))) = true ∧
    (let b : Block := cached [(qIdx 3 7, { cq0 with igen := 9 })] upB; let i : Nat := 3; let n : Nat := 7; let l : CtxLine := ⟨qIdx 3 7, (({ cq0 with igen := 9 } : QCtx)).bytes, false⟩; decide ((b.up) ∧ (i < 256) ∧ (n < 1024) ∧ (b.hif.cache.find? (fun x => x.idx == qIdx i n) = some l) ∧ ((QCtx.of l.bytes).igen ≠ b.instGen i))) = true := by
  decide +kernel

/-- Operands and states that meet the hypotheses of Obligations.InstanceCommands, clause by clause. -/
theorem test_witness_InstanceCommands :
    (let b : Block := upB.set (VIN_INSTi_STAT_STATE 255) iFREEZING; let i : Nat := 255; decide ((b.up) ∧ (i < 256) ∧ (b.instState i = iFREEZING) ∧ (b.instBusy i = false))) = true ∧
    (let b : Block := { upB with vin := { upB.vin with writes := [⟨3, 0, 0, 0, 0, false, 0, [], 0⟩] } }; let i : Nat := 3; let w : PendWrite := ⟨3, 0, 0, 0, 0, false, 0, [], 0⟩; decide ((b.up) ∧ (b.vin.writes = [w]) ∧ (w.inst = i) ∧ (w.tick ≤ b.lastTick) ∧ (b.crz.runs = []))) = true ∧
    (let b : Block := upB; let a : Nat := 0x4908000; decide ((b.up) ∧ (0x4908000 ≤ a) ∧ (a < 0x4900000 + 256 * 0x8000))) = true ∧
    (let b : Block := cached [] { upB with member := .ny9602 }; let a : Nat := 0x40000; decide ((b.up) ∧ (b.hostIn = true) ∧ (a < 0x1000000) ∧ (b.member.instances ≤ a / 0x10000))) = true ∧
    (let b : Block := let b := cached [(qIdx 3 7, cq0)] ((upB.set (VIN_INSTi_STAT_STATE 3) 1).set (VIN_INSTi_QUOTA_QUOTA 3) 8); { b with hif := { b.hif with turns := [qIdx 3 7] } }; let a : Nat := 0x301C0; let v : Word := 0x07000005; let l : CtxLine := ⟨qIdx 3 7, cq0.bytes, false⟩; decide ((b.up) ∧ (b.hostIn = true) ∧ (a < 0x1000000) ∧ (a / 0x10000 < b.member.instances) ∧ (a / 0x10000 = 0 ∨ b.instState (a / 0x10000) ≠ 0) ∧ (a % 0x40 = 0) ∧ (a % 0x10000 / 0x40 < b.get (VIN_INSTi_QUOTA_QUOTA (a / 0x10000)) ∨ a / 0x10000 = 0 ∧ a % 0x10000 / 0x40 < 2) ∧ (b.hif.cache.find? (fun x => x.idx == qIdx (a / 0x10000) (a % 0x10000 / 0x40)) = some l) ∧ ((QCtx.of l.bytes).state = 1) ∧ (bits v.toNat 24 8 = (QCtx.of l.bytes).qgen) ∧ ((QCtx.of l.bytes).igen = b.instGen (a / 0x10000)) ∧ (bits v.toNat 0 16 < (QCtx.of l.bytes).size) ∧ ((QCtx.of l.bytes).kind = 0) ∧ (qIdx (a / 0x10000) (a % 0x10000 / 0x40) ∈ b.hif.turns))) = true ∧
    (let b : Block := upB; decide ((b.up) ∧ (b.hostReady = false))) = true ∧
    (let b : Block := cached [(0, cq0), (1, cq1)] (linkUp upB |>.set HIF_ADMQ_CFG_EN 1); let l : CtxLine := ⟨0, cq0.bytes, false⟩; let c : QCtx := cq0; let d : CtxLine := ⟨1, cq1.bytes, false⟩; let e : List Byte := ((b.cachePut l).hostLoad 0 (c.ring + 64 * c.head) 64).1; let x : Block := ((b.cachePut l).hostLoad 0 (c.ring + 64 * c.head) 64).2; decide ((b.up) ∧ (b.hostReady = true) ∧ (b.on HIF_ADMQ_CFG_EN = true) ∧ (b.takes ⟨.vin, 0⟩ = true) ∧ (b.takes ⟨.hif, 0⟩ = true) ∧ (b.hif.cache.find? (fun x => x.idx == 0) = some l) ∧ (c = QCtx.of l.bytes) ∧ (c.state = 1) ∧ (c.kind = 0) ∧ (c.used ≠ 0) ∧ (c.cq = 1) ∧ (b.hif.cache.find? (fun x => x.idx == 1) = some d) ∧ ((QCtx.of d.bytes).full = false) ∧ ((b.cachePut l).hostLoad 0 (c.ring + 64 * c.head) 64 = (e, x)))) = true ∧
    (let b : Block := cached [(0, cq0)] upB; let v : Word := 0x80000000; let l : CtxLine := ⟨0, cq0.bytes, false⟩; decide ((b.up) ∧ (b.on HIF_ADMQ_CFG_EN = false) ∧ (bit v.toNat 31 = true) ∧ (b.hif.cache.find? (fun x => x.idx == 0) = some l))) = true ∧
    (let b : Block := upB; let v : Word := 0x07FF0000; decide ((b.up) ∧ (b.on HIF_ADMQ_CFG_EN = false) ∧ (bit v.toNat 31 = false))) = true := by
  decide +kernel

/-- Operands and states that meet the hypotheses of Obligations.HostLinkCommands, clause by clause. -/
theorem test_witness_HostLinkCommands :
    (let b : Block := upB; decide ((b.up) ∧ (b.on HIF_STAT_PERST = false))) = true ∧
    (let b : Block := upB.set HIF_STAT_PERST 1; decide ((b.up) ∧ (b.on HIF_STAT_PERST = true) ∧ (b.get HIF_STAT_LSTATE ≠ 4))) = true ∧
    (let b : Block := upB; decide ((b.up))) = true ∧
    (let b : Block := linkUp upB; decide ((b.up) ∧ (b.on HIF_STAT_LINK_UP = true))) = true ∧
    (let b : Block := let b := linkUp upB; { b with hif := { b.hif with aspm := true } }; decide ((b.up) ∧ (b.hif.aspm = true) ∧ (b.hostOpen = true) ∧ (b.get HIF_STAT_LSTATE = 0))) = true ∧
    (let b : Block := upB; decide ((b.up) ∧ (b.on HIF_STAT_PERST = false) ∧ (b.get HIF_STAT_DSTATE ≠ 3))) = true ∧
    (let b : Block := linkUp upB; decide ((b.up) ∧ (b.on HIF_STAT_LINK_UP = true) ∧ (b.get HIF_STAT_LSTATE ≠ 4))) = true ∧
    (let b : Block := let b := (upB.set HIF_STAT_LSTATE 4).set HIF_CTRL_WAKE_N_EN 1; { b with hif := { b.hif with pmeReq := true } }; decide ((b.up) ∧ (b.hif.pmeReq = true) ∧ (b.hif.pmeStatus = false) ∧ (b.get HIF_STAT_LSTATE = 4) ∧ (b.on HIF_CTRL_WAKE_N_EN = true))) = true ∧
    (let b : Block := upB.set HIF_STAT_LSTATE 2; decide ((b.up) ∧ (b.get HIF_STAT_LSTATE = 2) ∧ (b.hif.pmeReq = false))) = true ∧
    (let b : Block := upB; let v : Nat := 2047; decide ((b.up) ∧ (v < 2048))) = true ∧
    (let b : Block := upB.set HIF_STAT_PERST 1; decide ((b.up) ∧ (b.on HIF_STAT_PERST = true))) = true ∧
    (let b : Block := upB; decide ((b.up) ∧ (b.on HIF_STAT_PERST = false) ∧ (b.hif.pmeOwed = false))) = true ∧
    (let b : Block := cached [(qIdx 3 7, cq0)] upB; let i : Nat := 3; let n : Nat := 7; let l : CtxLine := ⟨qIdx 3 7, cq0.bytes, false⟩; decide ((b.up) ∧ (i < 256) ∧ (n < 1024) ∧ (b.hif.cache.find? (fun x => x.idx == qIdx i n) = some l) ∧ ((QCtx.of l.bytes).state = 1))) = true := by
  decide +kernel

/-- Operands and states that meet the hypotheses of Obligations.MemoryCommands, clause by clause. -/
theorem test_witness_MemoryCommands :
    (let b : Block := upB; let a : Nat := 0xC000000; let n : Nat := 8; let o : Nat := 0; let sp : Space := .intake; decide ((b.up) ∧ (b.on IMG_STATUS_RECOVERY = false) ∧ (0 < n) ∧ (a / 4096 = (a + n - 1) / 4096) ∧ (0x8000000 ≤ a) ∧ (a < 0xDE00000) ∧ (thlSpace a = some (sp, o)) ∧ (sp = .intake ∨ sp = .acq))) = true ∧
    (let b : Block := upB; let a : Nat := 0x8000000; let n : Nat := 8; let o : Nat := 0; let t : Nat := 0; let d : List Byte := List.replicate 8 1; decide ((b.up) ∧ (b.on IMG_STATUS_RECOVERY = false) ∧ (0 < n) ∧ (a / 4096 = (a + n - 1) / 4096) ∧ (0x8000000 ≤ a) ∧ (thlSpace a = some (.tuft t, o)) ∧ (b.member.has ⟨.tuft, t⟩ = true) ∧ (b.leased = false) ∧ (b.seg = []) ∧ (d.length = n))) = true ∧
    (let b : Block := upB; decide ((b.up) ∧ (b.hostWait = []))) = true ∧
    (let b : Block := { upB with hostWait := [(1, 3, 4, true, 0)] }; let m : Nat := 3; let n : Nat := 4; let x : Bool := true; let t : Nat := 0; decide ((b.up) ∧ (b.hostWait = [(1, m, n, x, t)]))) = true ∧
    (let b : Block := { upB with hostWait := [(0, 0, 4, false, 0)] }; let n : Nat := 4; let x : Bool := false; let t : Nat := 0; decide ((b.up) ∧ (b.hostWait = [(0, 0, n, x, t)]))) = true ∧
    (let b : Block := upB; decide ((b.up))) = true ∧
    (let b : Block := ddrB 0; let c : Nat := 0; decide ((b.up) ∧ (b.ddrLive c = true))) = true ∧
    (let b : Block := ddrB 1; let c : Nat := 0; decide ((b.up) ∧ (b.ddrLive c = true) ∧ (b.on NRG_STATUS_BIVOUAC = true))) = true := by
  decide +kernel

/-- Operands and states that meet the hypotheses of Obligations.PowerCommands, clause by clause. -/
theorem test_witness_PowerCommands :
    (let b : Block := upB; let d : Nat := 150; decide ((b.up) ∧ (b.domWant d = b.domState d) ∧ (b.on NRG_STATUS_BIVOUAC = false))) = true ∧
    (let b : Block := upB.set (NRG_DOMd_CFG_PIN 150) 1; let d : Nat := 150; decide ((b.up) ∧ (b.member.hasDomain d = true) ∧ (b.domWant d = dON) ∧ (b.domState d = dOFF) ∧ (b.on NRG_STATUS_BIVOUAC = false) ∧ (b.nrg.up.any (fun r => r.dom == d) = false) ∧ (b.nrg.moving.any (fun r => r.dom == d && r.want == dON) = false))) = true ∧
    (let b : Block := { upB with nrg := { upB.nrg with up := [⟨150, dON, 0⟩] } }; let r : PowerReq := ⟨150, dON, 0⟩; decide ((b.up) ∧ (b.rampHead (if b.nrg.up.isEmpty then b.nrg.down else b.nrg.up) = some r) ∧ (r.dom < 212))) = true ∧
    (let b : Block := (moving 150 dON).set (NRG_DOMd_CFG_PIN 150) 1; let d : Nat := 150; let r : PowerReq := ⟨150, dON, 0⟩; decide ((b.up) ∧ (128 ≤ d) ∧ (d < 212) ∧ (b.nrg.moving.find? (fun r => r.dom == d) = some r) ∧ (r.want = dON) ∧ (b.domWant d = dON) ∧ (b.on NRG_STATUS_BIVOUAC = false))) = true ∧
    (let b : Block := moving 150 dOFF; let d : Nat := 150; let r : PowerReq := ⟨150, dOFF, 0⟩; decide ((b.up) ∧ (128 ≤ d) ∧ (d < 212) ∧ (b.nrg.moving.find? (fun r => r.dom == d) = some r) ∧ (r.want = dOFF) ∧ (b.domWant d = dOFF) ∧ (b.on NRG_STATUS_BIVOUAC = false))) = true ∧
    (let b : Block := upB.set (NRG_DOMd_CFG_STATE 127) dON; let c : Nat := 127; decide ((b.up) ∧ (c < b.member.units .frond) ∧ (b.domState c = dON) ∧ (b.domWant c ≠ dON) ∧ (b.nrg.up.any (fun r => r.dom == c) = false))) = true ∧
    (let b : Block := upB.set (bitOf NRG_CLK_LOCK 15) 1; let p : Nat := 15; decide ((b.up) ∧ (p < 16) ∧ (b.on (bitOf NRG_CLK_LOCK p) = true))) = true ∧
    (let b : Block := upB; let p : Nat := 15; decide ((b.up) ∧ (b.on (bitOf NRG_CLK_LOCK p) = false))) = true ∧
    (let b : Block := { upB with frd := { upB.frd with changing := [(15, true)] } }; let p : Nat := 15; decide ((b.up) ∧ (p < 16) ∧ (b.frd.changing.get (fun _ => false) p = true) ∧ (b.nrg.retried.get (fun _ => false) p = false))) = true ∧
    (let b : Block := { upB with rope := { upB.rope with lease := true } }; decide ((b.up) ∧ (b.on NRG_STATUS_BIVOUAC = false) ∧ (b.leased = true))) = true ∧
    (let b : Block := upB; decide ((b.up) ∧ (b.on NRG_STATUS_BIVOUAC = false) ∧ (b.leased = false) ∧ (b.tblState 0 = 0) ∧ (b.tblState 1 = 0))) = true ∧
    (let b : Block := upB.set NRG_STATUS_BIVOUAC 1; decide ((b.up) ∧ (b.on NRG_STATUS_BIVOUAC = true))) = true ∧
    (let b : Block := upB; decide ((b.up) ∧ (b.on NRG_STATUS_BIVOUAC = false))) = true := by
  decide +kernel

/-- Operands and states that meet the hypotheses of Obligations.SupplyCommands, clause by clause. -/
theorem test_witness_SupplyCommands :
    (let b : Block := upB; let i : Nat := 47; decide ((b.up) ∧ (i < 48))) = true ∧
    (let b : Block := upB; decide ((b.up))) = true ∧
    (let b : Block := upB; decide ((b.up) ∧ (b.on NRG_SSM_CFG_EN = false))) = true ∧
    (let b : Block := let b := (upB.set NRG_SSM_CFG_EN 1).set NRG_SSM_STAT_UVLO_WARN 1; { b with nrg := { b.nrg with need := 3 } }; let v : Nat := 3000; let i : Int := 5; decide ((b.up) ∧ (b.on NRG_SSM_CFG_EN = true) ∧ (b.nrg.need ≠ 0) ∧ (v ≠ 0) ∧ (v ≠ 0xFFFF) ∧ (i ≠ -32768) ∧ (i ≠ 32767) ∧ (b.get NRG_SSM_UVLO_LEVEL = 0) ∧ (b.on NRG_SSM_STAT_UVLO_WARN = true))) = true ∧
    (let b : Block := upB.set NRG_SSM_CFG_EN 1; decide ((b.up) ∧ (b.on NRG_SSM_CFG_EN = true))) = true ∧
    (let b : Block := upB; let v : Word := 0x80000000; decide ((b.up) ∧ (bit v.toNat 31 = true))) = true := by
  decide +kernel

/-- Operands and states that meet the hypotheses of Obligations.SegmentStates, clause by clause. -/
theorem test_witness_SegmentStates :
    (let b : Block := aux axNORMAL; let g : Nat := 7; decide ((b.up) ∧ (g < b.member.units .aux) ∧ (b.auxState g ≠ axDISABLED))) = true ∧
    (let b : Block := upB; let g : Nat := 7; decide ((b.up) ∧ (g < b.member.units .aux) ∧ (b.auxState g = axDISABLED))) = true ∧
    (let b : Block := aux axSTANDBY { ramp := 5 }; let g : Nat := 7; decide ((b.up) ∧ (g < b.member.units .aux) ∧ (b.auxState g = axSTANDBY) ∧ ((b.auxOf g).ramp ≠ 0))) = true ∧
    (let b : Block := aux axNORMAL; let g : Nat := 7; decide ((b.up) ∧ (g < b.member.units .aux) ∧ (b.auxState g = axNORMAL))) = true ∧
    (let b : Block := aux axLISTEN; let g : Nat := 7; decide ((b.up) ∧ (g < b.member.units .aux) ∧ (b.auxState g = axLISTEN))) = true ∧
    (let b : Block := let b := (aux axNORMAL).set (AUXs_CFG_P_C_FEED 7) 1; { b with rope := { b.rope with lease := true } }; let g : Nat := 7; decide ((b.up) ∧ (g < b.member.units .aux) ∧ (b.on (AUXs_CFG_P_C_FEED g) = true) ∧ (b.leased = true))) = true ∧
    (let b : Block := aux axNORMAL; let g : Nat := 7; decide ((b.up) ∧ (g < b.member.units .aux) ∧ (b.leased = false) ∧ (b.auxState g = axNORMAL ∨ b.auxState g = axLISTEN))) = true ∧
    (let b : Block := aux axSLEEP; let g : Nat := 7; decide ((b.up) ∧ (g < b.member.units .aux) ∧ (b.auxState g = axSLEEP) ∧ (b.on (AUXs_STAT_FS_LATCHED g) = false))) = true ∧
    (let b : Block := (aux axNORMAL).set (AUXs_SLEEP_AWAKE_MAX_S 7) 9; let g : Nat := 7; decide ((b.up) ∧ (g < b.member.units .aux) ∧ (b.auxState g = axNORMAL) ∧ (b.get (AUXs_SLEEP_AWAKE_MAX_S g) ≠ 0))) = true ∧
    (let b : Block := aux axNORMAL { awake := some 9 }; let g : Nat := 7; let e : Nat := 9; decide ((b.up) ∧ (g < b.member.units .aux) ∧ ((b.auxOf g).awake = some e) ∧ (b.auxState g = axNORMAL))) = true ∧
    (let b : Block := aux axDRAINING { sent := 3 }; let g : Nat := 7; decide ((b.up) ∧ (g < b.member.units .aux) ∧ (b.auxState g = axDRAINING) ∧ ((b.auxOf g).sent = 3))) = true ∧
    (let b : Block := aux axSLEEP { hold := some 9 }; let g : Nat := 7; let e : Nat := 9; decide ((b.up) ∧ (g < b.member.units .aux) ∧ ((b.auxOf g).hold = some e))) = true ∧
    (let b : Block := (aux axNORMAL).set (AUXs_STAT_WAKE_LOCK 7) 1; let g : Nat := 7; decide ((b.up) ∧ (g < b.member.units .aux) ∧ (b.on (AUXs_STAT_WAKE_LOCK g) = true))) = true ∧
    (let b : Block := aux axNORMAL { cfg := 0x08000000 }; let g : Nat := 7; decide ((b.up) ∧ (g < b.member.units .aux) ∧ (b.auxState g ≠ axDISABLED) ∧ ((b.auxOf g).fsMode ≠ 0))) = true ∧
    (let b : Block := upB; let g : Nat := 7; decide ((b.up) ∧ (g < b.member.units .aux))) = true := by
  decide +kernel

/-- Operands and states that meet the hypotheses of Obligations.SegmentEvents, clause by clause. -/
theorem test_witness_SegmentEvents :
    (let b : Block := aux axNORMAL; let g : Nat := 7; let f : RxFrame := { frm with bytes := [] }; let i : Nat := 3; let j : Nat := 3; decide ((b.up) ∧ (g < b.member.units .aux) ∧ (b.auxHears g = true) ∧ (macFault f = some (i, j)))) = true ∧
    (let b : Block := aux axNORMAL; let g : Nat := 7; let f : RxFrame := frm; let c : Block := (((b.advanceTo (f.stamp / 65536)).auxCnt g 0 1).auxCnt g 1 (f.bytes.length + 4)).ridgeRx (g + 1) (0x20 + g) f.bytes f.stamp false; decide ((b.up) ∧ (g < b.member.units .aux) ∧ (b.auxHears g = true) ∧ (macFault f = none) ∧ (beAt f.bytes 12 2 ≠ 0x88A8) ∧ (beAt f.bytes (afterVlan f.bytes) 2 ≠ 0x8808) ∧ (b.auxState g = axNORMAL) ∧ (c.auxState g ≠ axWAKING))) = true ∧
    (let b : Block := aux axDRAINING; let g : Nat := 7; let x : AuxSeg := b.auxOf g; decide ((b.up) ∧ (g < b.member.units .aux) ∧ (b.auxState g = axDRAINING) ∧ (x.failSafe = false) ∧ (x.sent < 3))) = true ∧
    (let b : Block := ((aux axSLEEP).set (AUXs_CFG_WAKE_EN 7) 1).set (AUXs_STAT_WAKE_LOCK 7) 1; let g : Nat := 7; let us : Nat := 255; decide ((b.up) ∧ (g < b.member.units .aux) ∧ (b.auxState g = axSLEEP) ∧ (b.on (AUXs_CFG_WAKE_EN g) = true) ∧ (clampN 20 255 (b.get (AUXs_WAKE_WAKE_MIN_US g)) ≤ us) ∧ (b.on (AUXs_STAT_WAKE_LOCK g) = true))) = true ∧
    (let b : Block := ((aux axSLEEP).set (AUXs_CFG_WAKE_EN 7) 1); let g : Nat := 7; let us : Nat := 255; decide ((b.up) ∧ (g < b.member.units .aux) ∧ (b.auxState g = axSLEEP) ∧ (b.on (AUXs_CFG_WAKE_EN g) = true) ∧ (clampN 20 255 (b.get (AUXs_WAKE_WAKE_MIN_US g)) ≤ us) ∧ (b.on (AUXs_STAT_WAKE_LOCK g) = false) ∧ (b.on (AUXs_STAT_FS_LATCHED g) = false))) = true ∧
    (let b : Block := aux axWAKING; let g : Nat := 7; decide ((b.up) ∧ (g < b.member.units .aux) ∧ (b.auxState g = axWAKING))) = true ∧
    (let b : Block := (aux axWAKING).set (AUXs_FW_FW_LIMIT 7) 255; let g : Nat := 7; decide ((b.up) ∧ (g < b.member.units .aux) ∧ (b.auxState g = axWAKING) ∧ (b.get (AUXs_FW_FW_LIMIT g) = 255) ∧ ((b.auxOf g).falseWakes = []))) = true ∧
    (let b : Block := aux axSLEEP { fsEnd := some 9 }; let g : Nat := 7; let e : Nat := 9; decide ((b.up) ∧ (g < b.member.units .aux) ∧ ((b.auxOf g).fsEnd = some e) ∧ (b.auxState g = axSLEEP))) = true ∧
    (let b : Block := aux axDRAINING { failSafe := true }; let g : Nat := 7; let x : AuxSeg := b.auxOf g; decide ((b.up) ∧ (g < b.member.units .aux) ∧ (b.auxState g = axDRAINING) ∧ (x.failSafe = true) ∧ (x.sent < 2))) = true ∧
    (let b : Block := aux axNORMAL { cfg := 0x40000000 }; let g : Nat := 7; let v : Bool := true; decide ((b.up) ∧ (g < b.member.units .aux) ∧ (bit (b.auxOf g).cfg.toNat 30 = true) ∧ (b.auxHears g = true) ∧ (b.on (AUXs_STAT_PLCA_STATUS g) ≠ v))) = true ∧
    (let b : Block := aux axNORMAL; let g : Nat := 7; decide ((b.up) ∧ (g < b.member.units .aux) ∧ (b.auxHears g = true))) = true := by
  decide +kernel

/-- Operands and states that meet the hypotheses of Obligations.ResetSources, clause by clause. -/
theorem test_witness_ResetSources :
    (let b : Block := upB; decide ((b.up))) = true ∧
    (let b : Block := upB; decide ((b.up) ∧ (b.leased = false))) = true ∧
    (let b : Block := upB.set KEY_STATUS_DEBUG 1; let who : Requester := .jtag; let v : Word := 0xA5C3; decide ((b.up) ∧ (b.reaches who = true) ∧ (bits v.toNat 0 16 = 0xA5C3) ∧ (b.leased = false ∨ bit v.toNat 29 = true))) = true ∧
    (let b : Block := upB; let who : Requester := .host; let v : Word := 0; decide ((b.up) ∧ (b.reaches who = false ∨ bits v.toNat 0 16 ≠ 0xA5C3))) = true ∧
    (let b : Block := leaseB (upB.set KEY_STATUS_DEBUG 1); let who : Requester := .jtag; let v : Word := 0xA5C3; decide ((b.up) ∧ (b.reaches who = true) ∧ (bits v.toNat 0 16 = 0xA5C3) ∧ (b.leased = true) ∧ (bit v.toNat 29 = false))) = true ∧
    (let b : Block := upB; decide ((b.up) ∧ (b.rst.crzDue = none))) = true ∧
    (let b : Block := { upB with rst := { upB.rst with crzDue := some 9 } }; let t : Nat := 9; decide ((b.up) ∧ (b.rst.crzDue = some t))) = true := by
  decide +kernel

/-- Operands and states that meet the hypotheses of Obligations.ResetReleaseAndWipe, clause by clause. -/
theorem test_witness_ResetReleaseAndWipe :
    (let b : Block := { upB with rst := { upB.rst with asserted := true, level := 2, held := 64 } }; let c : Nat := 6; decide ((b.rst.off = false) ∧ (bit b.rst.held c = true) ∧ (c ≠ 4) ∧ (c ≠ 5) ∧ (b.rst.held = 2 ^ c))) = true ∧
    (let b : Block := { upB with rst := { upB.rst with asserted := true, level := 1, held := 66 } }; let c : Nat := 6; decide ((b.rst.off = false) ∧ (bit b.rst.held c = true) ∧ (c ≠ 4) ∧ (c ≠ 5) ∧ (b.rst.held ≠ 2 ^ c))) = true ∧
    (let b : Block := upB; let c : Nat := 6; decide ((bit b.rst.held c = false))) = true ∧
    (let b : Block := { upB with rst := { upB.rst with ridgeAt := [(3, some 9)] } }; let m : Nat := 3; let t : Nat := 9; decide ((b.ridgeLoaded m = some t) ∧ (b.rst.ridgeHalf.get (fun _ => false) m = false))) = true ∧
    (let b : Block := ({ upB with rst := { upB.rst with ridgeAt := [(3, some 9)] } }).set RST_WDOG_RIDGE_ACT 1; let m : Nat := 3; let t : Nat := 9; decide ((b.ridgeLoaded m = some t) ∧ (m ≠ 0) ∧ (b.on RST_WDOG_RIDGE_ACT = true) ∧ (b.on (stResetBusy (⟨.ridge, m⟩ : UnitRef).hdr) = false))) = true ∧
    (let b : Block := { upB with rst := { upB.rst with ridgeAt := [(0, some 9)] } }; let m : Nat := 0; let t : Nat := 9; decide ((b.up) ∧ (b.ridgeLoaded m = some t) ∧ (m = 0 ∨ b.on RST_WDOG_RIDGE_ACT = false))) = true ∧
    (let b : Block := { upB with rst := { upB.rst with ridgeAt := [(3, some 9)] } }; decide ((b.rst.off = false))) = true ∧
    (let b : Block := upB; decide ((b.rst.off = false) ∧ (b.on THL_SEC_STAT_WIPING = false))) = true ∧
    (let b : Block := upB.set THL_SEC_STAT_WIPING 1; decide ((b.rst.off = false) ∧ (b.on THL_SEC_STAT_WIPING = true))) = true ∧
    (let b : Block := upB.set THL_SEC_STAT_WIPING 1; decide ((b.rst.off = false) ∧ (b.on THL_SEC_STAT_WIPING = true) ∧ (b.rst.afterWipe = 0))) = true ∧
    (let b : Block := ({ upB with rst := { upB.rst with afterWipe := 8192 } }).set THL_SEC_STAT_WIPING 1; decide ((b.up) ∧ (b.on THL_SEC_STAT_WIPING = true) ∧ (b.rst.afterWipe = 2 ^ 0xD))) = true ∧
    (let b : Block := upB; decide ((b.rst.off = false))) = true := by
  decide +kernel

/-- Operands and states that meet the hypotheses of Obligations.StartStages, clause by clause. -/
theorem test_witness_StartStages :
    (let b : Block := { upB with rst := { upB.rst with off := true } }; decide ((b.rst.off = true ∨ b.rst.asserted = true))) = true ∧
    (let b : Block := starting 1 false false false; let w : StageIn := { slotId := 65, pairId := 3 }; decide ((b.rst.off = false) ∧ (b.rst.asserted = false) ∧ (b.get RST_START_STAGE = 1) ∧ (w.wipeOk = true))) = true ∧
    (let b : Block := starting 2 false false false; decide ((b.rst.off = false) ∧ (b.rst.asserted = false) ∧ (b.get RST_START_STAGE = 2))) = true ∧
    (let b : Block := starting 3 false false false; decide ((b.rst.off = false) ∧ (b.rst.asserted = false) ∧ (b.get RST_START_STAGE = 3))) = true ∧
    (let b : Block := { starting 4 false false false with mem := imgFlash.mem }; decide ((b.rst.off = false) ∧ (b.rst.asserted = false) ∧ (b.get RST_START_STAGE = 4) ∧ (b.slotOk b.rst.slot = true))) = true ∧
    (let b : Block := starting 4 false false false; decide ((b.rst.off = false) ∧ (b.rst.asserted = false) ∧ (b.get RST_START_STAGE = 4) ∧ (b.slotOk b.rst.slot = false))) = true ∧
    ((fun b : Block => decide ((b.rst.off = false) ∧ (b.rst.asserted = false) ∧ (b.get RST_START_STAGE = 5) ∧ (b.rst.warm = false) ∧ (∀ c : Nat, c < 2 → b.on (THL_DDRc_CFG_EN c) = false))) (starting 5 false false false)) = true ∧
    (let b : Block := starting 6 true false false; decide ((b.rst.off = false) ∧ (b.rst.asserted = false) ∧ (b.get RST_START_STAGE = 6) ∧ (b.rst.warm = true))) = true ∧
    (let b : Block := starting 7 false false false; let w : StageIn := { err := true }; decide ((b.rst.off = false) ∧ (b.rst.asserted = false) ∧ (b.get RST_START_STAGE = 7) ∧ (w.err = true))) = true ∧
    (let b : Block := starting 8 false false false; let w : StageIn := {}; decide ((b.rst.off = false) ∧ (b.rst.asserted = false) ∧ (b.get RST_START_STAGE = 8) ∧ (b.rst.warm = false) ∧ (w.err = false))) = true ∧
    (let b : Block := starting 9 false true false; decide ((b.rst.off = false) ∧ (b.rst.asserted = false) ∧ (b.get RST_START_STAGE = 9) ∧ (b.rst.rel = true) ∧ (b.rst.waiting = false))) = true ∧
    (let b : Block := (starting 9 false true true).set TIM_STATUS_STATE timLOCKED; decide ((b.rst.off = false) ∧ (b.rst.asserted = false) ∧ (b.get RST_START_STAGE = 9) ∧ (b.rst.rel = true) ∧ (b.rst.waiting = true) ∧ (b.get TIM_STATUS_STATE = timLOCKED ∨ b.get TIM_STATUS_STATE = timHOLDOVER))) = true ∧
    (let b : Block := starting 9 false false false; decide ((b.rst.off = false) ∧ (b.rst.asserted = false) ∧ (b.get RST_START_STAGE = 9) ∧ (b.rst.rel = false))) = true := by
  decide +kernel

/-- Operands and states that meet the hypotheses of Obligations.ImageCommands, clause by clause. -/
theorem test_witness_ImageCommands :
    (let b : Block := upB.set IMG_CMD_BUSY 1; decide ((b.up) ∧ (b.takes ⟨.img, 0⟩ = true) ∧ (b.on IMG_CMD_BUSY = true))) = true ∧
    (let b : Block := upB; let v : Word := 0; decide ((b.up) ∧ (b.takes ⟨.img, 0⟩ = true) ∧ (b.on IMG_CMD_BUSY = false) ∧ (b.runsFrom (bits v.toNat 4 1) = true ∨ b.scrubCovers (bits v.toNat 4 1) = true))) = true ∧
    (let b : Block := (rec0 upB).wr IMG_LEN 0x40000; let v : Word := 0; let o : Nat := (b.rd IMG_OFFSET).toNat; let n : Nat := (b.rd IMG_LEN).toNat; decide ((b.up) ∧ (b.takes ⟨.img, 0⟩ = true) ∧ (b.on IMG_CMD_BUSY = false) ∧ (b.runsFrom (bits v.toNat 4 1) = false) ∧ (b.scrubCovers (bits v.toNat 4 1) = false) ∧ (o = (b.rd IMG_OFFSET).toNat) ∧ (n = (b.rd IMG_LEN).toNat) ∧ (o % sectorBytes = 0) ∧ (n % sectorBytes = 0) ∧ (n ≠ 0) ∧ (o + n ≤ slotBytes))) = true ∧
    (let b : Block := (rec0 upB).wr IMG_LEN 256; let v : Word := 0x100; let o : Nat := (b.rd IMG_OFFSET).toNat; decide ((b.up) ∧ (b.takes ⟨.img, 0⟩ = true) ∧ (b.on IMG_CMD_BUSY = false) ∧ (b.runsFrom (bits v.toNat 4 1) = false) ∧ (b.scrubCovers (bits v.toNat 4 1) = false) ∧ (bit v.toNat 8 = true) ∧ (o = (b.rd IMG_OFFSET).toNat) ∧ ((b.rd IMG_LEN).toNat = 256) ∧ (o % 256 = 0) ∧ (o + 256 ≤ slotBytes) ∧ (b.sectorOpen (bits v.toNat 4 1) (slotSector + o / sectorBytes) = false) ∧ ((b.flashRead (bits v.toNat 4 1) (slotSector * sectorBytes + o) 256).all (fun x => x == 0xFF) = true))) = true ∧
    (let b : Block := imgFlash; let v : Word := 0; decide ((b.up) ∧ (b.takes ⟨.img, 0⟩ = true) ∧ (b.on IMG_CMD_BUSY = false) ∧ (b.scrubCovers (bits v.toNat 4 1) = false) ∧ (b.slotOk (bits v.toNat 4 1) = true))) = true ∧
    (let b : Block := upB; let v : Word := 0; decide ((b.up) ∧ (b.takes ⟨.img, 0⟩ = true) ∧ (b.on IMG_CMD_BUSY = false) ∧ (b.scrubCovers (bits v.toNat 4 1) = false) ∧ (b.slotOk (bits v.toNat 4 1) = false))) = true ∧
    (let b : Block := let b := (rec0 upB).set IMG_STATUS_STAGED_VALID 1; { b with img := { b.img with stagedFull := true } }; let v : Word := 0; decide ((b.up) ∧ (b.takes ⟨.img, 0⟩ = true) ∧ (b.on IMG_CMD_BUSY = false) ∧ (b.scrubCovers (bits v.toNat 4 1) = false) ∧ (b.runsFrom (bits v.toNat 4 1) = false) ∧ (b.on IMG_STATUS_STAGED_VALID = true) ∧ (b.get IMG_STATUS_STAGED_SLOT = bits v.toNat 4 1) ∧ (b.img.stagedFull = true))) = true ∧
    (let b : Block := rec0 upB; let v : Word := 0; decide ((b.up) ∧ (b.takes ⟨.img, 0⟩ = true) ∧ (b.on IMG_CMD_BUSY = false) ∧ (b.scrubCovers (bits v.toNat 4 1) = false) ∧ (b.runsFrom (bits v.toNat 4 1) = false) ∧ (b.on IMG_STATUS_STAGED_VALID = false))) = true ∧
    (let b : Block := (region 1).wr IMG_LEN 64; let v : Word := 0; let o : Nat := (b.rd IMG_OFFSET).toNat; let n : Nat := (b.rd IMG_LEN).toNat; let dst : Nat := b.rd64 IMG_SRC_LO; decide ((b.up) ∧ (b.takes ⟨.img, 0⟩ = true) ∧ (b.on IMG_CMD_BUSY = false) ∧ (b.scrubCovers (bits v.toNat 4 1) = false) ∧ (b.img.scrub = none) ∧ (b.on IMG_STATUS_RECOVERY = false) ∧ (o = (b.rd IMG_OFFSET).toNat) ∧ (n = (b.rd IMG_LEN).toNat) ∧ (dst = b.rd64 IMG_SRC_LO) ∧ (o + n ≤ slotBytes) ∧ ((b.regionOfRange dst n).isSome = true))) = true ∧
    (let b : Block := imgSwapB; let v : Word := 0; let c : Block := b.wr IMG_CMD (BitVec.ofNat 32 (5 + 16 * bits v.toNat 4 1 + 256 * bits v.toNat 8 1)); let m : ImgAt := (⟨.dram, c.rd64 IMG_SRC_LO⟩ : ImgAt); let r : Bool × Block := upTo (Block.swapSect m) c (c.sects m); decide ((b.up) ∧ (b.takes ⟨.img, 0⟩ = true) ∧ (b.on IMG_CMD_BUSY = false) ∧ ((c.regionOfRange (c.rd64 IMG_SRC_LO) 192).isSome = true) ∧ ((c.regionOfRange (c.rd64 IMG_SRC_LO) (c.imgLen m + 128)).isSome = true) ∧ (c.badLine (c.rd64 IMG_SRC_LO) (c.imgLen m + 128) = none) ∧ (c.headerOk m 1 (2 ^ 37) = true) ∧ (c.sectsLie m = true) ∧ ((c.sects m).all (c.sectOk m true) = true) ∧ (c.imgNat m 28 8 = c.rd64 IMG_RUN_ID_LO) ∧ (c.swapState ≠ 1) ∧ (c.swapState ≠ 3) ∧ (r.1 = true))) = true ∧
    (let b : Block := { upB with img := { upB.img with erase := some ⟨0, 64, 1, 5, false⟩ } }; let e : Erase := ⟨0, 64, 1, 5, false⟩; decide ((b.up) ∧ (b.takes ⟨.img, 0⟩ = true) ∧ (b.img.erase = some e))) = true ∧
    (let b : Block := { upB with img := { upB.img with erase := some ⟨0, 64, 1, 5, false⟩ } }; let e : Erase := ⟨0, 64, 1, 5, false⟩; decide ((b.up) ∧ (b.takes ⟨.img, 0⟩ = true) ∧ (b.img.erase = some e) ∧ (e.retried = false))) = true ∧
    (let b : Block := { upB with img := { upB.img with erase := some ⟨0, 64, 1, 5, true⟩ } }; let e : Erase := ⟨0, 64, 1, 5, true⟩; decide ((b.up) ∧ (b.takes ⟨.img, 0⟩ = true) ∧ (b.img.erase = some e) ∧ (e.retried = true))) = true ∧
    (let b : Block := upB; decide ((b.up) ∧ (b.takes ⟨.img, 0⟩ = true) ∧ (b.img.erase = none) ∧ (b.img.scrub = none))) = true := by
  decide +kernel

/-- Operands and states that meet the hypotheses of Obligations.KeySlotCommands, clause by clause. -/
theorem test_witness_KeySlotCommands :
    (let b : Block := upB.set (ctlQuiesce (UnitRef.hdr ⟨.key, 0⟩)) 1; let v : Word := 511; let n : Nat := cmdSlot v; let len : Nat := b.get KEY_ATTR_IN_LEN; decide ((b.up) ∧ (n = cmdSlot v) ∧ (len = b.get KEY_ATTR_IN_LEN) ∧ (b.takes ⟨.key, 0⟩ = false))) = true ∧
    (let b : Block := upB.set KEY_STATUS_CLOSED 1; let v : Word := 511; let n : Nat := cmdSlot v; let len : Nat := b.get KEY_ATTR_IN_LEN; decide ((b.up) ∧ (n = cmdSlot v) ∧ (len = b.get KEY_ATTR_IN_LEN) ∧ (b.takes ⟨.key, 0⟩ = true) ∧ (b.on KEY_STATUS_CLOSED = true))) = true ∧
    (let b : Block := upB.set KEY_ATTR_IN_LEN 64; let v : Word := 511; let n : Nat := cmdSlot v; let len : Nat := b.get KEY_ATTR_IN_LEN; decide ((b.up) ∧ (n = cmdSlot v) ∧ (len = b.get KEY_ATTR_IN_LEN) ∧ (b.takes ⟨.key, 0⟩ = true) ∧ (b.on KEY_STATUS_CLOSED = false) ∧ (16 ≤ len) ∧ (len ≤ 64))) = true ∧
    (let b : Block := upB.set KEY_ATTR_IN_LEN 15; let v : Word := 511; let n : Nat := cmdSlot v; let len : Nat := b.get KEY_ATTR_IN_LEN; decide ((b.up) ∧ (n = cmdSlot v) ∧ (len = b.get KEY_ATTR_IN_LEN) ∧ (b.takes ⟨.key, 0⟩ = true) ∧ (b.on KEY_STATUS_CLOSED = false) ∧ (len < 16 ∨ 64 < len))) = true ∧
    (let b : Block := (keySlot 1 64 32).set KEY_ATTR_IN_LEN 16; let v : Word := 0x201; let n : Nat := cmdSlot v; let len : Nat := b.get KEY_ATTR_IN_LEN; decide ((b.up) ∧ (n = cmdSlot v) ∧ (len = b.get KEY_ATTR_IN_LEN) ∧ (b.takes ⟨.key, 0⟩ = true) ∧ (b.on KEY_STATUS_CLOSED = false) ∧ (16 ≤ len) ∧ (len ≤ 64) ∧ (b.get KEY_ATTR_IN_CTX_LEN ≤ 48) ∧ (cmdRoot v = false) ∧ (b.keyOk (cmdParent v) 5 = true))) = true ∧
    (let b : Block := upB.set KEY_ATTR_IN_LEN 64; let v : Word := 511; let n : Nat := cmdSlot v; let len : Nat := b.get KEY_ATTR_IN_LEN; decide ((b.up) ∧ (n = cmdSlot v) ∧ (len = b.get KEY_ATTR_IN_LEN) ∧ (b.takes ⟨.key, 0⟩ = true) ∧ (b.on KEY_STATUS_CLOSED = false) ∧ (16 ≤ len) ∧ (len ≤ 64) ∧ (b.get KEY_ATTR_IN_CTX_LEN ≤ 48) ∧ (cmdRoot v = false) ∧ (b.keyOk (cmdParent v) 5 = false))) = true ∧
    (let b : Block := let b := (upB).set KEY_ATTR_IN_LEN 16; { b with key := { b.key with root := 1 } }; let v : Word := 0x401FF; let n : Nat := cmdSlot v; let len : Nat := b.get KEY_ATTR_IN_LEN; decide ((b.up) ∧ (n = cmdSlot v) ∧ (len = b.get KEY_ATTR_IN_LEN) ∧ (b.takes ⟨.key, 0⟩ = true) ∧ (b.on KEY_STATUS_CLOSED = false) ∧ (16 ≤ len) ∧ (len ≤ 64) ∧ (b.get KEY_ATTR_IN_CTX_LEN ≤ 48) ∧ (cmdRoot v = true) ∧ (b.on KEY_STATUS_ROOT_FAIL = false) ∧ (b.key.root ≠ 0))) = true ∧
    (let b : Block := upB.set KEY_ATTR_IN_LEN 64; let v : Word := 0x40000; let n : Nat := cmdSlot v; let len : Nat := b.get KEY_ATTR_IN_LEN; decide ((b.up) ∧ (n = cmdSlot v) ∧ (len = b.get KEY_ATTR_IN_LEN) ∧ (b.takes ⟨.key, 0⟩ = true) ∧ (b.on KEY_STATUS_CLOSED = false) ∧ (16 ≤ len) ∧ (len ≤ 64) ∧ (b.get KEY_ATTR_IN_CTX_LEN ≤ 48) ∧ (cmdRoot v = true) ∧ (b.key.root = 0))) = true ∧
    (let b : Block := upB.set KEY_ATTR_IN_LEN 64; let v : Word := 511; let n : Nat := cmdSlot v; let len : Nat := b.get KEY_ATTR_IN_LEN; decide ((b.up) ∧ (n = cmdSlot v) ∧ (len = b.get KEY_ATTR_IN_LEN) ∧ (b.takes ⟨.key, 0⟩ = true) ∧ (b.on KEY_STATUS_CLOSED = false))) = true ∧
    (let b : Block := keySlot 511 64 0; let v : Word := 511; let n : Nat := cmdSlot v; let len : Nat := b.get KEY_ATTR_IN_LEN; decide ((b.up) ∧ (n = cmdSlot v) ∧ (len = b.get KEY_ATTR_IN_LEN) ∧ (b.takes ⟨.key, 0⟩ = true) ∧ (b.on KEY_STATUS_CLOSED = false) ∧ (b.on (KEY_SLOTn_ATTR_VALID n) = true) ∧ (b.on (KEY_SLOTn_ATTR_NOREAD n) = false))) = true ∧
    (let b : Block := upB.set KEY_ATTR_IN_LEN 64; let v : Word := 511; let n : Nat := cmdSlot v; let len : Nat := b.get KEY_ATTR_IN_LEN; decide ((b.up) ∧ (n = cmdSlot v) ∧ (len = b.get KEY_ATTR_IN_LEN) ∧ (b.takes ⟨.key, 0⟩ = true) ∧ (b.on KEY_STATUS_CLOSED = false) ∧ (b.on (KEY_SLOTn_ATTR_VALID n) = false ∨ b.on (KEY_SLOTn_ATTR_NOREAD n) = true))) = true ∧
    (let b : Block := let b := (upB).set KEY_ATTR_IN_LEN 16; { b with key := { b.key with rdata := true } }; let v : Word := 511; let n : Nat := cmdSlot v; let len : Nat := b.get KEY_ATTR_IN_LEN; decide ((b.up) ∧ (n = cmdSlot v) ∧ (len = b.get KEY_ATTR_IN_LEN) ∧ (b.key.rdata = true))) = true ∧
    (let b : Block := upB.set KEY_ATTR_IN_LEN 64; let v : Word := 511; let n : Nat := cmdSlot v; let len : Nat := b.get KEY_ATTR_IN_LEN; decide ((b.up) ∧ (n = cmdSlot v) ∧ (len = b.get KEY_ATTR_IN_LEN) ∧ (b.key.rdata = false))) = true ∧
    (let b : Block := upB.set KEY_ATTR_IN_LEN 64; let v : Word := 511; let n : Nat := cmdSlot v; let len : Nat := b.get KEY_ATTR_IN_LEN; decide ((b.up) ∧ (n = cmdSlot v) ∧ (len = b.get KEY_ATTR_IN_LEN))) = true := by
  decide +kernel

/-- Operands and states that meet the hypotheses of Obligations.LifeCycleCommands, clause by clause. -/
theorem test_witness_LifeCycleCommands :
    (let b : Block := upB; let v : Word := 0; let c : Instr := .dbgDisarm 0; decide ((b.up) ∧ (b.takes ⟨.key, 0⟩ = true) ∧ (b.on KEY_STATUS_CLOSED = false) ∧ (b.confirmed = false) ∧ (c ∈ [Instr.wipe v, .enrol v, .lcAdvance v, .svnRaise v, .anchorRevoke v, .dbgArm v, .dbgDisarm v]))) = true ∧
    (let b : Block := conf upB; decide ((b.up) ∧ (b.takes ⟨.key, 0⟩ = true) ∧ (b.on KEY_STATUS_CLOSED = false) ∧ (b.confirmed = true) ∧ (b.on THL_SEC_STAT_WIPING = false))) = true ∧
    (let b : Block := conf upB; decide ((b.up) ∧ (b.takes ⟨.key, 0⟩ = true) ∧ (b.on KEY_STATUS_CLOSED = false) ∧ (b.confirmed = true) ∧ (b.get KEY_STATUS_LC < 2))) = true ∧
    (let b : Block := (conf upB).set KEY_STATUS_LC 2; decide ((b.up) ∧ (b.takes ⟨.key, 0⟩ = true) ∧ (b.on KEY_STATUS_CLOSED = false) ∧ (b.confirmed = true) ∧ (2 ≤ b.get KEY_STATUS_LC))) = true ∧
    (let b : Block := (conf upB).set KEY_STATUS_LC 2; decide ((b.up) ∧ (b.takes ⟨.key, 0⟩ = true) ∧ (b.on KEY_STATUS_CLOSED = false) ∧ (b.confirmed = true) ∧ (b.leased = false) ∧ (b.tablesIdle = true) ∧ (b.get KEY_STATUS_LC < 4) ∧ (b.on THL_SEC_STAT_WIPING = false) ∧ (b.get KEY_STATUS_LC = 1 → b.on KEY_STATUS_ROOT_OK = true ∧ b.get KEY_FUSE_REVOKED ≠ 15))) = true ∧
    (let b : Block := leaseB (conf upB); decide ((b.up) ∧ (b.takes ⟨.key, 0⟩ = true) ∧ (b.on KEY_STATUS_CLOSED = false) ∧ (b.confirmed = true) ∧ (b.leased = true))) = true ∧
    (let b : Block := { conf upB with key := { upB.key with runSvn := 1 } }; decide ((b.up) ∧ (b.takes ⟨.key, 0⟩ = true) ∧ (b.on KEY_STATUS_CLOSED = false) ∧ (b.confirmed = true) ∧ (b.get KEY_FUSE_SVN_MIN < b.key.runSvn) ∧ (b.get KEY_FUSE_SVN_MIN < 64))) = true ∧
    (let b : Block := conf upB; decide ((b.up) ∧ (b.takes ⟨.key, 0⟩ = true) ∧ (b.on KEY_STATUS_CLOSED = false) ∧ (b.confirmed = true) ∧ (b.key.runSvn ≤ b.get KEY_FUSE_SVN_MIN))) = true ∧
    (let b : Block := conf upB; let v : Word := 3; decide ((b.up) ∧ (b.takes ⟨.key, 0⟩ = true) ∧ (b.on KEY_STATUS_CLOSED = false) ∧ (b.confirmed = true) ∧ (bits v.toNat 0 2 ≠ b.get KEY_STATUS_RUN_ANCHOR))) = true ∧
    (let b : Block := { conf upB with imgLock := true }; let v : Word := 0; decide ((b.up) ∧ (b.takes ⟨.key, 0⟩ = true) ∧ (b.on KEY_STATUS_CLOSED = false) ∧ (b.confirmed = true) ∧ (bits v.toNat 0 2 = b.get KEY_STATUS_RUN_ANCHOR) ∧ (b.on KEY_STATUS_TEST_IMAGE = false) ∧ (b.imgLock = true))) = true ∧
    (let b : Block := (conf upB).set KEY_STATUS_LC 1; decide ((b.up) ∧ (b.takes ⟨.key, 0⟩ = true) ∧ (b.on KEY_STATUS_CLOSED = false) ∧ (b.confirmed = true) ∧ (b.dbgAllowed = true))) = true ∧
    (let b : Block := conf upB; decide ((b.up) ∧ (b.takes ⟨.key, 0⟩ = true) ∧ (b.on KEY_STATUS_CLOSED = false) ∧ (b.confirmed = true) ∧ (b.dbgAllowed = false))) = true := by
  decide +kernel

/-- Operands and states that meet the hypotheses of Obligations.RecorderLog, clause by clause. -/
theorem test_witness_RecorderLog :
    (let b : Block := upB; decide ((b.up) ∧ (b.on CRN_CTRL_EN = false ∨ b.on CRN_CTRL_FREEZE = true ∨ (b.fifo = [] ∧ b.marker ≠ some 0)) ∧ (b.crn.failing = false))) = true ∧
    (let b : Block := logB 1 false; let r : Report := rep0; let rest : List Report := []; let f : Bool := false; decide ((b.up) ∧ (b.on CRN_CTRL_EN = true) ∧ (b.on CRN_CTRL_FREEZE = false) ∧ (b.marker = none) ∧ (b.fifo = r :: rest) ∧ (rest.length < 64) ∧ (b.crn.failing = f) ∧ (sub32 (b.rd CRN_PROD).toNat (b.rd CRN_CONS).toNat < b.logCap) ∧ (b.logWritable (b.logBase + 65536 + 64 * ((b.rd CRN_PROD).toNat % b.logCap)) = true))) = true ∧
    (let b : Block := (logB 1 false).wr CRN_PROD 15365; let r : Report := rep0; let rest : List Report := []; decide ((b.up) ∧ (b.on CRN_CTRL_EN = true) ∧ (b.on CRN_CTRL_FREEZE = false) ∧ (b.marker = none) ∧ (b.fifo = r :: rest) ∧ (b.crn.failing = false) ∧ (b.logCap ≤ sub32 (b.rd CRN_PROD).toNat (b.rd CRN_CONS).toNat))) = true ∧
    (let b : Block := (logB 1 false).set (THL_DDRc_STAT_SELF_REFRESH 1) 1; let r : Report := rep0; let rest : List Report := []; let a : Nat := b.logBase + 65536 + 64 * ((b.rd CRN_PROD).toNat % b.logCap); decide ((b.up) ∧ (b.on CRN_CTRL_EN = true) ∧ (b.on CRN_CTRL_FREEZE = false) ∧ (b.marker = none) ∧ (b.fifo = r :: rest) ∧ (sub32 (b.rd CRN_PROD).toNat (b.rd CRN_CONS).toNat < b.logCap) ∧ (b.logWritable a = false) ∧ (b.crn.failing = false))) = true ∧
    (let b : Block := (logB 1 true).set (THL_DDRc_STAT_SELF_REFRESH 1) 1; let r : Report := rep0; let rest : List Report := []; let a : Nat := b.logBase + 65536 + 64 * ((b.rd CRN_PROD).toNat % b.logCap); decide ((b.up) ∧ (b.on CRN_CTRL_EN = true) ∧ (b.on CRN_CTRL_FREEZE = false) ∧ (b.marker = none) ∧ (b.fifo = r :: rest) ∧ (sub32 (b.rd CRN_PROD).toNat (b.rd CRN_CONS).toNat < b.logCap) ∧ (b.logWritable a = false) ∧ (b.crn.failing = true))) = true ∧
    (let b : Block := logB 1 false; decide ((b.up) ∧ (b.crn.failing = false))) = true ∧
    (let b : Block := logB 1 false; let v : Word := 5; decide ((b.up) ∧ (sub32 v.toNat (b.rd CRN_CONS).toNat ≤ sub32 (b.rd CRN_PROD).toNat (b.rd CRN_CONS).toNat))) = true ∧
    (let b : Block := logB 1 false; let v : Word := 6; decide ((b.up) ∧ (sub32 (b.rd CRN_PROD).toNat (b.rd CRN_CONS).toNat < sub32 v.toNat (b.rd CRN_CONS).toNat))) = true := by
  decide +kernel

/-- Operands and states that meet the hypotheses of Obligations.RecorderCommands, clause by clause. -/
theorem test_witness_RecorderCommands :
    (let b : Block := upB; decide ((b.up) ∧ (b.on CRN_CTRL_FREEZE = false))) = true ∧
    (let b : Block := upB.set CRN_CTRL_FREEZE 1; decide ((b.up) ∧ (b.on CRN_CTRL_FREEZE = true))) = true ∧
    (let b : Block := upB; decide ((b.up))) = true ∧
    (let b : Block := upB; decide ((b.up) ∧ (b.fifo.length < 64))) = true ∧
    (let b : Block := upB; let c : Nat := 4095; decide ((b.up) ∧ (c < 4096) ∧ (b.hasChannel c = false))) = true ∧
    (let b : Block := (upB.set (CRN_RETk_VALID 63) 1).set (CRN_RETk_CHANNEL 63) 8; let c : Nat := 8; decide ((b.up) ∧ (c < 4096) ∧ (b.hasChannel c = true) ∧ (b.isRetired c = true))) = true ∧
    (let b : Block := leaseB ((pTask.set (CRZ_LCMAPl_EN 0) 1).set (CRZ_TBLx_STAT_STATE 0) 1); let c : Nat := 120; decide ((b.up) ∧ (c < 4096) ∧ (b.hasChannel c = true) ∧ (b.isRetired c = false) ∧ (b.leased = true) ∧ (b.channelNamed c = true) ∧ (b.channelSpare c = false))) = true ∧
    (let b : Block := upB; let c : Nat := 0; decide ((b.up) ∧ (c < 4096) ∧ (b.hasChannel c = true) ∧ (b.isRetired c = false) ∧ (b.leased = false ∨ b.channelNamed c = false ∨ b.channelSpare c = true))) = true := by
  decide +kernel

/-- Operands and states that meet the hypotheses of Obligations.RegisterAccess, clause by clause. -/
theorem test_witness_RegisterAccess :
    (let b : Block := upB; let who : Requester := .host; decide ((b.reaches who = false))) = true ∧
    (let b : Block := (jt upB).set (stRetired (⟨.prt, 0⟩ : UnitRef).hdr) 1; let who : Requester := .jtag; let a : Nat := 0x100100; let u : UnitRef := ⟨.prt, 0⟩; decide ((b.reaches who = true) ∧ (a % 4 = 0) ∧ (a < 0x1100000) ∧ (unitOf a = some u) ∧ (a ≠ u.hdr + 8) ∧ (b.unitOpen a = false))) = true ∧
    (let b : Block := jt upB; let who : Requester := .jtag; let a : Nat := (UnitRef.hdr ⟨.tim, 0⟩) + 0x18; let u : UnitRef := ⟨.tim, 0⟩; decide ((b.reaches who = true) ∧ (a % 4 = 0) ∧ (a < 0x1100000) ∧ (unitOf a = some u) ∧ (a = u.hdr + 0x18) ∧ (b.unitOpen a = true))) = true ∧
    (let b : Block := jt upB; let who : Requester := .jtag; let a : Nat := (UnitRef.hdr ⟨.tim, 0⟩) + 8; let v : Word := 16; let u : UnitRef := ⟨.tim, 0⟩; decide ((b.reaches who = true) ∧ (a % 4 = 0) ∧ (a < 0x1100000) ∧ (unitOf a = some u) ∧ (a = u.hdr + 8) ∧ (b.member.has u = true) ∧ (bit v.toNat 4 = true))) = true ∧
    (let b : Block := jt upB; let who : Requester := .jtag; let a : Nat := TIM_CTRL; let u : UnitRef := ⟨.tim, 0⟩; decide ((b.reaches who = true) ∧ (a % 4 = 0) ∧ (a < 0x1100000) ∧ (unitOf a = some u) ∧ (a ∉ [u.hdr + 8, u.hdr + 0x18, u.hdr + 0x1C]) ∧ (b.unitOpen a = true) ∧ (loadLo a = false) ∧ (loadLo (a - 4) = false) ∧ ((rowOf a).isSome = true) ∧ (b.get RST_START_STAGE = 15))) = true ∧
    (let b : Block := jt upB; let who : Requester := .jtag; let a : Nat := 0x2C0000; decide ((b.reaches who = true) ∧ (a < 0x8000000) ∧ (unitOf a = none) ∧ (b.rd ROOT_ERR = 0))) = true ∧
    (let b : Block := jt upB; let who : Requester := .jtag; let a : Nat := TIM_CTRL; let u : UnitRef := ⟨.tim, 0⟩; decide ((b.reaches who = true) ∧ (a < 0x8000000) ∧ (unitOf a = some u) ∧ (b.member.has u = true) ∧ (listed (a / 4 * 4) = true))) = true ∧
    (let b : Block := jt upB; let who : Requester := .jtag; let a : Nat := 2; let n : Nat := 4; let w : Bool := false; decide ((b.reaches who = true) ∧ (a < 0x8000000) ∧ ((n = 8 ∧ a % 8 ≠ 0) ∨ (n ≠ 8 ∧ 4 < a % 4 + n) ∨ (w = true ∧ n < 4)))) = true := by
  decide +kernel

/-- Operands and states that meet the hypotheses of Obligations.Counters64, clause by clause. -/
theorem test_witness_Counters64 :
    (let b : Block := jt upB; let who : Requester := .jtag; let a : Nat := TIM_NOW_LO; let fr : Bool := true; decide ((b.reaches who = true) ∧ (b.unitOpen a = true) ∧ (snapLo a = some fr ∨ (snapLo a = none ∧ loadLo a = true ∧ fr = false)))) = true ∧
    (let b : Block := jt upB; let who : Requester := .jtag; let a : Nat := 327840; let fr : Bool := false; decide ((b.reaches who = true) ∧ (b.unitOpen a = true) ∧ (snapLo a = some fr ∨ (snapLo a = none ∧ loadLo a = true ∧ fr = false)) ∧ (a % 8 = 0) ∧ (a < 0x8000000))) = true ∧
    (let b : Block := jt upB; let who : Requester := .jtag; let a : Nat := 0x50000; decide ((b.reaches who = true) ∧ (b.unitOpen a = true) ∧ (snapLo a = none) ∧ (loadLo a = false))) = true ∧
    (let b : Block := jt upB; let who : Requester := .jtag; let a : Nat := TIM_NOW_LO - 4; decide ((b.reaches who = true) ∧ (b.unitOpen a = true) ∧ (a % 8 = 0) ∧ (a < 0x8000000) ∧ (snapLo a = none) ∧ (snapLo (a + 4) = some true))) = true ∧
    (let b : Block := jt upB; let who : Requester := .jtag; let a : Nat := STNs_RXSCc_SAa_LPN_LO 0 0 0; decide ((b.reaches who = true) ∧ (b.unitOpen a = true) ∧ (loadLo a = true) ∧ (b.unitOpen (a + 4) = true))) = true ∧
    (let b : Block := jt upB; let who : Requester := .jtag; let a : Nat := STNs_RXSCc_SAa_LPN_LO 0 0 0; decide ((b.reaches who = true) ∧ (b.unitOpen a = true) ∧ (loadLo a = true))) = true ∧
    (let b : Block := jt upB; let who : Requester := .jtag; let a : Nat := STNs_RXSCc_SAa_LPN_LO 0 0 0; decide ((b.reaches who = true) ∧ (b.unitOpen a = true) ∧ (loadLo a = true) ∧ (a % 4 = 0) ∧ (a < 0x1000000))) = true ∧
    (let b : Block := jt upB; let who : Requester := .jtag; let a : Nat := 0x50000; decide ((b.reaches who = true) ∧ (b.unitOpen a = true) ∧ (loadLo a = false))) = true ∧
    (let b : Block := jt upB; let who : Requester := .jtag; let a : Nat := 0x50000; decide ((b.reaches who = true) ∧ (b.unitOpen a = true) ∧ (loadLo a = false) ∧ (a % 8 = 0) ∧ (a < 0x8000000))) = true := by
  decide +kernel

/-- Operands and states that meet the hypotheses of Obligations.UnitControl, clause by clause. -/
theorem test_witness_UnitControl :
    (let b : Block := jt upB; let who : Requester := .jtag; let h : Nat := 4; decide ((b.unitFor who h = none))) = true ∧
    (let b : Block := leaseB (jt (upB.set (CRZ_TBLx_STAT_STATE 0) 1)); let who : Requester := .jtag; let h : Nat := (⟨.crz, 0⟩ : UnitRef).hdr; let u : UnitRef := ⟨.crz, 0⟩; decide ((b.unitFor who h = some u) ∧ (u.cls.isGroup = false) ∧ (b.leaseRefuses u = true))) = true ∧
    (let b : Block := jt upB; let who : Requester := .jtag; let h : Nat := (⟨.frond, 3⟩ : UnitRef).hdr; let u : UnitRef := ⟨.frond, 3⟩; decide ((b.unitFor who h = some u) ∧ (u.cls.isGroup = false) ∧ (b.leaseRefuses u = false) ∧ (b.on (stResetBusy h) = false))) = true ∧
    (let b : Block := jt upB; let who : Requester := .jtag; let h : Nat := (⟨.frond, 3⟩ : UnitRef).hdr; let u : UnitRef := ⟨.frond, 3⟩; decide ((b.unitFor who h = some u) ∧ (u.cls.isGroup = false) ∧ (b.on (stResetBusy h) = false))) = true ∧
    (let b : Block := (jt upB).set (stResetBusy (⟨.frond, 3⟩ : UnitRef).hdr) 1; let who : Requester := .jtag; let h : Nat := (⟨.frond, 3⟩ : UnitRef).hdr; let u : UnitRef := ⟨.frond, 3⟩; let v : Bool := true; decide ((b.unitFor who h = some u) ∧ (u.cls.isGroup = false) ∧ (b.on (stResetBusy h) = true) ∧ (v = false ∨ b.leaseRefuses u = false))) = true ∧
    (let b : Block := jt upB; let who : Requester := .jtag; let h : Nat := (⟨.frond, 3⟩ : UnitRef).hdr; let u : UnitRef := ⟨.frond, 3⟩; decide ((b.unitFor who h = some u) ∧ (u.cls.isGroup = false) ∧ (b.leaseRefuses u = false) ∧ (u.cls.resettable = true) ∧ (b.on (stResetBusy h) = false))) = true ∧
    (let b : Block := jt upB; let who : Requester := .jtag; let h : Nat := (⟨.rst, 0⟩ : UnitRef).hdr; let u : UnitRef := ⟨.rst, 0⟩; decide ((b.unitFor who h = some u) ∧ (u.cls.isGroup = false) ∧ (b.leaseRefuses u = false) ∧ (u.cls.resettable = false))) = true ∧
    (let b : Block := jt upB; let who : Requester := .jtag; let h : Nat := (⟨.prtGroup, 0⟩ : UnitRef).hdr; let u : UnitRef := ⟨.prtGroup, 0⟩; decide ((b.unitFor who h = some u) ∧ (u.cls.isGroup = true) ∧ (b.leaseRefuses u = false))) = true ∧
    (let b : Block := jt upB; let who : Requester := .jtag; let h : Nat := (⟨.prtGroup, 0⟩ : UnitRef).hdr; let u : UnitRef := ⟨.prtGroup, 0⟩; decide ((b.unitFor who h = some u) ∧ (u.cls.isGroup = true) ∧ (b.leaseRefuses u = false) ∧ ((b.targets u).all (fun c => c.cls.resettable) = true))) = true ∧
    (let b : Block := ((jt upB).set (ctlQuiesce (⟨.frond, 3⟩ : UnitRef).hdr) 1).set (stQuiescing (⟨.frond, 3⟩ : UnitRef).hdr) 1; let h : Nat := (⟨.frond, 3⟩ : UnitRef).hdr; let u : UnitRef := ⟨.frond, 3⟩; decide ((unitAt h = some u) ∧ (b.released u.cls = true) ∧ (b.on (ctlQuiesce h) = true) ∧ (b.on (stQuiescing h) = true) ∧ (b.on (stResetBusy h) = false))) = true ∧
    (let b : Block := ((jt upB).set (stResetBusy (⟨.frond, 3⟩ : UnitRef).hdr) 1).set (ctlQuiesce (⟨.frond, 3⟩ : UnitRef).hdr) 1; let h : Nat := (⟨.frond, 3⟩ : UnitRef).hdr; let u : UnitRef := ⟨.frond, 3⟩; decide ((unitAt h = some u) ∧ (b.released u.cls = true) ∧ (b.on (ctlQuiesce h) = true) ∧ (b.on (stResetBusy h) = true))) = true ∧
    (let b : Block := (jt upB).set (stResetBusy (⟨.frond, 3⟩ : UnitRef).hdr) 1; let h : Nat := (⟨.frond, 3⟩ : UnitRef).hdr; let u : UnitRef := ⟨.frond, 3⟩; decide ((unitAt h = some u) ∧ (b.released u.cls = true) ∧ (b.on (stResetBusy h) = true) ∧ (b.on (stIdle h) = false))) = true ∧
    (let b : Block := jt upB; let h : Nat := (⟨.frond, 3⟩ : UnitRef).hdr; let u : UnitRef := ⟨.frond, 3⟩; decide ((unitAt h = some u) ∧ (b.released u.cls = true) ∧ (b.on (stResetBusy h) = false))) = true := by
  decide +kernel

/-- Operands and states that meet the hypotheses of Obligations.ReservedAndAbsent, clause by clause. -/
theorem test_witness_ReservedAndAbsent :
    (let b : Block := jt { upB with member := .ny9602 }; let who : Requester := .jtag; let a : Nat := 0x2C0000; decide ((b.reaches who = true) ∧ ((a < 0x8000000 ∧ unitOf a = none) ∨ (0xDE00000 ≤ a ∧ a < 0xE000000)))) = true ∧
    (let b : Block := jt { upB with member := .ny9602 }; let who : Requester := .jtag; let a : Nat := 0x4000000; let u : UnitRef := ⟨.rope, 0⟩; decide ((b.reaches who = true) ∧ (a < 0x8000000) ∧ (unitOf a = some u) ∧ (b.member.has u = false))) = true := by
  decide +kernel

/-- Operands and states that meet the hypotheses of Obligations.RidgeQueues, clause by clause. -/
theorem test_witness_RidgeQueues :
    (let b : Block := upB; let k : Nat := 0; let v : Word := 0; decide ((b.up) ∧ (k < 9) ∧ (sub32 v.toNat (b.rd (RIDGE_RQq_CONS k)).toNat ≤ sub32 (b.rd (RIDGE_RQq_PROD k)).toNat (b.rd (RIDGE_RQq_CONS k)).toNat))) = true ∧
    (let b : Block := upB; let k : Nat := 8; let v : Word := 1; decide ((b.up) ∧ (k < 9) ∧ (sub32 (b.rd (RIDGE_RQq_PROD k)).toNat (b.rd (RIDGE_RQq_CONS k)).toNat < sub32 v.toNat (b.rd (RIDGE_RQq_CONS k)).toNat))) = true ∧
    (let b : Block := upB; let k : Nat := 8; let v : Word := 0x80000000; decide ((b.up) ∧ (k < 9) ∧ (bit v.toNat 31 = true) ∧ (b.on (RIDGE_TQq_CFG_EN k) = false))) = true ∧
    (let b : Block := upB; let k : Nat := 8; let v : Word := 0x80000000; decide ((b.up) ∧ (k < 9) ∧ (bit v.toNat 31 = true) ∧ (b.on (RIDGE_RQq_CFG_EN k) = false))) = true ∧
    (let b : Block := upB; let k : Nat := 0; decide ((b.up) ∧ (k < 9))) = true ∧
    (let b : Block := upB; let k : Nat := 0; decide ((b.up) ∧ (b.on (RIDGE_TQq_CFG_EN k) = false ∨ (0 < k ∧ b.txWaiting k = 0) ∨ (0 < k ∧ b.auxState (k - 1) ≠ axNORMAL)))) = true ∧
    (let b : Block := (txB 8 0 0 60).set (AUXs_STAT_STATE 7) axNORMAL; let k : Nat := 8; let d : TxDesc := TxDesc.of (b.load .dram (b.txDescAt k 0) 32); decide ((b.up) ∧ (0 < k) ∧ (k < 9) ∧ (b.on (RIDGE_TQq_CFG_EN k) = true) ∧ (0 < b.txWaiting k) ∧ (b.auxState (k - 1) = axNORMAL) ∧ (d = TxDesc.of (b.load .dram (b.txDescAt k 0) 32)) ∧ (b.txValid k d = true))) = true ∧
    (let b : Block := (txB 8 0 0 59).set (AUXs_STAT_STATE 7) axNORMAL; let k : Nat := 8; decide ((b.up) ∧ (0 < k) ∧ (k < 9) ∧ (b.on (RIDGE_TQq_CFG_EN k) = true) ∧ (0 < b.txWaiting k) ∧ (b.auxState (k - 1) = axNORMAL) ∧ (b.txValid k (TxDesc.of (b.load .dram (b.txDescAt k 0) 32)) = false))) = true ∧
    (let b : Block := txB 0 0 1 60; let d : TxDesc := TxDesc.of (b.load .dram (b.txDescAt 0 0) 32); decide ((b.up) ∧ (b.on (RIDGE_TQq_CFG_EN 0) = true) ∧ (b.swc.txRing.length < b.txWaiting 0) ∧ (d = TxDesc.of (b.load .dram (b.txDescAt 0 b.swc.txRing.length) 32)) ∧ (b.txValid 0 d = true))) = true ∧
    (let b : Block := upB; decide ((b.up))) = true := by
  decide +kernel

/-- Operands and states that meet the hypotheses of Obligations.AbsentUnits, clause by clause. -/
theorem test_witness_AbsentUnits :
    (let s : State := ofSt ({ upB with member := .ny9602 }); let k : Nat := 2; decide ((k < 20) ∧ (s.block.member.has (portUnit k) = false))) = true ∧
    (let s : State := ofSt ({ upB with member := .ny9602 }); let k : Nat := 1; decide ((s.block.member.has ⟨.stn, k⟩ = false))) = true ∧
    (let s : State := ofSt ({ upB with member := .ny9602 }); let k : Nat := 4; decide ((s.block.member.has ⟨.frond, k⟩ = false))) = true ∧
    (let s : State := ofSt ({ upB with member := .ny9602 }); let k : Nat := 1; decide ((s.block.member.has ⟨.tuft, k⟩ = false))) = true ∧
    (let s : State := ofSt ({ upB with member := .ny9602 }); let k : Nat := 1; decide ((s.block.member.has ⟨.sor, k⟩ = false))) = true ∧
    (let s : State := ofSt ({ upB with member := .ny9602 }); let k : Nat := 2; decide ((s.block.member.has ⟨.rhz, k⟩ = false))) = true ∧
    (let s : State := ofSt ({ upB with member := .ny9602 }); let k : Nat := 1; decide ((s.block.member.has ⟨.ddr, k⟩ = false))) = true ∧
    (let s : State := ofSt ({ upB with member := .ny9602 }); let k : Nat := 1; decide ((s.block.member.units .aux ≤ k))) = true ∧
    (let s : State := ofSt ({ upB with member := .ny9602 }); decide ((s.block.hasRope = false))) = true ∧
    (let s : State := ofSt ({ upB with member := .ny9602 }); decide ((s.block.member.has ⟨.acq, 0⟩ = false))) = true ∧
    (let s : State := ofSt ({ upB with member := .ny9602 }); let k : Nat := 16; decide ((s.block.member.slots ≤ k))) = true ∧
    (let s : State := ofSt ({ upB with member := .ny9602 }); let k : Nat := 128; decide ((s.block.member.channels ≤ k))) = true ∧
    (let s : State := ofSt ({ upB with member := .ny9602 }); let k : Nat := 512; decide ((4 * s.block.member.channels ≤ k))) = true ∧
    (let s : State := ofSt ({ upB with member := .ny9602 }); let k : Nat := 127; decide ((s.block.member.hasDomain k = false))) = true := by
  decide +kernel

/-- Operands and states that meet the hypotheses of Obligations.ControlStateErrors, clause by clause. -/
theorem test_witness_ControlStateErrors :
    (let b : Block := upB; let t : Nat := 15; decide ((b.up) ∧ (t < 16) ∧ (b.crz.runs = []) ∧ (b.fifo.length < 64))) = true ∧
    (let b : Block := upB; let t : Nat := 15; let st : Store := .tu; decide ((b.up) ∧ (t < 16) ∧ (b.crz.runs = []) ∧ (st = .inst ∨ st = .ctx ∨ st = .tu) ∧ (b.fifo.length < 64))) = true ∧
    (let b : Block := upB; let t : Nat := 15; decide ((b.up) ∧ (t < 16) ∧ (b.crz.runs = []))) = true ∧
    (let b : Block := upB; let t : Nat := 15; let st : Store := .ctx; decide ((b.up) ∧ (t < 16) ∧ (b.crz.runs = []) ∧ (st = .inst ∨ st = .ctx ∨ st = .tu))) = true := by
  decide +kernel

/-- Is no publication block of 512 n on enabled in eeeB? -/
def pubOff (n : Nat) : Bool := (List.range 512).all (fun k => !eeeB.on (SWC_PUBb_CFG_EN (512 * n + k)))
theorem test_pubOff_0 : pubOff 0 = true := by decide +kernel
theorem test_pubOff_1 : pubOff 1 = true := by decide +kernel
theorem test_pubOff_2 : pubOff 2 = true := by decide +kernel
theorem test_pubOff_3 : pubOff 3 = true := by decide +kernel
theorem test_pubOff_4 : pubOff 4 = true := by decide +kernel
theorem test_pubOff_5 : pubOff 5 = true := by decide +kernel
theorem test_pubOff_6 : pubOff 6 = true := by decide +kernel
theorem test_pubOff_7 : pubOff 7 = true := by decide +kernel

theorem test_eee_not_blocked : eeeB.eeeBlocked 3 = false := by
  unfold Block.eeeBlocked
  rw [List.any_eq_false]
  intro k hk
  have hk : k < 4096 := List.mem_range.mp hk
  have h : ∀ n, n < 8 → pubOff n = true := by
    intro n hn
    have : n = 0 ∨ n = 1 ∨ n = 2 ∨ n = 3 ∨ n = 4 ∨ n = 5 ∨ n = 6 ∨ n = 7 := by omega
    rcases this with rfl | rfl | rfl | rfl | rfl | rfl | rfl | rfl
    exacts [test_pubOff_0, test_pubOff_1, test_pubOff_2, test_pubOff_3, test_pubOff_4, test_pubOff_5, test_pubOff_6, test_pubOff_7]
  have h0 := h (k / 512) (by omega)
  unfold pubOff at h0
  have h1 := List.all_eq_true.mp h0 (k % 512)
    (List.mem_range.mpr (Nat.mod_lt _ (by omega)))
  have h2 : 512 * (k / 512) + k % 512 = k := by omega
  rw [h2, Bool.not_eq_true'] at h1
  rw [h1, Bool.false_and, Bool.false_and]
  exact Bool.false_ne_true

/-- The EEE clause of Obligations.StationCommands. -/
theorem test_witness_StationCommands_eeeLpiEntry :
    eeeB.up ∧ eeeB.member.has ⟨.stn, 3⟩ = true ∧ eeeB.on (linkBit (16 + 3)) = true ∧ eeeB.on (STNs_STAT_EEE_ACTIVE 3) = true ∧ eeeB.on (STNs_EEE_EN 3) = true ∧
    eeeB.on (STNs_STAT_TX_LPI 3) = false ∧ eeeB.portEmpty (16 + 3) = true ∧ eeeB.eeeBlocked 3 = false :=
  ⟨by decide +kernel, by decide +kernel, by decide +kernel, by decide +kernel, by decide +kernel, by decide +kernel, by decide +kernel, test_eee_not_blocked⟩

/-- The slot-enable clause of Obligations.IntakeCommands. -/
theorem test_witness_IntakeCommands_slotEnable :
    upB.up ∧ 1023 < upB.member.slots ∧ (upB.slotOf 1023).en = false ∧ upB.overlapOf 1023 = none ∧ ∀ c, (upB.chanOf c).en = false :=
  ⟨by decide +kernel, by decide +kernel, by decide +kernel, by decide +kernel, fun _ => rfl⟩

/-- A group whose next instant is due at Sorus. -/
def instB : Block := ({ upB with rhz := { upB.rhz with grp := [(15, { ({} : Grp) with en := true })] } }).wr (RHZ_GRPg_NEXT_LO 15) 1

/-- The instant clause of Obligations.PhasorCommands. -/
theorem test_witness_PhasorCommands_sorusInstantDone :
    instB.up ∧ instB.nextDecimated 15 = some 0 ∧ ∀ k, instB.laneMap k = (instB.sorusInstant 15 0).laneMap k :=
  ⟨by decide +kernel, by decide +kernel, fun k =>
    congrArg (fun n => bits n (4 * k) 4) (show instB.rd64 SOR_LANEMAP_LO = (instB.sorusInstant 15 0).rd64 SOR_LANEMAP_LO by decide +kernel)⟩

/-- The edge and calibration clauses of Obligations.EdgeInputCommands. -/
theorem test_witness_EdgeInputCommands_feiEdge :
    (fei { en := true, cfg := 3 }).up ∧ (fei { en := true, cfg := 3 }).hasFei = true ∧ ((fei { en := true, cfg := 3 }).feiOf 15).en = true ∧
    bit (bits ((fei { en := true, cfg := 3 }).feiOf 15).cfg.toNat 0 2) 0 = true ∧ ((fei { en := true, cfg := 3 }).feiOf 15).last = none ∧
    ∀ u, ((fei { en := true, cfg := 3 }).trgOf u).en = false :=
  ⟨by decide +kernel, by decide +kernel, by decide +kernel, by decide +kernel, by decide +kernel, fun _ => rfl⟩

theorem test_witness_EdgeInputCommands_calNow :
    upB.up ∧ upB.hasFei = true ∧ ∀ i, (upB.feiOf i).en = false ∧ (upB.feiOf i).busyA = false ∧ (upB.feiOf i).busyB = false :=
  ⟨by decide +kernel, by decide +kernel, fun _ => ⟨rfl, rfl, rfl⟩⟩

/-- A pair of ports of which port 0 heard a frame and port 1 did not, for 1 ms. -/
def silentB : Block :=
  let b := pair 1
  { (b.setPrt 0 { b.prt 0 with lastRx := some (2000000 * 2 ^ 32) }) with tim := { b.tim with elapsed := 1000000 * 2 ^ 32 } }

/-- The silence clause of Obligations.PortCommands. -/
theorem test_witness_PortCommands_lanSilent :
    silentB.up ∧ silentB.member.has (portUnit 1) = true ∧ silentB.pairOf 1 = some (1, 0) ∧ bits (silentB.prt 1).red.toNat 16 8 ≠ 0 ∧ (silentB.prt 1).silent = false ∧
    ∃ t, (silentB.prt 0).lastRx = some t ∧ silentB.tim.elapsed ≤ t ∧
      (silentB.prt 1).timer + bits (silentB.prt 1).red.toNat 16 8 * 1000000 * 2 ^ 32 ≤ silentB.tim.elapsed :=
  ⟨by decide +kernel, by decide +kernel, by decide +kernel, by decide +kernel, by decide +kernel, 2000000 * 2 ^ 32, by decide +kernel, by decide +kernel, by decide +kernel⟩

/-- The hypotheses of Obligations.StepKeepsCanonicalForm: a state in canonical form, with a register written, that steps on. -/
theorem test_witness_StepKeepsCanonicalForm :
    (State.mk upB [.stepCmd, .tickIssue]).wf = true ∧ goesOn (step ⟨upB, [.stepCmd, .tickIssue]⟩) = true := by
  decide +kernel

/-! Examples of the spec -/

/-- R107's example: the low 40 bits of TIM_NOW 0xFF_FFFF_F000, target 0x00_0000_0800. -/
theorem test_example_target_beyond_the_wrap : tdiff40 0xFFFFFFF000 0x0000000800 = -6144 := by decide +kernel

/-- The channel of the spec's example of a K4 feeder current at 50 Hz. -/
def k4 : Chan := { cfg := [0x0006_2000, 0x0018_0000 + 0x20000, 0x05030201, 0, 0x801C_1000] }

theorem test_example_stage_length : k4.lenAt 0 0x31CCCCCD 4800 = ((96, 25267), false) := by decide +kernel
theorem test_example_norm : k4.normOf [(96, 25267)] = (0x2A7F0, false) := by decide +kernel
theorem test_example_window : k4.span 16 1 4800 = 136 := by decide +kernel

/-- What a command answers of a block. -/
def after (o : Host.Outcome State Fault Refusal) (f : Block → Nat) : Option Nat :=
  match o with | .next s => some (f s.block) | _ => none

/-- The spec's example of the K4 supply monitor: codes 48,059 and 3,277 read 110,007 mV and 20,003 mA. -/
def k4Supply : Block :=
  (({ upB with nrg := { upB.nrg with need := 9 } }.set NRG_SSM_CFG_EN 1).wr NRG_SSM_VSCALE 2289).wr NRG_SSM_ISCALE 6104
theorem test_example_supply_voltage : after (execSsmSample 48059 3277 ⟨k4Supply, []⟩) (fun b => b.get NRG_SSM_VBAT_MV) = some 110007 := by decide +kernel
theorem test_example_supply_current : after (execSsmSample 48059 3277 ⟨k4Supply, []⟩) (fun b => b.get NRG_SSM_IBAT_MA) = some 20003 := by decide +kernel

/-- R555's examples: from 1,200 to 800 MHz over 500 MHz, from 400 to 200 MHz over 200 MHz. -/
def retune (f g : Nat) : Block := ({ upB with frd := { upB.frd with freq := [(15, some g)] } }).set (FRD_TUFTt_STAT_CUR_MHZ 15) f
theorem test_example_safe_clock_1200_800 :
    after (execTuftClockChange 15 false ⟨retune 1200 800, []⟩) (fun b => b.get (FRD_TUFTt_STAT_CUR_MHZ 15)) = some 500 := by decide +kernel
theorem test_example_safe_clock_400_200 :
    after (execTuftClockChange 15 false ⟨retune 400 200, []⟩) (fun b => b.get (FRD_TUFTt_STAT_CUR_MHZ 15)) = some 200 := by decide +kernel

/-- R340, by hand: −2³¹ − 2³¹ clamps, −1 × −1 in Q31 clamps, and 2³¹ − 1 and −2³¹ add up to −1. -/
def x7 (o : Host.Outcome State Fault Refusal) : Option Nat := after o (fun b => ((b.coreSt 3).rx 7).toNat)
theorem test_qadd_clamps : x7 (execQadd 3 7 5 5 ⟨running3, []⟩) = some 0xFFFFFFFF80000000 := by decide +kernel
theorem test_qadd_adds : x7 (execQadd 3 7 5 6 ⟨running3, []⟩) = some 0xFFFFFFFFFFFFFFFF := by decide +kernel
theorem test_qmul_clamps : x7 (execQmul 3 7 5 5 ⟨running3, []⟩) = some 0x7FFFFFFF := by decide +kernel
theorem test_qneg_clamps : x7 (execQneg 3 7 5 ⟨running3, []⟩) = some 0x7FFFFFFF := by decide +kernel

/-- R613: a power-on starts at stage 1; a module that has not started answers no register write. -/
theorem test_reset_stage : State.reset.block.get RST_START_STAGE = 1 := by decide +kernel
theorem test_front_command_runs : after (step ⟨upB, [.tickRateWrite 99]⟩) (fun b => b.get TIM_TICK_RATE) = after (execTickRateWrite 99 ⟨upB, []⟩) (fun b => b.get TIM_TICK_RATE) := by
  decide +kernel

/-! Ill-formed commands -/

theorem test_wf_refuses_1 : [.registerWrite .jtag 0x8000000 0,
    .unmappedAccess .jtag 0x11000000 false,
    .misalignedAccess .jtag 0x8000000 0 false,
    .counterLoRead .jtag 0x8000000,
    .counterHiWrite .jtag 0x8000000 0,
    .counterLoWrite .jtag 0x8000000 0,
    .counter64Access .jtag 0x8000000 false 0,
    .unitQuiesceWrite .jtag 0x8000000 false,
    .unitIdleReached 0x8000000,
    .unitResetRequest .jtag 0x8000000,
    .quiesceTimeout 0x8000000,
    .evtPendClear 32 0 0,
    .ridgeRqConsWrite 9 0,
    .ridgeQueueEnable false 9 0,
    .ridgeTqProdWrite 9 0,
    .ridgeTxDescriptor 9 0,
    .sourceWatchdogExpiry 4,
    .cmpArm 64 0,
    .cmpDisarm 64,
    .comparatorFire 64,
    .pgStart 8,
    .pgPulse 8,
    .pgTrainDone 8,
    .frameLaunch 23,
    .portEnable 20 0,
    .portDisable 20 false,
    .linkUp 22 0 false,
    .linkLoss ⟨22, false⟩,
    .laneRetrain 22,
    .portFrameReceived 16 { bytes := [] },
    .lpiReceived 16,
    .nodeEntryForget 16 0,
    .nodeEntryForget 0 (2 ^ 48),
    .supervisionTx 16,
    .lanSilent 16,
    .fdbEntryAge 4096 0,
    .fdbEntryAge 0 (2 ^ 48),
    .egressFrameStart 23,
    .egressFrameEnd 23,
    .lagBucketWrite 4 0 0].all (fun (i : Instr) => !i.wf) = true := by
  decide +kernel

theorem test_wf_refuses_2 : [.lagBucketWrite 0 16 0,
    .mirrorConsWrite 4 0,
    .stationFrameReceived 4 { bytes := [] },
    .eeeLpiEntry 4,
    .eeeWake 4,
    .eeeTwWrite 4 0,
    .saEnable 4 0 0,
    .saEnable 0 36 0,
    .rhizoidSvFrame 17,
    .slotEnable 1024 0,
    .slotDisable 1024,
    .groupEnable 16 0,
    .groupDisable 16,
    .instantRelease 16,
    .sorusInstantDone 16,
    .channelEnable 8192 0,
    .trkGroupEnable 64 0,
    .goldenVectorRun 16 false false,
    .stickyClear 1024 0,
    .thrStatRead .jtag 32768,
    .comparatorEnable 32768 0,
    .instantMarker 16 0,
    .taskStart ⟨16, []⟩,
    .holdLimitExpiry 128,
    .taskExit 128,
    .commitComplete 128,
    .budgetExpiry 128,
    .taskAbort 128,
    .tblEnWrite .jtag 16,
    .qadd 128 0 0 0,
    .qadd 0 32 0 0,
    .qadd 0 0 32 0,
    .qadd 0 0 0 32,
    .qsub 128 0 0 0,
    .qsub 0 32 0 0,
    .qsub 0 0 32 0,
    .qsub 0 0 0 32,
    .qmul 128 0 0 0,
    .qmul 0 32 0 0,
    .qmul 0 0 32 0].all (fun (i : Instr) => !i.wf) = true := by
  decide +kernel

theorem test_wf_refuses_3 : [.qmul 0 0 0 32,
    .qneg 128 0 0,
    .qneg 0 32 0,
    .qneg 0 0 32,
    .qshl 128 0 0 0,
    .qshl 0 32 0 0,
    .qshl 0 0 32 0,
    .qshl 0 0 0 32,
    .qrshr 128 0 0 0,
    .qrshr 0 32 0 0,
    .qrshr 0 0 32 0,
    .qrshr 0 0 0 32,
    .cmul 128 0 0 0,
    .cmul 0 32 0 0,
    .cmul 0 0 32 0,
    .cmul 0 0 0 32,
    .cmulc 128 0 0 0,
    .cmulc 0 32 0 0,
    .cmulc 0 0 32 0,
    .cmulc 0 0 0 32,
    .cmac 128 0 0,
    .cmac 0 32 0,
    .cmac 0 0 32,
    .cmacc 128 0 0,
    .cmacc 0 32 0,
    .cmacc 0 0 32,
    .caccrd 128 0 0,
    .caccrd 0 32 0,
    .caccrd 0 0 32,
    .caccclr 128,
    .cmag 128 0 0,
    .cmag 0 32 0,
    .cmag 0 0 32,
    .cang 128 0 0,
    .cang 0 32 0,
    .cang 0 0 32,
    .gld16 128 0 0 0 0,
    .gld16 0 32 0 0 0,
    .gld16 0 0 32 0 0,
    .gld16 0 0 0 32 0].all (fun (i : Instr) => !i.wf) = true := by
  decide +kernel

theorem test_wf_refuses_4 : [.gld16 0 0 0 0 16,
    .riscvInstruction 128,
    .taskFault 128 0 0 false,
    .debugHalt 128 false,
    .debugResume 128,
    .tcmRead 16 0,
    .tcmWrite 16 0,
    .tuftFreqWrite 16 0,
    .tuftClockChange 16 false,
    .gooseFrameIntake 17,
    .gsubTimeout 4096,
    .pubBlockEnable 4096 0,
    .gooseFrameDue 4096,
    .feiEdge 16 false 0 false,
    .feiEdge 0 false 64 false,
    .tdcCalibrationStart 16 false,
    .tdcCalibrationDone 16 false (List.replicate 64 0),
    .tdcCalibrationDone 0 false (List.replicate 63 0),
    .xtrigEdge 4,
    .xtrigRelease 8,
    .triggerTimeout 32,
    .settleWindowEnd 8,
    .autoTrigger 8,
    .force 8,
    .rearm 8,
    .csetEnable 8 0,
    .csetDisable 8,
    .segmentComplete 8,
    .acqConsWrite 8 0,
    .hello 2 [],
    .keepalive 2 [],
    .release 2 [],
    .asduFwd 2 [],
    .ginLedger 2 [],
    .gooseFwd 2 [],
    .digests 2 [],
    .ledger 2 [],
    .claim 2 [],
    .health 2 [],
    .join 2 []].all (fun (i : Instr) => !i.wf) = true := by
  decide +kernel

theorem test_wf_refuses_5 : [.resolve 2 [],
    .targetedSelftestDone 65536 false [],
    .swap 2 [],
    .handover 2 [],
    .selftestResult 4096 false false,
    .read 256 0 (List.replicate 64 0),
    .read 0 1024 (List.replicate 64 0),
    .read 0 0 (List.replicate 63 0),
    .writeAtTick 256 0 (List.replicate 64 0),
    .writeAtTick 0 1024 (List.replicate 64 0),
    .writeAtTick 0 0 (List.replicate 63 0),
    .writeAtTickApply 256,
    .nop 256 0 (List.replicate 64 0),
    .nop 0 1024 (List.replicate 64 0),
    .nop 0 0 (List.replicate 63 0),
    .instCreate (List.replicate 63 0),
    .instSetWindows (List.replicate 63 0),
    .instMap (List.replicate 63 0),
    .instUnmap (List.replicate 63 0),
    .instStart (List.replicate 63 0),
    .instFreeze (List.replicate 63 0),
    .freezeComplete 256,
    .instSave (List.replicate 63 0),
    .instRestore (List.replicate 63 0),
    .instRestart (List.replicate 63 0),
    .instMigrateOut (List.replicate 63 0),
    .instCancel (List.replicate 63 0),
    .instDestroy (List.replicate 63 0),
    .queueCreate (List.replicate 63 0),
    .queueDelete (List.replicate 63 0),
    .queueReinit (List.replicate 63 0),
    .sliceWrite 0x8000000,
    .doorbellWrite 0x10000000 0 0,
    .msixUnmask 2048,
    .hostWindowAccess .jtag 0x10000000 0 false [],
    .ddrZqCalibration 2,
    .ddrDqsOscCheck 2 0,
    .ddrDqsOscCheck 0 3,
    .ddrMr4Read 2 false false,
    .domainPowerRequest 212].all (fun (i : Instr) => !i.wf) = true := by
  decide +kernel

theorem test_wf_refuses_6 : [.domainOn 212,
    .coreIdleTimeout 128,
    .pllLossOfLock 20 false,
    .relockTimeout 16,
    .sensorSample (List.replicate 47 0),
    .ssmSample 65536 0,
    .ssmSample 0 (-32769),
    .ssmSample 0 32768,
    .auxEnable 8 0,
    .auxDisable 8,
    .auxenRampDone 8,
    .auxFrameReceived 8 { bytes := [] },
    .goListen 8,
    .goNormal 8,
    .sleep 8,
    .wake 8,
    .stay 8,
    .awakeTimerExpiry 8,
    .sleepFrameTx 8,
    .sleepDelayDone 8,
    .auxenHoldExpiry 8,
    .wakeDetect 8 0,
    .wakeWindowExpiry 8,
    .wakeLockExpiry 8,
    .auxFsKick 8,
    .auxFsClear 8,
    .failsafeTimeout 8,
    .failsafeFrameTx 8,
    .resetRelease 14,
    .ridgeWatchdogHalf 4,
    .ridgeWatchdogExpiry 4,
    .retireCmd 4096,
    .completionTimeout 256 0,
    .completionTimeout 0 1024,
    .plcaStatusChange 8 false,
    .jabber 8,
    .wakeBurstDecoded 8,
    .gsubEnable 4096 0,
    .ddrSelfRefreshEntry 2,
    .unknownRopeFrame 2 []].all (fun (i : Instr) => !i.wf) = true := by
  decide +kernel

end Sys2Proof.Tests
end

/-! # What a step can answer, and the reset state

One inversion lemma for the whole model: a command leaves the state alone, or ends with `Block.commit` and the queue as it was.
The canonical form of the tables and the completion of every command follow from it. -/

namespace Sys2Proof.Machine

open Sys2Proof Sys2Proof.Reg

/-! Steps -/

theorem step_nil (b : Block) : step ⟨b, []⟩ = run Block.idleCycle ⟨b, []⟩ := rfl

theorem step_cons (b : Block) (c : Instr) (rest : List Instr) : step ⟨b, c :: rest⟩ = exec c ⟨b, rest⟩ := rfl

/-- The two answers a command can give at s: s itself, where its unit is absent or not released (R4, R608), or a next state with
the waiting commands of s and the tables of its block folded by the end of the command. -/
def Completes (s : State) (o : Host.Outcome State Fault Refusal) : Prop :=
  o = .next s ∨ ∃ b : Block, o = .next ⟨b.commit, s.pending⟩

/-! The five shapes of a command's meaning -/

theorem completes_run (f : Block → Block) (s : State) : Completes s (run f s) := .inr ⟨f s.block, rfl⟩

theorem completes_runAt (c : Cls) (f : Block → Block) (s : State) : Completes s (runAt c f s) := by
  unfold runAt
  split
  · exact completes_run f s
  · exact .inl rfl

theorem completes_runUnit (u : UnitRef) (f : Block → Block) (s : State) : Completes s (runUnit u f s) := by
  unfold runUnit
  split
  · exact completes_run f s
  · exact .inl rfl

theorem completes_auxRun (n : Nat) (f : Block → Block) (s : State) : Completes s (auxRun n f s) := completes_runAt _ _ s

theorem completes_ropeFrame (typ lane : Nat) (l : List Byte) (act : RopeFrame → Block → Block) (s : State) :
    Completes s (ropeFrame typ lane l act s) := completes_run _ s

/-- Every command of the table completes. The cases are grouped by what the meaning acts in: the module as a whole, the units of a
class, one unit, a Rope frame, an auxiliary segment. -/
theorem exec_completes (c : Instr) (s : State) : Completes s (exec c s) := by
  unfold exec
  cases c with
  | registerWrite | unmappedAccess | misalignedAccess | counterLoRead | counterHiWrite | counterLoWrite | counter64Access
  | unitQuiesceWrite | unitIdleReached | unitResetRequest | quiesceTimeout | linkUp | linkLoss | laneRetrain | xtrigEdge
  | belayInChange | leaseExpiry | aloneTimeout | doubleClaim | followTimeout | perstAssert | perstDeassert | configRequest
  | pmeSend | hostWindowAccess | wipeStart | wipeDone | thermalTrip | powerOn | sysRstAssert | warmRstAssert | resetRelease
  | railFault | tamper | crzWatchdogExpiry | ridgeWatchdogHalf | ridgeWatchdogExpiry | startStageDone | lossOfVddAon
  | unknownRopeFrame => exact completes_run _ _
  | evtPendClear | ridgeRqConsWrite | ridgeQueueEnable | ridgeTqProdWrite | ridgeTxDescriptor | ridgeTsfPop | tickIssue
  | tickRateWrite | offsetSubmit | stepCmd | freqAdjWrite | sourceWatchdogExpiry | ppsEdge | irigbFrame | holdLimitExceeded
  | timebasePllLoss | timebasePllRelock | leapApply | cmpArm | cmpDisarm | comparatorFire | pgStart | pgPulse | pgTrainDone
  | frameLaunch | switchForward | fdbEntryAge | fdbRead | fdbWrite | fdbDelete | fdbFlushLearned | egressFrameStart
  | egressFrameEnd | lagBucketWrite | mirrorConsWrite | gateForceCloseWrite | slotEnable | slotDisable | groupEnable
  | groupDisable | simModeWrite | instantRelease | sorusInstantDone | channelEnable | trkGroupEnable | stickyClear | thrStatRead
  | comparatorEnable | instantMarker | crzTick | taskStart | holdLimitExpiry | taskExit | commitComplete | budgetExpiry
  | taskAbort | leaseRenewal | swapArm | swapCancel | descRead | descWrite | tblEnWrite | gsubTimeout | ginPost | pubBlockEnable
  | gooseFrameDue | pubResend | feiEdge | tdcCalibrationStart | calNow | tdcCalibrationDone | xtrigRelease | triggerTimeout
  | settleWindowEnd | autoTrigger | force | rearm | csetEnable | csetDisable | segmentComplete | acqConsWrite | keepaliveTx
  | ropeTimeout | healthTx | healthMissing | joinTimeout | targetedSelftestDone | resolveTimeout | handoverAckTimeout
  | selftestResult | demote | demoteForce | ropeJoinCmd | read | writeAtTick | writeAtTickApply | nop | instCreate
  | instSetWindows | instMap | instUnmap | instStart | instFreeze | freezeComplete | instSave | instRestore | instRestart
  | instMigrateOut | instCancel | instDestroy | queueCreate | queueDelete | queueReinit | sliceWrite | doorbellWrite
  | sqEntryFetch | admqEnable | functionLevelReset | linkDlDown | msixEnable | msixUnmask | aspmL1Entry | dStateChange
  | pmeTurnOff | linkTrainingStart | hostWindowTimeout | domainPowerRequest | domainAdmit | domainOn | coreIdleTimeout
  | pllLossOfLock | relockTimeout | sensorSample | ssmSample | socEvaluate | socqSet | bivEnter | bivExit | rstCmdCold
  | rstCmdWarm | rstKick | erase | program | verify | activate | loadSwap | imgRead | flashEraseDone | keyWrite | derive
  | invalidate | keyRead | rdataTimeout | keyClr | wipe | enrol | lcAdvance | svnRaise | anchorRevoke | dbgArm | dbgDisarm
  | logRecordWrite | recordWriteRetry | crnConsWrite | freeze | freezeTimeout | note | retireCmd | dataLinkUp | completionTimeout
  | gsubEnable => exact completes_runAt _ _ _
  | portEnable | portDisable | portFrameReceived | lpiReceived | nodeEntryForget | supervisionTx | lanSilent
  | stationFrameReceived | eeeLpiEntry | eeeWake | eeeTwWrite | saEnable | rhizoidSvFrame | goldenVectorRun | qadd | qsub | qmul
  | qneg | qshl | qrshr | cmul | cmulc | cmac | cmacc | caccrd | caccclr | cmag | cang | gld16 | riscvInstruction | taskFault
  | debugHalt | debugResume | tcmRead | tcmWrite | tuftFreqWrite | tuftClockChange | gooseFrameIntake | ddrZqCalibration
  | ddrDqsOscCheck | ddrMr4Read | ddrSelfRefreshEntry => exact completes_runUnit _ _ _
  | hello | keepalive | release | asduFwd | ginLedger | gooseFwd | digests | ledger | claim | health | join | resolve | swap
  | handover => exact completes_ropeFrame _ _ _ _ _
  | auxEnable | auxDisable | auxenRampDone | auxFrameReceived | goListen | goNormal | sleep | wake | stay | awakeTimerExpiry
  | sleepFrameTx | sleepDelayDone | auxenHoldExpiry | wakeDetect | wakeWindowExpiry | wakeLockExpiry | auxFsKick | auxFsClear
  | failsafeTimeout | failsafeFrameTx | plcaStatusChange | jabber | wakeBurstDecoded => exact completes_auxRun _ _ _

/-- So does every step: the front command at the rest of the queue, or one cycle where none waits. -/
theorem step_completes (s : State) : Completes ⟨s.block, s.pending.tail⟩ (step s) := by
  obtain ⟨b, queue⟩ := s
  cases queue with
  | nil => rw [step_nil]; exact completes_run _ _
  | cons c rest => rw [step_cons]; exact exec_completes c ⟨b, rest⟩

/-! What follows from completion -/

theorem Completes.next_pending {s : State} {o : Host.Outcome State Fault Refusal} (h : Completes s o) :
    ∃ b', o = .next ⟨b', s.pending⟩ := by
  rcases h with h | ⟨b, h⟩
  · exact ⟨s.block, h⟩
  · exact ⟨b.commit, h⟩

theorem Completes.goesOn {s : State} {o : Host.Outcome State Fault Refusal} (h : Completes s o) : goesOn o = true := by
  obtain ⟨b', rfl⟩ := h.next_pending
  rfl

@[simp] theorem Block.commit_wf (b : Block) : b.commit.wf = true := by
  simp [Block.wf, Memory.wf, Regs.wf]

theorem Completes.wf {s t : State} {o : Host.Outcome State Fault Refusal} (h : Completes s o) (hs : s.wf = true) (ht : o = .next t) :
    t.wf = true := by
  subst ht
  rcases h with h | ⟨b, h⟩
  · cases h
    exact hs
  · cases h
    exact b.commit_wf

/-! The reset state -/

theorem rd_reset (a : Nat) : State.reset.block.rd a = resetOf a := rfl

theorem byte_reset (sp : Space) (a : Nat) : State.reset.block.byte sp a = memDefault (sp.key a) := rfl

/-- The keys of the spaces numbered below flash lie below the erased range. -/
theorem memDefault_key_of_index_lt (sp : Space) (a : Nat) (h : sp.index < 288) : memDefault (sp.key a) = 0 := by
  have ha : a % 2 ^ 64 < 2 ^ 64 := Nat.mod_lt a (by positivity)
  have hk : ¬288 * 2 ^ 64 ≤ sp.key a := by unfold Space.key; omega
  exact if_neg hk

theorem memDefault_key_of_le_index (sp : Space) (a : Nat) (h : 288 ≤ sp.index) : memDefault (sp.key a) = 0xFF := by
  have hk : 288 * 2 ^ 64 ≤ sp.key a := by unfold Space.key; omega
  exact if_pos hk

theorem tickRate_reset : State.reset.block.get TIM_TICK_RATE = 4800 := by decide +kernel

theorem syncState_reset : State.reset.block.syncState = timFREE := by decide +kernel

theorem startStage_reset : State.reset.block.get RST_START_STAGE = 1 := by decide +kernel

theorem resetOf_rstLast : resetOf RST_LAST = 1 := by decide +kernel

/-! The obligations -/

/-- Settles O3: what completes ends in the state it began in, or in the canonical form that the end of a command makes. -/
theorem stepKeepsCanonicalForm : Obligations.StepKeepsCanonicalForm := by
  intro s t hs ht
  exact (step_completes s).wf hs ht

/-- Settles O5: by the case split over the commands in `exec_completes`. -/
theorem everyCommandCompletes : Obligations.EveryCommandCompletes :=
  ⟨fun c s => (exec_completes c s).next_pending, fun s => (step_completes s).goesOn⟩

/-- Settles O1: the rest of the queue is the state's own queue. -/
theorem stepRunsFrontCommand : Obligations.StepRunsFrontCommand :=
  fun c s => step_cons s.block c s.pending

/-- Settles O6: the tables are empty at reset, so registers and bytes read their defaults. -/
theorem resetState : Obligations.ResetState :=
  ⟨rfl, tickRate_reset, syncState_reset, startStage_reset, rfl, rfl, (rd_reset RST_LAST).trans resetOf_rstLast,
    fun a => (byte_reset .dram a).trans (memDefault_key_of_index_lt .dram a (by decide)),
    fun a => (byte_reset (.flash 0) a).trans (memDefault_key_of_le_index (.flash 0) a (by decide))⟩

end Sys2Proof.Machine

/-! # Errors in control state

What an upset in checked control state does (R44, R656): the counter, the event and the record of a corrected one; the unit reset or
the warm reset of one that is not. -/

namespace Sys2Proof.Machine

open Sys2Proof Sys2Proof.Reg

/-! Folds over an operation -/

/-- A fold of operations that leave the reset controller's state alone does so too. -/
theorem foldl_rst {α : Type} (l : List α) (g : Block → α → Block) (hg : ∀ x e, (g x e).rst = x.rst) (b : Block) :
    (l.foldl g b).rst = b.rst :=
  List.foldlRecOn (motive := fun x => x.rst = b.rst) l g rfl fun x hx e _ => (hg x e).trans hx

theorem Block.each_rst (n : Nat) (g : Nat → Block → Block) (hg : ∀ i x, (g i x).rst = x.rst) (b : Block) : (b.each n g).rst = b.rst :=
  foldl_rst _ _ (fun x i => hg i x) b

/-! The reset controller's state is outside what frames, captures and segments change -/

theorem rst_of_own {b b' : Block} (h : b'.own = b.own) : b'.rst = b.rst := (congrArg Block.rst h : b'.own.rst = b.own.rst)
theorem crz_of_own {b b' : Block} (h : b'.own = b.own) : b'.crz = b.crz := (congrArg Block.crz h : b'.own.crz = b.own.crz)
theorem key_of_own {b b' : Block} (h : b'.own = b.own) : b'.key = b.key := (congrArg Block.key h : b'.own.key = b.own.key)
theorem vin_of_own {b b' : Block} (h : b'.own = b.own) : b'.vin = b.vin := (congrArg Block.vin h : b'.own.vin = b.own.vin)
theorem ns_of_own {b b' : Block} (h : b'.own = b.own) : b'.ns = b.ns := (congrArg Block.ns h : b'.own.ns = b.own.ns)

section
variable (b : Block)

@[simp] theorem Block.raise_rst (n : Nat) : (b.raise n).rst = b.rst := rst_of_own (own_raise b n)
@[simp] theorem Block.raiseIf_rst (c : Bool) (n : Nat) : (b.raiseIf c n).rst = b.rst := rst_of_own (own_raiseIf b c n)
@[simp] theorem Block.raiseEvery_rst (m n : Nat) : (b.raiseEvery m n).rst = b.rst := rst_of_own (own_raiseEvery b m n)
@[simp] theorem Block.count_rst (a n : Nat) (r : Fld) (e : Nat) : (b.count a n r e).rst = b.rst := rst_of_own (own_count b a n r e)
@[simp] theorem Block.draw_rst (m : Nat) : (b.draw m).2.rst = b.rst := rfl

@[simp] theorem Block.refusedAt_rst (a n : Nat) : (b.refusedAt a n).rst = b.rst := by
  simp [Block.refusedAt, Block.noRegion, Block.doIf, apply_ite Block.rst]

@[simp] theorem Block.dramStore_rst (a : Nat) (l : List Byte) : (b.dramStore a l).rst = b.rst := by
  unfold Block.dramStore
  refine Block.each_rst _ _ (fun i x => ?_) _
  split <;> rfl

@[simp] theorem Block.setFree_rst (n : Nat) : (b.setFree n).rst = b.rst := by simp [Block.setFree]

@[simp] theorem Block.txDone_rst (q status : Nat) : (b.txDone q status).rst = b.rst := by simp [Block.txDone]

@[simp] theorem Block.txComplete_rst (l : List (Nat × Nat × Bool)) : (b.txComplete l).rst = b.rst := by
  induction l generalizing b with
  | nil => rfl
  | cons e t ih =>
    unfold Block.txComplete
    split
    · rw [ih, Block.txDone_rst]
    · rfl

@[simp] theorem Block.mirLose_rst (m : Nat) : (b.mirLose m).rst = b.rst := by simp [Block.mirLose]

@[simp] theorem Block.mirWrite_rst (m p : Nat) (f : List Byte) (d e : Bool) (r : Option Nat) (stamp vid q : Nat) :
    (b.mirWrite m p f d e r stamp vid q).rst = b.rst := by
  unfold Block.mirWrite
  dsimp only
  split
  · simp [Block.doIf, apply_ite Block.rst]
  · cases r <;> simp [Block.swcCnt, Block.doIf, apply_ite Block.rst]

@[simp] theorem Block.mirDrop_rst (e : Nat) (f : SwFrame) (r : Option Nat) : (b.mirDrop e f r).rst = b.rst := by
  unfold Block.mirDrop Block.mirror
  refine Block.each_rst _ _ (fun m x => ?_) _
  simp [apply_ite Block.rst]

@[simp] theorem Block.release_rst (e id : Nat) : (b.release e id).rst = b.rst := by
  unfold Block.release
  split
  · rfl
  · simp [Block.idleNow, Block.txEnd, Block.doIf, apply_ite Block.rst]

@[simp] theorem Block.launchDrop_rst (e id : Nat) : (b.launchDrop e id).rst = b.rst := by
  unfold Block.launchDrop
  split
  · rfl
  · simp [Block.txMark]

@[simp] theorem Block.dropLaunches_rst : b.dropLaunches.rst = b.rst := by
  refine Block.each_rst _ _ (fun p x => ?_) b
  dsimp only
  split
  · rfl
  · simp [foldl_rst]

@[simp] theorem Block.acqStore_rst (a : Nat) (l : List Byte) : (b.acqStore a l).rst = b.rst := by
  unfold Block.acqStore
  split
  · rfl
  · exact b.refusedAt_rst _ _

@[simp] theorem Block.csetCnt_rst (s i n : Nat) : (b.csetCnt s i n).rst = b.rst := b.count_rst _ _ _ _

@[simp] theorem Block.recordDone_rst (s addr bytes state : Nat) : (b.recordDone s addr bytes state).rst = b.rst := rfl

@[simp] theorem Block.gapAdd_rst (s c f l t r : Nat) (g : Option Nat) : (b.gapAdd s c f l t r g).rst = b.rst := by simp [Block.gapAdd]

@[simp] theorem Block.finishSeg_rst (s : Nat) (trunc : Bool) : (b.finishSeg s trunc).rst = b.rst := by
  unfold Block.finishSeg
  dsimp only
  split
  · rfl
  · simp only [Block.raise_rst, Block.csetCnt_rst, Block.recordDone_rst, Block.setCset_rst, Block.acqStore_rst]

@[simp] theorem Block.truncSeg_rst (s cause : Nat) : (b.truncSeg s cause).rst = b.rst := by
  unfold Block.truncSeg
  split
  · rfl
  · simp only [Block.gapAdd_rst, Block.finishSeg_rst]

@[simp] theorem Block.acqCut_rst : b.acqCut.rst = b.rst := by
  refine Block.each_rst _ _ (fun s x => ?_) b
  split
  · exact x.truncSeg_rst _ _
  · rfl

@[simp] theorem Block.auxWarm_rst (s : Nat) : (b.auxWarm s).rst = b.rst := by
  unfold Block.auxWarm
  dsimp only
  split <;> rfl

/-! A warm reset -/

/-- The reset controller after a warm reset: the units are no longer released; the causes that hold and the errors of key slots
stay (R603, R608, R656). -/
theorem warmBlock_rst :
    b.warmBlock.rst.rel = false ∧ b.warmBlock.rst.held = b.rst.held ∧ b.warmBlock.rst.ecc = b.rst.ecc := by
  have h : (b.dropLaunches.acqCut.each 8 (fun s b => b.auxWarm s)).rst = b.rst := by
    rw [Block.each_rst _ _ (fun i x => x.auxWarm_rst i), Block.acqCut_rst, Block.dropLaunches_rst]
  simp [Block.warmBlock, h]

/-- A start that begins after a warm reset begins at stage 5 (R607, R613); the level, the releases, the errors of key slots and
the governing cause stay. -/
theorem beginStart_warm (h : b.rst.level = 2) :
    b.beginStart.rst.level = 2 ∧ b.beginStart.rst.rel = b.rst.rel ∧ b.beginStart.rst.ecc = b.rst.ecc ∧
      b.beginStart.get RST_START_STAGE = 5 ∧ b.beginStart.get RST_LAST_CAUSE = b.get RST_LAST_CAUSE := by
  have stage (c : Block) : (c.set RST_START_STAGE 5).get RST_START_STAGE = 5 := Block.get_set_self _ _ _ (by decide)
  have stageStorm (c : Block) : ((c.set RST_START_STORM 1).raise 3).get RST_START_STAGE = c.get RST_START_STAGE :=
    (get_raise _ _ _ (by decide)).trans (Block.get_set_ne _ _ _ _ (by decide) (by decide))
  have cause (c : Block) : (c.set RST_START_STAGE 5).get RST_LAST_CAUSE = c.get RST_LAST_CAUSE := Block.get_set_addr _ (by decide) _
  have causeStorm (c : Block) : ((c.set RST_START_STORM 1).raise 3).get RST_LAST_CAUSE = c.get RST_LAST_CAUSE :=
    (get_raise _ _ _ (by decide)).trans (Block.get_set_addr _ (by decide) _)
  unfold Block.beginStart
  simp only [Block.modRst_rst, h, if_true]
  split <;> simp [h, stage, stageStorm, cause, causeStorm]

@[simp] theorem Block.resetCount_rst (c : Nat) : (b.resetCount c).rst = b.rst := by simp [Block.resetCount, apply_ite Block.rst]

@[simp] theorem Block.showLast_rst (lvl c : Nat) : (b.showLast lvl c).rst = b.rst := rfl

/-- A reset that reaches the module shows its cause in RST_LAST, whether or not RST_LAST_ALL and the count of the cause follow. -/
theorem get_cause_showLast (v : Word) :
    ((((b.showLast 2 0xB).wr RST_LAST_ALL v).set (bitOf RST_LAST_ALL 0xB) 1).resetCount 0xB).get RST_LAST_CAUSE = 11 := by
  have hc (c : Block) : (c.resetCount 0xB).get RST_LAST_CAUSE = c.get RST_LAST_CAUSE :=
    get_count _ _ _ _ _ _ (by decide) (by decide) (by decide)
  rw [hc, Block.get_set_addr _ (by decide), Block.get_wr_ne _ (by decide)]
  exact Block.get_set_self _ _ _ (by decide)

/-- An error in checked control state warm-resets a module that no reset holds, and its start begins at once (R44, R602, R603). -/
theorem controlReset_warm (a : Nat) (ha : b.rst.asserted = false) :
    (b.controlReset a).rst.level = 2 ∧ (b.controlReset a).rst.rel = false ∧ (b.controlReset a).rst.ecc = b.rst.ecc ∧
      (b.controlReset a).get RST_START_STAGE = 5 ∧ (b.controlReset a).get RST_LAST_CAUSE = 11 := by
  simp only [Block.controlReset, Block.moduleReset, Block.resetBy, Block.modRst_rst, ha]
  simp [causeLevel, causeHolds, Block.reach, warmBlock_rst, beginStart_warm, get_cause_showLast]

end

/-! What events leave of the record FIFO and the once-per-interval gates -/

/-- Cairn's staging FIFO and the gates of the events that are raised at most once in an interval. -/
def Block.staged (b : Block) : List Report × Sparse Nat := (b.fifo, b.gates)

section
variable (b : Block)

theorem staged_msix (v : Nat) : (b.msix v).1.staged = b.staged := by
  unfold Block.msix
  split
  · dsimp only
    split <;> rfl
  · rfl

theorem staged_wakeCause (k i s : Nat) : (b.wakeCause k i s).1.staged = b.staged := by
  unfold Block.wakeCause
  split
  · rfl
  split
  · rfl
  dsimp only
  split
  · rfl
  split
  · split <;> rfl
  · rfl

theorem staged_raise1 (n : Nat) : (b.raise1 n).1.staged = b.staged := by
  have hm (c : Block) : (c.msixFor n).1.staged = c.staged := by
    unfold Block.msixFor
    split
    · exact staged_msix c _
    · rfl
  have hc (c : Block) : (c.crzNote n).staged = c.staged := by unfold Block.crzNote; split <;> rfl
  have hw (c : Block) : (c.wakeFor n).1.staged = c.staged := by
    unfold Block.wakeFor
    split
    · exact staged_wakeCause c _ _ _
    · rfl
  unfold Block.raise1
  split
  · rfl
  · exact (hw _).trans ((hc _).trans (hm _))

theorem staged_raiseAll (k : Nat) (l : List Nat) : (Block.raiseAll k l b).staged = b.staged := by
  induction k generalizing l b with
  | zero => rfl
  | succ k ih =>
    induction l generalizing b with
    | nil => rfl
    | cons x t iht => exact (iht _).trans ((ih _ _).trans (staged_raise1 b x))

/-- The report of an event to the event logic enters no record and moves no gate. -/
theorem staged_raise (n : Nat) : (b.raise n).staged = b.staged := staged_raiseAll b _ _

theorem staged_count (a n : Nat) (r : Fld) (e : Nat) : (b.count a n r e).staged = b.staged := by
  unfold Block.count
  dsimp only
  split
  · rw [staged_raise]; rfl
  · rfl

theorem fifo_count (a n : Nat) (r : Fld) (e : Nat) : (b.count a n r e).fifo = b.fifo := congrArg Prod.fst (staged_count b a n r e)
theorem gates_count (a n : Nat) (r : Fld) (e : Nat) : (b.count a n r e).gates = b.gates := congrArg Prod.snd (staged_count b a n r e)

theorem fifo_raiseEvery (m n : Nat) : (b.raiseEvery m n).fifo = b.fifo := by
  unfold Block.raiseEvery
  dsimp only
  split
  · rfl
  · exact congrArg Prod.fst (staged_raise _ n)

/-- An event that is raised at most once in an interval is pending where TIM_NOW is in another interval than at its last report. -/
theorem pending_raiseEvery (m n : Nat) (h : b.gates.get (fun _ => 0) n ≠ b.ns / 1000000 / m + 1) :
    (b.raiseEvery m n).pendingEvent n = true := by
  unfold Block.raiseEvery
  rw [if_neg h]
  exact pending_raise _ n

/-! The record of an error in control state -/

/-- With room in the FIFO a CONTROL_ERROR record enters at its end, and CRN_STAT shows the new fill (R670, R675). -/
theorem controlRecord_of_room (s u c act a : Nat) (h : b.fifo.length < 64) :
    ∃ r : Report, r.typ = 2 ∧ r.source = s ∧
      b.controlRecord s u c act a = Block.set { b with fifo := b.fifo ++ [r] } CRN_STAT_FIFO_FILL (b.fifo.length + 1) := by
  unfold Block.controlRecord Block.report
  simp only [h, if_true]
  exact ⟨_, rfl, rfl, rfl⟩

theorem own_controlRecord (s u c act a : Nat) : (b.controlRecord s u c act a).own = b.own := own_report b _ _ _ _ _

theorem on_controlRecord (s u c act a : Nat) (f : Fld) (h : crnReg f.addr = false) : (b.controlRecord s u c act a).on f = b.on f := by
  rw [Block.on, Block.controlRecord, get_report b _ _ _ _ _ f h, ← Block.on]

/-! A tuft without work -/

theorem coreHead_of_no_runs (h : b.crz.runs = []) (c : Nat) : b.coreHead c = none := by
  simp [Block.coreHead, h]

theorem tuftHead_of_no_runs (h : b.crz.runs = []) (t : Nat) : b.tuftHead t = none := by
  unfold Block.tuftHead
  exact List.foldl_fixed' (fun k => by simp [coreHead_of_no_runs b h]) _

/-- The stage engine of a tuft finds nothing to start where no task waits (R301). -/
theorem taskStart_of_no_runs (h : b.crz.runs = []) (t : Nat) : b.taskStart t = b := by
  unfold Block.taskStart
  rw [tuftHead_of_no_runs b h]
  split
  · rfl
  · exact List.foldl_fixed' (fun k => by simp [coreHead_of_no_runs b h]) _

theorem units_crz_pos (m : Member) : 0 < m.units .crz := by cases m <;> decide

/-- The start of a task with one error found, where no task is left to start after it or Crozier is no longer released. -/
theorem exec_taskStart_found (hu : b.up) (q : List Instr) (t : Nat) (u : Upset)
    (h : (b.upsetFound u).crz.runs = [] ∨ (b.upsetFound u).rst.rel = false) :
    exec (.taskStart ⟨t, [u]⟩) ⟨b, q⟩ = .next ⟨(b.upsetFound u).commit, q⟩ := by
  have hx : exec (.taskStart ⟨t, [u]⟩) ⟨b, q⟩ = runAt .crz (fun b =>
      if (b.upsetFound u).released .crz = true ∧ (b.upsetFound u).rst.asserted = false then (b.upsetFound u).taskStart t
      else b.upsetFound u) ⟨b, q⟩ := rfl
  rw [hx, runAt_eq .crz _ ⟨b, q⟩ (released_up b hu .crz) (units_crz_pos b.member)]
  rcases h with h | h
  · simp only [taskStart_of_no_runs _ h, ite_self]
  · have hr : (b.upsetFound u).released .crz = false := by simp [Block.released, h]
    simp [hr]

end

/-! A corrected error (R44, R656) -/

/-- What a corrected error of a store counts, with the event that a key slot's raises. -/
def Block.countCorrected (b : Block) : Store → Block
  | .seq => b.count (CRZ_CNTi 10) 1 (bitOf CRZ_CNT_ROLL 10) 721
  | .key => (b.count (KEY_CNTi 6) 1 (bitOf KEY_CNT_ROLL 6) 970).raiseEvery 1000 968
  | .inst | .ctx | .tu | .cfg => b.count (VIN_CNTi 8) 1 (bitOf VIN_CNT_ROLL 8) 104

section
variable (b : Block)

theorem corrected_eq (st : Store) (n : Nat) (d : Bool) :
    b.corrected ⟨st, n, d⟩ =
      (b.countCorrected st).controlRecord (if st = .key then 968 else 0xFFFF) (Upset.owner ⟨st, n, d⟩).id 1 0 n := by
  cases st <;> rfl

theorem own_countCorrected (st : Store) : (b.countCorrected st).own = b.own := by
  cases st with
  | key => exact (own_raiseEvery _ _ _).trans (own_count b _ _ _ _)
  | seq | inst | ctx | tu | cfg => exact own_count b _ _ _ _

theorem fifo_countCorrected (st : Store) : (b.countCorrected st).fifo = b.fifo := by
  cases st with
  | key => exact (fifo_raiseEvery _ _ _).trans (fifo_count b _ _ _ _)
  | seq | inst | ctx | tu | cfg => exact fifo_count b _ _ _ _

/-- Event 968 tells of a corrected key slot at most once a second (R656). -/
theorem pending_countCorrected_key (h : b.gates.get (fun _ => 0) 968 ≠ b.ns / 10 ^ 9 + 1) :
    (b.countCorrected .key).pendingEvent 968 = true := by
  refine pending_raiseEvery _ 1000 968 ?_
  rw [gates_count, ns_of_own (own_count b _ _ _ _), Nat.div_div_eq_div_mul]
  exact h

theorem rd_count_one (a : Nat) (r : Fld) (e : Nat) (hr : r.addr ≠ a) (h : evtReg a = false) : (b.count a 1 r e).rd a = b.rd a + 1 := by
  rw [rd_count_self b a 1 r e hr h]
  exact BitVec.eq_of_toNat_eq (by simp)

/-- A corrected error leaves every unit's own state and the memories alone. -/
theorem own_corrected (u : Upset) : (b.corrected u).own = b.own := by
  obtain ⟨st, n, d⟩ := u
  rw [corrected_eq, own_controlRecord, own_countCorrected]

/-- With room in the FIFO it adds one record of type CONTROL there, for event 968 where it was a key slot's. -/
theorem fifo_corrected (st : Store) (n : Nat) (d : Bool) (h : b.fifo.length < 64) :
    ∃ r : Report, r.typ = 2 ∧ r.source = (if st = .key then 968 else 0xFFFF) ∧ (b.corrected ⟨st, n, d⟩).fifo = b.fifo ++ [r] := by
  rw [corrected_eq]
  obtain ⟨r, ht, hs, he⟩ := controlRecord_of_room (b.countCorrected st) (if st = .key then 968 else 0xFFFF)
    (Upset.owner ⟨st, n, d⟩).id 1 0 n (by rwa [fifo_countCorrected])
  exact ⟨r, ht, hs, by rw [he, Block.set_fifo, fifo_countCorrected]⟩

/-- Its record touches no register outside Cairn's and those of events. -/
theorem rd_corrected (st : Store) (n : Nat) (d : Bool) (a : Nat) (h : crnReg a = false) :
    (b.corrected ⟨st, n, d⟩).rd a = (b.countCorrected st).rd a := by
  rw [corrected_eq]
  exact rd_report _ _ _ _ _ _ _ h

/-- With room in the FIFO its record leaves pending events pending. -/
theorem pending_corrected (st : Store) (n : Nat) (d : Bool) (m : Nat) (h : b.fifo.length < 64) :
    (b.corrected ⟨st, n, d⟩).pendingEvent m = (b.countCorrected st).pendingEvent m := by
  rw [corrected_eq]
  obtain ⟨r, -, -, he⟩ := controlRecord_of_room (b.countCorrected st) (if st = .key then 968 else 0xFFFF)
    (Upset.owner ⟨st, n, d⟩).id 1 0 n (by rwa [fifo_countCorrected])
  rw [he, pending_set _ _ _ _ (by decide)]
  exact pending_congr (fun _ _ => rfl) m

theorem upsetFound_single (st : Store) (n : Nat) (h : st ≠ .cfg) : b.upsetFound ⟨st, n, false⟩ = b.corrected ⟨st, n, false⟩ :=
  if_pos ⟨h, rfl⟩

theorem sameBytes_commit_of_own {b c : Block} (h : c.own = b.own) : SameBytes b c.commit := fun sp a => by
  rw [Block.byte_commit, Block.byte, mem_of_own h]
  rfl

/-- A single-bit error at the start of a task on a tuft without work: the block is that of the correction. -/
theorem exec_taskStart_corrected (hu : b.up) (hr : b.crz.runs = []) (q : List Instr) (t n : Nat) (st : Store) (h : st ≠ .cfg) :
    exec (.taskStart ⟨t, [⟨st, n, false⟩]⟩) ⟨b, q⟩ = .next ⟨(b.corrected ⟨st, n, false⟩).commit, q⟩ := by
  have hc : (b.corrected ⟨st, n, false⟩).crz = b.crz := crz_of_own (own_corrected b _)
  rw [← upsetFound_single b st n h] at hc ⊢
  exact exec_taskStart_found b hu q t _ (.inl (by rw [hc, hr]))

/-! An error that is not corrected (R44) -/

/-- A double-bit error of a key slot stays noted for the warm start that it brings (R656). -/
theorem upsetFound_key (n : Nat) :
    b.upsetFound ⟨.key, n, true⟩ = (b.modRst (fun r => { r with ecc := n :: r.ecc })).controlReset n := rfl

theorem upsetFound_seq (n : Nat) : b.upsetFound ⟨.seq, n, true⟩ = b.controlReset n := rfl

theorem upsetFound_vin (st : Store) (n : Nat) (h : st = .inst ∨ st = .ctx ∨ st = .tu) :
    b.upsetFound ⟨st, n, true⟩ = (b.controlFault ⟨.vin, 0⟩).controlRecord 0xFFFF (⟨.vin, 0⟩ : UnitRef).id 2 1 n := by
  rcases h with rfl | rfl | rfl <;> rfl

/-- QUIESCE, RESET and RESET_BUSY of a unit set: what every unit reset begins with (R79). -/
def Block.resetBits (b : Block) (u : UnitRef) : Block :=
  ((b.set (ctlQuiesce u.hdr) 1).set (ctlReset u.hdr) 1).set (stResetBusy u.hdr) 1

theorem on_resetBusy_resetBits (u : UnitRef) : (b.resetBits u).on (stResetBusy u.hdr) = true := by
  rw [Block.on_iff, Block.resetBits, Block.get_set_self _ _ _ (by simp [stResetBusy])]
  simp [stResetBusy]

theorem get_fault_resetBits (u : UnitRef) : (b.resetBits u).get (stFault u.hdr) = b.get (stFault u.hdr) := by
  rw [Block.resetBits, Block.get_set_ne _ _ _ _ (by simp [stFault, stResetBusy]) (by simp [stFault]),
    Block.get_set_addr _ (by simp [stFault, ctlReset]), Block.get_set_addr _ (by simp [stFault, ctlQuiesce])]

/-- A unit reset that begins sets no other field than those and QUIESCING, bit 6, at every unit but the switch core, whose gate
closes as well (R79, R183). -/
theorem get_resetMark (u : UnitRef) (w : Nat) (f : Fld) (hu : (u.cls == .swc) = false) (hb : ¬b.on (stResetBusy u.hdr) = true)
    (hf : f.lo + f.width ≤ 6 ∨ 7 ≤ f.lo) (hw : f.lo + f.width ≤ 32) : (b.resetMark u w).get f = (b.resetBits u).get f := by
  have hq : ((b.resetBits u).set (stQuiescing u.hdr) 1).get f = (b.resetBits u).get f :=
    Block.get_set_ne _ _ _ _ (.inr (by simpa [stQuiescing] using hf)) hw
  unfold Block.resetMark
  rw [if_neg hb]
  simp only [hu, Block.doIf_false]
  change Block.get (if (b.resetBits u).on (stIdle u.hdr) then b.resetBits u else (b.resetBits u).set (stQuiescing u.hdr) 1) f = _
  split
  · rfl
  · exact hq

/-- So RESET_BUSY is set and FAULT as before, whether the unit reset begins or goes on. -/
theorem resetMark_status (u : UnitRef) (w : Nat) (hu : (u.cls == .swc) = false) :
    (b.resetMark u w).on (stResetBusy u.hdr) = true ∧ (b.resetMark u w).get (stFault u.hdr) = b.get (stFault u.hdr) := by
  by_cases hb : b.on (stResetBusy u.hdr) = true
  · have hsame : b.resetMark u w = b := if_pos hb
    rw [hsame]
    exact ⟨hb, rfl⟩
  · rw [Block.on, get_resetMark b u w _ hu hb (by simp [stResetBusy]) (by simp [stResetBusy]),
      get_resetMark b u w _ hu hb (by simp [stFault]) (by simp [stFault])]
    exact ⟨on_resetBusy_resetBits b u, get_fault_resetBits b u⟩

theorem resetMark_crz (u : UnitRef) (w : Nat) (hu : (u.cls == .swc) = false) : (b.resetMark u w).crz = b.crz := by
  unfold Block.resetMark
  split
  · rfl
  · simp [hu, apply_ite Block.crz]

/-- An error in its control state shows at a unit as FAULT, with the unit reset in progress (R44, R51). -/
theorem controlFault_status (u : UnitRef) (hu : (u.cls == .swc) = false) :
    (b.controlFault u).on (stResetBusy u.hdr) = true ∧ (b.controlFault u).on (stFault u.hdr) = true := by
  obtain ⟨hb, hf⟩ := resetMark_status (b.set (stFault u.hdr) 1) u 3 hu
  refine ⟨hb, ?_⟩
  rw [Block.on_iff, Block.controlFault, hf, Block.get_set_self _ _ _ (by simp [stFault])]
  simp [stFault]

theorem controlFault_crz (u : UnitRef) (hu : (u.cls == .swc) = false) : (b.controlFault u).crz = b.crz :=
  resetMark_crz _ u 3 hu

/-- A double-bit error of a key slot or of a table at the start of a task: a warm reset with cause 11, after which Crozier is not yet
released, so that nothing starts. -/
theorem exec_taskStart_reset (hu : b.up) (q : List Instr) (t n : Nat) (u : Upset) (c : Block)
    (h : b.upsetFound u = c.controlReset n) (hc : c.rst.asserted = false) :
    ∃ b', exec (.taskStart ⟨t, [u]⟩) ⟨b, q⟩ = .next ⟨b', q⟩ ∧ b'.rst.ecc = c.rst.ecc ∧
      b'.rst.level = 2 ∧ b'.get RST_START_STAGE = 5 ∧ b'.get RST_LAST_CAUSE = 11 ∧ b'.rst.rel = false := by
  obtain ⟨hlevel, hrel, hecc, hstage, hcause⟩ := controlReset_warm c n hc
  refine ⟨_, exec_taskStart_found b hu q t u (.inr (by rw [h, hrel])), ?_⟩
  rw [h]
  simp [hlevel, hrel, hecc, hstage, hcause]

end

/-! The obligation -/

/-- Settles O59: each kind of error at the start of a task is a correction, a warm reset or a unit reset, and nothing starts after it. -/
theorem controlStateErrors : Obligations.ControlStateErrors := by
  intro b q t n hu _ hr
  have ⟨_, hasserted, _⟩ := hu
  refine ⟨fun hroom => ?key, fun hroom => ?seq, fun st hst hroom => ?vin, ?keyReset, ?seqReset, fun st hst => ?vinReset⟩
  case key =>
    have ho := own_corrected b ⟨.key, n, false⟩
    obtain ⟨r, htyp, hsource, hfifo⟩ := fifo_corrected b .key n false hroom
    refine ⟨_, exec_taskStart_corrected b hu hr q t n .key (by decide), ?_, fun hgate => ?_, ?_, ?_, sameBytes_commit_of_own ho,
      (Block.commit_crz _).trans (crz_of_own ho), (Block.commit_key _).trans (key_of_own ho)⟩
    · rw [Block.rd_commit, rd_corrected b _ _ _ _ (by decide)]
      exact (rd_raiseEvery _ _ _ _ (by decide)).trans (rd_count_one b _ _ _ (by decide) (by decide))
    · rw [pending_commit, pending_corrected b _ _ _ _ hroom]
      exact pending_countCorrected_key b hgate
    · simp [hfifo]
    · simp [hfifo, htyp, hsource]
  case seq =>
    have ho := own_corrected b ⟨.seq, n, false⟩
    obtain ⟨r, htyp, -, hfifo⟩ := fifo_corrected b .seq n false hroom
    refine ⟨_, exec_taskStart_corrected b hu hr q t n .seq (by decide), ?_, ?_, ?_, sameBytes_commit_of_own ho,
      (Block.commit_crz _).trans (crz_of_own ho)⟩
    · rw [Block.rd_commit, rd_corrected b _ _ _ _ (by decide)]
      exact rd_count_one b _ _ _ (by decide) (by decide)
    · simp [hfifo]
    · simp [hfifo, htyp]
  case vin =>
    have ho := own_corrected b ⟨st, n, false⟩
    have hcount : b.countCorrected st = b.count (VIN_CNTi 8) 1 (bitOf VIN_CNT_ROLL 8) 104 := by
      rcases hst with rfl | rfl | rfl <;> rfl
    obtain ⟨r, htyp, -, hfifo⟩ := fifo_corrected b st n false hroom
    refine ⟨_, exec_taskStart_corrected b hu hr q t n st (by rcases hst with rfl | rfl | rfl <;> decide), ?_, ?_, ?_,
      sameBytes_commit_of_own ho, (Block.commit_vin _).trans (vin_of_own ho)⟩
    · rw [Block.rd_commit, rd_corrected b _ _ _ _ (by decide), hcount]
      exact rd_count_one b _ _ _ (by decide) (by decide)
    · simp [hfifo]
    · simp [hfifo, htyp]
  case keyReset =>
    obtain ⟨b', hb, hecc, h⟩ := exec_taskStart_reset b hu q t n _ _ (upsetFound_key b n) hasserted
    exact ⟨b', hb, by simp [hecc], h⟩
  case seqReset =>
    obtain ⟨b', hb, -, h⟩ := exec_taskStart_reset b hu q t n _ _ (upsetFound_seq b n) hasserted
    exact ⟨b', hb, h⟩
  case vinReset =>
    obtain ⟨hbusy, hfault⟩ := controlFault_status b ⟨.vin, 0⟩ (by decide)
    have hruns : (b.upsetFound ⟨st, n, true⟩).crz.runs = [] := by
      rw [upsetFound_vin b st n hst, crz_of_own (own_controlRecord _ _ _ _ _ _), controlFault_crz b _ (by decide), hr]
    refine ⟨_, exec_taskStart_found b hu q t _ (.inl hruns), ?_⟩
    rw [Block.on_commit, Block.on_commit, upsetFound_vin b st n hst]
    exact ⟨(on_controlRecord _ _ _ _ _ _ _ (by decide)).trans hbusy, (on_controlRecord _ _ _ _ _ _ _ (by decide)).trans hfault⟩

end Sys2Proof.Machine

/-! # Reports of events

What the report of an event does at each of its destinations (R75, R505). A message or a wake cause of one report makes others due; those
keep what the report itself left, so each destination is looked up at the report's own step. -/

namespace Sys2Proof.Machine

open Sys2Proof Sys2Proof.Reg

/-! One bit of a register -/

theorem bit_rd_set_bitOf_self (b : Block) (a i : Nat) (hi : i < 32) : bit ((b.set (bitOf a i) 1).rd a).toNat i = true := by
  have hg : (b.set (bitOf a i) 1).get (bitOf a i) = 1 := b.get_set_self (bitOf a i) 1 (by simp only [bitOf]; omega)
  exact beq_iff_eq.2 hg

/-- Setting one bit of a register clears no bit of any register. -/
theorem bit_rd_set_bitOf (b : Block) (a i x j : Nat) (hj : j < 32) (h : bit (b.rd x).toNat j = true) :
    bit ((b.set (bitOf a i) 1).rd x).toNat j = true := by
  by_cases hx : a = x ∧ i = j
  · obtain ⟨rfl, rfl⟩ := hx
    exact bit_rd_set_bitOf_self b a i hj
  · have hg : (b.set (bitOf a i) 1).get (bitOf x j) = b.get (bitOf x j) :=
      b.get_set_ne (bitOf a i) (bitOf x j) 1 (by simp only [bitOf]; omega) (by simp only [bitOf]; omega)
    exact beq_iff_eq.2 (hg.trans (beq_iff_eq.1 h))

/-! Registers outside those of events -/

theorem evtReg_of_lt (a : Nat) (h : a < 0x2000) : evtReg a = false := by
  simp only [evtReg, HIF_CNTi, HIF_CNT_ROLL, HIF_WAKE_CAUSE, HIF_WAKE_TIME_LO, HIF_WAKE_TIME_HI, Bool.or_eq_false_iff,
    Bool.and_eq_false_iff, beq_eq_false_iff_ne, decide_eq_false_iff_not]
  omega

theorem pendReg_eq_false (a : Nat) (h : a < 0x2000 ∨ 0x2080 ≤ a) : pendReg a = false := by
  simp only [pendReg, Bool.and_eq_false_iff, decide_eq_false_iff_not]
  omega

/-! What messages and wake causes change -/

/-- The registers of R511 and of its counter (R516). -/
def wakeRegs : List Nat := [HIF_CNTi 5, HIF_CNT_ROLL, HIF_WAKE_CAUSE, HIF_WAKE_TIME_LO, HIF_WAKE_TIME_HI]

/-- What events show outside the registers: what left the module, Crozier's inputs, the selected Ridge cores; and the last answer. -/
def Block.shown (b : Block) : List Output × List Nat × Sparse Nat × Nat := (b.outs, b.crzEvt, b.ridge.irq, b.readData)

/-- Can a message on vector v be sent now (R505)? -/
def Block.canSend (b : Block) (v : Nat) : Bool := b.hostOpen && b.msixEn && !b.msixMask && !bit (b.rd (msixWord v 3)).toNat 0

section
variable (b : Block)

theorem frame_wakeCause (k i s : Nat) : Frame (within wakeRegs) id b (b.wakeCause k i s).1 := by
  unfold Block.wakeCause
  split
  · exact Frame.refl
  split
  · exact Frame.refl.set (by decide)
  dsimp only
  have latched : Frame (within wakeRegs) id b ((((((b.wr HIF_WAKE_CAUSE 0).set HIF_WAKE_CAUSE_VALID 1).set HIF_WAKE_CAUSE_KIND k).set
      HIF_WAKE_CAUSE_INSTANCE i).set HIF_WAKE_CAUSE_SOURCE s).wr64 HIF_WAKE_TIME_LO b.ns) :=
    (((((Frame.refl.wr (by decide)).set (by decide)).set (by decide)).set (by decide)).set (by decide)).wr64 (by decide) (by decide)
  split
  · exact latched
  split
  · have withdrawn := fun v => (latched.set (f := HIF_WAKE_CAUSE_WITHDRAWN) (v := 1) (by decide)).wr (x := HIF_CNTi 5) (v := v) (by decide)
    split
    · exact (withdrawn _).set (by decide)
    · exact withdrawn _
  · exact latched.own (own_hif _ _) fun x _ => rd_hif _ _ x

theorem rd_wakeCause_pba (k i s v : Nat) : (b.wakeCause k i s).1.rd (pbaWord v) = b.rd (pbaWord v) := by
  have hv : pbaWord v ∉ wakeRegs := by
    simp only [wakeRegs, pbaWord, HIF_CNTi, HIF_CNT_ROLL, HIF_WAKE_CAUSE, HIF_WAKE_TIME_LO, HIF_WAKE_TIME_HI, List.mem_cons,
      List.not_mem_nil, or_false, not_or]
    omega
  exact (frame_wakeCause b k i s).1 _ (by simp [within, hv])

theorem shown_wakeCause (k i s : Nat) : (b.wakeCause k i s).1.shown = b.shown := by
  unfold Block.wakeCause
  split
  · rfl
  split
  · rfl
  dsimp only
  split
  · rfl
  split
  · split <;> rfl
  · rfl

theorem shown_msix (v : Nat) : (b.msix v).1.shown = if b.canSend v then (b.emit (.msix v)).shown else b.shown := by
  unfold Block.msix Block.canSend
  split
  · dsimp only
    split <;> rfl
  · rfl

theorem pba_msix_masked (v : Nat) (h : b.canSend v = false) : bit ((b.msix v).1.rd (pbaWord v)).toNat (v % 32) = true := by
  have hm : (b.msix v).1 = b.set (bitOf (pbaWord v) (v % 32)) 1 := congrArg Prod.fst (if_neg (Bool.eq_false_iff.1 h))
  rw [hm]
  exact bit_rd_set_bitOf_self b _ _ (Nat.mod_lt _ (by decide))

/-- A message that is sent changes no pending bit of a vector, one that is not adds its own. -/
theorem pba_msix (v w : Nat) (h : bit (b.rd (pbaWord w)).toNat (w % 32) = true) :
    bit ((b.msix v).1.rd (pbaWord w)).toNat (w % 32) = true := by
  have hw : w % 32 < 32 := Nat.mod_lt _ (by decide)
  have hcount : HIF_CNTi 6 ≠ pbaWord w := by simp only [HIF_CNTi, pbaWord]; omega
  have hsent : ∀ x, bit (((b.emit (.msix v)).wr (HIF_CNTi 6) x).rd (pbaWord w)).toNat (w % 32) = true := fun x => by
    rwa [Block.rd_wr_ne _ hcount]
  unfold Block.msix
  split
  · dsimp only
    split
    · exact bit_rd_set_bitOf _ _ _ _ _ hw (hsent _)
    · exact hsent _
  · exact bit_rd_set_bitOf b _ _ _ _ hw h

end

/-! What a report keeps of the reports before it -/

/-- What block b shows of events stands in block c as well: pending bits, the cores a pending source has selected, the inputs of Crozier,
what was sent, the pending bits of vectors, and the last answer. -/
structure Block.Keeps (b c : Block) : Prop where
  pending : ∀ n, b.pendingEvent n = true → c.pendingEvent n = true
  cores : ∀ n, b.pendingEvent n = true → c.ridge.irq.get (fun _ => 0) n = b.ridge.irq.get (fun _ => 0) n
  inputs : ∀ n ∈ b.crzEvt, n ∈ c.crzEvt
  sent : ∀ o ∈ b.outs, o ∈ c.outs
  pba : ∀ v, bit (b.rd (pbaWord v)).toNat (v % 32) = true → bit (c.rd (pbaWord v)).toNat (v % 32) = true
  answer : c.readData = b.readData

section
variable {b c d : Block}

theorem Block.Keeps.refl : b.Keeps b := ⟨fun _ h => h, fun _ _ => rfl, fun _ h => h, fun _ h => h, fun _ h => h, rfl⟩

theorem Block.Keeps.trans (h : b.Keeps c) (k : c.Keeps d) : b.Keeps d where
  pending n hn := k.pending n (h.pending n hn)
  cores n hn := (k.cores n (h.pending n hn)).trans (h.cores n hn)
  inputs n hn := k.inputs n (h.inputs n hn)
  sent o ho := k.sent o (h.sent o ho)
  pba v hv := k.pba v (h.pba v hv)
  answer := k.answer.trans h.answer

/-- An operation that shows at most more messages, and changes no pending bit but sets those of vectors. -/
theorem Block.Keeps.of_shown {l : List Output} (hs : c.shown = (l ++ b.outs, b.crzEvt, b.ridge.irq, b.readData))
    (hp : ∀ a, pendReg a = true → c.rd a = b.rd a)
    (hv : ∀ v, bit (b.rd (pbaWord v)).toNat (v % 32) = true → bit (c.rd (pbaWord v)).toNat (v % 32) = true) : b.Keeps c := by
  simp only [Block.shown, Prod.mk.injEq] at hs
  obtain ⟨houts, hcrz, hirq, hanswer⟩ := hs
  exact {
    pending := fun n hn => (pending_congr hp n).trans hn
    cores := fun n _ => by rw [hirq]
    inputs := fun n hn => hcrz ▸ hn
    sent := fun o ho => houts ▸ List.mem_append_right l ho
    pba := hv
    answer := hanswer }

end

section
variable (b : Block)

theorem keeps_wakeCause (k i s : Nat) : b.Keeps (b.wakeCause k i s).1 :=
  .of_shown (l := []) (shown_wakeCause b k i s) (pend_wakeCause b k i s) fun v hv => by rwa [rd_wakeCause_pba]

theorem keeps_msix (v : Nat) : b.Keeps (b.msix v).1 := by
  have hs := shown_msix b v
  split at hs
  · exact .of_shown (l := [.msix v]) hs (pend_msix b v) (pba_msix b v)
  · exact .of_shown (l := []) hs (pend_msix b v) (pba_msix b v)

theorem keeps_msixFor (n : Nat) : b.Keeps (b.msixFor n).1 := by
  unfold Block.msixFor
  split
  · exact keeps_msix b _
  · exact .refl

theorem keeps_wakeFor (n : Nat) : b.Keeps (b.wakeFor n).1 := by
  unfold Block.wakeFor
  split
  · exact keeps_wakeCause b _ _ _
  · exact .refl

theorem mem_crzEvt_crzNote (n : Nat) (h : b.on (EVT_ROUTE_n_CRZ_EN n) = true) : n ∈ (b.crzNote n).crzEvt := by
  simp only [Block.crzNote, h, if_true]
  split
  · assumption
  · simp

theorem keeps_crzNote (n : Nat) : b.Keeps (b.crzNote n) := by
  have hinputs : ∀ m ∈ b.crzEvt, m ∈ if n ∈ b.crzEvt then b.crzEvt else b.crzEvt ++ [n] := fun m hm => by
    split
    · exact hm
    · exact List.mem_append_left _ hm
  unfold Block.crzNote
  split
  · exact ⟨fun _ h => h, fun _ _ => rfl, hinputs, fun _ h => h, fun _ h => h, rfl⟩
  · exact .refl

/-! One report of a source that was not pending -/

/-- The block as a new report of source n first leaves it: its bit pending, its Ridge cores selected (R75). -/
def Block.noted (n : Nat) : Block := (b.set (bitOf (EVT_PEND_k (n / 32 % 32)) (n % 32)) 1).irqNote n

theorem rd_noted (n a : Nat) (h : pendReg a = false) : (b.noted n).rd a = b.rd a :=
  Block.rd_set_ne b (ne_of_pendReg h (pendReg_word n)).symm 1

theorem pending_noted (n : Nat) : (b.noted n).pendingEvent n = true :=
  bit_rd_set_bitOf_self b _ _ (Nat.mod_lt _ (by decide))

theorem cores_noted (n : Nat) : (b.noted n).ridge.irq.get (fun _ => 0) n = (b.noted n).get (EVT_ROUTE_n_RIDGE n) := Sparse.get_cons_self _ _ _ _

theorem keeps_noted (n : Nat) (h : b.pendingEvent n = false) : b.Keeps (b.noted n) where
  pending m hm := bit_rd_set_bitOf b _ _ _ _ (Nat.mod_lt _ (by decide)) hm
  cores m hm := Sparse.get_cons_ne _ (fun e => by rw [e, hm] at h; exact absurd h (by decide)) _ _
  inputs _ hm := hm
  sent _ ho := ho
  pba v hv := bit_rd_set_bitOf b _ _ _ _ (Nat.mod_lt _ (by decide)) hv
  answer := rfl

theorem raise1_of_pending (n : Nat) (h : b.pendingEvent n = true) : b.raise1 n = (b, []) := if_pos h

theorem raise1_of_not_pending (n : Nat) (h : b.pendingEvent n = false) :
    (b.raise1 n).1 = ((((b.noted n).msixFor n).1.crzNote n).wakeFor n).1 := by
  have hnew : bit (b.rd (EVT_PEND_k (n / 32 % 32))).toNat (n % 32) = false := h
  simp only [Block.raise1, hnew, Block.noted, Bool.false_eq_true, if_false]

theorem keeps_raise1 (n : Nat) : b.Keeps (b.raise1 n).1 := by
  cases h : b.pendingEvent n with
  | true => rw [raise1_of_pending b n h]; exact .refl
  | false =>
    rw [raise1_of_not_pending b n h]
    exact (keeps_noted b n h).trans ((keeps_msixFor _ n).trans ((keeps_crzNote _ n).trans (keeps_wakeFor _ n)))

theorem keeps_raiseAll (k : Nat) (l : List Nat) : b.Keeps (Block.raiseAll k l b) := by
  induction k generalizing l b with
  | zero => exact .refl
  | succ k ih =>
    induction l generalizing b with
    | nil => exact .refl
    | cons n t iht => exact (keeps_raise1 b n).trans ((ih _ _).trans (iht _))

theorem keeps_raise (n : Nat) : b.Keeps (b.raise n) := keeps_raiseAll b _ _

/-- Whatever the events that its message and its wake cause report do, what its own message left stands. -/
theorem msixFor_keeps_raise (n : Nat) (h : b.pendingEvent n = false) : ((b.noted n).msixFor n).1.Keeps (b.raise n) := by
  have hone : ((b.noted n).msixFor n).1.Keeps (b.raise1 n).1 := by
    rw [raise1_of_not_pending b n h]
    exact (keeps_crzNote _ n).trans (keeps_wakeFor _ n)
  exact hone.trans (keeps_raiseAll _ 3 (b.raise1 n).2)

end

/-! The destinations of a new report -/

section
variable (b : Block) (n : Nat)

theorem evtReg_route (h : n < 1024) : evtReg (EVT_ROUTE_n n) = false := evtReg_of_lt _ (by unfold EVT_ROUTE_n; omega)
theorem pendReg_route (h : n < 1024) : pendReg (EVT_ROUTE_n n) = false := pendReg_eq_false _ (by unfold EVT_ROUTE_n; omega)

theorem get_noted (f : Fld) (h : pendReg f.addr = false) : (b.noted n).get f = b.get f := by
  simp only [Block.get, rd_noted b n f.addr h]

theorem on_noted (f : Fld) (h : pendReg f.addr = false) : (b.noted n).on f = b.on f := by
  simp only [Block.on, get_noted b n f h]

theorem canSend_noted (v : Nat) : (b.noted n).canSend v = b.canSend v := by
  have hstat : ∀ f : Fld, f.addr = HIF_STAT → (b.noted n).get f = b.get f := fun f hf => get_noted b n f (by rw [hf]; decide)
  have hmask : (b.noted n).rd (msixWord v 3) = b.rd (msixWord v 3) := rd_noted b n _ (pendReg_eq_false _ (by unfold msixWord; omega))
  have hopen : (b.noted n).hostOpen = b.hostOpen := by
    simp only [Block.hostOpen, Block.on, hstat HIF_STAT_LINK_UP rfl, hstat HIF_STAT_PERST rfl, hstat HIF_STAT_DSTATE rfl,
      hstat HIF_STAT_LSTATE rfl]
  unfold Block.canSend
  rw [hmask, hopen]
  rfl

/-- The message of a new report is one on its route's vector. -/
theorem msixFor_noted (hn : n < 1024) (hm : b.on (EVT_ROUTE_n_MSIX_EN n) = true) :
    (b.noted n).msixFor n = (b.noted n).msix (b.get (EVT_ROUTE_n_VECTOR n)) := by
  have hon : (b.noted n).on (EVT_ROUTE_n_MSIX_EN n) = true := (on_noted b n _ (pendReg_route n hn)).trans hm
  rw [Block.msixFor, if_pos hon, get_noted b n _ (pendReg_route n hn)]

variable (hn : n < 1024) (h : b.pendingEvent n = false)
include hn h

theorem raise_crozier (hc : b.on (EVT_ROUTE_n_CRZ_EN n) = true) : n ∈ (b.raise n).crzEvt := by
  have hon : ((b.noted n).msixFor n).1.on (EVT_ROUTE_n_CRZ_EN n) = true := by
    rw [Block.on, Block.get, rd_msixFor _ n (EVT_ROUTE_n_CRZ_EN n).addr (evtReg_route n hn)]
    exact (on_noted b n _ (pendReg_route n hn)).trans hc
  have hone : n ∈ (b.raise1 n).1.crzEvt := by
    rw [raise1_of_not_pending b n h]
    exact (keeps_wakeFor _ n).inputs n (mem_crzEvt_crzNote _ n hon)
  exact (keeps_raiseAll _ 3 (b.raise1 n).2).inputs n hone

theorem raise_ridge (m : Nat) (hm : bit (b.get (EVT_ROUTE_n_RIDGE n)) m = true) : (b.raise n).ridgeLine m = true := by
  have hkeep : (b.noted n).Keeps (b.raise n) := (keeps_msixFor _ n).trans (msixFor_keeps_raise b n h)
  have hpending := hkeep.pending n (pending_noted b n)
  have hcores : (b.raise n).ridge.irq.get (fun _ => 0) n = b.get (EVT_ROUTE_n_RIDGE n) :=
    (hkeep.cores n (pending_noted b n)).trans ((cores_noted b n).trans (get_noted b n _ (pendReg_route n hn)))
  refine List.any_eq_true.2 ⟨n, List.mem_range.2 hn, ?_⟩
  rw [hcores, hm, Bool.and_true]
  rwa [Block.pendingEvent, Nat.mod_eq_of_lt (by omega : n / 32 < 32)] at hpending

theorem raise_sends (hm : b.on (EVT_ROUTE_n_MSIX_EN n) = true) (hs : b.canSend (b.get (EVT_ROUTE_n_VECTOR n)) = true) :
    Output.msix (b.get (EVT_ROUTE_n_VECTOR n)) ∈ (b.raise n).outs := by
  refine (msixFor_keeps_raise b n h).sent _ ?_
  have hshown := shown_msix (b.noted n) (b.get (EVT_ROUTE_n_VECTOR n))
  rw [canSend_noted, hs, if_pos rfl] at hshown
  rw [msixFor_noted b n hn hm, (Prod.mk.inj hshown).1]
  exact List.mem_cons_self

theorem raise_leaves_pending (hm : b.on (EVT_ROUTE_n_MSIX_EN n) = true) (hs : b.canSend (b.get (EVT_ROUTE_n_VECTOR n)) = false) :
    bit ((b.raise n).rd (pbaWord (b.get (EVT_ROUTE_n_VECTOR n)))).toNat (b.get (EVT_ROUTE_n_VECTOR n) % 32) = true := by
  refine (msixFor_keeps_raise b n h).pba _ ?_
  rw [msixFor_noted b n hn hm]
  exact pba_msix_masked _ _ ((canSend_noted b n _).trans hs)

end

/-- Settles O7: later reports keep what an earlier one left (`Block.Keeps`), so each destination is looked up at the report's own step. -/
theorem eventReport : Obligations.EventReport := by
  intro b n hn
  refine ⟨pending_raise b n, fun m => pending_raise_mono b n m, raise_crozier b n hn, fun m _ hp => raise_ridge b n hn hp m, ?sent, ?masked,
    Frame.refl.raise fun y hy => ?_⟩
  case sent =>
    rintro _ hp hm rfl hopen hen hmask hvec
    exact raise_sends b n hn hp hm (by simp [Block.canSend, hopen, hen, hmask, hvec])
  case masked =>
    rintro _ hp hm rfl hmasked
    refine raise_leaves_pending b n hn hp hm ?_
    rcases hmasked with h | h | h | h <;> simp [Block.canSend, h]
  · simp [withEvt, hy]

end Sys2Proof.Machine

/-! # The unit tree

The rollover of a counter (R68), the clearing of pending bits (R76), and the accesses that no unit answers (R60). -/

namespace Sys2Proof.Machine

open Sys2Proof Sys2Proof.Reg

/-! Counters that roll over -/

/-- Where a counter sets its rollover bit and reports (R68). -/
theorem bumped_rolls (old n : Nat) : (bumped old n).2 = true ↔ (old < 2 ^ 31 ∧ 2 ^ 31 ≤ old + n ∨ 2 ^ 32 ≤ old + n) := by
  simp only [bumped, Bool.or_eq_true, Bool.and_eq_true, decide_eq_true_eq]

section
variable (b : Block) (a n : Nat) (r : Fld) (e : Nat)

theorem count_of_rolls (h : (bumped (b.rd a).toNat n).2 = true) :
    b.count a n r e = ((b.wr a (BitVec.ofNat 32 (bumped (b.rd a).toNat n).1)).set r 1).raise e := if_pos h

theorem count_of_not_rolls (h : ¬(bumped (b.rd a).toNat n).2 = true) :
    b.count a n r e = b.wr a (BitVec.ofNat 32 (bumped (b.rd a).toNat n).1) := if_neg h

end

/-- Settles O8: by whether the increment rolls the counter over. -/
theorem counterRollover : Obligations.CounterRollover := by
  intro b a n r e _ hra hwidth hlo ha hr
  refine ⟨?sum, fun hroll => ?rolls, fun hroll => ?counts, ?frame⟩
  case sum => rw [rd_count_self b a n r e hra ha, BitVec.ofNat_add, BitVec.ofNat_toNat, BitVec.setWidth_eq]
  case rolls =>
    rw [count_of_rolls b a n r e ((bumped_rolls _ n).2 hroll)]
    refine ⟨?_, pending_raise _ e⟩
    rw [get_raise _ e r hr, Block.get_set_self _ r 1 (by omega), hwidth]
    rfl
  case counts =>
    rw [count_of_not_rolls b a n r e (mt (bumped_rolls _ n).1 hroll)]
    exact Frame.refl.wr (by simp [within])
  case frame => exact Frame.refl.count (by simp [withEvt]) (by simp [withEvt]) fun y hy => by simp [withEvt, hy]

/-! Events reported by a fold over sources -/

theorem keeps_raiseIf (b : Block) (c : Bool) (n : Nat) : b.Keeps (b.raiseIf c n) := by
  cases c
  · exact .refl
  · exact keeps_raise b n

theorem each_succ (b : Block) (n : Nat) (f : Nat → Block → Block) : b.each (n + 1) f = f n (b.each n f) := by
  simp [Block.each, List.range_succ]

/-- A fold of changes of which none below n does anything. -/
theorem each_eq_self (b : Block) (n : Nat) (f : Nat → Block → Block) (h : ∀ i < n, ∀ x, f i x = x) : b.each n f = b := by
  induction n with
  | zero => rfl
  | succ n ih => rw [each_succ, ih fun i hi => h i (by omega), h n (by omega)]

/-- A fold of changes of which only the one at index i does anything. -/
theorem each_eq_one (b : Block) (n i : Nat) (f : Nat → Block → Block) (hi : i < n) (h : ∀ j < n, j ≠ i → ∀ x, f j x = x) :
    b.each n f = f i b := by
  induction n with
  | zero => omega
  | succ n ih =>
    rw [each_succ]
    by_cases hn : i = n
    · subst hn
      rw [each_eq_self b i f fun j hj => h j (by omega) (by omega)]
    · rw [h n (by omega) (by omega), ih (by omega) fun j hj => h j (by omega)]

/-- The sources of word k whose bits again has are reported in turn. -/
def Block.reportWord (b : Block) (k : Nat) (again : Word) : Block := b.each 32 fun i c => c.raiseIf (bit again.toNat i) (32 * k + i)

section
variable (b : Block) (k : Nat)

theorem keeps_each (n : Nat) (f : Nat → Block → Block) (h : ∀ i (x : Block), x.Keeps (f i x)) : b.Keeps (b.each n f) := by
  induction n with
  | zero => exact .refl
  | succ n ih => rw [each_succ]; exact ih.trans (h n _)

theorem keeps_reportWord (again : Word) : b.Keeps (b.reportWord k again) :=
  keeps_each b 32 _ fun i x => keeps_raiseIf x (bit again.toNat i) (32 * k + i)

theorem pending_each_raise (g : Nat → Bool) (n i : Nat) (hi : i < n) (hg : g i = true) :
    (b.each n fun i c => c.raiseIf (g i) (32 * k + i)).pendingEvent (32 * k + i) = true := by
  induction n with
  | zero => omega
  | succ n ih =>
    rw [each_succ]
    by_cases hn : i = n
    · subst hn
      rw [hg]
      exact pending_raise _ _
    · exact (keeps_raiseIf _ (g n) (32 * k + n)).pending _ (ih (by omega))

theorem reportWord_zero : b.reportWord k 0 = b := each_eq_self b 32 _ fun i _ x => by simp [bit_eq]

theorem reportWord_one (i : Nat) (hi : i < 32) : b.reportWord k (BitVec.ofNat 32 (2 ^ i)) = b.raise (32 * k + i) := by
  have hbit : ∀ j < 32, bit (BitVec.ofNat 32 (2 ^ i)).toNat j = decide (i = j) := fun j hj => by
    rw [bit_eq, BitVec.toNat_ofNat, Nat.testBit_mod_two_pow, Nat.testBit_two_pow, decide_eq_true hj, Bool.true_and]
  refine (each_eq_one b 32 i _ hi fun j hj hji x => ?_).trans ?_
  · rw [hbit j hj, decide_eq_false hji.symm, Block.raiseIf_false]
  · rw [hbit i hi, decide_eq_true rfl, Block.raiseIf_true]

/-! The clearing of pending bits -/

/-- EVT_PEND word k with the bits of v cleared. -/
def Block.pendCleared (v : Word) : Block := b.wr (EVT_PEND_k k) (b.rd (EVT_PEND_k k) &&& ~~~v)

theorem units_root_pos (m : Member) : 0 < m.units .root := by cases m <;> decide

theorem exec_evtPendClear (hu : b.up) (q : List Instr) (hk : k < 32) (v again : Word) :
    exec (.evtPendClear k v again) ⟨b, q⟩ = .next ⟨((b.pendCleared k v).reportWord k again).commit, q⟩ := by
  have hf : exec (.evtPendClear k v again) ⟨b, q⟩ =
      runAt .root (fun b => if 32 ≤ k then b else (b.pendCleared k v).reportWord k again) ⟨b, q⟩ := rfl
  rw [hf, runAt_eq .root _ ⟨b, q⟩ (released_up b hu .root) (units_root_pos b.member), if_neg (by omega)]

theorem pending_source (i : Nat) (hk : k < 32) (hi : i < 32) : b.pendingEvent (32 * k + i) = bit (b.rd (EVT_PEND_k k)).toNat i := by
  have hword : (32 * k + i) / 32 % 32 = k := by omega
  have hbit : (32 * k + i) % 32 = i := by omega
  rw [Block.pendingEvent, hword, hbit]

/-- Bits outside v stay. -/
theorem pending_pendCleared (v : Word) (i : Nat) (hk : k < 32) (hi : i < 32) (hv : bit v.toNat i = false)
    (h : b.pendingEvent (32 * k + i) = true) : (b.pendCleared k v).pendingEvent (32 * k + i) = true := by
  rw [pending_source _ k i hk hi, bit_eq] at h ⊢
  rw [bit_eq] at hv
  rw [Block.pendCleared, Block.rd_wr_self, BitVec.testBit_toNat, BitVec.getLsbD_and, BitVec.getLsbD_not, ← BitVec.testBit_toNat,
    ← BitVec.testBit_toNat, h, hv]
  simp [hi]

end

/-- Settles O11: the cleared word is what the reports of the same cycle start from, and no report clears a bit. -/
theorem eventPendClear : Obligations.EventPendClear := by
  intro b q k v again hu hk
  refine ⟨⟨_, exec_evtPendClear b k hu q hk v again, fun i hi hagain => ?again, fun i hi hv hp => ?stays⟩,
    ⟨_, exec_evtPendClear b k hu q hk v 0, ?word, ?frame⟩, fun i hi => ⟨_, exec_evtPendClear b k hu q hk v _, ?one⟩⟩
  case again =>
    rw [pending_commit]
    exact pending_each_raise _ k (bit again.toNat) 32 i hi hagain
  case stays =>
    rw [pending_commit]
    exact (keeps_reportWord _ k again).pending _ (pending_pendCleared b k v i hk hi hv hp)
  case word => rw [reportWord_zero, Block.rd_commit, Block.pendCleared, Block.rd_wr_self]
  case frame =>
    rw [reportWord_zero]
    exact (Frame.refl.wr (by simp [within])).commit
  case one => rw [reportWord_one _ k i hi, Block.pendCleared]

/-! Accesses that no unit answers -/

section
variable (b : Block)

/-- A refused access ends with the report of event 12 (R69), and answers nothing itself. -/
theorem rootErr_eq (who : Requester) (a : Nat) (f : Fld) :
    ∃ c : Block, b.rootErr who a f = c.raise 12 ∧ c.readData = b.readData := by
  refine ⟨_, rfl, ?_⟩
  generalize ((b.rd ROOT_ERR).toNat == 0) = t
  cases t <;> rfl

theorem pending_rootErr (who : Requester) (a : Nat) (f : Fld) : (b.rootErr who a f).pendingEvent 12 = true := by
  obtain ⟨c, hc, -⟩ := rootErr_eq b who a f
  rw [hc]
  exact pending_raise c 12

theorem readData_rootErr (who : Requester) (a : Nat) (f : Fld) : (b.rootErr who a f).readData = b.readData := by
  obtain ⟨c, hc, hread⟩ := rootErr_eq b who a f
  rw [hc, (keeps_raise c 12).answer, hread]

theorem frame_rootErr {p : Nat → Bool} {k : Block → Block} {x y : Block} (h : Frame p k x y) (who : Requester) (a : Nat) (f : Fld)
    (hf : p f.addr = true) (ha : p ROOT_ERR_ADDR = true) (he : ∀ z, evtReg z = true → p z = true) :
    Frame p k x (y.rootErr who a f) :=
  h.own (own_rootErr y who a f) fun z hz => rd_rootErr y who a f z (fun e => by rw [e, hz] at hf; exact absurd hf (by decide))
    (fun e => by rw [e, hz] at ha; exact absurd ha (by decide)) (evt_false he hz)

/-- An access of BAR0 to a reserved range or an absent unit, as a function of the block (R60). -/
def Block.refusedAccess (who : Requester) (a : Nat) (write : Bool) : Block :=
  let c := if write then b else b.answer 0
  if reservedAt a = true ∨ write = true then c.rootErr who a ROOT_ERR_UNMAPPED else c

theorem exec_unmappedAccess (q : List Instr) (who : Requester) (a : Nat) (write : Bool) (hw : b.reaches who = true) (ha : a < 0x10000000)
    (h : reservedAt a = true ∨ ∃ u, unitOf a = some u ∧ b.member.has u = false) :
    exec (.unmappedAccess who a write) ⟨b, q⟩ = .next ⟨(b.refusedAccess who a write).commit, q⟩ := by
  have hx : exec (.unmappedAccess who a write) ⟨b, q⟩ = execUnmappedAccess who a write ⟨b, q⟩ := rfl
  rw [hx, execUnmappedAccess, run_eq]
  dsimp only
  rw [if_neg (by simp [hw]), if_neg (by omega), if_pos]
  · rfl
  · rcases h with h | ⟨u, hu, habsent⟩
    · exact .inl h
    · exact .inr (.inl (by simp [hu, habsent]))

theorem refusedAccess_reports (who : Requester) (a : Nat) (write : Bool) (h : reservedAt a = true ∨ write = true) :
    b.refusedAccess who a write = (if write then b else b.answer 0).rootErr who a ROOT_ERR_UNMAPPED := if_pos h

theorem refusedAccess_silent (who : Requester) (a : Nat) (h : reservedAt a = false) : b.refusedAccess who a false = b.answer 0 := by
  simp [Block.refusedAccess, h]

/-- Every such access but the read of an absent unit's window sets ROOT_ERR.UNMAPPED with event 12 and changes nothing else (R60). -/
theorem unmapped_reported (who : Requester) (a : Nat) (write : Bool) (h : reservedAt a = true ∨ write = true) :
    (b.refusedAccess who a write).commit.get ROOT_ERR_UNMAPPED = 1 ∧ (b.refusedAccess who a write).commit.pendingEvent 12 = true ∧
      Frame (withEvt [ROOT_ERR, ROOT_ERR_ADDR]) id b (b.refusedAccess who a write).commit := by
  rw [refusedAccess_reports b who a write h, Block.get_commit, pending_commit]
  refine ⟨get_rootErr_self _ who a _ rfl (by decide) (by decide), pending_rootErr _ who a _, (frame_rootErr ?_ who a _ ?_ ?_ ?_).commit⟩
  · cases write
    · exact Frame.refl.answer
    · exact Frame.refl
  · decide
  · decide
  · exact fun z hz => by simp [withEvt, hz]

theorem readData_refusedAccess (who : Requester) (a : Nat) : (b.refusedAccess who a false).commit.readData = 0 := by
  rw [Block.commit_readData]
  cases h : reservedAt a with
  | true =>
    rw [refusedAccess_reports b who a false (.inl h)]
    exact readData_rootErr _ who a _
  | false =>
    rw [refusedAccess_silent b who a h]
    rfl

end

theorem reservedAt_iff (a : Nat) :
    reservedAt a = true ↔ (a < 0x8000000 ∧ unitOf a = none) ∨ (0xDE00000 ≤ a ∧ a < 0xE000000) := by
  simp only [reservedAt, Bool.or_eq_true, Bool.and_eq_true, decide_eq_true_eq, Option.isNone_iff_eq_none]

/-- Settles O56: by whether the access is one that R60 reports. -/
theorem reservedAndAbsent : Obligations.ReservedAndAbsent := by
  intro b q who a hw
  refine ⟨fun hreserved => ?reserved, fun u ha hu habsent => ?absent⟩
  case reserved =>
    have hres := (reservedAt_iff a).2 hreserved
    have hexec := fun write => exec_unmappedAccess b q who a write hw (by omega) (.inl hres)
    exact ⟨⟨_, hexec false, readData_refusedAccess b who a, unmapped_reported b who a false (.inl hres)⟩,
      ⟨_, hexec true, unmapped_reported b who a true (.inl hres)⟩⟩
  case absent =>
    have hres : reservedAt a = false := by
      rw [Bool.eq_false_iff, ne_eq, reservedAt_iff, hu]
      simp only [reduceCtorEq, and_false, false_or]
      omega
    have hexec := fun write => exec_unmappedAccess b q who a write hw (by omega) (.inr ⟨u, hu, habsent⟩)
    refine ⟨⟨_, hexec false, readData_refusedAccess b who a, ?_⟩, ⟨_, hexec true, unmapped_reported b who a true (.inr rfl)⟩⟩
    rw [refusedAccess_silent b who a hres]
    exact Frame.refl.answer.commit

end Sys2Proof.Machine

/-! # The time base

The commands of TIM (R82 to R117): tick times, rates and comparators, the synchronisation states, time signals and pulse generators. A step
of TIM_NOW reaches into the switch core's launches, which leave the servo's registers alone. -/

namespace Sys2Proof.Machine

open Sys2Proof Sys2Proof.Reg

/-! Ticks (R109) -/

theorem tickNs_mul (N k : Nat) (h : 0 < N) : tickNs N (N * k) = k * 1000000000 := by
  rw [tickNs, Nat.mul_div_cancel_left k h, Nat.mul_mod_right, Nat.zero_mul, Nat.zero_div, Nat.add_zero]

/-- At the default rate the nanoseconds that 4,800 does not divide are spread over the ticks of the second. -/
theorem tickNs_default_succ (n : Nat) :
    tickNs 4800 (n + 1) = tickNs 4800 n + 208333 ∨ tickNs 4800 (n + 1) = tickNs 4800 n + 208334 := by
  unfold tickNs
  omega

/-- Settles O9: RATE is clamped, and division by N splits a tick's time into whole seconds and the rest. -/
theorem tickTimes : Obligations.TickTimes := by
  refine ⟨fun b => rfl, ?reset, fun N n _ => rfl, tickNs_mul, tickNs_default_succ⟩
  case reset => rw [Block.tickRate, tickRate_reset]; rfl

/-! The registers of TIM and what an operation leaves of them -/

/-- No register of TIM is one that the report of an event changes. -/
theorem evtReg_tim (a : Nat) (h : 0x50000 ≤ a) (h' : a < 0x60000) : evtReg a = false := by
  simp only [evtReg, HIF_CNTi, HIF_CNT_ROLL, HIF_WAKE_CAUSE, HIF_WAKE_TIME_LO, HIF_WAKE_TIME_HI, Bool.or_eq_false_iff,
    Bool.and_eq_false_iff, beq_eq_false_iff_ne, decide_eq_false_iff_not]
  omega

theorem evtReg_cmpCtrl (n : Nat) (h : n < 64) : evtReg (TIM_CMPn_CTRL n) = false :=
  evtReg_tim _ (by unfold TIM_CMPn_CTRL; omega) (by unfold TIM_CMPn_CTRL; omega)

theorem evtReg_pgCtrl (g : Nat) (h : g < 8) : evtReg (TIM_PGg_CTRL g) = false :=
  evtReg_tim _ (by unfold TIM_PGg_CTRL; omega) (by unfold TIM_PGg_CTRL; omega)

theorem withEvt_of_evtReg (l : List Nat) (y : Nat) (h : evtReg y = true) : withEvt l y = true := by simp [withEvt, h]

theorem within_singleton (a : Nat) : within [a] a = true := by simp [within]

theorem withEvt_singleton (a : Nat) : withEvt [a] a = true := by simp [withEvt]

theorem Block.rd64_wr64 (b : Block) (a v : Nat) : (b.wr64 a v).rd64 a = v % 2 ^ 64 := by
  rw [Block.rd64, Block.wr64, Block.rd_wr_self, Block.rd_wr_ne _ (by omega), Block.rd_wr_self, BitVec.toNat_ofNat, BitVec.toNat_ofNat]
  omega

theorem Block.rd64_congr {b c : Block} {a : Nat} (hlo : c.rd a = b.rd a) (hhi : c.rd (a + 4) = b.rd (a + 4)) : c.rd64 a = b.rd64 a := by
  rw [Block.rd64, Block.rd64, hlo, hhi]

section
variable (b : Block)

theorem rd_advanceTo (ns a : Nat) : (b.advanceTo ns).rd a = b.rd a := by unfold Block.advanceTo; split <;> rfl
@[simp] theorem get_advanceTo (ns : Nat) (f : Fld) : (b.advanceTo ns).get f = b.get f := by rw [Block.get, rd_advanceTo, Block.get]
@[simp] theorem on_advanceTo (ns : Nat) (f : Fld) : (b.advanceTo ns).on f = b.on f := by rw [Block.on, get_advanceTo, Block.on]

end

section
variable {p : Nat → Bool} {a b : Block}

/-- A change of the time base's own state alone. -/
theorem Frame.modTim {f : Tim → Tim} (h : Frame p Block.noTime a b) : Frame p Block.noTime a (b.modTim f) := h.unit rfl rfl rfl

theorem Frame.advanceTo {ns : Nat} (h : Frame p Block.noTime a b) : Frame p Block.noTime a (b.advanceTo ns) := by
  unfold Block.advanceTo
  exact .ite (fun _ => h.unit rfl rfl rfl) fun _ => h

theorem Frame.advanceElapsed {ns : Nat} (h : Frame p Block.noTime a b) : Frame p Block.noTime a (b.advanceElapsed ns) := by
  unfold Block.advanceElapsed
  exact .ite (fun _ => h.advanceTo) fun _ => h

end

/-! Commands of TIM -/

theorem units_tim_pos (m : Member) : 0 < m.units .tim := by cases m <;> decide

/-- In a module that is up a command of TIM ends in a next state. -/
theorem runAt_tim {s : State} (hu : s.block.up) (f : Block → Block) : runAt .tim f s = .next ⟨(f s.block).commit, s.pending⟩ :=
  runAt_eq .tim f s (released_up _ hu .tim) (units_tim_pos _)

/-! A cycle without a command (R82, R105) -/

theorem idleCycle_up (b : Block) (h : b.up) : b.idleCycle = b.timeCycle := by
  obtain ⟨hoff, -⟩ := id h
  rw [Block.idleCycle, hoff, if_neg (by decide), released_up b h, if_pos rfl]

theorem idleCycle_off (b : Block) (h : b.rst.off = true) : b.idleCycle = b := if_pos h

/-- Settles O2: a cycle changes the time base's own state and the crystal's count. -/
theorem idleStepPassesOneCycle : Obligations.IdleStepPassesOneCycle := by
  refine ⟨fun b hu => ⟨_, rfl, ?_⟩, fun b hoff => ⟨_, rfl, ?_⟩⟩
  · rw [idleCycle_up b hu]
    exact ⟨rfl, rfl, (Frame.refl.unit rfl rfl rfl : Frame _ Block.noTime b b.timeCycle).commit⟩
  · rw [idleCycle_off b hoff]
    exact ⟨rfl, rfl, Frame.refl.commit⟩

/-! Writes of the time base's registers -/

section
variable {s : State} (hu : s.block.up)
include hu

theorem exec_freqAdjWrite (v : Word) : exec (.freqAdjWrite v) s = .next ⟨(if s.block.get TIM_CTRL_PRIMARY = 0 then
    s.block.setFreq (clampI (-s.block.slewLim) s.block.slewLim (sgn 32 v.toNat)) else s.block).commit, s.pending⟩ := runAt_tim hu _

/-- A new rate while the image lock is clear renumbers the last tick (R722). -/
theorem exec_tickRateWrite (v : Word) (hl : s.block.imgLock = false)
    (hn : (s.block.set TIM_TICK_RATE (bits v.toNat 0 15)).tickRate ≠ s.block.tickRate) :
    exec (.tickRateWrite v) s = .next ⟨((s.block.set TIM_TICK_RATE (bits v.toNat 0 15)).wr64 TIM_TICKNUM_LO
      (latestTick (s.block.set TIM_TICK_RATE (bits v.toNat 0 15)).tickRate s.block.ns)).commit, s.pending⟩ := by
  refine (runAt_tim hu _).trans ?_
  rw [hl, if_neg (by decide), if_neg hn]
  rfl

theorem exec_tickRateWrite_locked (v : Word) (hl : s.block.imgLock = true) :
    exec (.tickRateWrite v) s = .next ⟨s.block.commit, s.pending⟩ := by
  refine (runAt_tim hu _).trans ?_
  rw [hl, if_pos rfl]

theorem exec_cmpDisarm (n : Nat) (hn : n < 64) :
    exec (.cmpDisarm n) s = .next ⟨(s.block.set (TIM_CMPn_CTRL_ARM n) 0).commit, s.pending⟩ := by
  refine (runAt_tim hu _).trans ?_
  rw [if_pos hn]

theorem exec_timebasePllRelock (h : s.block.on TIM_STATUS_PLL_LOST = true) :
    exec .timebasePllRelock s = .next ⟨((s.block.set TIM_STATUS_PLL_LOST 0).raise 63).commit, s.pending⟩ := by
  refine (runAt_tim hu _).trans ?_
  rw [if_pos h]

end

/-- Settles O10: by whether PRIMARY is none. -/
theorem freqAdjWrite : Obligations.FreqAdjWrite := by
  intro b q v hu
  refine ⟨fun hp => ⟨_, exec_freqAdjWrite (s := ⟨b, q⟩) hu v, ?_⟩, fun hp => ⟨_, exec_freqAdjWrite (s := ⟨b, q⟩) hu v, ?_⟩⟩
  · rw [if_pos hp, Block.rd_commit, Block.setFreq, Block.rd_wr_self]
    exact ⟨rfl, (Frame.refl.wr (within_singleton _)).commit⟩
  · rw [if_neg hp]
    exact Frame.refl.commit

/-! Comparators (R113) -/

/-- ARM after a write of v: DISARM wins over ARM, and a write without either leaves it. -/
def armAfter (old v : Nat) : Nat := if bit v 30 then 0 else if bit v 31 || bit old 31 then 1 else 0

/-- The comparator's status bits, which a write of ones clears. -/
def statAfter (old v : Nat) : Nat := bits old 27 3 - bits (old &&& v) 27 3

/-- What a write of v leaves in TIM_CMPn_CTRL. -/
def cmpWord (old v : Nat) : Word := BitVec.ofNat 32 (armAfter old v * 2 ^ 31 + statAfter old v * 2 ^ 27 + (v &&& 0xF5))

/-- A write of v to TIM_CMPn_CTRL; a comparator that is armed to start a generator gives it its target (R114). -/
def Block.cmpWritten (b : Block) (n : Nat) (v : Word) : Block :=
  let c := b.wr (TIM_CMPn_CTRL n) (cmpWord (b.rd (TIM_CMPn_CTRL n)).toNat v.toNat)
  if armAfter (b.rd (TIM_CMPn_CTRL n)).toNat v.toNat = 1 ∧ c.on (TIM_CMPn_CTRL_PG_START n) = true then
    c.modTim (fun t => { t with pgTaken := (n, c.cmpTarget n) :: t.pgTaken })
  else c

theorem exec_cmpArm {s : State} (hu : s.block.up) (n : Nat) (v : Word) (hn : n < 64) (ht : s.block.takes ⟨.tim, 0⟩ = true) :
    exec (.cmpArm n v) s = .next ⟨(s.block.cmpWritten n v).commit, s.pending⟩ := by
  refine (runAt_tim hu _).trans ?_
  rw [if_pos ⟨hn, ht⟩]
  rfl

theorem armAfter_le (old v : Nat) : armAfter old v ≤ 1 := by unfold armAfter; split_ifs <;> decide

theorem statAfter_lt (old v : Nat) : statAfter old v < 8 := lt_of_le_of_lt (Nat.sub_le _ _) (bits_lt old 27 3)

theorem cmpWord_toNat (old v : Nat) :
    (cmpWord old v).toNat = armAfter old v * 2 ^ 31 + statAfter old v * 2 ^ 27 + (v &&& 0xF5) := by
  have harm := armAfter_le old v
  have hstat := statAfter_lt old v
  have hlow : v &&& 0xF5 ≤ 0xF5 := Nat.and_le_right
  rw [cmpWord, BitVec.toNat_ofNat, Nat.mod_eq_of_lt (by omega)]

theorem arm_cmpWord (old v : Nat) : bits (cmpWord old v).toNat 31 1 = armAfter old v := by
  have harm := armAfter_le old v
  have hstat := statAfter_lt old v
  have hlow : v &&& 0xF5 ≤ 0xF5 := Nat.and_le_right
  rw [cmpWord_toNat, bits]
  omega

theorem evt_cmpWord (old v : Nat) : bits (cmpWord old v).toNat 0 1 = bits v 0 1 := by
  have hlow : (v &&& 0xF5) % 2 = v % 2 := by
    rw [show 2 = 2 ^ 1 from rfl, Nat.and_mod_two_pow, Nat.and_one_is_mod]
    omega
  rw [cmpWord_toNat, bits, bits]
  omega

theorem armAfter_eq (old v : Nat) : armAfter old v = if bit v 30 then 0 else if bit v 31 then 1 else bits old 31 1 := by
  have hbit : bits old 31 1 = if bit old 31 then 1 else 0 := by
    simp only [bits, bit, pow_one, beq_iff_eq]
    split <;> omega
  rw [hbit, armAfter]
  cases bit v 31 <;> simp

section
variable (b : Block) (n : Nat) (v : Word)

theorem rd_cmpWritten (x : Nat) :
    (b.cmpWritten n v).rd x = (b.wr (TIM_CMPn_CTRL n) (cmpWord (b.rd (TIM_CMPn_CTRL n)).toNat v.toNat)).rd x := by
  unfold Block.cmpWritten
  dsimp only
  split <;> rfl

theorem get_cmpWritten (f : Fld) (hf : f.addr = TIM_CMPn_CTRL n) :
    (b.cmpWritten n v).get f = bits (cmpWord (b.rd (TIM_CMPn_CTRL n)).toNat v.toNat).toNat f.lo f.width := by
  rw [Block.get, rd_cmpWritten, hf, Block.rd_wr_self]

theorem frame_cmpWritten : Frame (within [TIM_CMPn_CTRL n]) Block.noTime b (b.cmpWritten n v) := by
  have hwritten : ∀ w, Frame (within [TIM_CMPn_CTRL n]) Block.noTime b (b.wr (TIM_CMPn_CTRL n) w) := fun w =>
    Frame.refl.wr (within_singleton _)
  unfold Block.cmpWritten
  exact .ite (fun _ => (hwritten _).modTim) fun _ => hwritten _

end

/-! The leap second (R108) -/

/-- The armed leap second is reached. -/
def Block.leapt (b : Block) : Block :=
  ((b.set TIM_UTC_OFFSET (uns 16 (b.utcOffset + (if b.on TIM_LEAP_CTRL_SIGN then -1 else 1)))).set TIM_LEAP_CTRL_ARM 0).raise 61

theorem exec_leapApply {s : State} (hu : s.block.up) (h : s.block.on TIM_LEAP_CTRL_ARM = true) :
    exec .leapApply s = .next ⟨(s.block.advanceTo (s.block.rd64 TIM_LEAP_LO * 1000000000)).leapt.commit, s.pending⟩ := by
  refine (runAt_tim hu _).trans ?_
  rw [if_pos h]
  rfl

section
variable (b : Block)

theorem get_arm_leapt : b.leapt.get TIM_LEAP_CTRL_ARM = 0 := by
  rw [Block.leapt, get_raise _ _ _ (by decide), Block.get_set_self _ _ _ (by decide), Nat.zero_mod]

theorem get_utcOffset_leapt :
    b.leapt.get TIM_UTC_OFFSET = uns 16 (b.utcOffset + (if b.on TIM_LEAP_CTRL_SIGN then -1 else 1)) := by
  have huns : ∀ i : Int, uns 16 i < 2 ^ 16 := fun i => by unfold uns; omega
  rw [Block.leapt, get_raise _ _ _ (by decide), Block.get_set_addr _ (by decide), Block.get_set_self _ _ _ (by decide)]
  exact Nat.mod_eq_of_lt (huns _)

theorem frame_leapt {a : Block} {k : Block → Block} (h : Frame (withEvt [TIM_UTC, TIM_LEAP_CTRL]) k a b) :
    Frame (withEvt [TIM_UTC, TIM_LEAP_CTRL]) k a b.leapt :=
  ((h.set (by decide)).set (by decide)).raise (withEvt_of_evtReg _)

end

/-! The rate (R722) -/

theorem tickRate_set (b : Block) (n : Nat) : (b.set TIM_TICK_RATE n).tickRate = clampN 100 20000 (n % 2 ^ 15) := by
  rw [Block.tickRate, Block.get_set_self _ _ _ (by decide)]
  rfl

/-- Settles O12: each command by the equation of its meaning. -/
theorem timeRegisterCommands : Obligations.TimeRegisterCommands := by
  intro s hu
  refine ⟨fun v hlock hrate => ?rate, fun v hlock => ?locked, fun n v hn htakes => ?arm, fun n hn => ?disarm, fun hlost => ?relock,
    fun harm => ?leap⟩
  case rate =>
    have hcut : bits v.toNat 0 15 % 2 ^ 15 = bits v.toNat 0 15 := Nat.mod_eq_of_lt (bits_lt _ _ _)
    have hnew := tickRate_set s.block (bits v.toNat 0 15)
    rw [hcut] at hnew
    refine ⟨_, exec_tickRateWrite hu v hlock (hnew ▸ hrate), ?_, ?_, ((Frame.refl.set (by decide)).wr64 (by decide) (by decide)).commit⟩
    · rw [Block.get_commit, Block.wr64, Block.get_wr_ne _ (by decide), Block.get_wr_ne _ (by decide), Block.get_set_self _ _ _ (by decide)]
      exact hcut
    · rw [Block.lastTick, Block.rd64_commit, Block.rd64_wr64, hnew]
  case locked => exact ⟨_, exec_tickRateWrite_locked hu v hlock, Frame.refl.commit⟩
  case arm =>
    refine ⟨_, exec_cmpArm hu n v hn htakes, ?_, ?_, (frame_cmpWritten _ n v).commit⟩
    · rw [Block.get_commit, get_cmpWritten _ _ _ _ rfl]
      exact (arm_cmpWord _ _).trans (armAfter_eq _ _)
    · rw [Block.get_commit, get_cmpWritten _ _ _ _ rfl]
      exact evt_cmpWord _ _
  case disarm =>
    refine ⟨_, exec_cmpDisarm hu n hn, ?_, ?_, (Frame.refl.set (f := TIM_CMPn_CTRL_ARM n) (within_singleton _)).commit⟩
    · rw [Block.get_commit, Block.get_set_self _ _ _ (by simp [TIM_CMPn_CTRL_ARM]), Nat.zero_mod]
    · rw [Block.get_commit, Block.get_set_ne _ _ _ _ (by simp [TIM_CMPn_CTRL_ARM, TIM_CMPn_CTRL_FIRED]) (by simp [TIM_CMPn_CTRL_FIRED])]
  case relock =>
    refine ⟨_, exec_timebasePllRelock hu hlost, ?_, ?_, ?_, ((Frame.refl.set (by decide)).raise (withEvt_of_evtReg _)).commit⟩
    · rw [Block.get_commit, get_raise _ _ _ (by decide), Block.get_set_self _ _ _ (by decide), Nat.zero_mod]
    · rw [Block.get_commit, get_raise _ _ _ (by decide), Block.get_set_ne _ _ _ _ (by decide) (by decide)]
    · rw [pending_commit]
      exact pending_raise _ _
  case leap =>
    refine ⟨_, exec_leapApply hu harm, ?_, ?_, ?_, (frame_leapt _ Frame.refl.advanceTo).commit⟩
    · rw [Block.get_commit, get_arm_leapt]
    · rw [Block.get_commit, get_utcOffset_leapt, on_advanceTo, Block.utcOffset, get_advanceTo, Block.utcOffset]
    · rw [pending_commit]
      exact pending_raise _ _

end Sys2Proof.Machine

/-! # Steps of TIM_NOW

A step acts on comparators, generators and queued launches (R88, R117). Whatever these are, the registers of the servo and of its sources,
and the last offset measured, stay. -/

namespace Sys2Proof.Machine

open Sys2Proof Sys2Proof.Reg

/-! The servo's registers -/

/-- The registers of the servo and of its sources: those of TIM before the comparators, less the count of late launches. -/
def servoReg (x : Nat) : Bool := decide (0x50040 ≤ x) && decide (x < 0x50800) && x != TIM_LAUNCH_LATE

theorem servoReg_of_ge (x : Nat) (h : 0x50800 ≤ x) : servoReg x = false := by
  simp only [servoReg, Bool.and_eq_false_iff, decide_eq_false_iff_not]
  omega

theorem evtReg_of_servoReg (x : Nat) (h : servoReg x = true) : evtReg x = false := by
  simp only [servoReg, Bool.and_eq_true, decide_eq_true_eq] at h
  exact evtReg_tim x (by omega) (by omega)

theorem ne_of_servoReg {x y : Nat} (hx : servoReg x = false) (hy : servoReg y = true) : x ≠ y := by
  rintro rfl
  exact absurd (hx.symm.trans hy) (by decide)

/-- The servo's registers and the last offset of block a stand in block b. -/
structure Block.KeepsServo (a b : Block) : Prop where
  regs : ∀ x, servoReg x = true → b.rd x = a.rd x
  lastOff : b.tim.lastOff = a.tim.lastOff

namespace Block.KeepsServo

variable {a b : Block}

theorem refl : a.KeepsServo a := ⟨fun _ _ => rfl, rfl⟩

/-- An operation that leaves `own` alone, and the servo's registers. -/
theorem own {c : Block} (h : a.KeepsServo b) (ho : c.own = b.own) (hr : ∀ x, servoReg x = true → c.rd x = b.rd x) : a.KeepsServo c :=
  ⟨fun x hx => (hr x hx).trans (h.regs x hx),
    (congrArg (fun y : Block => y.tim.lastOff) ho : c.own.tim.lastOff = b.own.tim.lastOff).trans h.lastOff⟩

/-- A change of a unit's own state or of a memory. -/
theorem unit {c : Block} (h : a.KeepsServo b) (hr : c.regs = b.regs) (hl : c.tim.lastOff = b.tim.lastOff) : a.KeepsServo c :=
  ⟨fun x hx => (by rw [Block.rd, hr]; rfl : c.rd x = b.rd x).trans (h.regs x hx), hl.trans h.lastOff⟩

theorem wr {x : Nat} {v : Word} (h : a.KeepsServo b) (hx : servoReg x = false) : a.KeepsServo (b.wr x v) :=
  h.own rfl fun _ hy => Block.rd_wr_ne _ (ne_of_servoReg hx hy) _

theorem set {f : Fld} {v : Nat} (h : a.KeepsServo b) (hf : servoReg f.addr = false) : a.KeepsServo (b.set f v) := h.wr hf

theorem raise {n : Nat} (h : a.KeepsServo b) : a.KeepsServo (b.raise n) :=
  h.own (own_raise b n) fun x hx => rd_raise b n x (evtReg_of_servoReg x hx)

theorem raiseIf {c : Bool} {n : Nat} (h : a.KeepsServo b) : a.KeepsServo (b.raiseIf c n) :=
  h.own (own_raiseIf b c n) fun x hx => rd_raiseIf b c n x (evtReg_of_servoReg x hx)

theorem raiseEvery {m n : Nat} (h : a.KeepsServo b) : a.KeepsServo (b.raiseEvery m n) :=
  h.own (own_raiseEvery b m n) fun x hx => rd_raiseEvery b m n x (evtReg_of_servoReg x hx)

theorem count {x n : Nat} {r : Fld} {e : Nat} (h : a.KeepsServo b) (hx : servoReg x = false) (hr : servoReg r.addr = false) :
    a.KeepsServo (b.count x n r e) :=
  h.own (own_count b x n r e) fun y hy => rd_count b x n r e y (ne_of_servoReg hx hy) (ne_of_servoReg hr hy) (evtReg_of_servoReg y hy)

theorem doIf {c : Bool} {g : Block → Block} (h : a.KeepsServo b) (hg : a.KeepsServo (g b)) : a.KeepsServo (b.doIf c g) := by
  cases c
  · exact h
  · exact hg

theorem ite {c : Prop} [Decidable c] {x y : Block} (hx : a.KeepsServo x) (hy : a.KeepsServo y) : a.KeepsServo (if c then x else y) := by
  split
  · exact hx
  · exact hy

theorem foldl {α : Type} {l : List α} {g : Block → α → Block} (h : a.KeepsServo b) (hg : ∀ x e, a.KeepsServo x → a.KeepsServo (g x e)) :
    a.KeepsServo (l.foldl g b) := List.foldlRecOn l g h fun x hx e _ => hg x e hx

theorem each {n : Nat} {g : Nat → Block → Block} (h : a.KeepsServo b) (hg : ∀ i x, a.KeepsServo x → a.KeepsServo (g i x)) :
    a.KeepsServo (b.each n g) := h.foldl fun x i => hg i x

theorem draw {m : Nat} (h : a.KeepsServo b) : a.KeepsServo (b.draw m).2 := h.unit rfl rfl

theorem modSwc {f : Swc → Swc} (h : a.KeepsServo b) : a.KeepsServo (b.modSwc f) := h.unit rfl rfl

theorem modTim {f : Tim → Tim} (h : a.KeepsServo b) (hf : (f b.tim).lastOff = b.tim.lastOff) : a.KeepsServo (b.modTim f) := h.unit rfl hf

/-! Queued launches (R117, R160) -/

theorem swcCnt {i n : Nat} (h : a.KeepsServo b) : a.KeepsServo (b.swcCnt i n) :=
  h.count (servoReg_of_ge _ (by unfold SWC_CNTi; omega)) (servoReg_of_ge SWC_CNT_ROLL (by decide))

theorem refusedAt {x n : Nat} (h : a.KeepsServo b) : a.KeepsServo (b.refusedAt x n) :=
  h.doIf ((h.set (by decide)).count (by decide) (by decide))

theorem dramStore {x : Nat} {l : List Byte} (h : a.KeepsServo b) : a.KeepsServo (b.dramStore x l) := by
  unfold Block.dramStore
  refine each (h.unit rfl rfl) fun i y hy => ?_
  split
  · exact hy
  · exact hy.unit rfl rfl

theorem txDone {status : Nat} (h : a.KeepsServo b) : a.KeepsServo (b.txDone 0 status) := (h.dramStore.dramStore.wr (by decide)).raiseIf

theorem txComplete {l : List (Nat × Nat × Bool)} (h : a.KeepsServo b) : a.KeepsServo (b.txComplete l) := by
  induction l generalizing b with
  | nil => exact h.unit rfl rfl
  | cons e t ih =>
    unfold Block.txComplete
    split
    · exact ih h.txDone
    · exact h.unit rfl rfl

theorem setFree {n : Nat} (h : a.KeepsServo b) : a.KeepsServo (b.setFree n) := (h.set (by decide)).raiseIf

theorem release {e id : Nat} (h : a.KeepsServo b) : a.KeepsServo (b.release e id) := by
  have hidle : a.KeepsServo (b.idleNow e) := h.doIf h.modSwc
  have hqocc : ∀ q, servoReg (qocc e q).addr = false := fun q => servoReg_of_ge _ (by simp only [qocc, SWC_QOCCn_w]; omega)
  unfold Block.release
  split
  · exact h
  next f _ =>
    have hcells : a.KeepsServo ((b.idleNow e).doIf (f.src != 20) fun b => b.set (qocc e f.queue) (b.get (qocc e f.queue) - cellsOf f.bytes)) :=
      hidle.doIf (hidle.set (hqocc f.queue))
    exact .ite (doIf hcells.modSwc.setFree hcells.modSwc.setFree.txComplete) hcells.modSwc

theorem mirLose {m : Nat} (h : a.KeepsServo b) : a.KeepsServo (b.mirLose m) := by
  have hlost : servoReg (SWC_MIRm_LOST m) = false := servoReg_of_ge _ (by unfold SWC_MIRm_LOST; omega)
  exact (h.modSwc.count hlost (r := bitOf (SWC_MIRm_LOST m) 32) hlost).raiseEvery

theorem mirWrite {m p : Nat} {f : List Byte} {d e : Bool} {r : Option Nat} {stamp vid q : Nat} (h : a.KeepsServo b) :
    a.KeepsServo (b.mirWrite m p f d e r stamp vid q) := by
  have hcons : servoReg (SWC_MIRm_CONS m) = false := servoReg_of_ge _ (by unfold SWC_MIRm_CONS; omega)
  have hprod : servoReg (SWC_MIRm_PROD m) = false := servoReg_of_ge _ (by unfold SWC_MIRm_PROD; omega)
  have hfull : ∀ c v, a.KeepsServo (b.doIf c fun b => b.wr (SWC_MIRm_CONS m) v) := fun _ _ => h.doIf (h.wr hcons)
  unfold Block.mirWrite
  refine .ite (h.mirLose.doIf h.mirLose.refusedAt) (raiseIf (swcCnt (modSwc (wr (dramStore ?_) hprod))))
  cases r with
  | some reason => exact hfull _ _
  | none => exact (hfull _ _).draw

theorem mirDrop {e : Nat} {f : SwFrame} {r : Option Nat} (h : a.KeepsServo b) : a.KeepsServo (b.mirDrop e f r) :=
  h.each fun _ _ hx => .ite hx.mirWrite hx

theorem launchDrop {e id : Nat} (h : a.KeepsServo b) : a.KeepsServo (b.launchDrop e id) := by
  unfold Block.launchDrop
  split
  · exact h
  · exact h.mirDrop.modSwc.release

theorem dropLaunches (h : a.KeepsServo b) : a.KeepsServo b.dropLaunches := by
  refine h.each fun p x hx => ?_
  dsimp only
  split
  · exact hx
  · exact ((hx.modSwc.foldl fun _ _ hy => hy.launchDrop).count (by decide) (by decide)).raise

/-! Comparators and generators (R117) -/

theorem pgStop {g : Nat} (h : a.KeepsServo b) : a.KeepsServo (b.pgStop g) :=
  (h.set (servoReg_of_ge _ (by simp only [TIM_PGg_CTRL_RUNNING, TIM_PGg_CTRL]; omega))).raise

theorem bigStep (h : a.KeepsServo b) : a.KeepsServo b.bigStep := by
  have hctrl : ∀ n, servoReg (TIM_CMPn_CTRL n) = false := fun n => servoReg_of_ge _ (by unfold TIM_CMPn_CTRL; omega)
  refine each (h.each fun n x hx => hx.doIf ((hx.set (hctrl n)).set (hctrl n))) fun g x hx => hx.doIf ?_
  exact .ite (hx.modTim rfl) hx.pgStop

theorem smallStep (h : a.KeepsServo b) : a.KeepsServo b.smallStep :=
  h.each fun _ _ hx => hx.doIf (hx.modTim rfl)

end Block.KeepsServo

end Sys2Proof.Machine

/-! # Synchronisation

Steps, measurements and the states of R102. -/

namespace Sys2Proof.Machine

open Sys2Proof Sys2Proof.Reg

/-! TIM_STATUS, EST_ERR and FREQ_ADJ -/

theorem tim_of_own {b b' : Block} (h : b'.own = b.own) : b'.tim = b.tim := (congrArg Block.tim h : b'.own.tim = b.own.tim)

section
variable (b : Block)

theorem syncState_setTimState (st : Nat) (h : st < 8) : (b.setTimState st).syncState = st :=
  (Block.get_set_self _ _ _ (by decide)).trans (Nat.mod_eq_of_lt h)

/-- The fields of TIM_STATUS above SRC_ACTIVE, and those of other registers. -/
theorem get_setTimState (st : Nat) (f : Fld) (hf : TIM_STATUS ≠ f.addr ∨ 6 ≤ f.lo) (hw : f.lo + f.width ≤ 32) :
    (b.setTimState st).get f = b.get f :=
  Block.get_set_ne _ _ _ _ (hf.imp_right fun h => .inr (show 0 + 3 ≤ f.lo by omega)) hw

theorem get_showErr (f : Fld) (h : TIM_EST_ERR ≠ f.addr) : b.showErr.get f = b.get f := Block.get_wr_ne _ h _

theorem syncState_showErr : b.showErr.syncState = b.syncState := get_showErr b _ (by decide)

/-- A synchronised state shows the size of the last offset (R104). -/
theorem estErr_synced (hs : b.syncState = timLOCKING ∨ b.syncState = timLOCKED) (ho : b.tim.lastOff < 2 ^ 32) : b.estErr = b.tim.lastOff := by
  have hfree : b.syncState ≠ timFREE := by rcases hs with h | h <;> rw [h] <;> decide
  rw [Block.estErr, if_neg hfree, if_pos hs]
  exact if_neg (by omega)

theorem pending_showErr (n : Nat) : b.showErr.pendingEvent n = b.pendingEvent n := pending_wr _ _ _ _ (by decide)

theorem pending_setTimState (st n : Nat) : (b.setTimState st).pendingEvent n = b.pendingEvent n := pending_set _ _ _ _ (by decide)

end

section
variable {p : Nat → Bool} {a b : Block}

theorem Frame.setTimState {st : Nat} (h : Frame p Block.noTime a b) (hp : p TIM_STATUS = true) : Frame p Block.noTime a (b.setTimState st) :=
  h.modTim.set hp

theorem Frame.showErr {k : Block → Block} (h : Frame p k a b) (hp : p TIM_EST_ERR = true) : Frame p k a b.showErr := h.wr hp

theorem Frame.setFreq {k : Block → Block} {f : Int} (h : Frame p k a b) (hp : p TIM_FREQ_ADJ = true) : Frame p k a (b.setFreq f) := h.wr hp

theorem SameRegs.trans {c : Block} (h : SameRegs p a b) (k : SameRegs p b c) : SameRegs p a c := fun x hx => (k x hx).trans (h x hx)

theorem SameRegs.get (h : SameRegs p a b) (f : Fld) (hf : p f.addr = false) : b.get f = a.get f := by rw [Block.get, h _ hf, Block.get]

theorem Block.KeepsServo.get (h : a.KeepsServo b) (f : Fld) (hf : servoReg f.addr = true) : b.get f = a.get f := by
  rw [Block.get, h.regs _ hf, Block.get]

end

/-! Steps (R88) -/

/-- A step before it reaches comparators, generators and launches: TIM_NOW, STEP_GEN, and LOCKING where it is entered. -/
def Block.stepBegun (b : Block) (d : Int) (byMeasurement : Bool) : Block :=
  let c := b.modTim (fun t => { t with now := (((t.now : Nat) : Int) + d).toNat % 2 ^ 96, stepAt := some t.elapsed })
  let c := c.set TIM_STATUS_STEP_GEN (c.get TIM_STATUS_STEP_GEN + 1)
  if c.syncState = timFREE ∧ byMeasurement = false then c else (c.setTimState timLOCKING).showErr

section
variable (b : Block) (d : Int) (m : Bool)

theorem keepsServo_timeStep : (b.stepBegun d m).KeepsServo (b.timeStep d m) :=
  .raise (.ite Block.KeepsServo.refl.smallStep Block.KeepsServo.refl.bigStep.dropLaunches)

theorem pending_timeStep : (b.timeStep d m).pendingEvent 54 = true := pending_raise _ _

theorem stepGen_timeStep : (b.timeStep d m).get TIM_STATUS_STEP_GEN = (b.get TIM_STATUS_STEP_GEN + 1) % 256 := by
  rw [(keepsServo_timeStep b d m).get _ (by decide), Block.stepBegun]
  split
  · exact Block.get_set_self _ _ _ (by decide)
  · rw [get_showErr _ _ (by decide), get_setTimState _ _ _ (.inr (by decide)) (by decide)]
    exact Block.get_set_self _ _ _ (by decide)

/-- A step that a measurement caused enters LOCKING (R102). -/
theorem syncState_timeStep : (b.timeStep d true).syncState = timLOCKING := by
  have hbegun : (b.stepBegun d true).syncState = timLOCKING := by
    rw [Block.stepBegun, if_neg (by simp), syncState_showErr, syncState_setTimState _ _ (by decide)]
  exact ((keepsServo_timeStep b d true).get _ (by decide)).trans hbegun

theorem lastOff_timeStep : (b.timeStep d m).tim.lastOff = b.tim.lastOff := by
  rw [(keepsServo_timeStep b d m).lastOff, Block.stepBegun]
  split <;> rfl

theorem frame_stepBegun {p : Nat → Bool} (hs : p TIM_STATUS = true) (he : p TIM_EST_ERR = true) :
    Frame p Block.noTime b (b.stepBegun d m) :=
  have hcounted := (Frame.refl.modTim (b := b)).set hs
  .ite (fun _ => hcounted) fun _ => (hcounted.setTimState hs).showErr he

end

/-! Measurements (R86, R88, R102) -/

/-- The registers that a measurement may change, those of the servo's steering among them. -/
def measureReg (x : Nat) : Bool := !servoReg x || within [TIM_STATUS, TIM_EST_ERR, TIM_FREQ_ADJ, TIM_FREQ_HOLD, TIM_PPS_REJECT] x

theorem measureReg_of_evtReg (y : Nat) (h : evtReg y = true) : measureReg y = true := by
  cases hy : servoReg y with
  | false => simp [measureReg, hy]
  | true => exact absurd ((evtReg_of_servoReg y hy).symm.trans h) (by decide)

theorem servoReg_of_measureReg (x : Nat) (h : measureReg x = false) : servoReg x = true := by
  simp only [measureReg, Bool.or_eq_false_iff, Bool.not_eq_false'] at h
  exact h.1

section
variable (b : Block) (e : Int)

theorem sameRegs_timeStep (d : Int) (m : Bool) : SameRegs measureReg b (b.timeStep d m) :=
  (frame_stepBegun b d m (by decide) (by decide)).1.trans fun x hx => (keepsServo_timeStep b d m).regs x (servoReg_of_measureReg x hx)

theorem lastOff_steered (i f : Int) : ((b.modTim fun t => { t with integ := i }).setFreq f).tim.lastOff = b.tim.lastOff := rfl

theorem lastOff_servo : (b.servo e).tim.lastOff = b.tim.lastOff := lastOff_steered b _ _

theorem frame_servo {p : Nat → Bool} (hp : p TIM_FREQ_ADJ = true) : Frame p Block.noTime b (b.servo e) := Frame.refl.modTim.setFreq hp

/-- A measurement that caused no step enters LOCKING or LOCKED, with or without event 48, or counts in a run there (R102). -/
theorem lockMove_cases (off : Nat) :
    (∃ st, (st = timLOCKING ∨ st = timLOCKED) ∧ (b.lockMove off = b.setTimState st ∨ b.lockMove off = (b.setTimState st).raise 48)) ∨
    ((b.syncState = timLOCKING ∨ b.syncState = timLOCKED) ∧
      ∃ f : Tim → Tim, (∀ t, (f t).lastOff = t.lastOff) ∧ b.lockMove off = b.modTim f) := by
  unfold Block.lockMove
  dsimp only
  split
  · exact .inl ⟨_, .inl rfl, .inl rfl⟩
  · split
    next hlocking =>
      generalize (if off ≤ b.get TIM_SERVO_LOCK_THRESH then b.tim.lockRun + 1 else 0) = run
      split
      · exact .inl ⟨_, .inr rfl, .inr rfl⟩
      · exact .inr ⟨.inl hlocking, fun t => { t with lockRun := run }, fun _ => rfl, rfl⟩
    · split
      next hlocked =>
        generalize (if b.get TIM_SERVO2_UNLOCK_THRESH < off then b.tim.unlockRun + 1 else 0) = run
        split
        · exact .inl ⟨_, .inl rfl, .inr rfl⟩
        · exact .inr ⟨.inr hlocked, fun t => { t with unlockRun := run }, fun _ => rfl, rfl⟩
      · exact .inl ⟨_, .inl rfl, .inl rfl⟩

theorem syncState_lockMove (off : Nat) : (b.lockMove off).syncState = timLOCKING ∨ (b.lockMove off).syncState = timLOCKED := by
  rcases lockMove_cases b off with ⟨st, hst, hmove⟩ | ⟨hsynced, f, -, hmove⟩
  · have hset : (b.setTimState st).syncState = st := syncState_setTimState b st (by rcases hst with rfl | rfl <;> decide)
    have hraised : ((b.setTimState st).raise 48).syncState = st := (get_raise _ _ _ (by decide)).trans hset
    rcases hmove with hmove | hmove
    · rwa [hmove, hset]
    · rwa [hmove, hraised]
  · rw [hmove]
    exact hsynced

theorem lastOff_lockMove (off : Nat) : (b.lockMove off).tim.lastOff = b.tim.lastOff := by
  rcases lockMove_cases b off with ⟨st, -, hmove | hmove⟩ | ⟨-, f, hf, hmove⟩
  · rw [hmove]
    rfl
  · rw [hmove, tim_of_own (own_raise _ 48)]
    rfl
  · rw [hmove]
    exact hf _

theorem frame_lockMove {p : Nat → Bool} {a : Block} (off : Nat) (h : Frame p Block.noTime a b) (hs : p TIM_STATUS = true)
    (he : ∀ y, evtReg y = true → p y = true) : Frame p Block.noTime a (b.lockMove off) := by
  rcases lockMove_cases b off with ⟨st, -, hmove | hmove⟩ | ⟨-, f, -, hmove⟩ <;> rw [hmove]
  · exact h.setTimState hs
  · exact (h.setTimState hs).raise he
  · exact h.modTim

/-- An accepted measurement noted: the last offset, and the integrator of a servo that resumes from holdover (R721). -/
def Block.offNoted (b : Block) (e : Int) : Block :=
  (b.doIf (b.syncState == timHOLDOVER || b.syncState == timEXCEEDED) fun b => b.modTim fun t => { t with integ := b.freqAdj }).modTim
    fun t => { t with lastOff := offNs e }

/-- Does a noted measurement make a step (R88)? -/
def Block.offSteps (b : Block) (e : Int) : Bool :=
  (b.syncState == timFREE && decide ((b.offNoted e).get TIM_SERVO_LOCK_THRESH < offNs e)) ||
    (decide ((b.offNoted e).get TIM_SERVO2_STEP_THRESH * 1000 < offNs e) && (b.offNoted e).stepPermitted)

/-- A noted measurement makes a step or steers the servo. -/
def Block.offApplied (b : Block) (e : Int) : Block :=
  if b.offSteps e then (b.offNoted e).timeStep (-(e * ((2 ^ 28 : Nat) : Int))) true else ((b.offNoted e).servo e).lockMove (offNs e)

/-- EST_ERR follows and, while LOCKED, the holdover rate (R104, R719). -/
def Block.errShown (b : Block) : Block :=
  b.showErr.doIf (b.showErr.syncState == timLOCKED) fun b =>
    b.wr TIM_FREQ_HOLD (BitVec.ofInt 32 (b.holdRate + asr (b.freqAdj - b.holdRate) (b.get TIM_HOLD_AVG_LOG)))

theorem accept_eq : b.accept e = (b.offApplied e).errShown := rfl

theorem lastOff_offNoted : (b.offNoted e).tim.lastOff = offNs e := rfl

theorem frame_offNoted {p : Nat → Bool} : Frame p Block.noTime b (b.offNoted e) := (Frame.refl.doIf fun _ => Frame.refl.modTim).modTim

theorem synced_offApplied : (b.offApplied e).syncState = timLOCKING ∨ (b.offApplied e).syncState = timLOCKED := by
  unfold Block.offApplied
  split
  · exact .inl (syncState_timeStep _ _)
  · exact syncState_lockMove _ _

theorem lastOff_offApplied : (b.offApplied e).tim.lastOff = offNs e := by
  unfold Block.offApplied
  split
  · rw [lastOff_timeStep, lastOff_offNoted]
  · rw [lastOff_lockMove, lastOff_servo, lastOff_offNoted]

theorem sameRegs_offApplied : SameRegs measureReg b (b.offApplied e) := by
  refine (frame_offNoted b e).1.trans ?_
  unfold Block.offApplied
  split
  · exact sameRegs_timeStep _ _ _
  · exact (frame_lockMove _ _ (frame_servo _ e (by decide)) (by decide) measureReg_of_evtReg).1

theorem rd_estErr_errShown (hs : b.syncState = timLOCKING ∨ b.syncState = timLOCKED) (ho : b.tim.lastOff < 2 ^ 32) :
    b.errShown.rd TIM_EST_ERR = BitVec.ofNat 32 b.tim.lastOff := by
  have herr : b.showErr.rd TIM_EST_ERR = BitVec.ofNat 32 b.tim.lastOff := by
    rw [Block.showErr, Block.rd_wr_self, estErr_synced b hs ho]
  unfold Block.errShown
  cases b.showErr.syncState == timLOCKED
  · exact herr
  · exact (Block.rd_wr_ne _ (by decide) _).trans herr

theorem sameRegs_errShown : SameRegs measureReg b b.errShown :=
  have hshown : Frame measureReg Block.noTime b b.showErr := Frame.refl.showErr (by decide)
  (hshown.doIf fun _ => hshown.wr (by decide)).1

/-- EST_ERR after an accepted measurement is its size (R104). -/
theorem rd_estErr_accept (h : offNs e < 2 ^ 32) : (b.accept e).rd TIM_EST_ERR = BitVec.ofNat 32 (offNs e) := by
  have hlast := lastOff_offApplied b e
  rw [accept_eq, rd_estErr_errShown _ (synced_offApplied b e) (by omega), hlast]

theorem sameRegs_accept : SameRegs measureReg b (b.accept e) := (sameRegs_offApplied b e).trans (sameRegs_errShown _)

/-- The source that steers is shown, and a change of source leaves LOCKED (R91). -/
def Block.sourced (src : Nat) : Block :=
  let c := b.set TIM_STATUS_SRC_ACTIVE src
  if b.get TIM_STATUS_SRC_ACTIVE ≠ src ∧ c.syncState = timLOCKED then (c.setTimState timLOCKING).raise 48 else c

theorem measure_of_primary (src : Nat) (ht : b.takes ⟨.tim, 0⟩ = true) (hp : b.get TIM_CTRL_PRIMARY = src) :
    b.measure src e = (b.sourced src).accept e := if_pos ⟨ht, .inl hp.symm⟩

theorem sameRegs_measure (src : Nat) : SameRegs measureReg b (b.measure src e) := by
  have hshown := Frame.refl.set (p := measureReg) (k := Block.noTime) (b := b) (f := TIM_STATUS_SRC_ACTIVE) (v := src) (by decide)
  have hsourced : Frame measureReg Block.noTime b (b.sourced src) :=
    .ite (fun _ => (hshown.setTimState (by decide)).raise measureReg_of_evtReg) fun _ => hshown
  unfold Block.measure
  dsimp only
  split
  · exact hsourced.1.trans (sameRegs_accept _ e)
  · exact fun _ _ => rfl

end

/-! Holdover (R102 to R105) -/

section
variable (b : Block)

theorem syncState_enterHoldover : b.enterHoldover.syncState = timHOLDOVER := by
  have hstate : ∀ c : Block, ((c.setTimState timHOLDOVER).set TIM_STATUS_SRC_ACTIVE 0).syncState = timHOLDOVER := fun c =>
    (Block.get_set_ne _ _ _ _ (by decide) (by decide)).trans (syncState_setTimState c _ (by decide))
  refine (get_raise _ _ _ (by decide)).trans ((Block.get_wr_ne _ (by decide) _).trans ?_)
  exact (syncState_showErr _).trans (hstate _)

theorem get_pllLost_enterHoldover : b.enterHoldover.get TIM_STATUS_PLL_LOST = b.get TIM_STATUS_PLL_LOST := by
  refine (get_raise _ _ _ (by decide)).trans ((Block.get_wr_ne _ (by decide) _).trans ((get_showErr _ _ (by decide)).trans ?_))
  exact (Block.get_set_ne _ _ _ _ (by decide) (by decide)).trans (get_setTimState _ _ _ (.inr (by decide)) (by decide))

section
variable {p : Nat → Bool} {a b : Block} (hs : p TIM_STATUS = true) (he : p TIM_EST_ERR = true) (hf : p TIM_FREQ_ADJ = true)
  (hv : ∀ y, evtReg y = true → p y = true)
include hs he hf hv

theorem Frame.enterHoldover (h : Frame p Block.noTime a b) : Frame p Block.noTime a b.enterHoldover :=
  ((((h.modTim.setTimState hs).set hs).showErr he).setFreq hf).raise hv

theorem Frame.sourcesLost (h : Frame p Block.noTime a b) : Frame p Block.noTime a b.sourcesLost :=
  .ite (fun _ => .ite (fun _ => h.enterHoldover hs he hf hv) fun _ => (((h.setTimState hs).set hs).showErr he).raise hv) fun _ => h

end

/-- The loss of the sources reports events and leaves those reported before. -/
theorem pending_sourcesLost (n : Nat) (h : b.pendingEvent n = true) : b.sourcesLost.pendingEvent n = true := by
  have hleft : ∀ (c : Block) (st : Nat), c.pendingEvent n = true →
      ((c.setTimState st).set TIM_STATUS_SRC_ACTIVE 0).showErr.pendingEvent n = true := fun c st hc => by
    rwa [pending_showErr, pending_set _ _ _ _ (by decide), pending_setTimState]
  unfold Block.sourcesLost
  split
  · split
    · refine pending_raise_mono _ _ _ ((pending_wr _ _ _ _ (by decide)).trans ?_)
      exact hleft _ _ h
    · exact pending_raise_mono _ _ _ (hleft _ _ h)
  · exact h

theorem srcAlive_raise (n src : Nat) : (b.raise n).srcAlive src = b.srcAlive src := by
  rw [Block.srcAlive, tim_of_own (own_raise b n), Block.srcAlive]

/-- No watchdog is served or ends by it. -/
theorem srcAlive_sourcesLost (src : Nat) : b.sourcesLost.srcAlive src = b.srcAlive src := by
  unfold Block.sourcesLost
  split
  · split
    · exact srcAlive_raise _ _ _
    · exact srcAlive_raise _ _ _
  · rfl

theorem get_pllLost_timePllLoss : b.timePllLoss.get TIM_STATUS_PLL_LOST = 1 := by
  have hlost : (b.set TIM_STATUS_PLL_LOST 1).get TIM_STATUS_PLL_LOST = 1 := Block.get_set_self _ _ _ (by decide)
  unfold Block.timePllLoss
  dsimp only
  rw [get_raise _ _ _ (by decide)]
  split
  · rw [get_pllLost_enterHoldover, hlost]
  · exact hlost

theorem syncState_timePllLoss : b.timePllLoss.syncState =
    if b.syncState = timLOCKING ∨ b.syncState = timLOCKED then timHOLDOVER else b.syncState := by
  have hstate : (b.set TIM_STATUS_PLL_LOST 1).syncState = b.syncState := Block.get_set_ne _ _ _ _ (by decide) (by decide)
  have hraise : ∀ c : Block, (c.raise 63).syncState = c.syncState := fun c => get_raise _ _ _ (by decide)
  unfold Block.timePllLoss
  rw [hraise, hstate]
  split
  · exact syncState_enterHoldover _
  · exact hstate

theorem frame_timePllLoss : Frame (withEvt [TIM_STATUS, TIM_EST_ERR, TIM_FREQ_ADJ]) Block.noTime b b.timePllLoss := by
  have hlost : Frame (withEvt [TIM_STATUS, TIM_EST_ERR, TIM_FREQ_ADJ]) Block.noTime b (b.set TIM_STATUS_PLL_LOST 1) :=
    Frame.refl.set (by decide)
  have hv := withEvt_of_evtReg [TIM_STATUS, TIM_EST_ERR, TIM_FREQ_ADJ]
  exact .raise (.ite (fun _ => hlost.enterHoldover (by decide) (by decide) (by decide) hv) fun _ => hlost) hv

/-! Sources (R91) -/

theorem srcAlive_ptp : b.srcAlive srcPTP = b.tim.ptpAlive := rfl
theorem srcAlive_pps : b.srcAlive srcPPS = b.tim.ppsAlive := rfl
theorem srcAlive_irig : b.srcAlive srcIRIG = b.tim.irigAlive := rfl

/-- What the expiry of a source's watchdog leaves of the time base's own state. -/
def watchEnded (src : Nat) (t : Tim) : Tim :=
  if src = srcPTP then { t with ptpAlive := false } else if src = srcPPS then { t with ppsAlive := false }
  else if src = srcIRIG then { t with irigAlive := false, irigValid := false, irigSec := none } else t

theorem alive_watchEnded (src : Nat) : (b.modTim (watchEnded src)).srcAlive src = false := by
  unfold Block.srcAlive Block.modTim watchEnded
  split
  · rfl
  · split
    · rfl
    · split <;> rfl

/-- A live source's watchdog expires, and an IRIG-B frame is no longer valid. -/
def Block.watchOver (b : Block) (src : Nat) : Block :=
  ((b.advanceElapsed (b.watchEnd src)).modTim (watchEnded src)).doIf (src == srcIRIG) fun b => b.set TIM_IRIG_STAT_VALID 0

/-- The expiry is reported, before the states of R102 follow. -/
def Block.srcDead (b : Block) (src : Nat) : Block :=
  if src = srcPPS then (b.watchOver src).raise 51 else if src = srcIRIG then (b.watchOver src).raise 53 else b.watchOver src

theorem srcDead_pps : b.srcDead srcPPS = (b.watchOver srcPPS).raise 51 := if_pos rfl

theorem srcDead_irig : b.srcDead srcIRIG = (b.watchOver srcIRIG).raise 53 := (if_neg (by decide)).trans (if_pos rfl)

theorem srcAlive_watchOver (src : Nat) : (b.watchOver src).srcAlive src = false := by
  unfold Block.watchOver
  cases src == srcIRIG
  · exact alive_watchEnded _ src
  · exact alive_watchEnded _ src

theorem srcAlive_srcDead (src : Nat) : (b.srcDead src).srcAlive src = false := by
  unfold Block.srcDead
  split
  · rw [srcAlive_raise, srcAlive_watchOver]
  · split
    · rw [srcAlive_raise, srcAlive_watchOver]
    · exact srcAlive_watchOver b src

theorem get_irigValid_watchOver : (b.watchOver srcIRIG).get TIM_IRIG_STAT_VALID = 0 := Block.get_set_self _ _ _ (by decide)

theorem Frame.srcDead {p : Nat → Bool} {a b : Block} (src : Nat) (h : Frame p Block.noTime a b) (hi : src = srcIRIG → p TIM_IRIG_STAT = true)
    (hv : ∀ y, evtReg y = true → p y = true) : Frame p Block.noTime a (b.srcDead src) := by
  have hover : Frame p Block.noTime a (b.watchOver src) :=
    h.advanceElapsed.modTim.doIf fun hsrc => h.advanceElapsed.modTim.set (hi (beq_iff_eq.1 hsrc))
  exact .ite (fun _ => hover.raise hv) fun _ => .ite (fun _ => hover.raise hv) fun _ => hover

end

/-- The signed amount of TIM_STEP in 2⁻³² ns. -/
def Block.stepWidth (b : Block) : Int :=
  sgn 64 (b.rd64 TIM_STEP_LO) * ((2 ^ 32 : Nat) : Int) + (((b.get TIM_STEP_FRAC_FRAC) * 2 ^ 16 : Nat) : Int)

section
variable {s : State} (hu : s.block.up)
include hu

theorem exec_sourceWatchdogExpiry (src : Nat) : exec (.sourceWatchdogExpiry src) s =
    .next ⟨(if s.block.srcAlive src = false then s.block else (s.block.srcDead src).sourcesLost).commit, s.pending⟩ := runAt_tim hu _

theorem exec_watchdog_live (src : Nat) (h : s.block.srcAlive src = true) :
    exec (.sourceWatchdogExpiry src) s = .next ⟨(s.block.srcDead src).sourcesLost.commit, s.pending⟩ := by
  rw [exec_sourceWatchdogExpiry hu, h, if_neg (by decide)]

theorem exec_timebasePllLoss : exec .timebasePllLoss s = .next ⟨s.block.timePllLoss.commit, s.pending⟩ := runAt_tim hu _

/-- The limit is exceeded at the instant at which EST_ERR passes it, or now (R102, R104). -/
theorem exec_holdLimitExceeded (hs : s.block.syncState = timHOLDOVER) (hl : (s.block.rd TIM_HOLD_LIMIT).toNat ≠ 2 ^ 32 - 1)
    (hd : s.block.get TIM_HOLD_DRIFT ≠ 0 ∨ (s.block.rd TIM_HOLD_LIMIT).toNat < s.block.tim.holdErr) :
    ∃ c : Block, Frame (within []) Block.noTime s.block c ∧
      exec .holdLimitExceeded s = .next ⟨((c.setTimState timEXCEEDED).showErr.raise 50).commit, s.pending⟩ := by
  refine ⟨_, ?frame, (runAt_tim hu _).trans (by rw [if_neg (by omega)])⟩
  case frame => exact .ite (fun _ => Frame.refl) fun _ => Frame.refl.advanceTo

theorem exec_stepCmd_forbidden (h : s.block.stepPermitted = false) : exec .stepCmd s = .next ⟨(s.block.raise 55).commit, s.pending⟩ := by
  refine (runAt_tim hu _).trans ?_
  rw [h, if_neg (by decide)]

theorem exec_stepCmd_permitted (h : s.block.stepPermitted = true) :
    exec .stepCmd s = .next ⟨(s.block.timeStep s.block.stepWidth false).commit, s.pending⟩ := by
  refine (runAt_tim hu _).trans ?_
  rw [h, if_pos rfl]
  rfl

/-- A submitted measurement serves the watchdog of PTP; its tag decides whether it is taken (R89, R91). -/
theorem exec_offsetSubmit (v : Word) : ∃ f : Tim → Tim, (∀ t, (f t).ptpAlive = true) ∧
    exec (.offsetSubmit v) s = .next ⟨(if s.block.get TIM_OFFSET_TAG_GEN = s.block.get TIM_STATUS_STEP_GEN then
      (s.block.modTim f).measure srcPTP (sgn 32 v.toNat)
    else (s.block.modTim f).count TIM_OFFSET_STALE 1 (bitOf TIM_OFFSET_STALE 32) 62).commit, s.pending⟩ :=
  ⟨_, fun _ => rfl, runAt_tim hu _⟩

end

/-! A counter without a rollover bit -/

/-- A bit that no register has. -/
theorem rd_set_bit32 (b : Block) (a v x : Nat) : (b.set (bitOf a 32) v).rd x = b.rd x := by
  have hcut : ∀ w : Word, BitVec.ofNat 32 (putBits w.toNat 32 1 v) = w := fun w => by
    apply BitVec.eq_of_toNat_eq
    rw [BitVec.toNat_ofNat, putBits_eq]
    omega
  by_cases h : a = x
  · subst h
    exact (Block.rd_wr_self _ _ _).trans (hcut _)
  · exact Block.rd_set_ne b h v

theorem rd_count_bit32 (b : Block) (a n e : Nat) (h : evtReg a = false) :
    (b.count a n (bitOf a 32) e).rd a = b.rd a + BitVec.ofNat 32 n := by
  have hsum : BitVec.ofNat 32 (bumped (b.rd a).toNat n).1 = b.rd a + BitVec.ofNat 32 n := by
    apply BitVec.eq_of_toNat_eq
    simp [bumped]
  unfold Block.count
  dsimp only
  split
  · rw [rd_raise _ _ _ h, rd_set_bit32, Block.rd_wr_self, hsum]
  · rw [Block.rd_wr_self, hsum]

/-! The obligation -/

/-- The size of an offset of 32 bits fits EST_ERR. -/
theorem offNs_sgn_lt (n : Nat) : offNs (sgn 32 n) < 2 ^ 32 := by
  have hsize : (sgn 32 n).natAbs ≤ 2 ^ 31 := by
    unfold sgn
    split <;> omega
  unfold offNs
  omega

/-- Settles O13: each command by the equation of its meaning; steps and the loss of sources by what they keep. -/
theorem timeSynchronisation : Obligations.TimeSynchronisation := by
  intro s hu
  have hv3 := withEvt_of_evtReg [TIM_STATUS, TIM_EST_ERR, TIM_FREQ_ADJ]
  have hv4 := withEvt_of_evtReg [TIM_STATUS, TIM_EST_ERR, TIM_FREQ_ADJ, TIM_IRIG_STAT]
  refine ⟨fun hs hl hd => ?limit, ⟨_, exec_timebasePllLoss hu, ?lost, ?reported, ?state, (frame_timePllLoss _).commit⟩, ?ptp, fun h => ?pps, fun h => ?irig,
    fun h => ?forbidden, fun h => ?permitted, fun v h => ?stale, fun v htag hprimary htakes => ?taken⟩
  case limit =>
    obtain ⟨c, hc, hexec⟩ := exec_holdLimitExceeded hu hs hl hd
    have hframe : Frame (withEvt [TIM_STATUS, TIM_EST_ERR]) Block.noTime s.block c := ⟨fun x _ => hc.1 x rfl, hc.2⟩
    refine ⟨_, hexec, ?_, ?_, (((hframe.setTimState (by decide)).showErr (by decide)).raise (withEvt_of_evtReg _)).commit⟩
    · exact (Block.get_commit _ _).trans ((get_raise _ _ _ (by decide)).trans ((syncState_showErr _).trans (syncState_setTimState _ _ (by decide))))
    · rw [pending_commit]
      exact pending_raise _ _
  case lost => rw [Block.get_commit, get_pllLost_timePllLoss]
  case reported =>
    rw [pending_commit]
    exact pending_raise _ _
  case state => exact (Block.get_commit _ _).trans (syncState_timePllLoss _)
  case ptp =>
    refine ⟨_, exec_sourceWatchdogExpiry hu srcPTP, ?_, ?_⟩
    · rw [Block.commit_tim, ← srcAlive_ptp]
      split
      next h => exact h
      · rw [srcAlive_sourcesLost, srcAlive_srcDead]
    · split
      · exact Frame.refl.commit
      · exact ((Frame.refl.srcDead srcPTP (by decide) hv3).sourcesLost (by decide) (by decide) (by decide) hv3).commit
  case pps =>
    refine ⟨_, exec_watchdog_live hu srcPPS h, ?_, ?_,
      ((Frame.refl.srcDead srcPPS (by decide) hv3).sourcesLost (by decide) (by decide) (by decide) hv3).commit⟩
    · rw [Block.commit_tim, ← srcAlive_pps, srcAlive_sourcesLost, srcAlive_srcDead]
    · rw [pending_commit]
      exact pending_sourcesLost _ _ (srcDead_pps _ ▸ pending_raise _ _)
  case irig =>
    have hlost := (Frame.refl (b := s.block.srcDead srcIRIG)).sourcesLost (by decide) (by decide) (by decide) hv3
    refine ⟨_, exec_watchdog_live hu srcIRIG h, ?_, ?_, ?_,
      ((Frame.refl.srcDead srcIRIG (fun _ => by decide) hv4).sourcesLost (by decide) (by decide) (by decide) hv4).commit⟩
    · rw [Block.commit_tim, ← srcAlive_irig, srcAlive_sourcesLost, srcAlive_srcDead]
    · rw [Block.get_commit, hlost.get _ (by decide), srcDead_irig, get_raise _ _ _ (by decide), get_irigValid_watchOver]
    · rw [pending_commit]
      exact pending_sourcesLost _ _ (srcDead_irig _ ▸ pending_raise _ _)
  case forbidden =>
    refine ⟨_, exec_stepCmd_forbidden hu h, ?_, (Frame.refl.raise (withEvt_of_evtReg _)).commit⟩
    rw [pending_commit]
    exact pending_raise _ _
  case permitted =>
    refine ⟨_, exec_stepCmd_permitted hu h, ?_, ?_⟩
    · rw [pending_commit, pending_timeStep]
    · rw [Block.get_commit, stepGen_timeStep]
  case stale =>
    obtain ⟨f, hf, hexec⟩ := exec_offsetSubmit hu v
    rw [if_neg h] at hexec
    refine ⟨_, hexec, ?_, ?_, (Frame.refl.modTim.count (by decide) (by decide) (withEvt_of_evtReg _)).commit⟩
    · rw [Block.rd_commit, rd_count_bit32 _ _ _ _ (by decide)]
      rfl
    · rw [Block.commit_tim, tim_of_own (own_count _ _ _ _ _)]
      exact hf _
  case taken =>
    obtain ⟨f, -, hexec⟩ := exec_offsetSubmit hu v
    rw [if_pos htag] at hexec
    refine ⟨_, hexec, ?_⟩
    rw [Block.rd_commit, measure_of_primary (s.block.modTim f) _ _ htakes hprimary, rd_estErr_accept _ _ (offNs_sgn_lt _)]

end Sys2Proof.Machine

/-! # Time signals and what the time base starts

PPS_IN, IRIG-B, comparators, pulse generators and base ticks (R98 to R101, R110, R113, R114). -/

namespace Sys2Proof.Machine

open Sys2Proof Sys2Proof.Reg

theorem SameRegs.ite {p : Nat → Bool} {a x y : Block} {c : Prop} [Decidable c] (hx : SameRegs p a x) (hy : SameRegs p a y) :
    SameRegs p a (if c then x else y) := by
  split
  · exact hx
  · exact hy

/-! PPS_IN (R98, R99) -/

section
variable (b : Block)

/-- An edge of PPS_IN is stamped with TIM_NOW and serves its watchdog. -/
def Block.ppsStamped : Block :=
  ((b.wr TIM_PPS_STAMP_FRAC (BitVec.ofNat 32 (b.stamp % 65536))).wr64 TIM_PPS_STAMP_LO b.ns).modTim
    fun t => { t with ppsAlive := true, ppsAt := t.elapsed / 2 ^ 32 }

theorem rd64_ppsStamped : b.ppsStamped.rd64 TIM_PPS_STAMP_LO = b.ns := by
  have hns : b.ns < 2 ^ 64 := Nat.mod_lt _ (by decide)
  exact (Block.rd64_wr64 _ _ _).trans (Nat.mod_eq_of_lt hns)

theorem frame_ppsReject : Frame measureReg Block.noTime b b.ppsReject :=
  (Frame.refl.count (by decide) (by decide) measureReg_of_evtReg).raiseEvery measureReg_of_evtReg

end

/-- Whether a stamped edge is stale, rejected or measured, it changes only what a measurement may. -/
theorem exec_ppsEdge {s : State} (hu : s.block.up) (r : Bool) (h : r ≠ s.block.on TIM_CTRL_PPS_POL) :
    ∃ c, exec (.ppsEdge r) s = .next ⟨c.commit, s.pending⟩ ∧ SameRegs measureReg s.block.ppsStamped c := by
  refine ⟨_, runAt_tim hu _, ?_⟩
  rw [if_neg h]
  have hrejected := fun f => (frame_ppsReject s.block.ppsStamped).modTim (f := f)
  have haccepted := fun f => (Frame.refl (p := measureReg) (b := s.block.ppsStamped)).modTim (f := f)
  have hrelocked := fun f g => (((hrejected f).modTim (f := g)).setTimState (st := timLOCKING) (by decide)).raise (n := 48) measureReg_of_evtReg
  exact .ite (fun _ _ => rfl) (.ite (frame_ppsReject _).1
    (.ite (.ite ((hrelocked _ _).1.trans (sameRegs_measure _ _ _)) (hrejected _).1) ((haccepted _).1.trans (sameRegs_measure _ _ _))))

/-! IRIG-B (R100, R101) -/

section
variable (b : Block)

theorem get_formatErr_irigBad : (b.irigBad TIM_IRIG_STAT_FORMAT_ERR).get TIM_IRIG_STAT_FORMAT_ERR = 1 :=
  (get_raise _ _ _ (by decide)).trans ((Block.get_set_ne _ _ _ _ (by decide) (by decide)).trans (Block.get_set_self _ _ _ (by decide)))

theorem get_valid_irigBad (f : Fld) : (b.irigBad f).get TIM_IRIG_STAT_VALID = 0 :=
  (get_raise _ _ _ (by decide)).trans (Block.get_set_self _ _ _ (by decide))

theorem frame_irigBad {p : Nat → Bool} {a : Block} {f : Fld} (h : Frame p Block.noTime a b) (hf : p f.addr = true) (hi : p TIM_IRIG_STAT = true)
    (hv : ∀ y, evtReg y = true → p y = true) : Frame p Block.noTime a (b.irigBad f) := ((h.modTim.set hf).set hi).raise hv

/-- Does the second of a frame follow that of the frame before? -/
def Block.irigFollows (sec : Nat) : Bool := b.tim.irigSec == some (sec - 1)

/-- A sound frame of second sec, its marker's edge in 2⁻¹⁶ ns. -/
def Block.irigNoted (sec edge : Nat) : Block :=
  let c := b.modTim fun t => { t with
    irigSec := some sec, irigEdge := edge, irigValid := b.irigFollows sec, irigAlive := true, irigAt := t.elapsed / 2 ^ 32 }
  ((c.set TIM_IRIG_STAT_NO_YEAR 0).set TIM_IRIG_STAT_VALID (if b.irigFollows sec then 1 else 0)).wr64 TIM_IRIG_SEC_LO sec

theorem rd64_irigNoted (sec edge : Nat) : (b.irigNoted sec edge).rd64 TIM_IRIG_SEC_LO = sec % 2 ^ 64 := Block.rd64_wr64 _ _ _

theorem get_noYear_irigNoted (sec edge : Nat) : (b.irigNoted sec edge).get TIM_IRIG_STAT_NO_YEAR = 0 :=
  (Block.get_wr_ne _ (by decide) _).trans ((Block.get_wr_ne _ (by decide) _).trans
    ((Block.get_set_ne _ _ _ _ (by decide) (by decide)).trans (Block.get_set_self _ _ _ (by decide))))

theorem irigExt_advanceTo (ns : Nat) : (b.advanceTo ns).irigExt = b.irigExt := by
  rw [Block.irigExt, on_advanceTo, get_advanceTo, Block.irigExt]

end

/-- The instant of a frame's marker edge in ns. -/
abbrev irigEdgeNs (f : IrigFrame) : Nat := (f.edge + 65535) / 65536

theorem exec_irigbFrame_malformed {s : State} (hu : s.block.up) (f : IrigFrame) (h : irigShape f.widths = false) :
    exec (.irigbFrame f) s = .next ⟨((s.block.advanceTo (irigEdgeNs f)).irigBad TIM_IRIG_STAT_FORMAT_ERR).commit, s.pending⟩ := by
  refine (runAt_tim hu _).trans ?_
  rw [if_pos (.inl h)]

/-- A sound frame is noted, and one that follows the last is measured. -/
def Block.irigTaken (b : Block) (f : IrigFrame) (sec : Nat) : Block :=
  let edge := f.edge - b.get TIM_IRIG_CFG_DELAY * 65536
  if b.irigFollows sec then (b.irigNoted sec edge).measure srcIRIG ((((edge / 4096 : Nat)) : Int) - ((sec * 16000000000 : Nat) : Int))
  else b.irigNoted sec edge

theorem sameRegs_irigTaken (b : Block) (f : IrigFrame) (sec : Nat) :
    SameRegs measureReg (b.irigNoted sec (f.edge - b.get TIM_IRIG_CFG_DELAY * 65536)) (b.irigTaken f sec) :=
  .ite (sameRegs_measure _ _ _) fun _ _ => rfl

theorem exec_irigbFrame_sound {s : State} (hu : s.block.up) (f : IrigFrame) (sec : Nat) (hshape : irigShape f.widths = true)
    (hcode : f.code = s.block.get TIM_IRIG_CFG_CODE) (hparity : s.block.irigExt = false ∨ f.parity = true)
    (hsec : (s.block.advanceTo (irigEdgeNs f)).irigTai f = some sec) :
    exec (.irigbFrame f) s = .next ⟨((s.block.advanceTo (irigEdgeNs f)).irigTaken f sec).commit, s.pending⟩ := by
  have hform : ¬(irigShape f.widths = false ∨ f.code ≠ (s.block.advanceTo (irigEdgeNs f)).get TIM_IRIG_CFG_CODE) := by
    rw [get_advanceTo]
    simp [hshape, hcode]
  have hcheck : ¬((s.block.advanceTo (irigEdgeNs f)).irigExt = true ∧ f.parity = false) := by
    rw [irigExt_advanceTo]
    rcases hparity with h | h <;> simp [h]
  refine (runAt_tim hu _).trans ?_
  rw [if_neg hform, if_neg hcheck, hsec]
  rfl

/-! Comparators (R113) -/

/-- Comparator n with target t fires: late where TIM_NOW is more than 8 ns past the target. -/
def Block.cmpFired (b : Block) (n t : Nat) : Block :=
  ((b.set (TIM_CMPn_CTRL_ARM n) 0).set (TIM_CMPn_CTRL_FIRED n) 1).setIf (decide (t + 8 < b.ns)) (TIM_CMPn_CTRL_LATE n) 1

/-- The event of comparator n, where CTRL asks for it. -/
def Block.cmpReported (b : Block) (n : Nat) : Block := b.raiseIf (b.on (TIM_CMPn_CTRL_EVT n)) (if n < 32 then 57 else 58)

/-- The trigger of the acquisition engine and the start of a generator, where CTRL asks for them. -/
def Block.cmpTriggered (b : Block) (n t : Nat) : Block := b.doIf (b.on (TIM_CMPn_CTRL_ACQ n)) fun b => b.acqSource 4 n (t * 65536) false

def Block.cmpStarted (b : Block) (n : Nat) : Block :=
  let g := b.get (TIM_CMPn_CTRL_PG n)
  b.doIf (b.on (TIM_CMPn_CTRL_PG_START n) && b.on (TIM_PGg_CTRL_EN g) &&
      (!b.on (TIM_PGg_CTRL_RUNNING g) || b.tim.pgWait.get (fun _ => false) g))
    fun b => b.pgStart g (b.extend40 (b.tim.pgTaken.get (fun _ => 0) n) * 65536) 8

section
variable (b : Block) (n t : Nat)

theorem cmpTriggered_eq_self (h : b.on (TIM_CMPn_CTRL_ACQ n) = false) : b.cmpTriggered n t = b := by
  rw [Block.cmpTriggered, h, Block.doIf_false]

theorem cmpStarted_eq_self (h : b.on (TIM_CMPn_CTRL_PG_START n) = false) : b.cmpStarted n = b := by
  rw [Block.cmpStarted, h, Bool.false_and, Bool.false_and, Block.doIf_false]

/-- LATE leaves every other field of CTRL. -/
theorem get_setIf_late (c : Bool) (f : Fld) (hw : f.lo + f.width ≤ 32) (hf : 29 ≤ f.lo ∨ f.lo + f.width ≤ 28) :
    (b.setIf c (TIM_CMPn_CTRL_LATE n) 1).get f = b.get f := by
  cases c
  · rfl
  · exact Block.get_set_ne _ _ _ _ (.inr (by simp only [TIM_CMPn_CTRL_LATE]; omega)) hw

theorem get_arm_cmpFired : (b.cmpFired n t).get (TIM_CMPn_CTRL_ARM n) = 0 := by
  rw [Block.cmpFired, get_setIf_late _ _ _ _ (by simp [TIM_CMPn_CTRL_ARM]) (.inl (by simp [TIM_CMPn_CTRL_ARM])),
    Block.get_set_ne _ _ _ _ (.inr (by simp [TIM_CMPn_CTRL_ARM, TIM_CMPn_CTRL_FIRED])) (by simp [TIM_CMPn_CTRL_ARM]),
    Block.get_set_self _ _ _ (by simp [TIM_CMPn_CTRL_ARM]), Nat.zero_mod]

theorem get_fired_cmpFired : (b.cmpFired n t).get (TIM_CMPn_CTRL_FIRED n) = 1 := by
  rw [Block.cmpFired, get_setIf_late _ _ _ _ (by simp [TIM_CMPn_CTRL_FIRED]) (.inl (by simp [TIM_CMPn_CTRL_FIRED])),
    Block.get_set_self _ _ _ (by simp [TIM_CMPn_CTRL_FIRED])]
  rfl

/-- What CTRL asks a comparator to do is not changed by its firing. -/
theorem on_cmpFired (f : Fld) (hf : f.lo + f.width ≤ 27) : (b.cmpFired n t).on f = b.on f := by
  rw [Block.on, Block.cmpFired, get_setIf_late _ _ _ _ (by omega) (.inr (by omega)),
    Block.get_set_ne _ _ _ _ (.inr (by simp only [TIM_CMPn_CTRL_FIRED]; omega)) (by omega),
    Block.get_set_ne _ _ _ _ (.inr (by simp only [TIM_CMPn_CTRL_ARM]; omega)) (by omega), Block.on]

theorem get_cmpReported (f : Fld) (hf : f.addr = TIM_CMPn_CTRL n) (hn : n < 64) : (b.cmpReported n).get f = b.get f :=
  get_raiseIf _ _ _ f (hf ▸ evtReg_cmpCtrl n hn)

theorem on_cmpReported (f : Fld) (hf : f.addr = TIM_CMPn_CTRL n) (hn : n < 64) : (b.cmpReported n).on f = b.on f := by
  rw [Block.on, get_cmpReported _ _ _ hf hn, Block.on]

theorem frame_cmpFired {a : Block} (h : Frame (withEvt [TIM_CMPn_CTRL n]) Block.noTime a b) :
    Frame (withEvt [TIM_CMPn_CTRL n]) Block.noTime a ((b.cmpFired n t).cmpReported n) := by
  have hctrl := withEvt_singleton (TIM_CMPn_CTRL n)
  exact (Frame.setIf (f := TIM_CMPn_CTRL_LATE n) (Frame.set (f := TIM_CMPn_CTRL_FIRED n) (Frame.set (f := TIM_CMPn_CTRL_ARM n) h hctrl) hctrl)
    hctrl).raiseIf (withEvt_of_evtReg _)

end

theorem exec_comparatorFire {s : State} (hu : s.block.up) (n : Nat) (hn : n < 64) (harm : s.block.on (TIM_CMPn_CTRL_ARM n) = true)
    (hacq : s.block.on (TIM_CMPn_CTRL_ACQ n) = false) (hpg : s.block.on (TIM_CMPn_CTRL_PG_START n) = false) :
    ∃ t, exec (.comparatorFire n) s = .next ⟨(((s.block.advanceTo t).cmpFired n t).cmpReported n).commit, s.pending⟩ := by
  have hasks : ∀ t f, f.addr = TIM_CMPn_CTRL n → f.lo + f.width ≤ 27 → s.block.on f = false →
      (((s.block.advanceTo t).cmpFired n t).cmpReported n).on f = false := fun t f haddr hf hoff => by
    rw [on_cmpReported _ _ _ haddr hn, on_cmpFired _ _ _ _ hf, on_advanceTo, hoff]
  refine ⟨s.block.extend40 (s.block.cmpTarget n), (runAt_tim hu _).trans ?_⟩
  rw [if_neg (by simp [harm, hn])]
  generalize s.block.extend40 (s.block.cmpTarget n) = t
  have hquiet := hasks t (TIM_CMPn_CTRL_ACQ n) rfl (by simp [TIM_CMPn_CTRL_ACQ]) hacq
  have hlone := hasks t (TIM_CMPn_CTRL_PG_START n) rfl (by simp [TIM_CMPn_CTRL_PG_START]) hpg
  change (.next ⟨((((s.block.advanceTo t).cmpFired n t).cmpReported n).cmpTriggered n t |>.cmpStarted n).commit, s.pending⟩ :
    Host.Outcome State Fault Refusal) = _
  rw [cmpTriggered_eq_self _ _ _ hquiet, cmpStarted_eq_self _ _ hlone]

/-! Pulse generators (R114) -/

/-- Generator g runs from base time t0, its next pulse j. -/
def Block.pgRunning (b : Block) (g t0 j : Nat) : Block :=
  (b.modTim (fun t => { t with pgT0 := (g, t0) :: t.pgT0, pgNext := (g, j) :: t.pgNext, pgWait := (g, false) :: t.pgWait })).set
    (TIM_PGg_CTRL_RUNNING g) 1

section
variable (b : Block) (g : Nat)

theorem pgCount_congr {b c : Block} (hperiod : c.rd (TIM_PGg_PERIOD g) = b.rd (TIM_PGg_PERIOD g))
    (hcount : c.rd (TIM_PGg_COUNT g) = b.rd (TIM_PGg_COUNT g)) : c.pgCount g = b.pgCount g := by
  rw [Block.pgCount, hperiod, hcount, Block.pgCount]

theorem pgCount_pgRunning (t0 j : Nat) : (b.pgRunning g t0 j).pgCount g = b.pgCount g :=
  pgCount_congr g (Block.rd_set_ne _ (by simp only [TIM_PGg_CTRL_RUNNING, TIM_PGg_CTRL, TIM_PGg_PERIOD]; omega) _)
    (Block.rd_set_ne _ (by simp only [TIM_PGg_CTRL_RUNNING, TIM_PGg_CTRL, TIM_PGg_COUNT]; omega) _)

theorem pgCount_advanceTo (ns : Nat) : (b.advanceTo ns).pgCount g = b.pgCount g := pgCount_congr g (rd_advanceTo b ns _) (rd_advanceTo b ns _)

/-- A started generator runs, or has no pulse left of a finite train and stops at once. -/
theorem pgStart_cases (t0 slack : Nat) : ∃ j, b.pgStart g t0 slack = b.pgRunning g t0 j ∨
    (b.pgCount g ≠ 0 ∧ b.pgStart g t0 slack = (b.pgRunning g t0 j).pgStop g) := by
  refine ⟨b.pgFirst g t0 (b.stamp - slack * 65536), ?_⟩
  have hcount := pgCount_pgRunning b g t0 (b.pgFirst g t0 (b.stamp - slack * 65536))
  unfold Block.pgStart
  dsimp only
  split
  next h => exact .inr ⟨fun hendless => h.1 (hcount.trans hendless), rfl⟩
  · exact .inl rfl

theorem tim_pgStop : (b.pgStop g).tim = b.tim := tim_of_own (own_raise _ _)

theorem pgT0_pgRunning (t0 j : Nat) : (b.pgRunning g t0 j).tim.pgT0.get (fun _ => 0) g = t0 := Sparse.get_cons_self _ _ _ _

theorem pgT0_pgStart (t0 slack : Nat) : (b.pgStart g t0 slack).tim.pgT0.get (fun _ => 0) g = t0 := by
  obtain ⟨j, h | ⟨-, h⟩⟩ := pgStart_cases b g t0 slack
  · rw [h, pgT0_pgRunning]
  · rw [h, tim_pgStop, pgT0_pgRunning]

/-- An unending train runs once it has started. -/
theorem get_running_pgStart (t0 slack : Nat) (hendless : b.pgCount g = 0) : (b.pgStart g t0 slack).get (TIM_PGg_CTRL_RUNNING g) = 1 := by
  obtain ⟨j, h | ⟨hfinite, -⟩⟩ := pgStart_cases b g t0 slack
  · rw [h, Block.pgRunning, Block.get_set_self _ _ _ (by simp [TIM_PGg_CTRL_RUNNING])]
    rfl
  · exact absurd hendless hfinite

theorem frame_pgStop {k : Block → Block} {a : Block} (h : Frame (withEvt [TIM_PGg_CTRL g]) k a b) :
    Frame (withEvt [TIM_PGg_CTRL g]) k a (b.pgStop g) :=
  (Frame.set (f := TIM_PGg_CTRL_RUNNING g) h (withEvt_singleton (TIM_PGg_CTRL g))).raise (withEvt_of_evtReg _)

theorem frame_pgStart {a : Block} (t0 slack : Nat) (h : Frame (withEvt [TIM_PGg_CTRL g]) Block.noTime a b) :
    Frame (withEvt [TIM_PGg_CTRL g]) Block.noTime a (b.pgStart g t0 slack) := by
  have hrunning : ∀ j, Frame (withEvt [TIM_PGg_CTRL g]) Block.noTime a (b.pgRunning g t0 j) := fun j =>
    Frame.set (f := TIM_PGg_CTRL_RUNNING g) h.modTim (withEvt_singleton (TIM_PGg_CTRL g))
  obtain ⟨j, h | ⟨-, h⟩⟩ := pgStart_cases b g t0 slack <;> rw [h]
  · exact hrunning j
  · exact frame_pgStop _ g (hrunning j)

theorem get_running_pgStop (hg : g < 8) : (b.pgStop g).get (TIM_PGg_CTRL_RUNNING g) = 0 := by
  rw [Block.pgStop, get_raise _ _ (TIM_PGg_CTRL_RUNNING g) (evtReg_pgCtrl g hg),
    Block.get_set_self _ _ _ (by simp [TIM_PGg_CTRL_RUNNING]), Nat.zero_mod]

/-- When the next pulse of generator g begins, in 2⁻¹⁶ ns. -/
def Block.pulseAt : Nat := b.tim.pgT0.get (fun _ => 0) g + b.tim.pgNext.get (fun _ => 0) g * b.pgPeriod g

/-- A pulse that begins at t and is not suppressed ends at its width, and acts as OUT says. -/
def Block.pulseMade (t : Nat) : Block :=
  let w := (b.rd (TIM_PGg_WIDTH g)).toNat
  let out := b.get (TIM_PGg_CTRL_OUT g)
  let c := b.modTim fun x => { x with pgEnd := (g, t + w * 65536) :: x.pgEnd }
  if out = 6 then c.acqSource 5 0 t false
  else if 1 ≤ out ∧ out ≤ 5 then c.emit (.pulse out t w (out == 1 && !c.on (TIM_PGg_CTRL_POL g)))
  else c

/-- The next pulse counted. -/
def Block.pulseCounted (j : Nat) : Block := b.modTim fun x => { x with pgNext := (g, j) :: x.pgNext }

/-- A pulse that has begun is suppressed with SYNC_ONLY while the time base is not synchronised. -/
def Block.pulseBegun (t : Nat) : Block :=
  if b.on (TIM_PGg_CTRL_SYNC_ONLY g) ∧ (b.syncState = timFREE ∨ b.syncState = timEXCEEDED) then b else b.pulseMade g t

/-- The next pulse of generator g. -/
def Block.pulsed : Block :=
  ((b.advanceTo ((b.pulseAt g + 65535) / 65536)).pulseCounted g (b.tim.pgNext.get (fun _ => 0) g + 1)).pulseBegun g (b.pulseAt g)

theorem pgNext_pulseCounted (j : Nat) : (b.pulseCounted g j).tim.pgNext.get (fun _ => 0) g = j := Sparse.get_cons_self _ _ _ _

theorem get_pulseCounted (j : Nat) (f : Fld) : (b.pulseCounted g j).get f = b.get f := rfl

theorem pgNext_ended (e : Nat) : (b.modTim fun x => { x with pgEnd := (g, e) :: x.pgEnd }).tim.pgNext = b.tim.pgNext := rfl

section
variable (t : Nat) (hout : b.get (TIM_PGg_CTRL_OUT g) ≠ 6)
include hout

theorem pgNext_pulseBegun : (b.pulseBegun g t).tim.pgNext = b.tim.pgNext := by
  unfold Block.pulseBegun Block.pulseMade
  dsimp only
  rw [if_neg hout]
  split
  · rfl
  · split
    · rw [Block.emit_tim, pgNext_ended]
    · exact pgNext_ended _ _ _

theorem frame_pulseBegun {p : Nat → Bool} {a : Block} (h : Frame p Block.noTime a b) : Frame p Block.noTime a (b.pulseBegun g t) := by
  unfold Block.pulseBegun Block.pulseMade
  dsimp only
  rw [if_neg hout]
  exact .ite (fun _ => h) fun _ => .ite (fun _ => h.modTim.emit) fun _ => h.modTim

end

section
variable (hout : b.get (TIM_PGg_CTRL_OUT g) ≠ 6)
include hout

theorem out_pulseCounted (ns j : Nat) : ((b.advanceTo ns).pulseCounted g j).get (TIM_PGg_CTRL_OUT g) ≠ 6 := by
  rwa [get_pulseCounted, get_advanceTo]

theorem pgNext_pulsed : (b.pulsed g).tim.pgNext.get (fun _ => 0) g = b.tim.pgNext.get (fun _ => 0) g + 1 := by
  rw [Block.pulsed, pgNext_pulseBegun _ _ _ (out_pulseCounted b g hout _ _), pgNext_pulseCounted]

theorem frame_pulsed {p : Nat → Bool} : Frame p Block.noTime b (b.pulsed g) :=
  frame_pulseBegun _ _ _ (out_pulseCounted b g hout _ _) Frame.refl.advanceTo.modTim

end

/-- The base time of a start event now, in ns: the next whole second with ALIGN_SEC, else START. -/
def Block.pgBase : Nat :=
  if b.on (TIM_PGg_CTRL_ALIGN_SEC g) then (b.ns + 999999999) / 1000000000 * 1000000000
  else b.extend40 (b.rd64 (TIM_PGg_START_LO g) % 2 ^ 40)

end

section
variable {s : State} (hu : s.block.up) (g : Nat) (hg : g < 8)
include hu hg

theorem exec_pgStart (hen : s.block.on (TIM_PGg_CTRL_EN g) = true) (hrun : s.block.on (TIM_PGg_CTRL_RUNNING g) = false) :
    ∃ slack, exec (.pgStart g) s =
      .next ⟨((s.block.advanceTo (s.block.pgBase g)).pgStart g (s.block.pgBase g * 65536) slack).commit, s.pending⟩ := by
  have hready : ¬(8 ≤ g ∨ s.block.on (TIM_PGg_CTRL_EN g) = false ∨
      (s.block.on (TIM_PGg_CTRL_RUNNING g) = true ∧ s.block.tim.pgWait.get (fun _ => false) g = false)) := by simp [hen, hrun, hg]
  refine ⟨if s.block.on (TIM_PGg_CTRL_ALIGN_SEC g) then 8 else 0, (runAt_tim hu _).trans ?_⟩
  rw [if_neg hready, Block.pgBase]
  split <;> rfl

/-- A generator that runs comes to its next pulse (R114). -/
theorem exec_pgPulse (hen : s.block.on (TIM_PGg_CTRL_EN g) = true) (hrun : s.block.on (TIM_PGg_CTRL_RUNNING g) = true)
    (hwait : s.block.tim.pgWait.get (fun _ => false) g = false) (hendless : s.block.pgCount g = 0) :
    exec (.pgPulse g) s = .next ⟨(s.block.pulsed g).commit, s.pending⟩ := by
  have hready : ¬(8 ≤ g ∨ s.block.on (TIM_PGg_CTRL_EN g) = false ∨ s.block.on (TIM_PGg_CTRL_RUNNING g) = false ∨
      s.block.tim.pgWait.get (fun _ => false) g = true ∨
      (s.block.pgCount g ≠ 0 ∧ s.block.pgCount g ≤ s.block.tim.pgNext.get (fun _ => 0) g)) := by
    simp [hen, hrun, hwait, hendless, hg]
  refine (runAt_tim hu _).trans ?_
  rw [if_neg hready]
  rfl

theorem exec_pgTrainDone (hrun : s.block.on (TIM_PGg_CTRL_RUNNING g) = true) (hfinite : s.block.pgCount g ≠ 0)
    (hdone : s.block.pgCount g ≤ s.block.tim.pgNext.get (fun _ => 0) g) :
    exec (.pgTrainDone g) s = .next ⟨(s.block.pgStop g).commit, s.pending⟩ := by
  refine (runAt_tim hu _).trans ?_
  rw [if_pos ⟨hg, hrun, hfinite, hdone⟩]

end

/-! Base ticks (R110) -/

theorem exec_tickIssue {s : State} (hu : s.block.up) (b : Block) (hb : b = s.block.advanceTo (tickNs s.block.tickRate (s.block.lastTick + 1)))
    (hn : b.lastTick < latestTick b.tickRate b.ns) :
    exec .tickIssue s = .next ⟨(b.issueTick (latestTick b.tickRate b.ns)).commit, s.pending⟩ := by
  subst hb
  refine (runAt_tim hu _).trans ?_
  rw [if_pos hn]

/-- Settles O14: each command by the equation of its meaning; what follows a stamped edge or a noted frame by what a measurement leaves. -/
theorem timeSignalsAndTicks : Obligations.TimeSignalsAndTicks := by
  intro s hu
  refine ⟨fun r hr => ?pps, fun f hf => ?malformed, fun f sec hshape hcode hparity hsec => ?sound, fun n hn harm hacq hpg => ?fire,
    fun g hg hen hrun => ?start, fun g hg hen hrun hwait hendless hout => ?pulse, fun g hg hrun hfinite hdone => ?done,
    fun n b hb hn hlast => ?tick⟩
  case pps =>
    obtain ⟨c, hexec, hkeeps⟩ := exec_ppsEdge hu r hr
    refine ⟨_, hexec, ?_⟩
    rw [Block.rd64_commit, Block.rd64_congr (hkeeps TIM_PPS_STAMP_LO (by decide)) (hkeeps (TIM_PPS_STAMP_LO + 4) (by decide)), rd64_ppsStamped]
  case malformed =>
    refine ⟨_, exec_irigbFrame_malformed hu f hf, ?_, ?_, ?_,
      (frame_irigBad _ Frame.refl.advanceTo (by decide) (by decide) (withEvt_of_evtReg _)).commit⟩
    · rw [Block.get_commit, get_formatErr_irigBad]
    · rw [Block.get_commit, get_valid_irigBad]
    · rw [pending_commit]
      exact pending_raise _ _
  case sound =>
    have hkeeps := sameRegs_irigTaken (s.block.advanceTo (irigEdgeNs f)) f sec
    refine ⟨_, exec_irigbFrame_sound hu f sec hshape hcode hparity hsec, ?_, ?_⟩
    · rw [Block.rd64_commit, Block.rd64_congr (hkeeps TIM_IRIG_SEC_LO (by decide)) (hkeeps (TIM_IRIG_SEC_LO + 4) (by decide)), rd64_irigNoted]
    · rw [Block.get_commit, hkeeps.get _ (by decide), get_noYear_irigNoted]
  case fire =>
    obtain ⟨t, hexec⟩ := exec_comparatorFire hu n hn harm hacq hpg
    refine ⟨_, hexec, ?_, ?_, fun hevt => ?_, (frame_cmpFired _ n t Frame.refl.advanceTo).commit⟩
    · rw [Block.get_commit, get_cmpReported _ _ _ rfl hn, get_arm_cmpFired]
    · rw [Block.get_commit, get_cmpReported _ _ _ rfl hn, get_fired_cmpFired]
    · rw [pending_commit, Block.cmpReported, on_cmpFired _ _ _ _ (by simp [TIM_CMPn_CTRL_EVT]), on_advanceTo, hevt, Block.raiseIf_true]
      exact pending_raise _ _
  case start =>
    obtain ⟨slack, hexec⟩ := exec_pgStart hu g hg hen hrun
    refine ⟨_, hexec, ?_, fun hendless => ?_, (frame_pgStart _ g _ _ Frame.refl.advanceTo).commit⟩
    · rw [Block.commit_tim, pgT0_pgStart, Nat.mul_comm, Block.pgBase]
    · rw [Block.get_commit, get_running_pgStart _ _ _ _ ((pgCount_advanceTo _ _ _).trans hendless)]
  case pulse =>
    refine ⟨_, exec_pgPulse hu g hg hen hrun hwait hendless, ?_, (frame_pulsed _ g hout).commit⟩
    rw [Block.commit_tim, pgNext_pulsed _ _ hout]
  case done =>
    refine ⟨_, exec_pgTrainDone hu g hg hrun hfinite hdone, ?_, ?_, (frame_pgStop _ g Frame.refl).commit⟩
    · rw [Block.get_commit, get_running_pgStop _ _ hg]
    · rw [pending_commit]
      exact pending_raise _ _
  case tick =>
    subst hn
    exact exec_tickIssue hu b hb hlast

end Sys2Proof.Machine

/-! # The switch core and the station ports

The tables of the switch core (R155, R164, R167, R186), the wake of a station port from low-power idle (R175) and the Belay gate (R169,
R170): one equation per command in a module that is up, with what the operations on the tables leave behind. -/

namespace Sys2Proof.Machine

open Sys2Proof Sys2Proof.Reg

theorem units_swc_pos (m : Member) : 0 < m.units .swc := by cases m <;> decide

/-- In a module that is up a command of the switch core ends in a next state. -/
theorem runAt_swc {s : State} (hu : s.block.up) (f : Block → Block) : runAt .swc f s = .next ⟨(f s.block).commit, s.pending⟩ :=
  runAt_eq .swc f s (released_up _ hu .swc) (units_swc_pos _)

/-- A change of the switch core's own state alone. -/
theorem Frame.modSwc {p : Nat → Bool} {a b : Block} {f : Swc → Swc} (h : Frame p Block.noSwc a b) : Frame p Block.noSwc a (b.modSwc f) := h.unit rfl rfl rfl

/-! The forwarding database (R155) -/

/-- The database without an entry of the key. -/
def Block.fdbDrop (b : Block) (v m : Nat) : Block := b.modSwc fun w => { w with fdb := w.fdb.filter fun e => !(e.vid == v && e.mac == m) }

/-- The database without its learned entries. -/
def Block.fdbKeepStatic (b : Block) : Block := b.modSwc fun w => { w with fdb := w.fdb.filter fun e => e.static }

/-- The answer of a command of the database (R186). -/
def Block.fdbAnswer (b : Block) (r : Nat) : Block := b.set SWC_FDB_CMD_RESULT r

/-- What SWC_FDB_RES shows of an entry. -/
def FdbEntry.resWord (e : FdbEntry) : Word := BitVec.ofNat 32 (2 ^ 25 + (if e.static then 2 ^ 24 else 0) + e.mask)

theorem Frame.fdbAnswer {p : Nat → Bool} {k : Block → Block} {a b : Block} {r : Nat} (h : Frame p k a b) (hp : p SWC_FDB_CMD = true) :
    Frame p k a (b.fdbAnswer r).commit := (h.set hp).commit

section
variable (b : Block) (v m : Nat)

theorem fdbFind_commit : b.commit.fdbFind v m = b.fdbFind v m := rfl

theorem fdbFind_fdbAnswer (r : Nat) : (b.fdbAnswer r).commit.fdbFind v m = b.fdbFind v m := rfl

theorem fdbFind_fdbDrop : (b.fdbDrop v m).fdbFind v m = none :=
  List.find?_eq_none.mpr fun _ he => ne_true_of_eq_false ((Bool.not_eq_true' _).mp (List.mem_filter.mp he).2)

theorem fdbFind_fdbPut (x : FdbEntry) : (b.fdbPut x).fdbFind x.vid x.mac = some x := List.find?_cons_of_pos (by simp)

theorem mem_fdbKeepStatic (e : FdbEntry) : e ∈ b.fdbKeepStatic.swc.fdb ↔ e ∈ b.swc.fdb ∧ e.static = true := List.mem_filter

theorem get_result_fdbAnswer (r : Nat) (h : r < 4) : (b.fdbAnswer r).commit.get SWC_FDB_CMD_RESULT = r := by
  rw [Block.get_commit]
  exact (Block.get_set_self b SWC_FDB_CMD_RESULT r (by decide)).trans (Nat.mod_eq_of_lt h)

theorem frame_fdbDrop {p : Nat → Bool} : Frame p Block.noSwc b (b.fdbDrop v m) := Frame.refl.modSwc

theorem frame_fdbPut {p : Nat → Bool} (x : FdbEntry) : Frame p Block.noSwc b (b.fdbPut x) := Frame.refl.modSwc

theorem frame_fdbKeepStatic {p : Nat → Bool} : Frame p Block.noSwc b b.fdbKeepStatic := Frame.refl.modSwc

/-- What an aged entry leaves changes the time base and the switch core alone. -/
theorem frame_fdbDrop_advanceTo {p : Nat → Bool} (ns : Nat) : Frame p (fun x => x.noSwc.noTime) b ((b.advanceTo ns).fdbDrop v m) := by
  unfold Block.advanceTo
  split
  · exact Frame.refl.unit rfl rfl rfl
  · exact Frame.refl.unit rfl rfl rfl

theorem rd_res_fdbAnswer (w : Word) (r : Nat) : ((b.wr SWC_FDB_RES w).fdbAnswer r).commit.rd SWC_FDB_RES = w := by
  rw [Block.rd_commit, Block.fdbAnswer, Block.rd_set_ne _ (by decide), Block.rd_wr_self]

theorem frame_res_fdbAnswer (w : Word) (r : Nat) :
    Frame (within [SWC_FDB_RES, SWC_FDB_CMD]) id b ((b.wr SWC_FDB_RES w).fdbAnswer r).commit :=
  (Frame.refl.wr (by decide)).fdbAnswer (by decide)

end

/-! Commands of the database (R155, R186) -/

section
variable {s : State} (hu : s.block.up)
include hu

theorem exec_fdbRead_found (e : FdbEntry) (h : s.block.fdbFind s.block.fdbKey.1 s.block.fdbKey.2 = some e) :
    exec .fdbRead s = .next ⟨((s.block.wr SWC_FDB_RES e.resWord).fdbAnswer 0).commit, s.pending⟩ :=
  (runAt_swc hu _).trans (by rw [h]; rfl)

theorem exec_fdbRead_absent (h : s.block.fdbFind s.block.fdbKey.1 s.block.fdbKey.2 = none) :
    exec .fdbRead s = .next ⟨((s.block.wr SWC_FDB_RES 0).fdbAnswer 1).commit, s.pending⟩ :=
  (runAt_swc hu _).trans (by rw [h]; rfl)

/-- The write of a valid entry with room in its bucket. -/
theorem exec_fdbWrite_valid (hv : s.block.on SWC_FDB_RES_VALID = true)
    (hroom : s.block.fdbFull s.block.fdbKey.1 s.block.fdbKey.2 = false) :
    exec .fdbWrite s = .next ⟨((s.block.fdbPut ⟨s.block.fdbKey.1, s.block.fdbKey.2, s.block.on SWC_FDB_RES_STATIC,
      s.block.get SWC_FDB_RES_MASK, s.block.ns⟩).fdbAnswer 0).commit, s.pending⟩ := by
  refine (runAt_swc hu _).trans ?_
  rw [Block.fdbWrite, hv, if_neg (by decide), hroom, Bool.and_false, if_neg (by decide)]
  rfl

theorem exec_fdbWrite_invalid (hv : s.block.on SWC_FDB_RES_VALID = false) :
    exec .fdbWrite s = .next ⟨((s.block.fdbDrop s.block.fdbKey.1 s.block.fdbKey.2).fdbAnswer 0).commit, s.pending⟩ := by
  refine (runAt_swc hu _).trans ?_
  rw [Block.fdbWrite, hv, if_pos (by decide)]
  rfl

theorem exec_fdbDelete_found (h : (s.block.fdbFind s.block.fdbKey.1 s.block.fdbKey.2).isSome = true) :
    exec .fdbDelete s = .next ⟨((s.block.fdbDrop s.block.fdbKey.1 s.block.fdbKey.2).fdbAnswer 0).commit, s.pending⟩ := by
  obtain ⟨e, he⟩ := Option.isSome_iff_exists.mp h
  exact (runAt_swc hu _).trans (by simp only [he]; rfl)

theorem exec_fdbDelete_absent (h : s.block.fdbFind s.block.fdbKey.1 s.block.fdbKey.2 = none) :
    exec .fdbDelete s = .next ⟨(s.block.fdbAnswer 1).commit, s.pending⟩ :=
  (runAt_swc hu _).trans (by simp only [h]; rfl)

theorem exec_fdbFlushLearned : exec .fdbFlushLearned s = .next ⟨(s.block.fdbKeepStatic.fdbAnswer 0).commit, s.pending⟩ := runAt_swc hu _

/-- A learned entry ages out at the end of its time, or now. -/
theorem exec_fdbEntryAge_learned (v m : Nat) (e : FdbEntry) (h : s.block.fdbFind v m = some e) (hl : e.static = false) :
    ∃ ns, exec (.fdbEntryAge v m) s = .next ⟨((s.block.advanceTo ns).fdbDrop v m).commit, s.pending⟩ :=
  ⟨_, (runAt_swc hu _).trans (by simp only [h, hl]; rfl)⟩

theorem exec_lagBucketWrite (k w : Nat) (v : Word) (hk : k < 4) (hw : w < 16) :
    exec (.lagBucketWrite k w v) s = .next ⟨(s.block.wr (SWC_LAGk_BUCKETw k w) v).commit, s.pending⟩ :=
  (runAt_swc hu _).trans (by rw [if_pos ⟨hk, hw⟩])

theorem exec_mirrorConsWrite (m : Nat) (v : Word) (hm : m < 4) :
    exec (.mirrorConsWrite m v) s = .next ⟨(s.block.wr (SWC_MIRm_CONS m) v).commit, s.pending⟩ :=
  (runAt_swc hu _).trans (by rw [if_pos hm])

end

/-- A word that software writes is held, and nothing else changes. -/
theorem wr_held (b : Block) (a : Nat) (v : Word) : (b.wr a v).commit.rd a = v ∧ Frame (within [a]) id b (b.wr a v).commit :=
  ⟨by rw [Block.rd_commit, Block.rd_wr_self], (Frame.refl.wr (within_singleton a)).commit⟩

/-- Settles O17: each command by the equation of its meaning, each table operation by what a search then finds. -/
theorem switchTables : Obligations.SwitchTables := by
  intro b q hu
  refine ⟨fun e he => ?readFound, fun habs => ?readAbsent, fun hv hroom => ?writeValid, fun hv => ?writeInvalid, ?delete, ?flush,
    fun v m e he hl => ?age, fun k w v hk hw => ⟨_, exec_lagBucketWrite hu k w v hk hw, wr_held b _ v⟩,
    fun m v hm => ⟨_, exec_mirrorConsWrite hu m v hm, wr_held b _ v⟩⟩
  case readFound =>
    exact ⟨_, exec_fdbRead_found hu e he, rd_res_fdbAnswer b _ 0, get_result_fdbAnswer _ 0 (by decide), frame_res_fdbAnswer b _ 0⟩
  case readAbsent =>
    exact ⟨_, exec_fdbRead_absent hu habs, rd_res_fdbAnswer b 0 1, get_result_fdbAnswer _ 1 (by decide), frame_res_fdbAnswer b 0 1⟩
  case writeValid =>
    exact ⟨_, exec_fdbWrite_valid hu hv hroom, (fdbFind_fdbAnswer _ _ _ 0).trans (fdbFind_fdbPut b _),
      get_result_fdbAnswer _ 0 (by decide), (frame_fdbPut b _).fdbAnswer (within_singleton _)⟩
  case writeInvalid =>
    exact ⟨_, exec_fdbWrite_invalid hu hv, (fdbFind_fdbAnswer _ _ _ 0).trans (fdbFind_fdbDrop b _ _),
      get_result_fdbAnswer _ 0 (by decide), (frame_fdbDrop b _ _).fdbAnswer (within_singleton _)⟩
  case delete =>
    cases hfind : b.fdbFind b.fdbKey.1 b.fdbKey.2 with
    | some e =>
      exact ⟨_, exec_fdbDelete_found hu (by rw [hfind]; rfl), (fdbFind_fdbAnswer _ _ _ 0).trans (fdbFind_fdbDrop b _ _),
        get_result_fdbAnswer _ 0 (by decide), (frame_fdbDrop b _ _).fdbAnswer (within_singleton _)⟩
    | none =>
      exact ⟨_, exec_fdbDelete_absent hu hfind, (fdbFind_fdbAnswer _ _ _ 1).trans hfind,
        get_result_fdbAnswer _ 1 (by decide), Frame.refl.fdbAnswer (within_singleton _)⟩
  case flush =>
    exact ⟨_, exec_fdbFlushLearned hu, mem_fdbKeepStatic b, get_result_fdbAnswer _ 0 (by decide),
      (frame_fdbKeepStatic b).fdbAnswer (within_singleton _)⟩
  case age =>
    obtain ⟨ns, hexec⟩ := exec_fdbEntryAge_learned (s := ⟨b, q⟩) hu v m e he hl
    exact ⟨_, hexec, (fdbFind_commit _ v m).trans (fdbFind_fdbDrop _ v m), (frame_fdbDrop_advanceTo b v m ns).commit⟩

/-! The wake of a station port (R175) -/

section
variable (b : Block) (t : Nat)

theorem wakeAt_eeeLeave (h : b.on (STNs_STAT_TX_LPI t) = true) :
    (b.eeeLeave t).swc.wakeAt.get (fun _ => 0) t = b.ns + b.wakeUs t * 1000 := by
  rw [Block.eeeLeave, if_pos h]
  exact Sparse.get_cons_self _ _ _ _

theorem wakeUs_advanceTo (ns : Nat) : (b.advanceTo ns).wakeUs t = b.wakeUs t := by simp only [Block.wakeUs, get_advanceTo]

/-- A port on which only a launch waits sleeps until the launch's own time to wake. -/
theorem wakeAt_eeeWake_launch (h : b.on (STNs_STAT_TX_LPI t) = true) (hbare : b.portBare (16 + t) = true) :
    (b.eeeWake t).swc.wakeAt.get (fun _ => 0) t = (b.advanceTo (b.launchWakeAt (16 + t))).ns + b.wakeUs t * 1000 := by
  rw [Block.eeeWake, h, hbare, Bool.and_true, if_pos rfl, wakeAt_eeeLeave _ _ ((on_advanceTo b _ _).trans h), wakeUs_advanceTo]

end

theorem exec_eeeWake {s : State} (hu : s.block.up) (p : Nat) (hp : p < 4) (hm : s.block.member.has ⟨.stn, p⟩ = true)
    (hwaits : s.block.portEmpty (16 + p) = false) : exec (.eeeWake p) s = .next ⟨(s.block.eeeWake p).commit, s.pending⟩ := by
  refine (runUnit_eq _ _ s (released_up _ hu _) hm).trans ?_
  rw [hwaits, if_neg (by simp; omega)]

/-- A module that is up, at time 0, with station port 3 in low-power idle and nothing on it but a frame to launch at 1 ms. -/
def launchAsleep : Block :=
  let b := ({ ({} : Block) with
    rst := { ({} : Rst) with rel := true }
    swc := { ({} : Swc) with launch := [(19, [0])], store := [{ id := 0, src := 20, bytes := [], launch := some 1000000 }] } } : Block)
  (b.set RST_START_STAGE 15).set (STNs_STAT_TX_LPI 3) 1

theorem launchAsleep_sleeps_on : (launchAsleep.advanceTo (launchAsleep.launchWakeAt 19)).ns ≠ launchAsleep.ns := by decide +kernel

/-- Refutes O18: a port on which only a launch waits leaves low-power idle not now but at the last instant that R175 allows, L − TX_TW −
1 µs, so that the wake time counts from there. The clause of eeeWake has it count from TIM_NOW for whatever waits. -/
theorem not_stationCommands : ¬ Obligations.StationCommands := by
  intro h
  have hup : launchAsleep.up := by decide +kernel
  have hmember : launchAsleep.member.has ⟨.stn, 3⟩ = true := by decide +kernel
  have hwaits : launchAsleep.portEmpty (16 + 3) = false := by decide +kernel
  have hidle : launchAsleep.on (STNs_STAT_TX_LPI 3) = true := by decide +kernel
  have hbare : launchAsleep.portBare (16 + 3) = true := by decide +kernel
  obtain ⟨-, hwake, -⟩ := h launchAsleep [] hup
  obtain ⟨b', hexec, -, hnow, -⟩ := hwake 3 (by decide) hmember hwaits hidle
  rw [exec_eeeWake hup 3 (by decide) hmember hwaits] at hexec
  cases hexec
  have hlater := wakeAt_eeeWake_launch launchAsleep 3 hidle hbare
  rw [Block.commit_swc, hlater] at hnow
  exact launchAsleep_sleeps_on (Nat.add_right_cancel hnow)

/-! The Belay gate (R169, R170, R183) -/

section
variable (b : Block)

theorem get_open_gateClose : b.gateClose.get SWC_GATE_OPEN = 0 := by
  unfold Block.gateClose
  split
  · exact (get_raise _ _ _ (by decide)).trans (Block.get_set_self _ _ _ (by decide))
  · exact (Block.on_false_iff _ _).mp (Bool.not_eq_true _ ▸ ‹_›)

/-- The gate stays closed while a reset of the switch core is under way, whatever the lease. -/
theorem gateFollow_of_resetBusy (h : b.on (stResetBusy (⟨.swc, 0⟩ : UnitRef).hdr) = true) : b.gateFollow = b.gateClose := by
  rw [Block.gateFollow, h, Bool.not_true, Bool.and_false, if_neg (by decide)]

end

theorem exec_gateForceCloseWrite {s : State} (hu : s.block.up) (v : Bool) : exec (.gateForceCloseWrite v) s =
    .next ⟨(s.block.set SWC_GATE_FORCE_CLOSE (if v then 1 else 0)).gateFollow.commit, s.pending⟩ := runAt_swc hu _

/-- A module that is up and leased, with its gate open in a reset of the switch core. -/
def openInReset : Block :=
  let b := ({ ({} : Block) with rst := { ({} : Rst) with rel := true }, rope := { ({} : Rope) with lease := true } } : Block)
  ((b.set RST_START_STAGE 15).set SWC_GATE_OPEN 1).set (stResetBusy (⟨.swc, 0⟩ : UnitRef).hdr) 1

/-- Refutes O19: its last clause asks for an open gate to stay open under the lease, and leaves out a reset of the switch core, in which the
gate is closed (R183). The state is one the statement admits, not one that a start reaches: a reset closes the gate as it begins. -/
theorem not_publicationCommands : ¬ Obligations.PublicationCommands := by
  intro h
  have hup : openInReset.up := by decide +kernel
  have hleased : openInReset.leased = true := by decide +kernel
  have hopen : openInReset.on SWC_GATE_OPEN = true := by decide +kernel
  have hbusy : (openInReset.set SWC_GATE_FORCE_CLOSE 0).on (stResetBusy (⟨.swc, 0⟩ : UnitRef).hdr) = true := by decide +kernel
  obtain ⟨-, -, -, -, -, -, hstays⟩ := h openInReset [] hup
  obtain ⟨b', hexec, -, hstill, -⟩ := hstays hleased hopen
  rw [exec_gateForceCloseWrite hup] at hexec
  cases hexec
  have hcloses := get_open_gateClose (openInReset.set SWC_GATE_FORCE_CLOSE 0)
  rw [← gateFollow_of_resetBusy _ hbusy] at hcloses
  rw [Block.get_commit] at hstill
  exact absurd (hcloses.symm.trans hstill) (by decide)

end Sys2Proof.Machine

/-! # Threshold comparators

The watermark record (R271, R272) and the start of a comparator (R278): what each command leaves in the comparator it names, in the other
comparators and in the registers, and one equation per command in a module that is up. -/

namespace Sys2Proof.Machine

open Sys2Proof Sys2Proof.Reg

theorem units_sor_pos (m : Member) : 0 < m.units .sor := by cases m <;> decide

/-- In a module that is up a command of Sorus ends in a next state. -/
theorem runAt_sor {s : State} (hu : s.block.up) (f : Block → Block) : runAt .sor f s = .next ⟨(f s.block).commit, s.pending⟩ :=
  runAt_eq .sor f s (released_up _ hu .sor) (units_sor_pos _)

/-- Of the word 2ⁱ bit i alone is set. -/
theorem bit_ofNat_two_pow (i : Nat) {j : Nat} (hj : j < 32) : bit (BitVec.ofNat 32 (2 ^ i)).toNat j = decide (i = j) := by
  rw [bit_eq, BitVec.toNat_ofNat, Nat.testBit_mod_two_pow, Nat.testBit_two_pow, decide_eq_true hj, Bool.true_and]

theorem within_of_mem {l : List Nat} {a : Nat} (h : a ∈ l) : within l a = true := List.contains_iff_mem.mpr h

/-- A change of a comparator's own state alone. -/
theorem Frame.setThr {p : Nat → Bool} {a b : Block} {k : Nat} {x : Thr} (h : Frame p Block.noSor a b) : Frame p Block.noSor a (b.setThr k x) :=
  h.unit rfl rfl rfl

section
variable (b : Block) (k : Nat)

theorem get_set_zero (f : Fld) (h : f.lo + f.width ≤ 32) : (b.set f 0).get f = 0 := (Block.get_set_self b f 0 h).trans (Nat.zero_mod _)

/-! A comparator's own state -/

@[simp] theorem thrOf_setThr_self (x : Thr) : (b.setThr k x).thrOf k = x := Sparse.get_cons_self _ _ _ _

theorem thrOf_setThr_ne (x : Thr) {j : Nat} (h : j ≠ k) : (b.setThr k x).thrOf j = b.thrOf j := Sparse.get_cons_ne _ h.symm _ _

@[simp] theorem thrOf_set (f : Fld) (v : Nat) : (b.set f v).thrOf k = b.thrOf k := rfl

@[simp] theorem thrOf_wr (a : Nat) (v : Word) : (b.wr a v).thrOf k = b.thrOf k := rfl

@[simp] theorem thrOf_commit : b.commit.thrOf k = b.thrOf k := rfl

/-! Its STAT lies apart from its RUN and from the words that it shares with other comparators -/

theorem stickyBit_addr_ne_stat : (stickyBit k).addr ≠ THRk_STAT k := by
  change THR_STICKYw (k / 32) ≠ THRk_STAT k
  unfold THR_STICKYw THRk_STAT
  omega

theorem liveBit_addr_ne_stat : (liveBit k).addr ≠ THRk_STAT k := by
  change THR_LIVEw (k / 32) ≠ THRk_STAT k
  unfold THR_LIVEw THRk_STAT
  omega

theorem run_ne_stat : THRk_RUN k ≠ THRk_STAT k := by
  unfold THRk_RUN THRk_STAT
  omega

/-! The clearing of the watermark record (R271) -/

theorem get_sticky_stickyClear : (b.stickyClear k).get (THRk_STAT_STICKY k) = 0 := by
  have hapart : (THRk_STAT_STICKY k).lo + (THRk_STAT_STICKY k).width ≤ (THRk_STAT_COUNT k).lo := (by decide : 0 + 1 ≤ 24)
  have hword : (THRk_STAT_STICKY k).lo + (THRk_STAT_STICKY k).width ≤ 32 := (by decide : 0 + 1 ≤ 32)
  rw [Block.stickyClear, Block.setThr_get, Block.get_set_ne _ _ _ _ (.inr (.inl hapart)) hword,
    Block.get_set_addr _ (stickyBit_addr_ne_stat k), get_set_zero _ _ hword]

theorem get_count_stickyClear : (b.stickyClear k).get (THRk_STAT_COUNT k) = 0 := by
  rw [Block.stickyClear, Block.setThr_get, get_set_zero _ _ (by decide : 24 + 8 ≤ 32)]

theorem thrOf_stickyClear_self : (b.stickyClear k).thrOf k = { b.thrOf k with first := 0 } := thrOf_setThr_self _ _ _

theorem thrOf_stickyClear_ne {j : Nat} (h : j ≠ k) : (b.stickyClear k).thrOf j = b.thrOf j := thrOf_setThr_ne _ _ _ h

theorem frame_stickyClear : Frame (within [THRk_STAT k, (stickyBit k).addr]) Block.noSor b (b.stickyClear k) :=
  (((Frame.refl.set (f := THRk_STAT_STICKY k) (within_of_mem (.head _))).set (within_of_mem (.tail _ (.head _)))).set
    (f := THRk_STAT_COUNT k) (within_of_mem (.head _))).setThr

/-! The latch of a requester (R272) -/

theorem shadow_thrLatch (who : Requester) :
    (b.thrLatch who k).shadow.get (fun _ => 0) (shadowKey who (THRk_FIRST_LO k)) = BitVec.ofNat 32 (b.thrOf k).first :=
  Sparse.get_cons_self _ _ _ _

theorem frame_thrLatch {p : Nat → Bool} (who : Requester) : Frame p Block.noShadow b (b.thrLatch who k) := Frame.refl.unit rfl rfl rfl

/-! The start of a comparator (R278) -/

/-- THRk_CFG as a write of v that sets EN leaves it. -/
def Block.thrCfgWritten (b : Block) (k : Nat) (v : Word) : Block := b.wr (THRk_CFG k) (BitVec.ofNat 32 ((v.toNat &&& 0x7FFFF000) + 2 ^ 31))

/-- What comparator k holds once it took its configuration from its registers. -/
def Block.thrTaken (b : Block) (k : Nat) : Thr :=
  { b.thrOf k with en := true, cfg := (List.range 4).map fun w => b.rd (THRk_CFG k + 4 * w), run := 0, trans := 0 }

/-- Comparator k runs with the configuration of its registers, its LIVE and its run count cleared. -/
def Block.thrStarted (b : Block) (k : Nat) : Block :=
  (((b.setThr k (b.thrTaken k)).set (THRk_STAT_LIVE k) 0).set (liveBit k) 0).set (THRk_RUN_RUN k) 0

theorem thrOf_thrStarted_self : (b.thrStarted k).thrOf k = b.thrTaken k := thrOf_setThr_self _ _ _

theorem thrOf_thrStarted_ne {j : Nat} (h : j ≠ k) : (b.thrStarted k).thrOf j = b.thrOf j := thrOf_setThr_ne _ _ _ h

theorem get_live_thrStarted : (b.thrStarted k).get (THRk_STAT_LIVE k) = 0 := by
  rw [Block.thrStarted, Block.get_set_addr _ (f := THRk_RUN_RUN k) (g := THRk_STAT_LIVE k) (run_ne_stat k),
    Block.get_set_addr _ (liveBit_addr_ne_stat k), get_set_zero _ _ (by decide : 1 + 1 ≤ 32)]

theorem get_run_thrStarted : (b.thrStarted k).get (THRk_RUN_RUN k) = 0 := get_set_zero _ _ (by decide : 0 + 16 ≤ 32)

theorem frame_thrStarted (v : Word) :
    Frame (within [THRk_CFG k, THRk_STAT k, (liveBit k).addr, THRk_RUN k]) Block.noSor b ((b.thrCfgWritten k v).thrStarted k) := by
  have hcfg : Frame (within [THRk_CFG k, THRk_STAT k, (liveBit k).addr, THRk_RUN k]) Block.noSor b (b.thrCfgWritten k v) :=
    Frame.refl.wr (within_of_mem (by simp))
  exact ((hcfg.setThr.set (within_of_mem (by simp [THRk_STAT_LIVE]))).set (within_of_mem (by simp))).set
    (within_of_mem (by simp [THRk_RUN_RUN]))

end

/-! Commands of the comparators -/

section
variable {s : State} (hu : s.block.up)
include hu

theorem exec_stickyClear_one {w i : Nat} (hi : i < 32) (hk : 32 * w + i < 4 * s.block.member.channels) (hw : w < 1024) :
    exec (.stickyClear w (BitVec.ofNat 32 (2 ^ i))) s = .next ⟨(s.block.stickyClear (32 * w + i)).commit, s.pending⟩ := by
  refine (runAt_sor hu _).trans ?_
  rw [if_neg (Nat.not_le.mpr hw), each_eq_one s.block 32 i _ hi fun j hj hji x => by
    rw [bit_ofNat_two_pow i hj, decide_eq_false hji.symm, Bool.false_and, Block.doIf_false]]
  rw [bit_ofNat_two_pow i hi, decide_eq_true rfl, decide_eq_true hk, Bool.true_and, Block.doIf_true]

theorem exec_thrStatRead (who : Requester) {k : Nat} (hk : k < 4 * s.block.member.channels) :
    exec (.thrStatRead who k) s = .next ⟨((s.block.thrLatch who k).answer (s.block.rd (THRk_STAT k)).toNat).commit, s.pending⟩ := by
  refine (runAt_sor hu _).trans ?_
  rw [if_neg (Nat.not_le.mpr hk)]

/-- Source 1 is legal for a channel with any number of bins (R266). -/
theorem exec_comparatorEnable_idle {k : Nat} (v : Word) (hk : k < 4 * s.block.member.channels) (hsrc : bits v.toNat 27 3 = 1)
    (hidle : (s.block.thrOf k).en = false) :
    exec (.comparatorEnable k v) s = .next ⟨((s.block.thrCfgWritten k v).thrStarted k).commit, s.pending⟩ := by
  refine (runAt_sor hu _).trans ?_
  simp only [hsrc]
  rw [if_neg (Nat.not_le.mpr hk), if_neg (by simp), thrOf_wr, if_neg (ne_true_of_eq_false hidle)]
  rfl

end

/-- Every comparator of a member has its bit in one of the 1,024 words of THR_STICKYw. -/
theorem stickyWord_lt {m : Member} {w i : Nat} (h : 32 * w + i < 4 * m.channels) : w < 1024 := by
  have hmax : m.channels ≤ 8192 := by cases m <;> decide
  omega

/-- Settles O22: each command by its equation, and by what the record's clearing, the latch and the start leave behind. -/
theorem comparatorCommands : Obligations.ComparatorCommands := by
  intro b q hu
  refine ⟨fun w i hi hk => ?clear, fun who k hk => ?statRead, fun k v hk hsrc hidle => ?enable⟩
  case clear =>
    refine ⟨_, exec_stickyClear_one (s := ⟨b, q⟩) hu hi hk (stickyWord_lt hk), ?_, ?_, ?_, fun j hj => ?_, (frame_stickyClear b _).commit⟩
    · rw [Block.get_commit, get_sticky_stickyClear]
    · rw [Block.get_commit, get_count_stickyClear]
    · rw [thrOf_commit, thrOf_stickyClear_self]
    · rw [thrOf_commit, thrOf_stickyClear_ne b _ hj]
  case statRead =>
    exact ⟨_, exec_thrStatRead (s := ⟨b, q⟩) hu who hk, rfl, shadow_thrLatch b k who, (frame_thrLatch b k who).answer.commit⟩
  case enable =>
    refine ⟨_, exec_comparatorEnable_idle (s := ⟨b, q⟩) hu v hk hsrc hidle, ?_, ?_, ?_, ?_, fun j hj => ?_, (frame_thrStarted b k v).commit⟩
    · rw [thrOf_commit, thrOf_thrStarted_self]; rfl
    · rw [thrOf_commit, thrOf_thrStarted_self]; rfl
    · rw [Block.get_commit, get_live_thrStarted]
    · rw [Block.get_commit, get_run_thrStarted]
    · rw [thrOf_commit, thrOf_thrStarted_ne _ _ hj]; rfl

end Sys2Proof.Machine

/-! # Frond cores

Xgfrond (R340): what an instruction leaves in the core it runs on, said once for the three forms of its effect (a result with the
saturations it met, a result alone, a sum in the accumulator), and one equation for the commands that run them. Gathers, instructions,
faults and the debug port (R339, R341, R342, R343, R354). -/

namespace Sys2Proof.Machine

open Sys2Proof Sys2Proof.Reg

theorem lt_of_has_frond {m : Member} {c : Nat} (h : m.has ⟨.frond, c⟩ = true) : c < 128 := by
  have hc : c < m.units .frond := by simpa [Member.has] using h
  have hmax : m.units .frond ≤ 128 := by cases m <;> decide
  omega

/-- In a module that is up a command of a core that the member has ends in a next state. -/
theorem runUnit_frond {s : State} (hu : s.block.up) {c : Nat} (hc : s.block.member.has ⟨.frond, c⟩ = true) (f : Block → Block) :
    runUnit ⟨.frond, c⟩ f s = .next ⟨(f s.block).commit, s.pending⟩ :=
  runUnit_eq _ f s (released_up _ hu .frond) hc

/-! The cores of a block -/

/-- A change of a core's own state alone. -/
theorem Frame.setCore {p : Nat → Bool} {a b : Block} {c : Nat} {k : Core} (h : Frame p Block.noFrd a b) : Frame p Block.noFrd a (b.setCore c k) :=
  h.unit rfl rfl rfl

section
variable (b : Block) (c : Nat)

@[simp] theorem coreSt_setCore_self (k : Core) : (b.setCore c k).coreSt c = k := Sparse.get_cons_self _ _ _ _

theorem coreSt_setCore_ne (k : Core) {i : Nat} (h : i ≠ c) : (b.setCore c k).coreSt i = b.coreSt i := Sparse.get_cons_ne _ h.symm _ _

@[simp] theorem coreSt_set (f : Fld) (v : Nat) : (b.set f v).coreSt c = b.coreSt c := rfl

@[simp] theorem coreSt_storeNat (sp : Space) (a n v : Nat) : (b.storeNat sp a n v).coreSt c = b.coreSt c := rfl

@[simp] theorem coreSt_commit : b.commit.coreSt c = b.coreSt c := rfl

theorem get_state_set {v : Nat} (hv : v < 16) : (b.set (FRDc_STAT_STATE c) v).get (FRDc_STAT_STATE c) = v :=
  (Block.get_set_self _ _ _ (by decide : 24 + 4 ≤ 32)).trans (Nat.mod_eq_of_lt hv)

/-- A change of a core's own state that STATE shows. -/
theorem frame_state_set (k : Core) (v : Nat) : Frame (within [FRDc_STAT c]) Block.noFrd b ((b.setCore c k).set (FRDc_STAT_STATE c) v) :=
  Frame.refl.setCore.set (within_singleton _)

end

/-! The registers of a core -/

section
variable (k : Core) (r : Nat) (v : DWord)

/-- A register reads as the value written to it, and x0 as zero. -/
theorem Core.rx_wx_self : (k.wx r v).rx r = if r = 0 then 0 else v := by
  by_cases h : r = 0
  · rw [Core.rx, if_pos h, if_pos h]
  · simp only [Core.rx, Core.wx, if_neg h, Sparse.get_put, if_true]

theorem Core.rx_wx_ne {j : Nat} (h : j ≠ r) : (k.wx r v).rx j = k.rx j := by
  by_cases hr : r = 0
  · rw [Core.wx, if_pos hr]
  · simp only [Core.rx, Core.wx, if_neg hr, Sparse.get_put, if_neg h.symm]

@[simp] theorem Core.wx_f : (k.wx r v).f = k.f := by unfold Core.wx; split <;> rfl
@[simp] theorem Core.wx_pc : (k.wx r v).pc = k.pc := by unfold Core.wx; split <;> rfl
@[simp] theorem Core.wx_sat : (k.wx r v).sat = k.sat := by unfold Core.wx; split <;> rfl
@[simp] theorem Core.wx_accRe : (k.wx r v).accRe = k.accRe := by unfold Core.wx; split <;> rfl
@[simp] theorem Core.wx_accIm : (k.wx r v).accIm = k.accIm := by unfold Core.wx; split <;> rfl

@[simp] theorem Core.sticky_none : k.sticky false false = k := congrArg (fun n => { k with sat := n }) (Nat.or_zero _)

/-- The address map of a core depends on its PMP entries alone. -/
theorem Core.place_congr {k j : Core} (hcfg : j.pmpcfg = k.pmpcfg) (haddr : j.pmpaddr = k.pmpaddr) : j.place = k.place := by
  have hrange : j.pmpRange = k.pmpRange := by funext i; simp only [Core.pmpRange, hcfg, haddr]
  have hok : j.pmpOk = k.pmpOk := by funext a n kind; simp only [Core.pmpOk, hrange, hcfg]
  funext c a n kind aligned
  simp only [Core.place, hok]

end

/-! The end of an Xgfrond instruction -/

/-- The block after Xgfrond instruction o on core c. -/
def Block.issued (b : Block) (o : XgOp) (c rd rs1 rs2 : Nat) : Block := (b.setCore c (o.step (b.coreSt c) rd rs1 rs2)).commit

/-- Every Xgfrond command is the issue of its instruction. -/
theorem runUnit_xg {s : State} {c rd rs1 rs2 : Nat} (hu : s.block.up) (hc : s.block.member.has ⟨.frond, c⟩ = true)
    (hrun : s.block.running c = true) (hrd : rd < 32) (h1 : rs1 < 32) (h2 : rs2 < 32) (o : XgOp) :
    runUnit ⟨.frond, c⟩ (fun b => b.xg o c rd rs1 rs2) s = .next ⟨s.block.issued o c rd rs1 rs2, s.pending⟩ := by
  rw [runUnit_frond hu hc, Block.xg, if_pos ⟨lt_of_has_frond hc, hrun⟩, Nat.mod_eq_of_lt hrd, Nat.mod_eq_of_lt h1, Nat.mod_eq_of_lt h2,
    Block.issued]

theorem coreSt_issued (b : Block) (o : XgOp) (c rd rs1 rs2 : Nat) :
    (b.issued o c rd rs1 rs2).coreSt c = o.step (b.coreSt c) rd rs1 rs2 := coreSt_setCore_self b c _

section
variable {b : Block} {o : XgOp} {c rd rs1 rs2 : Nat} {k' : Core}

/-- An effect that writes at most register r keeps what Xgfrond keeps. -/
theorem coreKeeps_issued (r : Nat) (heff : o.run (b.coreSt c) rd rs1 rs2 = k') (hx : ∀ j, j ≠ r → k'.rx j = (b.coreSt c).rx j)
    (hf : k'.f = (b.coreSt c).f) (hpc : k'.pc = (b.coreSt c).pc) : coreKeeps c r b (b.issued o c rd rs1 rs2) := by
  subst heff
  refine ⟨fun i hi => coreSt_setCore_ne b c _ hi, fun j hj => ?_, ?_, ?_, Frame.refl.setCore.commit⟩ <;> rw [coreSt_issued]
  · exact hx j hj
  · exact hf
  · exact congrArg (· + 4) hpc

/-- An instruction with a result v that met the saturation q. -/
theorem issued_wx_sticky {v : DWord} {q : Bool} (heff : o.run (b.coreSt c) rd rs1 rs2 = ((b.coreSt c).wx rd v).sticky q false) :
    ((b.issued o c rd rs1 rs2).coreSt c).rx rd = (if rd = 0 then 0 else v) ∧
      ((b.issued o c rd rs1 rs2).coreSt c).sat = (b.coreSt c).sat ||| q.toNat ∧
      coreKeeps c rd b (b.issued o c rd rs1 rs2) ∧ accKeeps c b (b.issued o c rd rs1 rs2) := by
  refine ⟨?rx, ?sat, coreKeeps_issued rd heff (fun j hj => Core.rx_wx_ne _ _ _ hj) (Core.wx_f _ _ _) (Core.wx_pc _ _ _), ?re, ?im⟩ <;>
    rw [coreSt_issued]
  case rx => exact (congrArg (·.rx rd) heff).trans (Core.rx_wx_self _ _ _)
  case sat => exact (congrArg Core.sat heff).trans (congrArg (· ||| q.toNat) (Core.wx_sat _ _ _))
  case re => exact (congrArg Core.accRe heff).trans (Core.wx_accRe _ _ _)
  case im => exact (congrArg Core.accIm heff).trans (Core.wx_accIm _ _ _)

/-- An instruction with a result v that saturates nothing. -/
theorem issued_wx {v : DWord} (heff : o.run (b.coreSt c) rd rs1 rs2 = (b.coreSt c).wx rd v) :
    ((b.issued o c rd rs1 rs2).coreSt c).rx rd = (if rd = 0 then 0 else v) ∧
      ((b.issued o c rd rs1 rs2).coreSt c).sat = (b.coreSt c).sat ∧
      coreKeeps c rd b (b.issued o c rd rs1 rs2) ∧ accKeeps c b (b.issued o c rd rs1 rs2) := by
  simpa using issued_wx_sticky (heff.trans (Core.sticky_none _).symm)

/-- An instruction that leaves x and y in the accumulator and met the saturation q there. -/
theorem issued_acc {x y : Int} {q : Bool}
    (heff : o.run (b.coreSt c) rd rs1 rs2 = ({ b.coreSt c with accRe := x, accIm := y }).sticky false q) :
    ((b.issued o c rd rs1 rs2).coreSt c).accRe = x ∧ ((b.issued o c rd rs1 rs2).coreSt c).accIm = y ∧
      ((b.issued o c rd rs1 rs2).coreSt c).sat = (b.coreSt c).sat ||| (2 * q.toNat) ∧ coreKeeps c 0 b (b.issued o c rd rs1 rs2) := by
  refine ⟨?re, ?im, ?sat, coreKeeps_issued 0 heff (fun _ _ => rfl) rfl rfl⟩ <;> rw [coreSt_issued]
  case re => exact congrArg Core.accRe heff
  case im => exact congrArg Core.accIm heff
  case sat => exact (congrArg Core.sat heff).trans (congrArg ((b.coreSt c).sat ||| ·) (Nat.zero_add _))

end

/-- Settles O26: each instruction's effect is a result with the saturation it met; QRSHR saturates nothing. -/
theorem frondScalar : Obligations.FrondScalar := by
  rintro b q c rd rs1 rs2 hu hc hrun hrd h1 h2 a d rfl rfl P rfl
  have h0 : 0 < 32 := by decide
  refine ⟨⟨_, runUnit_xg hu hc hrun hrd h1 h2 .qadd, ?_⟩, ⟨_, runUnit_xg hu hc hrun hrd h1 h2 .qsub, ?_⟩,
    ⟨_, runUnit_xg hu hc hrun hrd h1 h2 .qmul, ?_⟩, ⟨_, runUnit_xg hu hc hrun hrd h1 h0 .qneg, ?_⟩,
    ⟨_, runUnit_xg hu hc hrun hrd h1 h2 .qshl, ?_⟩, ⟨_, runUnit_xg hu hc hrun hrd h1 h2 .qrshr, issued_wx rfl⟩⟩
  all_goals exact issued_wx_sticky rfl

/-- Settles O27: the products and CACCRD are results with the saturation they met, CMAC and CMACC leave a sum in the accumulator, CMAG and
CANG are results alone. -/
theorem frondComplex : Obligations.FrondComplex := by
  rintro b q c rd rs1 rs2 hu hc hrun hrd h1 h2 ar ai br bi rfl rfl rfl rfl P rfl A rfl
  have h0 : 0 < 32 := by decide
  refine ⟨⟨_, runUnit_xg hu hc hrun hrd h1 h2 .cmul, issued_wx_sticky rfl⟩, ⟨_, runUnit_xg hu hc hrun hrd h1 h2 .cmulc, issued_wx_sticky rfl⟩,
    ⟨_, runUnit_xg hu hc hrun h0 h1 h2 .cmac, issued_acc rfl⟩, ⟨_, runUnit_xg hu hc hrun h0 h1 h2 .cmacc, issued_acc rfl⟩,
    ⟨_, runUnit_xg hu hc hrun hrd h1 h0 .caccrd, issued_wx_sticky rfl⟩, ⟨_, runUnit_xg hu hc hrun h0 h0 h0 .cacclr, ?clear⟩,
    ⟨_, runUnit_xg hu hc hrun hrd h1 h0 .cmag, issued_wx rfl⟩, ⟨_, runUnit_xg hu hc hrun hrd h1 h0 .cang, issued_wx rfl⟩⟩
  case clear =>
    have heff : XgOp.cacclr.run (b.coreSt c) 0 0 0 = ({ b.coreSt c with accRe := 0, accIm := 0 } : Core).sticky false false :=
      (Core.sticky_none _).symm
    simpa using issued_acc heff

/-! A gather of one element (R341, R342) -/

/-- Core c as a gather ends: xfgstart 0, pc past the instruction, and a debug halt that waited taken. -/
def Core.gatherEnd (k : Core) : Core := { k with gstart := 0, pc := k.pc + 4, halted := k.halted || k.haltReq, haltReq := false }

/-- The end of a gather on core c; STATE shows a halt that it takes. -/
def Block.gatherEnd (b : Block) (c : Nat) : Block :=
  (b.setCore c (b.coreSt c).gatherEnd).doIf (b.coreSt c).haltReq fun b => b.set (FRDc_STAT_STATE c) 6

section
variable (b : Block) (c : Nat)

theorem coreSt_gatherEnd (i : Nat) : (b.gatherEnd c).coreSt i = (b.setCore c (b.coreSt c).gatherEnd).coreSt i := by
  unfold Block.gatherEnd
  cases (b.coreSt c).haltReq <;> rfl

theorem frame_gatherEnd : Frame (fun a => (b.coreSt c).haltReq && within [FRDc_STAT c] a) Block.noFrd b (b.gatherEnd c) :=
  Frame.refl.setCore.doIf fun hreq => Frame.set Frame.refl.setCore (by rw [hreq]; exact within_singleton _)

theorem get_state_gatherEnd (hreq : (b.coreSt c).haltReq = true) : (b.gatherEnd c).get (FRDc_STAT_STATE c) = 6 := by
  rw [Block.gatherEnd, hreq, Block.doIf_true]
  exact get_state_set _ c (by decide)

/-- A gather of one element on core c issued and begun: its cycles counted, xfgstart 0. -/
def Block.gatherBegun (srcs : List Nat) : Block :=
  let b := b.setCore c ((b.coreSt c).spend 4 4 srcs none)
  b.setCore c { b.coreSt c with gstart := 0 }

theorem coreSt_gatherBegun (srcs : List Nat) :
    (b.gatherBegun c srcs).coreSt c = { (b.coreSt c).spend 4 4 srcs none with gstart := 0 } := by
  rw [Block.gatherBegun, coreSt_setCore_self, coreSt_setCore_self]

theorem coreSt_gatherBegun_ne (srcs : List Nat) {i : Nat} (h : i ≠ c) : (b.gatherBegun c srcs).coreSt i = b.coreSt i :=
  (coreSt_setCore_ne _ c _ h).trans (coreSt_setCore_ne b c _ h)

/-- To begin a gather leaves the core's address map. -/
theorem place_gatherBegun (srcs : List Nat) : ((b.gatherBegun c srcs).coreSt c).place = (b.coreSt c).place := by
  rw [coreSt_gatherBegun]
  exact Core.place_congr rfl rfl

end

/-- The block after a gather of one element, issued with the sources srcs, that stores v at a granted place. -/
def Block.gathered (b : Block) (c : Nat) (srcs : List Nat) (sd : Space) (od v : Nat) : Block :=
  ((b.gatherBegun c srcs).storeNat sd od 4 v).gatherEnd c

section
variable {b : Block} {c : Nat} {sp sp' sd : Space} {o o' od : Nat}

/-- The first element of a gather, with all three places granted, is stored. -/
theorem gather1_zero_granted {dst base ix : DWord} (hix : (b.coreSt c).place c ix.toNat 2 .load true = .inr (sp, o))
    (hsrc : (b.coreSt c).place c (base + BitVec.ofNat 64 (4 * b.loadNat sp o 2)).toNat 4 .load true = .inr (sp', o'))
    (hdst : (b.coreSt c).place c dst.toNat 4 .store true = .inr (sd, od)) :
    b.gather1 c dst base ix 0 = .done (b.storeNat sd od 4 (b.loadNat sp' o' 4)) := by
  simp only [Block.gather1, Nat.mul_zero, BitVec.add_zero, hix, hsrc, hdst]

/-- A halt that is requested during the last element waits for the end. -/
theorem gatherFrom_one_done {dst base ix : DWord} {x : Block}
    (h : (b.setCore c { b.coreSt c with gstart := 0 }).gather1 c dst base ix 0 = .done x) :
    b.gatherFrom c dst base ix 1 1 = x.gatherEnd c := by
  simp only [Block.gatherFrom, Nat.zero_add, Nat.sub_self, h, ne_eq, not_true, and_false, if_false]
  rfl

theorem gld16_one_granted {rd rs1 rs2 : Nat} (hstart : (b.coreSt c).gstart = 0)
    (hix : (b.coreSt c).place c ((b.coreSt c).rx rs2).toNat 2 .load true = .inr (sp, o))
    (hsrc : (b.coreSt c).place c ((b.coreSt c).rx rs1 + BitVec.ofNat 64 (4 * b.loadNat sp o 2)).toNat 4 .load true = .inr (sp', o'))
    (hdst : (b.coreSt c).place c ((b.coreSt c).rx rd).toNat 4 .store true = .inr (sd, od)) :
    b.gld16 c rd rs1 rs2 1 = b.gathered c [rd, rs1, rs2] sd od (b.loadNat sp' o' 4) := by
  rw [← place_gatherBegun b c [rd, rs1, rs2]] at hix hsrc hdst
  rw [Block.gld16, hstart]
  exact gatherFrom_one_done (gather1_zero_granted (b := b.gatherBegun c [rd, rs1, rs2]) hix hsrc hdst)

end

section
variable (b : Block) (c : Nat) (srcs : List Nat) (sd : Space) (od v : Nat)

theorem coreSt_gathered :
    (b.gathered c srcs sd od v).coreSt c = ({ (b.coreSt c).spend 4 4 srcs none with gstart := 0 } : Core).gatherEnd := by
  rw [Block.gathered, coreSt_gatherEnd, coreSt_setCore_self, coreSt_storeNat, coreSt_gatherBegun]

theorem coreSt_gathered_ne {i : Nat} (h : i ≠ c) : (b.gathered c srcs sd od v).coreSt i = b.coreSt i := by
  rw [Block.gathered, coreSt_gatherEnd, coreSt_setCore_ne _ c _ h, coreSt_storeNat, coreSt_gatherBegun_ne b c srcs h]

/-- What waits as the element is stored waited before the gather. -/
theorem haltReq_gatherBegun : (((b.gatherBegun c srcs).storeNat sd od 4 v).coreSt c).haltReq = (b.coreSt c).haltReq := by
  rw [coreSt_storeNat, coreSt_gatherBegun]; rfl

theorem get_state_gathered (h : (b.coreSt c).haltReq = true) : (b.gathered c srcs sd od v).get (FRDc_STAT_STATE c) = 6 :=
  get_state_gatherEnd _ c ((haltReq_gatherBegun b c srcs sd od v).trans h)

theorem byte_gathered (sp : Space) (a : Nat) : (b.gathered c srcs sd od v).byte sp a = (b.storeNat sd od 4 v).byte sp a :=
  (frame_gatherEnd _ c).2.1 sp a

theorem sameRegs_gathered :
    SameRegs (fun a => (b.coreSt c).haltReq && within [FRDc_STAT c] a) b (b.gathered c srcs sd od v) := by
  rw [← haltReq_gatherBegun b c srcs sd od v]
  exact (frame_gatherEnd _ c).1

theorem units_gathered : (b.gathered c srcs sd od v).units.noFrd = b.units.noFrd := (frame_gatherEnd _ c).2.2

end

/-! Commands of the cores -/

section
variable {s : State} {c : Nat} (hu : s.block.up) (hc : s.block.member.has ⟨.frond, c⟩ = true)
include hu hc

theorem exec_gld16_one {rd rs1 rs2 : Nat} (hrun : s.block.running c = true) (hrd : rd < 32) (h1 : rs1 < 32) (h2 : rs2 < 32) :
    exec (.gld16 c rd rs1 rs2 1) s = .next ⟨(s.block.gld16 c rd rs1 rs2 1).commit, s.pending⟩ := by
  refine (runUnit_frond hu hc _).trans ?_
  rw [if_pos ⟨lt_of_has_frond hc, hrun⟩, Nat.mod_eq_of_lt hrd, Nat.mod_eq_of_lt h1, Nat.mod_eq_of_lt h2]
  rfl

theorem exec_riscvInstruction_core {w len : Nat} {k : Core} (hrun : s.block.running c = true)
    (hfetch : s.block.rvFetch c (s.block.coreSt c) = .inr (some w, len)) (hexec : s.block.rvExec c (s.block.coreSt c) len w = .core k) :
    exec (.riscvInstruction c) s = .next ⟨(s.block.setCore c k).commit, s.pending⟩ := by
  refine (runUnit_frond hu hc _).trans ?_
  simp [Nat.not_le.mpr (lt_of_has_frond hc), hrun, hfetch, hexec]

theorem exec_riscvInstruction_fetchFault {e : Nat} {a : DWord} (hrun : s.block.running c = true)
    (hfetch : s.block.rvFetch c (s.block.coreSt c) = .inl (e, a)) :
    exec (.riscvInstruction c) s = .next ⟨(s.block.taskFault c e a).commit, s.pending⟩ := by
  refine (runUnit_frond hu hc _).trans ?_
  simp [Nat.not_le.mpr (lt_of_has_frond hc), hrun, hfetch]

theorem exec_taskFault_user (e : Nat) (a : DWord) (hrun : s.block.running c = true) :
    exec (.taskFault c e a false) s = .next ⟨(s.block.taskFault c e a).commit, s.pending⟩ := by
  refine (runUnit_frond hu hc _).trans ?_
  simp [Nat.not_le.mpr (lt_of_has_frond hc), hrun]

theorem exec_taskFault_machine (e : Nat) (a : DWord) :
    exec (.taskFault c e a true) s = .next ⟨(s.block.channelEvent c 2 true 3).commit, s.pending⟩ := by
  refine (runUnit_frond hu hc _).trans ?_
  simp [Nat.not_le.mpr (lt_of_has_frond hc), hc]

theorem exec_debugHalt_now (hdbg : s.block.on KEY_STATUS_DEBUG = true) (hrun : s.block.running c = true) :
    exec (.debugHalt c false) s = .next ⟨((s.block.setCore c { s.block.coreSt c with halted := true }).set (FRDc_STAT_STATE c) 6).commit,
      s.pending⟩ := by
  refine (runUnit_frond hu hc _).trans ?_
  simp [Nat.not_le.mpr (lt_of_has_frond hc), hdbg, hrun]

theorem exec_debugHalt_inGather (hdbg : s.block.on KEY_STATUS_DEBUG = true) (hrun : s.block.running c = true) :
    exec (.debugHalt c true) s = .next ⟨(s.block.setCore c { s.block.coreSt c with haltReq := true }).commit, s.pending⟩ := by
  refine (runUnit_frond hu hc _).trans ?_
  simp [Nat.not_le.mpr (lt_of_has_frond hc), hdbg, hrun]

theorem exec_debugResume_running {r : TaskRun} (hr : s.block.onCore c = some r) (hst : r.st = .running)
    (hhalt : (s.block.coreSt c).halted = true) :
    exec (.debugResume c) s = .next ⟨((s.block.setCore c { s.block.coreSt c with halted := false }).set (FRDc_STAT_STATE c) cRUNNING).commit,
      s.pending⟩ := by
  refine (runUnit_frond hu hc _).trans ?_
  simp only [hr, hhalt, hst, if_true]
  rfl

end

/-- Settles O28: each command by its equation; of a gather, what its element's store and its end leave. -/
theorem coreCommands : Obligations.CoreCommands := by
  intro b q c hu hc
  refine ⟨?gather, fun w len k hrun hfetch hexec => ?instruction,
    fun e a hrun hfetch => ⟨_, exec_riscvInstruction_fetchFault (s := ⟨b, q⟩) hu hc hrun hfetch, rfl⟩,
    fun e a hrun => ⟨_, exec_taskFault_user (s := ⟨b, q⟩) hu hc e a hrun, rfl⟩,
    fun e a _ => ⟨_, exec_taskFault_machine (s := ⟨b, q⟩) hu hc e a, rfl⟩,
    fun hdbg hrun => ?halt, fun hdbg hrun => ?haltInGather, fun r hr hst hhalt => ?resume⟩
  case gather =>
    rintro rd rs1 rs2 k sp o sp' o' sd od hrun hrd h1 h2 rfl hstart hix hsrc hdst
    have hexec := exec_gld16_one (s := ⟨b, q⟩) hu hc hrun hrd h1 h2
    rw [gld16_one_granted hstart hix hsrc hdst] at hexec
    have hcore := coreSt_gathered b c [rd, rs1, rs2] sd od (b.loadNat sp' o' 4)
    exact ⟨_, hexec, fun m a => (Block.byte_commit _ m a).trans (byte_gathered ..),
      (congrArg Core.gstart hcore :), (congrArg Core.pc hcore :), (congrArg Core.x hcore :), (congrArg Core.halted hcore :),
      fun h => (Block.get_commit _ _).trans (get_state_gathered (h := h) ..), fun i hi => coreSt_gathered_ne (h := hi) ..,
      fun a ha => (Block.rd_commit _ a).trans (sameRegs_gathered _ _ _ _ _ _ a ha), units_gathered ..⟩
  case instruction =>
    exact ⟨_, exec_riscvInstruction_core (s := ⟨b, q⟩) hu hc hrun hfetch hexec, coreSt_setCore_self b c k,
      fun i hi => coreSt_setCore_ne b c k hi, Frame.refl.setCore.commit⟩
  case halt =>
    refine ⟨_, exec_debugHalt_now (s := ⟨b, q⟩) hu hc hdbg hrun, ?_, ?_, (frame_state_set b c _ _).commit⟩
    · rw [coreSt_commit, coreSt_set, coreSt_setCore_self]
    · rw [Block.get_commit, get_state_set _ c (by decide)]
  case haltInGather =>
    refine ⟨_, exec_debugHalt_inGather (s := ⟨b, q⟩) hu hc hdbg hrun, ?_, Frame.refl.setCore.commit⟩
    rw [coreSt_commit, coreSt_setCore_self]
  case resume =>
    refine ⟨_, exec_debugResume_running (s := ⟨b, q⟩) hu hc hr hst hhalt, ?_, ?_, (frame_state_set b c _ _).commit⟩
    · rw [coreSt_commit, coreSt_set, coreSt_setCore_self]
    · rw [Block.get_commit, get_state_set _ c (by decide)]

end Sys2Proof.Machine

/-! # Acquisition

The triggers that wait for a capture set: what the completion of its segment leaves of them (R400, R403). -/

namespace Sys2Proof.Machine

open Sys2Proof Sys2Proof.Reg

theorem acq_of_own {b b' : Block} (h : b'.own = b.own) : b'.acq = b.acq := (congrArg Block.acq h : b'.own.acq = b.own.acq)

/-- In a module that is up, and that has the acquisition engine, a command of it ends in a next state. -/
theorem runAt_acq {s : State} (hu : s.block.up) (hm : s.block.member.has ⟨.acq, 0⟩ = true) (f : Block → Block) :
    runAt .acq f s = .next ⟨(f s.block).commit, s.pending⟩ :=
  runAt_eq .acq f s (released_up _ hu .acq) (by simpa [Member.has] using hm)

/-- A set's settings and the triggers that wait for its next arm. -/
def Cset.waiting (x : Cset) : List Word × List AcqTrig := (x.cfg, x.queue)

/-- MODE is one of a set's settings. -/
theorem Cset.mode_of_waiting {x y : Cset} (h : x.waiting = y.waiting) : x.mode = y.mode := by
  have hcfg : x.cfg = y.cfg := congrArg Prod.fst h
  rw [Cset.mode, Cset.mode, Cset.word, Cset.word, hcfg]

section
variable (b : Block) (k : Nat)

/-! The engine's own state is outside what a store, a counter and an event change -/

theorem acq_acqStore (a : Nat) (l : List Byte) : (b.acqStore a l).acq = b.acq := by
  unfold Block.acqStore
  split
  · rfl
  · exact acq_of_own (own_doIf _ _ (fun x => (own_count _ _ _ _ _).trans (own_set x _ _)) b)

theorem acq_csetCnt (i n : Nat) : (b.csetCnt k i n).acq = b.acq := acq_of_own (own_count _ _ _ _ _)

theorem csetOf_of_acq {b b' : Block} (h : b'.acq = b.acq) : b'.csetOf = b.csetOf := by
  funext i
  rw [Block.csetOf, Block.csetOf, h]

@[simp] theorem csetOf_setCset_self (x : Cset) : (b.setCset k x).csetOf k = x := Sparse.get_cons_self _ _ _ _

@[simp] theorem csetOf_acqStore (a : Nat) (l : List Byte) : (b.acqStore a l).csetOf = b.csetOf := csetOf_of_acq (acq_acqStore b a l)

@[simp] theorem csetOf_csetCnt (i n : Nat) : (b.csetCnt k i n).csetOf = b.csetOf := csetOf_of_acq (acq_csetCnt b k i n)

@[simp] theorem csetOf_raise (n : Nat) : (b.raise n).csetOf = b.csetOf := csetOf_of_acq (acq_of_own (own_raise b n))

@[simp] theorem csetOf_commit : b.commit.csetOf = b.csetOf := rfl

/-! The completion of a segment leaves them waiting -/

theorem waiting_segRows (n : Nat) : ((b.segRows k n).csetOf k).waiting = (b.csetOf k).waiting := by
  induction n generalizing b with
  | zero => rfl
  | succ n ih =>
    unfold Block.segRows
    dsimp only
    split
    · rfl
    · rw [ih, csetOf_acqStore, csetOf_setCset_self]
      rfl

theorem waiting_recordDone (addr bytes state : Nat) : ((b.recordDone k addr bytes state).csetOf k).waiting = (b.csetOf k).waiting := by
  rw [Block.recordDone, csetOf_setCset_self]
  rfl

theorem waiting_finishSeg (trunc : Bool) : ((b.finishSeg k trunc).csetOf k).waiting = (b.csetOf k).waiting := by
  unfold Block.finishSeg
  dsimp only
  split
  · rfl
  · rw [csetOf_raise, csetOf_csetCnt, waiting_recordDone, csetOf_setCset_self]
    rfl

/-- The block after the last row of set k's segment, before the set goes on. -/
def Block.segDone (b : Block) (k : Nat) : Block := (b.segRows k (b.csetOf k).lag).finishSeg k false

theorem waiting_segDone : ((b.segDone k).csetOf k).waiting = (b.csetOf k).waiting :=
  (waiting_finishSeg _ k false).trans (waiting_segRows b k _)

/-- A set that captures once stops with the triggers it had, to be judged when REARM arms it (R400). -/
theorem queue_segNext_segDone_single (h : (b.csetOf k).mode = 2) (stop : Nat) :
    (((b.segDone k).segNext k stop).csetOf k).queue = (b.csetOf k).queue := by
  rw [Block.segNext, if_pos ((Cset.mode_of_waiting (waiting_segDone b k)).trans h)]
  exact congrArg Prod.snd (waiting_segDone b k)

end

theorem exec_segmentComplete {s : State} (hu : s.block.up) (hm : s.block.member.has ⟨.acq, 0⟩ = true) {k : Nat} {g : Seg}
    (hcur : (s.block.csetOf k).cur = some g) (hlast : g.stop ≤ (s.block.csetOf k).hi) :
    exec (.segmentComplete k) s = .next ⟨((s.block.segDone k).segNext k g.stop).commit, s.pending⟩ := by
  refine (runAt_acq hu hm _).trans ?_
  simp only [hcur, if_pos hlast]
  rfl

/-- A segment of four rows, all of them in DRAM, whose trigger came at time 0. -/
def fourRows : Seg := ⟨0, 0, 0, 4, 4, ⟨0, 1, 3, false, false, false, 0⟩, 0, false, false, 0, 0, 0⟩

/-- A trigger of unit 3, from an XTRIG line, at 1 ms. -/
def laterTrigger : AcqTrig := ⟨1000000 * 65536, 1, 3, false, false, false, 1000000⟩

/-- A module that is up, whose capture set 7 captures once, four rows from the trigger's on, and has all the rows of its segment; another
trigger came as it captured. -/
def capturedWithTrigger : Block :=
  let set7 : Cset := { en := true, cfg := [0x40000000, 0, 0, 4], hi := 4, cur := some fourRows, queue := [laterTrigger] }
  let b := ({ ({} : Block) with rst := { ({} : Rst) with rel := true }, acq := { ({} : Acq) with cset := [(7, set7)] } } : Block)
  (b.set RST_START_STAGE 15).set (ACQ_CSETs_STAT_STATE 7) csCAPTURING

/-- Refutes O31: a trigger that arrives while a set captures waits in the set's queue until it is armed again (R400), and in SINGLE the
next arm is that of REARM. The clause of segmentComplete has the queue empty as soon as the segment is complete. -/
theorem not_captureCommands : ¬ Obligations.CaptureCommands := by
  intro h
  have hup : capturedWithTrigger.up := by decide +kernel
  have hmember : capturedWithTrigger.member.has ⟨.acq, 0⟩ = true := by decide +kernel
  have hcur : (capturedWithTrigger.csetOf 7).cur = some fourRows := by decide +kernel
  have hlast : fourRows.stop ≤ (capturedWithTrigger.csetOf 7).hi := by decide +kernel
  have hsingle : (capturedWithTrigger.csetOf 7).mode = 2 := by decide +kernel
  have hqueue : (capturedWithTrigger.csetOf 7).queue = [laterTrigger] := by decide +kernel
  obtain ⟨-, -, -, -, -, -, -, -, hcomplete, -⟩ := h capturedWithTrigger [] hup hmember
  obtain ⟨b', hexec, -, -, hempty⟩ := hcomplete 7 fourRows hcur hlast hsingle
  rw [exec_segmentComplete (s := ⟨capturedWithTrigger, []⟩) hup hmember hcur hlast] at hexec
  cases hexec
  rw [csetOf_commit, queue_segNext_segDone_single _ 7 hsingle, hqueue] at hempty
  cases hempty

end Sys2Proof.Machine

/-! # The Rope: received frames

What the receiver does with a frame it accepts and with a copy of one (R434): the header noted, the Rope brought up, the second copy
turned away. -/

namespace Sys2Proof.Machine

open Sys2Proof Sys2Proof.Reg

/-- No register from the Rope's own on is one of events. -/
theorem evtReg_of_ge (a : Nat) (h : 0x4000000 ≤ a) : evtReg a = false := by
  simp only [evtReg, HIF_CNTi, HIF_CNT_ROLL, HIF_WAKE_CAUSE, HIF_WAKE_TIME_LO, HIF_WAKE_TIME_HI, Bool.or_eq_false_iff,
    Bool.and_eq_false_iff, beq_eq_false_iff_ne, decide_eq_false_iff_not]
  omega

/-- A SEQ is not ahead of itself. -/
theorem sgn_self (n : Nat) : sgn 32 (n + 2 ^ 32 - n) = 0 := by
  rw [Nat.add_sub_cancel_left]
  rfl

theorem rope_of_own {b b' : Block} (h : b'.own = b.own) : b'.rope = b.rope := (congrArg Block.rope h : b'.own.rope = b.own.rope)

section
variable (b : Block) (f : RopeFrame)

@[simp] theorem rope_raise (n : Nat) : (b.raise n).rope = b.rope := rope_of_own (own_raise b n)

@[simp] theorem rope_ropeCnt (i : Nat) : (b.ropeCnt i).rope = b.rope := rope_of_own (own_count b _ _ _ _)

/-- A counter of the Rope touches no register below its own counters. -/
theorem rd_ropeCnt_of_lt (i : Nat) {a : Nat} (ha : a < 0x4000080) (he : evtReg a = false) : (b.ropeCnt i).rd a = b.rd a :=
  rd_count b _ _ _ _ a (by unfold ROPE_CNTi; omega) (by simp only [bitOf, ROPE_CNT_ROLL]; omega) he

/-- What the receiver notes of an accepted frame's header (R434). -/
def Block.ropeNoted (b : Block) (f : RopeFrame) : Block :=
  (((b.modRope fun r => { r with seqRx := some f.seq, lastRx := b.xtal, pEpoch := some f.epoch, pAsserted := bit f.flags 0 }).set
    ROPE_ROLE_PROLE f.role).set ROPE_ROLE_PLEVEL f.level).ropeCnt 14

/-- The first frame after the handshake brings the Rope up (R433). -/
def Block.ropeRisen (b : Block) : Block :=
  (((b.modRope fun r => { r with pHealthAt := b.xtal }).set ROPE_ROLE_ROPE_UP 1).set ROPE_ROLE_ROPE_LOST 0).raise 902

theorem seqRx_ropeNoted : (b.ropeNoted f).rope.seqRx = some f.seq := by rw [Block.ropeNoted, rope_ropeCnt]; rfl

theorem received_ropeNoted : (b.ropeNoted f).rd (ROPE_CNTi 14) = b.rd (ROPE_CNTi 14) + 1 := by
  rw [Block.ropeNoted, Block.ropeCnt, rd_count_one _ _ _ _ (by decide) (by decide), Block.rd_set_ne _ (by decide), Block.rd_set_ne _ (by decide)]
  rfl

theorem get_prole_ropeNoted : (b.ropeNoted f).get ROPE_ROLE_PROLE = f.role % 8 := by
  rw [Block.ropeNoted, Block.get, rd_ropeCnt_of_lt _ _ (by decide) (by decide), ← Block.get, Block.get_set_ne _ _ _ _ (by decide) (by decide),
    Block.get_set_self _ _ _ (by decide)]
  rfl

theorem on_auth_ropeNoted : (b.ropeNoted f).on ROPE_CFG2_AUTH = b.on ROPE_CFG2_AUTH := by
  rw [Block.on, Block.ropeNoted, Block.get, rd_ropeCnt_of_lt _ _ (by decide) (by decide), ← Block.get, Block.get_set_addr _ (by decide),
    Block.get_set_addr _ (by decide)]
  rfl

theorem seqRx_ropeRisen : b.ropeRisen.rope.seqRx = b.rope.seqRx := by rw [Block.ropeRisen, rope_raise]; rfl

theorem rd_ropeRisen {a : Nat} (ha : ROPE_ROLE ≠ a) (he : evtReg a = false) : b.ropeRisen.rd a = b.rd a := by
  rw [Block.ropeRisen, rd_raise _ _ _ he, Block.rd_set_ne _ ha, Block.rd_set_ne _ ha]
  rfl

theorem get_prole_ropeRisen : b.ropeRisen.get ROPE_ROLE_PROLE = b.get ROPE_ROLE_PROLE := by
  rw [Block.ropeRisen, get_raise _ _ _ (by decide), Block.get_set_ne _ _ _ _ (by decide) (by decide),
    Block.get_set_ne _ _ _ _ (by decide) (by decide)]
  rfl

/-- Without authentication no frame's tag is looked at (R436). -/
theorem ropeAuth_of_off (h : b.on ROPE_CFG2_AUTH = false) : b.ropeAuth f = (true, b) := by rw [Block.ropeAuth, h]; rfl

end

section
variable {b c : Block} {lane : Nat} {l : List Byte} {typ : Nat → Bool} {f : RopeFrame}

/-- An accepted frame is one that the octets carry and whose type is asked for; its header is noted, and it may bring the Rope up. -/
theorem ropeTake_accepted (hauth : b.on ROPE_CFG2_AUTH = false) (h : b.ropeTake lane l typ = (some f, c)) :
    ropeParse false l = some f ∧ typ f.typ = true ∧ (c = b.ropeNoted f ∨ c = (b.ropeNoted f).ropeRisen) := by
  unfold Block.ropeTake at h
  rw [hauth] at h
  split at h
  · cases h
  split at h
  next => cases h
  next g hparse =>
    simp only [ropeAuth_of_off b g hauth] at h
    split_ifs at h with htyp
    · cases h
    · cases h
    · cases h
    · cases h
      exact ⟨hparse, by simpa using htyp, .inl rfl⟩
    · cases h
      exact ⟨hparse, by simpa using htyp, .inr rfl⟩

/-- A frame other than HELLO whose SEQ is the last one received is not accepted (R434). -/
theorem ropeTake_of_seqRx (lane : Nat) (hauth : b.on ROPE_CFG2_AUTH = false) (hparse : ropeParse false l = some f) (hhello : f.typ ≠ 1)
    (hseq : b.rope.seqRx = some f.seq) : (b.ropeTake lane l typ).1 = none := by
  unfold Block.ropeTake
  rw [hauth, hparse]
  split
  · rfl
  · simp only [ropeAuth_of_off b f hauth, hseq, sgn_self]
    split
    · rfl
    · simp [hhello]

end

/-- Settles O35: an accepted frame leaves its SEQ as the last one received, and a frame of that SEQ is turned away. -/
theorem ropeReplayRejected : Obligations.RopeReplayRejected := by
  intro b c lane l typ f hauth hhello h
  obtain ⟨hparse, -, rfl | rfl⟩ := ropeTake_accepted hauth h
  case inl =>
    have hoff := (on_auth_ropeNoted b f).trans hauth
    exact ⟨seqRx_ropeNoted b f, received_ropeNoted b f, get_prole_ropeNoted b f,
      ropeTake_of_seqRx lane hoff hparse hhello (seqRx_ropeNoted b f)⟩
  case inr =>
    have hseq := (seqRx_ropeRisen _).trans (seqRx_ropeNoted b f)
    have hoff : (b.ropeNoted f).ropeRisen.on ROPE_CFG2_AUTH = false := by
      rw [Block.on, Block.get, rd_ropeRisen _ (by decide) (by decide), ← Block.get, ← Block.on, on_auth_ropeNoted, hauth]
    exact ⟨hseq, (rd_ropeRisen _ (by decide) (by decide)).trans (received_ropeNoted b f), (get_prole_ropeRisen _).trans (get_prole_ropeNoted b f),
      ropeTake_of_seqRx lane hoff hparse hhello hseq⟩

end Sys2Proof.Machine

/-! # The Rope: lanes, line, lease and timers

Lanes that gain and lose their link (R432), frames sent in time and frames that stay out (R433), the partner's line (R424), the end of the
lease (R425), and what a paired module does alone (R421, R431, R441). -/

namespace Sys2Proof.Machine

open Sys2Proof Sys2Proof.Reg

theorem units_rope_pos {b : Block} (h : b.hasRope = true) : 0 < b.member.units .rope := by
  simpa [Block.hasRope, Member.has] using h

/-- In a module that is up, and that has the Rope, a command of it ends in a next state. -/
theorem runAt_rope {s : State} (hu : s.block.up) (hr : s.block.hasRope = true) (f : Block → Block) :
    runAt .rope f s = .next ⟨(f s.block).commit, s.pending⟩ :=
  runAt_eq .rope f s (released_up _ hu .rope) (units_rope_pos hr)

theorem member_of_own {b b' : Block} (h : b'.own = b.own) : b'.member = b.member := (congrArg Block.member h : b'.own.member = b.own.member)
theorem xtal_of_own {b b' : Block} (h : b'.own = b.own) : b'.xtal = b.xtal := (congrArg Block.xtal h : b'.own.xtal = b.own.xtal)

/-! Time that passes -/

section
variable (b : Block) (ns : Nat)

/-- Time that passes changes the time base and the crystal's count alone. -/
theorem advanceTo_eq : ∃ t x, b.advanceTo ns = { b with tim := t, xtal := x } := by
  unfold Block.advanceTo
  split
  · exact ⟨_, _, rfl⟩
  · exact ⟨_, _, rfl⟩

theorem advanceXtal_eq : ∃ t x, b.advanceXtal ns = { b with tim := t, xtal := x } := by
  unfold Block.advanceXtal
  split
  · exact advanceTo_eq b _
  · exact ⟨_, _, rfl⟩

@[simp] theorem rope_advanceXtal : (b.advanceXtal ns).rope = b.rope := by obtain ⟨t, x, h⟩ := advanceXtal_eq b ns; rw [h]

@[simp] theorem role_advanceXtal : (b.advanceXtal ns).role = b.role := by obtain ⟨t, x, h⟩ := advanceXtal_eq b ns; rw [h]; rfl

@[simp] theorem ropeUp_advanceXtal : (b.advanceXtal ns).ropeUp = b.ropeUp := by obtain ⟨t, x, h⟩ := advanceXtal_eq b ns; rw [h]; rfl

@[simp] theorem hasRope_advanceXtal : (b.advanceXtal ns).hasRope = b.hasRope := by obtain ⟨t, x, h⟩ := advanceXtal_eq b ns; rw [h]; rfl

end

/-! Lanes (R432) -/

section
variable (b : Block) (k : Nat)

theorem evtReg_laneStat : evtReg (ROPE_LANEk_STAT k) = false := evtReg_of_ge _ (by unfold ROPE_LANEk_STAT; omega)

/-- LINK and FEC_LOCK of a lane take a value, with event 904. -/
def Block.laneMoved (b : Block) (k v : Nat) : Block :=
  ((b.set (ROPE_LANEk_STAT_LINK k) v).set (ROPE_LANEk_STAT_FEC_LOCK k) v).raise 904

theorem get_link_laneMoved (v : Nat) : (b.laneMoved k v).get (ROPE_LANEk_STAT_LINK k) = v % 2 := by
  have hapart : 0 + 1 ≤ (ROPE_LANEk_STAT_FEC_LOCK k).lo := Nat.le_refl 1
  rw [Block.laneMoved, get_raise _ _ (ROPE_LANEk_STAT_LINK k) (evtReg_laneStat k),
    Block.get_set_ne _ _ (ROPE_LANEk_STAT_LINK k) _ (.inr (.inl hapart)) (by decide : 0 + 1 ≤ 32),
    Block.get_set_self _ _ _ (by decide : 0 + 1 ≤ 32)]
  rfl

theorem get_fecLock_laneMoved (v : Nat) : (b.laneMoved k v).get (ROPE_LANEk_STAT_FEC_LOCK k) = v % 2 := by
  rw [Block.laneMoved, get_raise _ _ (ROPE_LANEk_STAT_FEC_LOCK k) (evtReg_laneStat k),
    Block.get_set_self _ _ _ (by decide : 1 + 1 ≤ 32)]
  rfl

/-- The other lane keeps its link. -/
theorem on_link_laneMoved {j : Nat} (v : Nat) (h : j ≠ k) : (b.laneMoved k v).on (ROPE_LANEk_STAT_LINK j) = b.on (ROPE_LANEk_STAT_LINK j) := by
  have haddr : ROPE_LANEk_STAT k ≠ ROPE_LANEk_STAT j := by unfold ROPE_LANEk_STAT; omega
  rw [Block.on, Block.laneMoved, get_raise _ _ (ROPE_LANEk_STAT_LINK j) (evtReg_laneStat j),
    Block.get_set_addr (g := ROPE_LANEk_STAT_LINK j) _ haddr, Block.get_set_addr (g := ROPE_LANEk_STAT_LINK j) _ haddr, Block.on]

theorem frame_laneMoved (v : Nat) : Frame (withEvt [ROPE_LANEk_STAT k]) id b (b.laneMoved k v) :=
  have hstat := withEvt_singleton (ROPE_LANEk_STAT k)
  (Frame.set (f := ROPE_LANEk_STAT_FEC_LOCK k) (Frame.set (f := ROPE_LANEk_STAT_LINK k) Frame.refl hstat) hstat).raise (withEvt_of_evtReg _)

/-- What a lane's gain or loss of its link leaves at the end of the command. -/
theorem laneMoved_commit {v : Nat} (hv : v < 2) : (b.laneMoved k v).commit.get (ROPE_LANEk_STAT_LINK k) = v ∧
    (b.laneMoved k v).commit.get (ROPE_LANEk_STAT_FEC_LOCK k) = v ∧ (b.laneMoved k v).commit.pendingEvent 904 = true ∧
    Frame (withEvt [ROPE_LANEk_STAT k]) id b (b.laneMoved k v).commit := by
  refine ⟨?_, ?_, ?_, (frame_laneMoved b k v).commit⟩
  · rw [Block.get_commit, get_link_laneMoved, Nat.mod_eq_of_lt hv]
  · rw [Block.get_commit, get_fecLock_laneMoved, Nat.mod_eq_of_lt hv]
  · rw [pending_commit]
    exact pending_raise _ _

end

theorem lane_port {k : Nat} (hk : k < 2) : 20 + k = 20 ∨ 20 + k = 21 := by omega

section
variable {s : State}

theorem exec_linkUp_lane (hu : s.block.up) (hr : s.block.hasRope = true) {k : Nat} (speed : Nat) (eee : Bool) (hk : k < 2)
    (hlink : s.block.on (ROPE_LANEk_STAT_LINK k) = false) (hprbs : s.block.on (ROPE_LANEk_CFG_PRBS k) = false)
    (hret : s.block.isRetired (180 + k) = false) :
    exec (.linkUp (20 + k) speed eee) s = .next ⟨(s.block.laneMoved k 1).commit, s.pending⟩ := by
  change execLinkUp (20 + k) speed eee s = _
  rw [execLinkUp, run_eq, if_pos (lane_port hk), Nat.add_sub_cancel_left, Block.ropeLaneUp, hr, hlink, hprbs, hret, released_up _ hu .rope]
  rfl

theorem exec_linkLoss_lane {k : Nat} (remote : Bool) (hk : k < 2) (hlink : s.block.on (ROPE_LANEk_STAT_LINK k) = true)
    (hother : s.block.on (ROPE_LANEk_STAT_LINK (1 - k)) = true) :
    exec (.linkLoss ⟨20 + k, remote⟩) s = .next ⟨(s.block.laneMoved k 0).commit, s.pending⟩ := by
  have hstays := (on_link_laneMoved s.block k 0 (by omega : 1 - k ≠ k)).trans hother
  change execLinkLoss ⟨20 + k, remote⟩ s = _
  rw [execLinkLoss, run_eq]
  dsimp only
  rw [if_pos (lane_port hk), Nat.add_sub_cancel_left, Block.ropeLaneLoss, if_pos hlink]
  change (.next ⟨((s.block.laneMoved k 0).doIf (!(s.block.laneMoved k 0).on (ROPE_LANEk_STAT_LINK (1 - k))) Block.ropeDown).commit,
    s.pending⟩ : Host.Outcome State Fault Refusal) = _
  rw [hstays]
  rfl

end

/-! The partner's line (R424) -/

/-- The line at a level; as it falls the ALONE wait starts anew and no claim stands (R429, R431). -/
def Block.belayTaken (b : Block) (v : Bool) : Block :=
  let c := b.set ROPE_ROLE_BELAY_IN (if v then 1 else 0)
  if v then c else c.modRope fun r => { r with aloneFrom := c.xtal, claim := false, won := false }

section
variable (b : Block) (v : Bool)

theorem Frame.modRope {p : Nat → Bool} {a b : Block} {f : Rope → Rope} (h : Frame p Block.noRope a b) : Frame p Block.noRope a (b.modRope f) :=
  h.unit rfl rfl rfl

theorem frame_belayTaken : Frame (within [ROPE_ROLE]) Block.noRope b (b.belayTaken v) := by
  have hset := Frame.set (f := ROPE_ROLE_BELAY_IN) (v := if v then 1 else 0) (k := Block.noRope) (Frame.refl (b := b)) (within_singleton ROPE_ROLE)
  unfold Block.belayTaken
  exact .ite (fun _ => hset) fun _ => hset.modRope

theorem get_belayIn_belayTaken : (b.belayTaken v).get ROPE_ROLE_BELAY_IN = if v then 1 else 0 := by
  cases v
  · exact Block.get_set_self _ _ _ (by decide)
  · exact Block.get_set_self _ _ _ (by decide)

theorem claim_belayTaken (h : b.rope.claim = false) : (b.belayTaken v).rope.claim = false := by
  cases v
  · rfl
  · exact h

theorem paired_belayTaken : (b.belayTaken v).paired = b.paired := by
  have hcfg : (b.belayTaken v).on ROPE_CFG_PAIRED = b.on ROPE_CFG_PAIRED := by
    rw [Block.on, (frame_belayTaken b v).get _ (by decide), Block.on]
  have hmember : (b.belayTaken v).member = b.member := by cases v <;> rfl
  rw [Block.paired, hcfg, Block.hasRope, hmember, Block.paired, Block.hasRope]

theorem gin_belayTaken : (b.belayTaken v).gin = b.gin := by cases v <;> rfl

/-- A module that is not paired is no standby. -/
theorem role_ne_standby (h : b.paired = false) : b.role ≠ rSTANDBY := by
  rw [Block.role, h, if_neg (by decide)]
  split <;> decide

/-- With no claim pending none is decided; one that was won may be over. -/
theorem claimSettle_of_none (h : b.rope.claim = false) : ∃ f, b.claimSettle = b.modRope f := by
  unfold Block.claimSettle
  rw [h]
  dsimp only
  split
  · exact ⟨_, rfl⟩
  · exact ⟨id, rfl⟩

theorem ropeEval_of_unpaired (h : b.paired = false) : b.ropeEval = b := by
  rw [Block.ropeEval, h]
  rfl

/-- A module that is not paired, without a pending claim or a notice, follows nothing. -/
theorem ropeFollow_of_unpaired (hp : b.paired = false) (hclaim : b.rope.claim = false) (hgin : b.gin.notices = []) :
    ∃ f, b.ropeFollow = b.modRope f := by
  obtain ⟨f, hf⟩ := claimSettle_of_none b hclaim
  refine ⟨f, ?_⟩
  unfold Block.ropeFollow
  dsimp only
  rw [hf, ropeEval_of_unpaired (b.modRope f) hp, Block.modRope_gin, hgin, List.any_nil, Bool.and_false, if_neg (by decide)]

end

theorem exec_belayInChange_unpaired {s : State} (hu : s.block.up) (hr : s.block.hasRope = true) {v : Bool} (hv : s.block.on ROPE_ROLE_BELAY_IN ≠ v)
    (hp : s.block.paired = false) (hclaim : s.block.rope.claim = false) (hgin : s.block.gin.notices = []) :
    ∃ f, exec (.belayInChange v) s = .next ⟨((s.block.belayTaken v).modRope f).commit, s.pending⟩ := by
  have hpaired := (paired_belayTaken s.block v).trans hp
  have hrole : ((s.block.belayTaken v).role == rSTANDBY) = false := beq_eq_false_iff_ne.mpr (role_ne_standby _ hpaired)
  obtain ⟨f, hf⟩ := ropeFollow_of_unpaired _ hpaired (claim_belayTaken s.block v hclaim) (by rw [gin_belayTaken, hgin])
  obtain ⟨hoff, -⟩ := hu
  refine ⟨f, ?_⟩
  change execBelayInChange v s = _
  rw [execBelayInChange, run_eq, if_neg (by simp [hr, hoff, hv])]
  change (.next ⟨((s.block.belayTaken v).doIf (!v && (s.block.belayTaken v).role == rSTANDBY && (s.block.belayTaken v).healthy &&
    !(s.block.belayTaken v).rope.waits.isEmpty) Block.followArrived).ropeFollow.commit, s.pending⟩ : Host.Outcome State Fault Refusal) = _
  rw [hrole, Bool.and_false, Bool.false_and, Bool.false_and, Block.doIf_false, hf]

/-! The end of the lease (R425) -/

section
variable (b : Block)

/-- The lease dropped, with the line and the time that remained, the gate not yet closed. -/
def Block.leaseEnded (b : Block) : Block :=
  (({ b with rope := { b.rope with lease := false } }).set ROPE_ROLE_BELAY_OUT 0).set ROPE_LEASE_REMAIN_MS 0

theorem leaseDrop_of_lease (h : b.rope.lease = true) : b.leaseDrop = b.leaseEnded.gateClose := if_pos h

/-- The gate's register and the switch core as an open gate closes. -/
def Block.gateShut (b : Block) : Block := { b.set SWC_GATE_OPEN 0 with swc := { b.swc with discarded := false } }

theorem gateClose_cases : b.gateClose = b ∨ b.gateClose = b.gateShut.raise 465 := by
  unfold Block.gateClose
  split
  · exact .inr rfl
  · exact .inl rfl

theorem rd_gateShut {a : Nat} (ha : SWC_GATE ≠ a) : b.gateShut.rd a = b.rd a := Block.rd_set_ne (f := SWC_GATE_OPEN) b ha 0

theorem rd_gateClose {a : Nat} (ha : SWC_GATE ≠ a) (he : evtReg a = false) : b.gateClose.rd a = b.rd a := by
  rcases gateClose_cases b with h | h
  · rw [h]
  · rw [h, rd_raise _ _ _ he, rd_gateShut _ ha]

theorem rope_gateClose : b.gateClose.rope = b.rope := by
  rcases gateClose_cases b with h | h
  · rw [h]
  · rw [h, rope_raise]
    rfl

theorem member_gateClose : b.gateClose.member = b.member := by
  rcases gateClose_cases b with h | h
  · rw [h]
  · rw [h, member_of_own (own_raise b.gateShut 465)]
    rfl

theorem rope_leaseDrop (h : b.rope.lease = true) : b.leaseDrop.rope = { b.rope with lease := false } := by
  rw [leaseDrop_of_lease b h, rope_gateClose]
  rfl

theorem member_leaseDrop : b.leaseDrop.member = b.member := by
  unfold Block.leaseDrop
  split
  · exact member_gateClose _
  · rfl

theorem hasRope_leaseDrop : b.leaseDrop.hasRope = b.hasRope := by rw [Block.hasRope, member_leaseDrop, Block.hasRope]

theorem get_remain_leaseDrop (h : b.rope.lease = true) : b.leaseDrop.get ROPE_LEASE_REMAIN_MS = 0 := by
  rw [leaseDrop_of_lease b h, Block.get, rd_gateClose _ (by decide) (by decide), ← Block.get]
  exact get_set_zero _ _ (by decide)

theorem get_open_leaseDrop (h : b.rope.lease = true) : b.leaseDrop.get SWC_GATE_OPEN = 0 := by
  rw [leaseDrop_of_lease b h, get_open_gateClose]

/-- A field reads as before that is none of those that the end of the lease clears. -/
theorem get_leaseDrop (f : Fld) (hgate : SWC_GATE ≠ f.addr) (he : evtReg f.addr = false) (hlease : ROPE_LEASE ≠ f.addr)
    (hout : ROPE_ROLE ≠ f.addr ∨ f.lo + f.width ≤ 3 ∨ 4 ≤ f.lo) (hw : f.lo + f.width ≤ 32) : b.leaseDrop.get f = b.get f := by
  unfold Block.leaseDrop
  split
  · change b.leaseEnded.gateClose.get f = b.get f
    rw [Block.get, rd_gateClose _ hgate he, ← Block.get, Block.leaseEnded, Block.get_set_addr _ hlease,
      Block.get_set_ne _ ROPE_ROLE_BELAY_OUT _ _ hout hw]
    rfl
  · rfl

/-- The member and three fields tell the role. -/
theorem role_congr {b c : Block} (hm : c.member = b.member) (hp : c.get ROPE_CFG_PAIRED = b.get ROPE_CFG_PAIRED)
    (hr : c.get ROPE_ROLE_ROLE = b.get ROPE_ROLE_ROLE) (hf : c.get CRZ_STATUS_FAULTED = b.get CRZ_STATUS_FAULTED) : c.role = b.role := by
  have hpaired : c.paired = b.paired := by rw [Block.paired, Block.hasRope, Block.on, hm, hp]; rfl
  rw [Block.role, hpaired, hr, Block.on, hf]
  rfl

theorem role_leaseDrop : b.leaseDrop.role = b.role :=
  role_congr (member_leaseDrop b) (get_leaseDrop b _ (by decide) (by decide) (by decide) (by decide) (by decide))
    (get_leaseDrop b _ (by decide) (by decide) (by decide) (by decide) (by decide))
    (get_leaseDrop b _ (by decide) (by decide) (by decide) (by decide) (by decide))

end

/-- The lease's end on a module that has the Rope and is not ACTIVE: event 899 alone. -/
theorem exec_leaseExpiry {s : State} (hr : s.block.hasRope = true) (hl : s.block.rope.lease = true) (hrole : s.block.role ≠ rACTIVE) :
    exec .leaseExpiry s = .next ⟨((s.block.advanceXtal s.block.rope.leaseEnd).leaseDrop.raise 899).commit, s.pending⟩ := by
  change execLeaseExpiry s = _
  rw [execLeaseExpiry, run_eq]
  dsimp only
  rw [hl, if_neg (by decide), role_leaseDrop, role_advanceXtal, if_neg hrole, hasRope_leaseDrop, hasRope_advanceXtal, hr, Block.raiseIf_true]

/-! Frames in time, and the pair alone (R421, R431, R433, R441) -/

section
variable {s : State}

theorem exec_keepaliveTx_down (hu : s.block.up) (hr : s.block.hasRope = true) (hp : s.block.paired = true) (hd : s.block.ropeUp = false) :
    exec .keepaliveTx s = .next ⟨(s.block.advanceXtal (s.block.rope.lastTx + 100000)).helloSend.commit, s.pending⟩ := by
  refine (runAt_rope hu hr _).trans ?_
  dsimp only
  rw [hp, if_neg (by decide), ropeUp_advanceXtal, hd, if_pos (by decide)]

/-- A module that is not ACTIVE sends KEEPALIVE. -/
theorem exec_keepaliveTx_up (hu : s.block.up) (hr : s.block.hasRope = true) (hp : s.block.paired = true) (hup : s.block.ropeUp = true)
    (hrole : s.block.role ≠ rACTIVE) :
    exec .keepaliveTx s = .next ⟨((s.block.advanceXtal (s.block.rope.lastTx + 100000)).ropeSend 2 []).commit, s.pending⟩ := by
  refine (runAt_rope hu hr _).trans ?_
  dsimp only
  rw [hp, if_neg (by decide), ropeUp_advanceXtal, hup, if_neg (by decide), role_advanceXtal, if_neg fun h => hrole h.1]

theorem exec_ropeTimeout (hu : s.block.up) (hr : s.block.hasRope = true) (hup : s.block.ropeUp = true) :
    exec .ropeTimeout s = .next ⟨((s.block.advanceXtal (s.block.rope.lastRx +
      clampN 200 1023 (s.block.get ROPE_TIMING_TMO_US) * 1000)).ropeDown.ropeFollow).commit, s.pending⟩ := by
  refine (runAt_rope hu hr _).trans ?_
  rw [if_pos hup]

theorem exec_aloneTimeout (hp : s.block.paired = true) (hran : s.block.rst.ran = true) (hrole : s.block.role = rSYNCING)
    (hline : s.block.on ROPE_ROLE_BELAY_IN = false) : exec .aloneTimeout s =
      .next ⟨(s.block.advanceXtal (s.block.rope.aloneFrom + s.block.aloneNs)).ropeEval.commit, s.pending⟩ := by
  change execAloneTimeout s = _
  rw [execAloneTimeout, run_eq, hp, hran, hrole, hline, if_pos (by decide)]

theorem exec_doubleClaim (hp : s.block.paired = true) (hline : s.block.on ROPE_ROLE_BELAY_IN = true) :
    exec .doubleClaim s = .next ⟨s.block.claimSeen.commit, s.pending⟩ := by
  change execDoubleClaim s = _
  rw [execDoubleClaim, run_eq, hp, hline, if_pos (by decide)]

/-- The step that waits for the partner longest is late: this module decides alone and rejoins. -/
theorem exec_followTimeout {w : Nat × Nat × Nat} {l : List (Nat × Nat × Nat)} (hw : s.block.rope.waits = w :: l)
    (hf : s.block.following = true) : exec .followTimeout s =
      .next ⟨((((((s.block.advanceXtal (w.2.2 + clampN 10 1023 (s.block.get ROPE_TIMING_FOLLOW_US) * 1000)).ropeCnt 2).raise 908).setRole
        rSYNCING).settleWaits).ledgerRun.ropeFollow).commit, s.pending⟩ := by
  change execFollowTimeout s = _
  rw [execFollowTimeout, run_eq]
  simp only [hw, hf, if_true]

end

/-- Settles O32: each command by its equation, the lanes, the line and the lease by what those leave behind. -/
theorem ropeLineAndTimers : Obligations.RopeLineAndTimers := by
  intro b q hu hr
  refine ⟨fun k s e hk hlink hprbs hret => ?linkUp, fun k hk hlink hother r => ?linkLoss, fun hp hd => ?hello, fun hp hup hrole => ?keepalive,
    fun hup => ⟨_, exec_ropeTimeout (s := ⟨b, q⟩) hu hr hup, rfl⟩, fun v hv hp hclaim _ hgin => ?line, fun hl hrole => ?lease,
    fun hp hran hrole hline => ⟨_, exec_aloneTimeout (s := ⟨b, q⟩) hp hran hrole hline, rfl⟩,
    fun hp hline => ⟨_, exec_doubleClaim (s := ⟨b, q⟩) hp hline, rfl⟩,
    fun w l hw hf => ⟨_, exec_followTimeout (s := ⟨b, q⟩) hw hf, rfl⟩⟩
  case linkUp => exact ⟨_, exec_linkUp_lane (s := ⟨b, q⟩) hu hr s e hk hlink hprbs hret, laneMoved_commit b k (by decide)⟩
  case linkLoss => exact ⟨_, exec_linkLoss_lane (s := ⟨b, q⟩) r hk hlink hother, laneMoved_commit b k (by decide)⟩
  case hello => exact ⟨_, exec_keepaliveTx_down (s := ⟨b, q⟩) hu hr hp hd, rfl⟩
  case keepalive => exact ⟨_, exec_keepaliveTx_up (s := ⟨b, q⟩) hu hr hp hup (by rw [hrole]; decide), rfl⟩
  case line =>
    obtain ⟨f, hexec⟩ := exec_belayInChange_unpaired (s := ⟨b, q⟩) hu hr hv hp hclaim hgin
    exact ⟨_, hexec, (Block.get_commit _ _).trans (get_belayIn_belayTaken b v), (frame_belayTaken b v).modRope.commit⟩
  case lease =>
    have hheld : (b.advanceXtal b.rope.leaseEnd).rope.lease = true := by rw [rope_advanceXtal, hl]
    refine ⟨_, exec_leaseExpiry (s := ⟨b, q⟩) hr hl hrole, ?_, ?_, ?_, ?_⟩
    · rw [Block.commit_rope, rope_raise, rope_leaseDrop _ hheld]
    · rw [Block.get_commit, get_raise _ _ _ (by decide), get_remain_leaseDrop _ hheld]
    · rw [pending_commit]
      exact pending_raise _ _
    · rw [Block.get_commit, get_raise _ _ _ (by decide), get_open_leaseDrop _ hheld]

end Sys2Proof.Machine

/-! # The Rope: frames by which a pair moves together

What a frame that the receiver accepts does where its type acts on releases, flips, joins, swaps and handovers (R438 to R440, R450 to
R452), and a forwarded ASDU that its slot does not take (R200). -/

namespace Sys2Proof.Machine

open Sys2Proof Sys2Proof.Reg

/-- An accepted frame acts as its type says, and the pair is judged anew. -/
theorem ropeFrame_accepted {b c : Block} {n lane : Nat} {l : List Byte} {f : RopeFrame} (q : List Instr) (act : RopeFrame → Block → Block)
    (h : b.ropeTake lane l (fun t => t == n) = (some f, c)) :
    ropeFrame n lane l act ⟨b, q⟩ = .next ⟨((act f c).ropeFollow).commit, q⟩ := by
  rw [ropeFrame, run_eq, h]

theorem grpOf_of_own {b b' : Block} (h : b'.own = b.own) (g : Nat) : b'.grpOf g = b.grpOf g :=
  (congrArg (fun x : Block => x.grpOf g) h : b'.own.grpOf g = b.own.grpOf g)

section
variable {b c : Block} {lane : Nat} {l : List Byte} {f : RopeFrame} (q : List Instr)

/-! Releases (R438, R439) -/

/-- A record of an instant still ahead is held until its release. -/
theorem exec_release_ahead (h : b.ropeTake lane l (fun t => t == 3) = (some f, c)) (hg : (relOf f.body).g < 16)
    (hen : (c.grpOf (relOf f.body).g).en = true) (hnext : c.grpNext (relOf f.body).g ≤ (relOf f.body).i) :
    exec (.release lane l) ⟨b, q⟩ = .next ⟨(((c.modRope fun p => { p with
      rels := p.rels.filter (fun x => !(x.g == (relOf f.body).g && x.i == (relOf f.body).i)) ++ [relOf f.body] }).tryFollow
        (relOf f.body).g).ropeFollow).commit, q⟩ := by
  refine (ropeFrame_accepted q _ h).trans ?_
  dsimp only
  rw [if_neg (by simp [hg, hen]), if_neg (by omega), if_neg (by omega)]

/-- To a record of an instant that the active module has released it answers with what the record lacks. -/
theorem exec_release_lacking (h : b.ropeTake lane l (fun t => t == 3) = (some f, c)) (hg : (relOf f.body).g < 16)
    (hen : (c.grpOf (relOf f.body).g).en = true) (hrole : c.role = rACTIVE) (hnext : (relOf f.body).i < c.grpNext (relOf f.body).g) :
    exec (.release lane l) ⟨b, q⟩ = .next ⟨((c.forwardLacking (relOf f.body)).ropeFollow).commit, q⟩ := by
  refine (ropeFrame_accepted q _ h).trans ?_
  dsimp only
  rw [if_neg (by simp [hg, hen]), if_pos ⟨hrole, hnext⟩]

/-! Forwarded ASDUs (R200) -/

theorem exec_asduFwd_disabled (h : b.ropeTake lane l (fun t => t == 4) = (some f, c)) (he : beAt f.body 0 1 ≤ 16)
    (hm : c.member.has ⟨.rhz, beAt f.body 0 1⟩ = true) (hen : (c.slotOf (beAt f.body 1 2)).en = false) :
    exec (.asduFwd lane l) ⟨b, q⟩ = .next ⟨(((((c.rhzCnt (beAt f.body 0 1) 9).ropeCnt 12).stale (beAt f.body 0 1)).ropeFollow).commit), q⟩ := by
  refine (ropeFrame_accepted q _ h).trans ?_
  dsimp only
  rw [if_neg (by simp [he, hm]), hen]
  rfl

theorem exec_asduFwd_misfit {x : Slot} {a : SvAsdu} {g n k : Nat} (h : b.ropeTake lane l (fun t => t == 4) = (some f, c))
    (he : beAt f.body 0 1 ≤ 16) (hm : c.member.has ⟨.rhz, beAt f.body 0 1⟩ = true) (hx : c.slotOf (beAt f.body 1 2) = x) (hen : x.en = true)
    (hprof : x.profile ≠ 1) (hgrp : (c.grpOf x.group).en = true) (hnames : x.names (beAt f.body 0 1) = true) (hlen : x.svLen ≠ 0)
    (hid : x.svId = a.svId) (hber : berHead (f.body.drop 16) = some (g, n, k)) (hparse : parseAsduN 2 (slice f.body (16 + k) n) = some a)
    (hfits : ((c.rhzCnt (beAt f.body 0 1) 9).ropeCnt 12).fits (beAt f.body 1 2) a x.nasdu false = false) :
    exec (.asduFwd lane l) ⟨b, q⟩ = .next ⟨(((((c.rhzCnt (beAt f.body 0 1) 9).ropeCnt 12).malformed (beAt f.body 0 1)).ropeFollow).commit), q⟩ := by
  have hcounted : ((c.rhzCnt (beAt f.body 0 1) 9).ropeCnt 12).own = c.own := (own_count _ _ _ _ _).trans (own_count _ _ _ _ _)
  have hhigh : (x.profile == 1) = false := beq_eq_false_iff_ne.mpr hprof
  refine (ropeFrame_accepted q _ h).trans ?_
  dsimp only
  rw [if_neg (by simp [he, hm]), hx, hen, hber, if_neg (by decide), if_neg hprof]
  dsimp only
  rw [hparse]
  dsimp only
  rw [grpOf_of_own hcounted, hgrp, hnames, hhigh, hfits, if_pos (by simp [hid, hlen])]

/-! Flips, joins, swaps and handovers (R440, R450 to R452) -/

theorem exec_ginLedger_kept (h : b.ropeTake lane l (fun t => t == 5) = (some f, c)) (hrole : c.role ≠ rACTIVE)
    (hnew : c.rope.flipDone ≤ beAt f.body 0 8) : exec (.ginLedger lane l) ⟨b, q⟩ = .next ⟨(((c.modRope fun p => { p with
      flips := (p.flips.filter (fun x => x.1 != beAt f.body 0 8) ++ [(beAt f.body 0 8, f.body)]).take 64 }).tryFlips).ropeFollow).commit, q⟩ := by
  refine (ropeFrame_accepted q _ h).trans ?_
  dsimp only
  rw [if_neg (by simp [hrole, hnew])]

theorem exec_join_request (h : b.ropeTake lane l (fun t => t == 0xB) = (some f, c)) (hkind : beAt f.body 0 1 = 0) (hrole : c.role = rACTIVE) :
    exec (.join lane l) ⟨b, q⟩ = .next ⟨(((c.modRope fun p => { p with joinFor := some (c.lastTick + 16), joinCap := [] }).ropeSay 0xB
      ([1, 0, 0, 0] ++ beBytes 8 (c.lastTick + 16) ++ beBytes 1 (c.get ROPE_ROLE_EPOCH))).ropeFollow).commit, q⟩ := by
  refine (ropeFrame_accepted q _ h).trans ?_
  rw [hkind, if_pos hrole]
  rfl

/-- A swap that the standby refuses. -/
theorem exec_swap_refused (h : b.ropeTake lane l (fun t => t == 0xD) = (some f, c)) (hrole : c.role = rACTIVE)
    (hbusy : c.swapState = 1 ∨ c.swapState = 3) (htables : beAt f.body 8 1 = 0) :
    exec (.swap lane l) ⟨b, q⟩ = .next ⟨((((c.set CRZ_SWAP_CTRL_STATE 5).raise 714).ropeFollow).commit), q⟩ := by
  refine (ropeFrame_accepted q _ h).trans ?_
  dsimp only
  rw [if_pos hrole, if_neg (by simpa [or_iff_not_imp_left] using hbusy), if_pos htables]

theorem exec_handover_offer (h : b.ropeTake lane l (fun t => t == 0xE) = (some f, c)) (hkind : beAt f.body 8 1 = 0) (hrole : c.role = rSTANDBY) :
    exec (.handover lane l) ⟨b, q⟩ = .next ⟨((c.ropeSay 0xE (beBytes 8 (beAt f.body 0 8) ++ [1])).ropeFollow).commit, q⟩ := by
  refine (ropeFrame_accepted q _ h).trans ?_
  dsimp only
  rw [if_pos hkind, if_pos hrole]

theorem exec_handover_acknowledged (h : b.ropeTake lane l (fun t => t == 0xE) = (some f, c)) (hkind : beAt f.body 8 1 ≠ 0)
    (hrole : c.role = rACTIVE) (hnamed : c.rope.handover = some (beAt f.body 0 8)) :
    exec (.handover lane l) ⟨b, q⟩ = .next ⟨((c.modRope fun p => { p with acked := true }).ropeFollow).commit, q⟩ := by
  refine (ropeFrame_accepted q _ h).trans ?_
  dsimp only
  rw [if_neg hkind, if_pos ⟨hrole, hnamed⟩]

end

/-- Settles O34: each type by the equation of an accepted frame of it. -/
theorem ropePairFrames : Obligations.RopePairFrames := by
  intro b q lane l f c
  exact ⟨fun h hg hen hnext => ⟨_, exec_release_ahead q h hg hen hnext, rfl⟩,
    fun h hg hen hrole hnext => ⟨_, exec_release_lacking q h hg hen hrole hnext, rfl⟩,
    fun h he hm hen => ⟨_, exec_asduFwd_disabled q h he hm hen, rfl⟩,
    fun a g n k x h he hm hx hen hprof hgrp hnames hlen hid hber hparse hfits =>
      ⟨_, exec_asduFwd_misfit q h he hm hx.symm hen hprof hgrp hnames hlen hid hber hparse hfits, rfl⟩,
    fun h hrole hnew => ⟨_, exec_ginLedger_kept q h hrole hnew, rfl⟩,
    fun h hkind hrole => ⟨_, exec_join_request q h hkind hrole, rfl⟩,
    fun h hrole hbusy htables => ⟨_, exec_swap_refused q h hrole hbusy htables, rfl⟩,
    fun h hkind hrole => ⟨_, exec_handover_offer q h hkind hrole, rfl⟩,
    fun h hkind hrole hnamed => ⟨_, exec_handover_acknowledged q h hkind hrole hnamed, rfl⟩⟩

end Sys2Proof.Machine

/-! # The pair's own commands

Self-tests and resolutions (R446 to R448), health (R449), joins (R450) and handovers (R452): one equation per command in a module that is
up and has the Rope, with what the reports and periods leave behind. -/

namespace Sys2Proof.Machine

open Sys2Proof Sys2Proof.Reg

/-! Frames that leave out the Rope and the time base -/

section
variable {p : Nat → Bool} {a b : Block}

theorem Frame.modRope_timed {f : Rope → Rope} (h : Frame p (fun x => x.noRope.noTime) a b) :
    Frame p (fun x => x.noRope.noTime) a (b.modRope f) := h.unit rfl rfl rfl

theorem Frame.advanceTo_timed {ns : Nat} (h : Frame p (fun x => x.noRope.noTime) a b) :
    Frame p (fun x => x.noRope.noTime) a (b.advanceTo ns) := by
  obtain ⟨t, x, hto⟩ := advanceTo_eq b ns
  rw [hto]
  exact h.unit rfl rfl rfl

theorem Frame.advanceXtal_timed {ns : Nat} (h : Frame p (fun x => x.noRope.noTime) a b) :
    Frame p (fun x => x.noRope.noTime) a (b.advanceXtal ns) := by
  obtain ⟨t, x, hto⟩ := advanceXtal_eq b ns
  rw [hto]
  exact h.unit rfl rfl rfl

end

/-! What the commands do -/

/-- A HEALTH period ends: the self-test's runs and failures count anew, from the counters as they now stand; the coverage that a report names
is a value the spec leaves open (R449). -/
def Block.healthCounted (b : Block) : Block :=
  (b.draw 1001).2.modRope fun p =>
    { p with period := p.period + 1, runs := 0, fails := 0, base := [2, 3, 4, 6].map fun i => b.get (ROPE_CNTi_COUNT i) }

theorem ropeUp_healthCounted (b : Block) : b.healthCounted.ropeUp = b.ropeUp := rfl

theorem period_healthCounted (b : Block) : b.healthCounted.rope.period = b.rope.period + 1 := rfl

/-- A Rope that is down carries nothing. -/
theorem ropeSay_of_down (b : Block) (typ : Nat) (body : List Byte) (h : b.ropeUp = false) : b.ropeSay typ body = b :=
  if_neg (ne_true_of_eq_false h)

section
variable {s : State} (hu : s.block.up) (hr : s.block.hasRope = true)
include hu hr

/-- A passed self-test is this module's result for the task, and the partner is told (R446). -/
theorem exec_targetedSelftestDone_pass {task : Nat} {cs : List Nat} {r : Resolve}
    (h : s.block.rope.resolves.find? (fun r => r.task == task && r.own.isNone) = some r) :
    exec (.targetedSelftestDone task true cs) s = .next ⟨(((((s.block.putResolve task fun r => { r with own := some 1 }).set
      ROPE_RESOLVE_RESULT 1).ropeSay 0xC (resolveBody task 1 r.tick)).resolveBoth task).ropeFollow).commit, s.pending⟩ := by
  refine (runAt_rope hu hr _).trans ?_
  rw [h]
  rfl

theorem exec_resolveTimeout {r : Resolve} {l : List Resolve} (h : s.block.rope.resolves = r :: l) :
    exec .resolveTimeout s = .next ⟨(((s.block.advanceXtal r.due).resolveEnd r).ropeFollow).commit, s.pending⟩ := by
  refine (runAt_rope hu hr _).trans ?_
  rw [h]

theorem exec_selftestResult_pass {ch : Nat} (again : Bool) (h : s.block.selftests ch = true) :
    exec (.selftestResult ch true again) s =
      .next ⟨(s.block.modRope fun p => { p with runs := p.runs + 1, fails := p.fails + 0 }).commit, s.pending⟩ := by
  refine (runAt_rope hu hr _).trans ?_
  rw [h]
  rfl

/-- With the Rope down the HEALTH period of 100 ms passes and nothing is sent. -/
theorem exec_healthTx_down (hp : s.block.paired = true) (hd : s.block.ropeUp = false) : exec .healthTx s =
    .next ⟨(s.block.advanceXtal ((s.block.rope.period + 1) * 100000000)).healthCounted.commit, s.pending⟩ := by
  have hdown := (ropeUp_advanceXtal s.block ((s.block.rope.period + 1) * 100000000)).trans hd
  refine (runAt_rope hu hr _).trans ?_
  rw [hp, if_neg (by decide)]
  generalize s.block.advanceXtal ((s.block.rope.period + 1) * 100000000) = c at hdown ⊢
  dsimp only
  have hcounted := (ropeUp_healthCounted c).trans hdown
  rw [show (c.draw 1001).2.modRope _ = c.healthCounted from rfl, ropeSay_of_down _ _ _ hcounted]

theorem exec_healthMissing (hup : s.block.ropeUp = true) :
    exec .healthMissing s = .next ⟨(((s.block.advanceXtal (s.block.rope.pHealthAt + 300000000)).modRope fun p =>
      { p with pHealthAt := (s.block.advanceXtal (s.block.rope.pHealthAt + 300000000)).xtal }).raise 914).commit, s.pending⟩ := by
  refine (runAt_rope hu hr _).trans ?_
  rw [if_pos hup]

theorem exec_joinTimeout {t : Nat} (h : s.block.rope.joinReq = some t) (hrole : s.block.role = rSYNCING) :
    exec .joinTimeout s = .next ⟨(s.block.advanceXtal (t + 2000000000)).joinStart.commit, s.pending⟩ := by
  refine (runAt_rope hu hr _).trans ?_
  rw [h]
  dsimp only
  rw [if_pos hrole]

theorem exec_ropeJoinCmd (hrole : s.block.role = rSYNCING) (hpartner : s.block.partnerIs rACTIVE = true) :
    exec .ropeJoinCmd s = .next ⟨s.block.joinStart.commit, s.pending⟩ := by
  refine (runAt_rope hu hr _).trans ?_
  rw [if_pos ⟨hrole, hpartner⟩]

theorem exec_handoverAckTimeout {k : Nat} (h : s.block.rope.handover = some k) (hrole : s.block.role = rACTIVE)
    (hack : s.block.rope.acked = false) :
    exec .handoverAckTimeout s = .next ⟨((((s.block.advanceTo (tickNs s.block.tickRate (k - 2))).modRope fun p =>
      { p with handover := none }).set ROPE_JOIN_HANDOVER_FAIL 1).raise 898).commit, s.pending⟩ := by
  refine (runAt_rope hu hr _).trans ?_
  rw [h]
  dsimp only
  rw [if_pos ⟨hrole, hack⟩]

theorem exec_demote (hrole : s.block.role = rACTIVE) (hpartner : s.block.partnerIs rSTANDBY = true) (hsound : s.block.rope.pFails = false) :
    exec .demote s = .next ⟨((s.block.modRope fun p => { p with handover := some (s.block.lastTick + 4), acked := false }).ropeSay 0xE
      (beBytes 8 (s.block.lastTick + 4) ++ [0])).commit, s.pending⟩ := by
  refine (runAt_rope hu hr _).trans ?_
  rw [if_pos ⟨hrole, hpartner, hsound⟩]

theorem exec_demoteForce (hrole : s.block.role = rACTIVE) :
    exec .demoteForce s = .next ⟨(((s.block.leaseDrop.raise 898).setRole rSYNCING).ropeEval).commit, s.pending⟩ := by
  refine (runAt_rope hu hr _).trans ?_
  rw [if_pos hrole]

end

/-- Settles O36: each command by its equation; what stays is told by the frames of its operations. -/
theorem pairCommands : Obligations.PairCommands := by
  intro b q hu hr
  refine ⟨fun task cs r h => ⟨_, exec_targetedSelftestDone_pass (s := ⟨b, q⟩) hu hr h, rfl⟩,
    fun r l h => ⟨_, exec_resolveTimeout (s := ⟨b, q⟩) hu hr h, rfl⟩, fun ch again h => ?selftest, fun hp hd => ?health, fun hup => ?missing,
    fun t h hrole => ⟨_, exec_joinTimeout (s := ⟨b, q⟩) hu hr h hrole, rfl⟩,
    fun hrole hpartner => ⟨_, exec_ropeJoinCmd (s := ⟨b, q⟩) hu hr hrole hpartner, rfl⟩, fun k h hrole hack => ?givenUp,
    fun hrole hpartner hsound => ⟨_, exec_demote (s := ⟨b, q⟩) hu hr hrole hpartner hsound, rfl⟩,
    fun hrole => ⟨_, exec_demoteForce (s := ⟨b, q⟩) hu hr hrole, rfl⟩⟩
  case selftest => exact ⟨_, exec_selftestResult_pass (s := ⟨b, q⟩) hu hr again h, rfl, rfl, Frame.refl.modRope.commit⟩
  case health =>
    refine ⟨_, exec_healthTx_down (s := ⟨b, q⟩) hu hr hp hd, ?_, rfl, rfl, Frame.refl.advanceXtal_timed.draw.modRope_timed.commit⟩
    rw [Block.commit_rope, period_healthCounted, rope_advanceXtal]
  case missing =>
    refine ⟨_, exec_healthMissing (s := ⟨b, q⟩) hu hr hup, ?_, ?_, (Frame.refl.advanceXtal_timed.modRope_timed.raise (withEvt_of_evtReg _)).commit⟩
    · rw [pending_commit]
      exact pending_raise _ _
    · rw [Block.commit_rope, rope_raise, Block.modRope_rope, rope_advanceXtal, Block.commit_xtal, xtal_of_own (own_raise _ 914), Block.modRope_xtal]
  case givenUp =>
    refine ⟨_, exec_handoverAckTimeout (s := ⟨b, q⟩) hu hr h hrole hack, ?_, ?_, ?_,
      ((Frame.refl.advanceTo_timed.modRope_timed.set (f := ROPE_JOIN_HANDOVER_FAIL) (withEvt_singleton ROPE_JOIN)).raise
        (withEvt_of_evtReg _)).commit⟩
    · rw [Block.commit_rope, rope_raise]
      rfl
    · rw [Block.get_commit, get_raise _ _ _ (by decide), Block.get_set_self _ _ _ (by decide)]
      rfl
    · rw [pending_commit]
      exact pending_raise _ _

end Sys2Proof.Machine

/-! # DRAM maintenance

The maintenance commands of a DDR channel act in a channel that the member has (R532, R714). -/

namespace Sys2Proof.Machine

open Sys2Proof Sys2Proof.Reg

/-- The DQS interval oscillators of a channel that the member lacks are not read (R714). -/
theorem exec_ddrDqsOscCheck_absent {s : State} {c : Nat} (drifted : Nat) (h : s.block.member.has ⟨.ddr, c⟩ = false) :
    exec (.ddrDqsOscCheck c drifted) s = .next s := runUnit_idle _ _ s (.inr h)

/-- A module of the member with one DDR channel that is up; the word of STAT of channel 1, which it lacks, has TRAINED set. -/
def oneChannelTrained : Block :=
  let b := ({ ({} : Block) with member := .ny9620, rst := { ({} : Rst) with rel := true } } : Block)
  (b.set RST_START_STAGE 15).set (THL_DDRc_STAT_TRAINED 1) 1

/-- Refutes O40: its clauses on a live DDR channel leave the member free. On a member with one channel the check of channel 1 changes
nothing (R714, as Obligations.AbsentUnits says), while the clause of ddrDqsOscCheck has the counter of drifted ranks go on. The state is
one the statement admits, TRAINED being set in the stored word of the absent channel's STAT. -/
theorem not_memoryCommands : ¬ Obligations.MemoryCommands := by
  intro h
  have hup : oneChannelTrained.up := by decide +kernel
  have hlive : oneChannelTrained.ddrLive 1 = true := by decide +kernel
  have habsent : oneChannelTrained.member.has ⟨.ddr, 1⟩ = false := by decide +kernel
  obtain ⟨-, -, -, -, -, -, -, hdrift, -⟩ := h oneChannelTrained [] hup
  obtain ⟨b', hexec, hcount, -⟩ := hdrift 1 hlive
  rw [exec_ddrDqsOscCheck_absent (s := ⟨oneChannelTrained, []⟩) 1 habsent] at hexec
  cases hexec
  exact absurd (left_eq_add.mp hcount) (by decide)

end Sys2Proof.Machine

/-! # The recorder's log

Cairn writes the head of its FIFO into the log (R670 to R674, R679): each way a write ends by an equation of `Block.logWrite`, and what it
leaves of the registers, the memories and the FIFO. -/

namespace Sys2Proof.Machine

open Sys2Proof Sys2Proof.Reg

theorem crn_of_own {b b' : Block} (h : b'.own = b.own) : b'.crn = b.crn := (congrArg Block.crn h : b'.own.crn = b.own.crn)

theorem withEvt_cons_false {y x : Nat} {l : List Nat} : withEvt (y :: l) x = false ↔ y ≠ x ∧ withEvt l x = false := by
  rw [withEvt, List.contains_cons, Bool.or_assoc, Bool.or_eq_false_iff, beq_eq_false_iff_ne, ne_comm, withEvt]

theorem units_crn_pos (m : Member) : 0 < m.units .crn := by cases m <;> decide

/-- In a module that is up a command of Cairn ends in a next state. -/
theorem runAt_crn {s : State} (hu : s.block.up) (f : Block → Block) : runAt .crn f s = .next ⟨(f s.block).commit, s.pending⟩ :=
  runAt_eq .crn f s (released_up _ hu .crn) (units_crn_pos _)

/-! What stores and events leave -/

section
variable (b : Block)

/-- Bytes stored in DRAM by an engine change the memories alone. -/
theorem dramStore_eq (a : Nat) (l : List Byte) : ∃ m, b.dramStore a l = { b with mem := m } := by
  unfold Block.dramStore Block.each
  refine List.foldlRecOn (motive := fun x : Block => ∃ m, x = { b with mem := m }) _ _ ⟨_, rfl⟩ fun x hx i _ => ?_
  obtain ⟨m, rfl⟩ := hx
  dsimp only
  split
  · exact ⟨_, rfl⟩
  · exact ⟨_, rfl⟩

theorem rd_dramStore (a : Nat) (l : List Byte) (x : Nat) : (b.dramStore a l).rd x = b.rd x := by
  obtain ⟨m, h⟩ := dramStore_eq b a l
  rw [h]
  rfl

theorem units_dramStore (a : Nat) (l : List Byte) : (b.dramStore a l).units = b.units := by
  obtain ⟨m, h⟩ := dramStore_eq b a l
  rw [h]
  rfl

theorem units_commit : b.commit.units = b.units := rfl

theorem fifo_raiseIf (c : Bool) (n : Nat) : (b.raiseIf c n).fifo = b.fifo := by
  cases c
  · rfl
  · exact congrArg Prod.fst (staged_raise b n)

theorem get_congr {b c : Block} {f : Fld} (h : c.rd f.addr = b.rd f.addr) : c.get f = b.get f := by rw [Block.get, h, Block.get]

theorem on_congr {b c : Block} {f : Fld} (h : c.rd f.addr = b.rd f.addr) : c.on f = b.on f := by rw [Block.on, get_congr h, Block.on]

/-- The regions are those that the registers of the region table show. -/
theorem regionOfRange_congr {c : Block} (h : ∀ x, 0x80400 ≤ x → x < 0x80800 → c.rd x = b.rd x) (a n : Nat) :
    c.regionOfRange a n = b.regionOfRange a n := by
  have hof (y : Nat) : c.regionOf y = b.regionOf y := by
    refine List.find?_congr fun r hr => ?_
    have hlt : r < 64 := List.mem_range.mp hr
    have hbase : c.rd (THL_RGNr_BASE r) = b.rd (THL_RGNr_BASE r) := h _ (by unfold THL_RGNr_BASE; omega) (by unfold THL_RGNr_BASE; omega)
    have hsize : c.rd (THL_RGNr_SIZE r) = b.rd (THL_RGNr_SIZE r) := h _ (by unfold THL_RGNr_SIZE; omega) (by unfold THL_RGNr_SIZE; omega)
    have hcfg : c.rd (THL_RGNr_CFG r) = b.rd (THL_RGNr_CFG r) := h _ (by unfold THL_RGNr_CFG; omega) (by unfold THL_RGNr_CFG; omega)
    have hen : c.on (THL_RGNr_CFG_EN r) = b.on (THL_RGNr_CFG_EN r) := on_congr hcfg
    rw [get_congr (f := THL_RGNr_BASE_MIB r) hbase, get_congr (f := THL_RGNr_SIZE_MIB r) hsize,
      on_congr (f := THL_RGNr_CFG_KIND r) hcfg, hen]
  simp only [Block.regionOfRange, hof]

/-- No register of THL is one that the report of an event changes. -/
theorem evtReg_thl (a : Nat) (h : 0x80000 ≤ a) (h' : a < 0x90000) : evtReg a = false := by
  simp only [evtReg, HIF_CNTi, HIF_CNT_ROLL, HIF_WAKE_CAUSE, HIF_WAKE_TIME_LO, HIF_WAKE_TIME_HI, Bool.or_eq_false_iff,
    Bool.and_eq_false_iff, beq_eq_false_iff_ne, decide_eq_false_iff_not]
  omega

theorem pending_count_mono (a n : Nat) (r : Fld) (e m : Nat) (ha : pendReg a = false) (hr : pendReg r.addr = false) (h : b.pendingEvent m = true) :
    (b.count a n r e).pendingEvent m = true := by
  unfold Block.count
  dsimp only
  split
  · exact pending_raise_mono _ _ _ (by rwa [pending_set _ _ _ _ hr, pending_wr _ _ _ _ ha])
  · rwa [pending_wr _ _ _ _ ha]

end

/-! An access in no region (R534) -/

section
variable (b : Block) (a n : Nat)

theorem refusedAt_of_region (h : ¬(b.regionOfRange a n).isNone = true) : b.refusedAt a n = b := by
  rw [Block.refusedAt, Bool.eq_false_iff.mpr h, Block.doIf_false]

theorem refusedAt_of_noRegion (h : (b.regionOfRange a n).isNone = true) : b.refusedAt a n = b.noRegion := by
  rw [Block.refusedAt, h, Block.doIf_true]

theorem get_noRegion : b.noRegion.get THL_ERR_NOREGION = 1 :=
  (get_count _ _ _ _ _ _ (by decide) (by decide) (by decide)).trans (Block.get_set_self _ _ _ (by decide))

theorem own_noRegion : b.noRegion.own = b.own := (own_count _ _ _ _ _).trans (own_set _ _ _)

theorem own_refusedAt : (b.refusedAt a n).own = b.own := own_doIf _ Block.noRegion own_noRegion b

/-- A refused access changes at most THL's error register, the counter of such accesses and what events change. -/
theorem Frame.refusedAt {p : Nat → Bool} {k : Block → Block} {x : Block} (h : Frame p k x b) (herr : p THL_ERR = true)
    (hcnt : p (THL_CNTi 5) = true) (hroll : p THL_CNT_ROLL = true) (he : ∀ y, evtReg y = true → p y = true) :
    Frame p k x (b.refusedAt a n) :=
  h.doIf fun _ => (h.set (f := THL_ERR_NOREGION) herr).count hcnt (r := bitOf THL_CNT_ROLL 5) hroll he

theorem pending_refusedAt {m : Nat} (h : b.pendingEvent m = true) : (b.refusedAt a n).pendingEvent m = true := by
  by_cases hr : (b.regionOfRange a n).isNone = true
  · rw [refusedAt_of_noRegion b a n hr]
    exact pending_count_mono _ _ _ _ _ _ (by decide) (by decide) (by rwa [pending_set _ _ _ _ (by decide)])
  · rwa [refusedAt_of_region b a n hr]

theorem fifo_refusedAt : (b.refusedAt a n).fifo = b.fifo := by
  by_cases hr : (b.regionOfRange a n).isNone = true
  · rw [refusedAt_of_noRegion b a n hr]
    exact fifo_count _ _ _ _ _
  · rw [refusedAt_of_region b a n hr]

end

/-! The ways a write ends -/

section
variable (b : Block) (r : Report)

/-- How many records of the log software has not consumed (R674). -/
def Block.logUsed : Nat := sub32 (b.rd CRN_PROD).toNat (b.rd CRN_CONS).toNat

/-- Where the next record goes (R672). -/
def Block.logNext : Nat := b.logBase + 65536 + 64 * ((b.rd CRN_PROD).toNat % b.logCap)

/-- The log is full: STOPPED shows, with event 994 as it becomes so (R674). -/
def Block.logStopped : Block := (b.set CRN_STAT_STOPPED 1).raiseIf (!b.on CRN_STAT_STOPPED) 994

/-- A record could not be written at a: WR_FAIL shows, with event 1001 at the first attempt (R679). -/
def Block.logFailed (a : Nat) : Block :=
  ((Block.set { b with crn := { b.crn with failing := true } } CRN_STAT_WR_FAIL 1).raiseIf (!b.crn.failing) 1001).refusedAt a 64

/-- The bytes of the next record stand at its place (R672, R673). -/
def Block.recordPlaced : Block :=
  b.dramStore b.logNext (recordBytes (b.rd CRN_PROD).toNat (r.flags + (if b.crn.prior then 2 else 0)) r)

/-- A record stands in the log and PROD counts it (R672). -/
def Block.logStored : Block :=
  let c := b.recordPlaced r
  Block.wr { c with crn := { c.crn with failing := false, prior := false } } CRN_PROD (BitVec.ofNat 32 ((b.rd CRN_PROD).toNat + 1))

/-- A record of the log is counted and reported, so is the rise to the watermark, and the one that fills the log stops it (R674). -/
def Block.logCounted (used : Nat) : Block :=
  let c := ((b.crnCnt 0).raiseEvery 1000 992).raiseIf (b.on CRN_WM_RECORDS && (b.rd CRN_WM).toNat == used + 1) 993
  if c.logCap ≤ used + 1 then c.logStopped else c

theorem logWrite_full (h : b.logCap ≤ b.logUsed) : b.logWrite r = (false, b.logStopped) := by
  unfold Block.logUsed at h
  unfold Block.logWrite
  dsimp only
  rw [if_pos h, Block.logStopped]

theorem logWrite_unwritable (hroom : b.logUsed < b.logCap) (h : b.logWritable b.logNext = false) :
    b.logWrite r = (false, b.logFailed b.logNext) := by
  unfold Block.logUsed at hroom
  unfold Block.logNext at h
  unfold Block.logWrite
  dsimp only
  rw [if_neg (Nat.not_le.mpr hroom), h, Bool.not_false, if_pos rfl, Block.logFailed, Block.logNext]

theorem logWrite_written (hroom : b.logUsed < b.logCap) (h : b.logWritable b.logNext = true) :
    b.logWrite r = (true, (b.logStored r).logCounted b.logUsed) := by
  unfold Block.logUsed at hroom
  unfold Block.logNext at h
  unfold Block.logWrite
  dsimp only
  rw [if_neg (Nat.not_le.mpr hroom), h, Bool.not_true, if_neg Bool.false_ne_true]
  rfl

end

/-! A full log (R674) -/

section
variable (b : Block)

theorem own_logStopped : b.logStopped.own = b.own := own_raiseIf _ _ _

theorem fifo_logStopped : b.logStopped.fifo = b.fifo := fifo_raiseIf _ _ _

theorem get_stopped_logStopped : b.logStopped.get CRN_STAT_STOPPED = 1 :=
  (get_raiseIf _ _ _ _ (by decide)).trans (Block.get_set_self _ _ _ (by decide))

theorem pending_logStopped (h : b.on CRN_STAT_STOPPED = false) : b.logStopped.pendingEvent 994 = true := by
  rw [Block.logStopped, h]
  exact pending_raise _ _

theorem Frame.logStopped {p : Nat → Bool} {k : Block → Block} {x : Block} (h : Frame p k x b) (hs : p CRN_STAT = true)
    (he : ∀ y, evtReg y = true → p y = true) : Frame p k x b.logStopped :=
  (h.set (f := CRN_STAT_STOPPED) hs).raiseIf he

end

/-! A record that cannot be written (R679) -/

section
variable (b : Block) (a : Nat)

theorem fifo_logFailed : (b.logFailed a).fifo = b.fifo := (fifo_refusedAt _ _ _).trans (fifo_raiseIf _ _ _)

theorem get_wrFail_logFailed : (b.logFailed a).get CRN_STAT_WR_FAIL = 1 := by
  have hkept (c : Block) : (c.refusedAt a 64).get CRN_STAT_WR_FAIL = c.get CRN_STAT_WR_FAIL :=
    (Frame.refusedAt c a 64 (p := withEvt [THL_ERR, THL_CNTi 5, THL_CNT_ROLL]) (k := id) .refl (by decide) (by decide) (by decide)
      (withEvt_of_evtReg _)).get _ (by decide)
  rw [Block.logFailed, hkept, get_raiseIf _ _ _ _ (by decide), Block.get_set_self _ _ _ (by decide)]
  rfl

theorem get_noRegion_logFailed (h : (b.regionOfRange a 64).isNone = true) : (b.logFailed a).get THL_ERR_NOREGION = 1 := by
  rw [Block.logFailed, refusedAt_of_noRegion, get_noRegion]
  rw [regionOfRange_congr b fun x hlo hhi => ?_, h]
  rw [rd_raiseIf _ _ _ _ (evtReg_thl x (by omega) (by omega)), Block.rd_set_ne _ (by simp only [CRN_STAT_WR_FAIL, CRN_STAT]; omega)]
  rfl

/-- The first attempt that fails is reported. -/
theorem pending_logFailed (h : b.crn.failing = false) : (b.logFailed a).pendingEvent 1001 = true := by
  rw [Block.logFailed, h]
  exact pending_refusedAt _ _ _ (pending_raise _ _)

theorem failing_logFailed : (b.logFailed a).crn.failing = true := by
  rw [Block.logFailed, crn_of_own ((own_refusedAt _ _ _).trans (own_raiseIf _ _ _)), Block.set_crn]

theorem frame_logFailed {k : Block → Block} (h : k (Block.units { b with crn := { b.crn with failing := true } }) = k b.units) :
    Frame (withEvt [CRN_STAT, THL_ERR, THL_CNTi 5, THL_CNT_ROLL]) k b (b.logFailed a) := by
  have hnoted : Frame (withEvt [CRN_STAT, THL_ERR, THL_CNTi 5, THL_CNT_ROLL]) k b { b with crn := { b.crn with failing := true } } :=
    Frame.refl.unit rfl rfl h
  exact ((hnoted.set (f := CRN_STAT_WR_FAIL) (by decide)).raiseIf (withEvt_of_evtReg _)).refusedAt _ _ _ (by decide) (by decide) (by decide)
    (withEvt_of_evtReg _)

end

/-! A record in the log (R672) -/

section
variable (b : Block) (r : Report)

theorem rd_logStored {x : Nat} (h : CRN_PROD ≠ x) : (b.logStored r).rd x = b.rd x := (Block.rd_wr_ne _ h _).trans (rd_dramStore _ _ _ _)

theorem prod_logStored : (b.logStored r).rd CRN_PROD = b.rd CRN_PROD + 1 :=
  (Block.rd_wr_self _ _ _).trans (BitVec.eq_of_toNat_eq (by simp))

theorem mem_logStored : (b.logStored r).mem = (b.recordPlaced r).mem := rfl

theorem units_logStored : (b.logStored r).units.noCrn = b.units.noCrn := by
  have hplaced : (b.recordPlaced r).units = b.units := units_dramStore b _ _
  calc (b.logStored r).units.noCrn = (b.recordPlaced r).units.noCrn := rfl
    _ = b.units.noCrn := congrArg Block.noCrn hplaced

theorem own_logCounted (used : Nat) : (b.logCounted used).own = b.own := by
  have hcounted (c : Bool) : (((b.crnCnt 0).raiseEvery 1000 992).raiseIf c 993).own = b.own :=
    (own_raiseIf _ _ _).trans ((own_raiseEvery _ _ _).trans (own_count _ _ _ _ _))
  unfold Block.logCounted
  dsimp only
  split
  · exact (own_logStopped _).trans (hcounted _)
  · exact hcounted _

theorem frame_logCounted (used : Nat) : Frame (withEvt [CRN_STAT, CRN_CNTi 0, CRN_CNT_ROLL]) id b (b.logCounted used) := by
  have hcounted (c : Bool) : Frame (withEvt [CRN_STAT, CRN_CNTi 0, CRN_CNT_ROLL]) id b (((b.crnCnt 0).raiseEvery 1000 992).raiseIf c 993) :=
    ((Frame.refl.count (by decide) (r := bitOf CRN_CNT_ROLL 0) (by decide) (withEvt_of_evtReg _)).raiseEvery (withEvt_of_evtReg _)).raiseIf
      (withEvt_of_evtReg _)
  unfold Block.logCounted
  exact .ite (fun _ => (hcounted _).logStopped _ (by decide) (withEvt_of_evtReg _)) fun _ => hcounted _

/-- The FIFO less its head (R670). -/
def Block.logTaken (rest : List Report) : Block :=
  Block.set { b with fifo := rest, marker := b.marker.map (fun n => n - 1) } CRN_STAT_FIFO_FILL rest.length

theorem fill_logTaken {rest : List Report} (h : rest.length < 64) : (b.logTaken rest).get CRN_STAT_FIFO_FILL = rest.length :=
  (Block.get_set_self _ _ _ (by decide)).trans (Nat.mod_eq_of_lt (h.trans (by decide)))

theorem own_logTaken (rest : List Report) : (b.logTaken rest).own = b.own := rfl

theorem rd_logTaken (rest : List Report) {x : Nat} (h : CRN_STAT ≠ x) : (b.logTaken rest).rd x = b.rd x := Block.rd_set_ne _ h _

end

/-! What Cairn does with the FIFO's head (R670) -/

section
variable (b : Block)

theorem logStep_idle (h : b.on CRN_CTRL_EN = false ∨ b.on CRN_CTRL_FREEZE = true ∨ (b.fifo = [] ∧ b.marker ≠ some 0)) : b.logStep = b := by
  unfold Block.logStep
  by_cases hoff : (!b.on CRN_CTRL_EN || b.on CRN_CTRL_FREEZE) = true
  · exact if_pos hoff
  · rw [if_neg hoff]
    rcases h with hen | hfreeze | ⟨hfifo, hmarker⟩
    · exact absurd (by rw [hen]; rfl) hoff
    · exact absurd (by rw [hfreeze, Bool.or_true]) hoff
    · rw [if_neg hmarker, hfifo]

section
variable {b} {r : Report} {rest : List Report} {c : Block} (hen : b.on CRN_CTRL_EN = true) (hfreeze : b.on CRN_CTRL_FREEZE = false)
  (hmarker : b.marker = none) (hfifo : b.fifo = r :: rest)
include hen hfreeze hmarker hfifo

theorem logStep_of_kept (hw : b.logWrite r = (false, c)) : b.logStep = c := by
  rw [Block.logStep, hen, hfreeze, if_neg (by decide), if_neg (by rw [hmarker]; decide), hfifo]
  dsimp only
  rw [hw]

theorem logStep_of_written (hw : b.logWrite r = (true, c)) : b.logStep = c.logTaken rest := by
  rw [Block.logStep, hen, hfreeze, if_neg (by decide), if_neg (by rw [hmarker]; decide), hfifo]
  dsimp only
  rw [hw, Block.logTaken]

end

/-! Software's count (R674) -/

/-- CONS takes a value; STOPPED clears where the log then has room. -/
def Block.consTaken (v : Word) : Block :=
  if sub32 (b.rd CRN_PROD).toNat v.toNat < b.logCap then (b.wr CRN_CONS v).set CRN_STAT_STOPPED 0 else b.wr CRN_CONS v

theorem rd_cons_consTaken (v : Word) : (b.consTaken v).rd CRN_CONS = v := by
  unfold Block.consTaken
  split
  · exact (Block.rd_set_ne _ (by decide) _).trans (Block.rd_wr_self _ _ _)
  · exact Block.rd_wr_self _ _ _

theorem get_stopped_consTaken (v : Word) (h : sub32 (b.rd CRN_PROD).toNat v.toNat < b.logCap) : (b.consTaken v).get CRN_STAT_STOPPED = 0 := by
  rw [Block.consTaken, if_pos h]
  exact get_set_zero _ _ (by decide)

theorem frame_consTaken (v : Word) : Frame (within [CRN_CONS, CRN_STAT]) id b (b.consTaken v) :=
  .ite (fun _ => (Frame.refl.wr (by decide)).set (f := CRN_STAT_STOPPED) (by decide)) fun _ => Frame.refl.wr (by decide)

end

/-! Commands of the log -/

section
variable {s : State} (hu : s.block.up)
include hu

theorem exec_logRecordWrite (h : s.block.crn.failing = false) : exec .logRecordWrite s = .next ⟨s.block.logStep.commit, s.pending⟩ := by
  refine (runAt_crn hu _).trans ?_
  rw [if_neg (by rw [h]; decide)]

theorem exec_recordWriteRetry (h : s.block.crn.failing = true) : exec .recordWriteRetry s = .next ⟨s.block.logStep.commit, s.pending⟩ := by
  refine (runAt_crn hu _).trans ?_
  rw [if_pos h]

/-- With no failed write there is nothing to try again. -/
theorem exec_recordWriteRetry_idle (h : s.block.crn.failing = false) : exec .recordWriteRetry s = .next ⟨s.block.commit, s.pending⟩ := by
  refine (runAt_crn hu _).trans ?_
  rw [if_neg (by rw [h]; decide)]

/-- The attempt at the FIFO's head is LOG_RECORD_WRITE, or the retry after one that failed. -/
theorem exec_logAttempt : exec (if s.block.crn.failing then .recordWriteRetry else .logRecordWrite) s =
    .next ⟨s.block.logStep.commit, s.pending⟩ := by
  split
  · exact exec_recordWriteRetry hu ‹_›
  · exact exec_logRecordWrite hu (Bool.eq_false_iff.mpr ‹_›)

theorem exec_crnConsWrite_taken (v : Word)
    (h : sub32 v.toNat (s.block.rd CRN_CONS).toNat ≤ sub32 (s.block.rd CRN_PROD).toNat (s.block.rd CRN_CONS).toNat) :
    exec (.crnConsWrite v) s = .next ⟨(s.block.consTaken v).commit, s.pending⟩ := by
  have hprod : (s.block.wr CRN_CONS v).rd CRN_PROD = s.block.rd CRN_PROD := Block.rd_wr_ne _ (by decide) _
  have hsize : (s.block.wr CRN_CONS v).get CRN_LOG_SIZE_MIB = s.block.get CRN_LOG_SIZE_MIB := Block.get_wr_ne _ (by decide) _
  have hcap : (s.block.wr CRN_CONS v).logCap = s.block.logCap := by unfold Block.logCap; rw [hsize]
  refine (runAt_crn hu _).trans ?_
  dsimp only
  rw [if_pos h, hprod, hcap, Block.consTaken]

theorem exec_crnConsWrite_refused (v : Word)
    (h : sub32 (s.block.rd CRN_PROD).toNat (s.block.rd CRN_CONS).toNat < sub32 v.toNat (s.block.rd CRN_CONS).toNat) :
    exec (.crnConsWrite v) s = .next ⟨s.block.commit, s.pending⟩ := by
  refine (runAt_crn hu _).trans ?_
  dsimp only
  rw [if_neg (Nat.not_le.mpr h)]

end

/-- Settles O51: each way a write of the FIFO's head ends by the equation of `Block.logWrite` for it; of the record written, the events and
counters that follow keep what the store and PROD left. -/
theorem recorderLog : Obligations.RecorderLog := by
  intro b q hu
  refine ⟨fun hidle hfail => ?idle, fun r rest f hen hfreeze hmarker hfifo hlen hf hroom hw => ?written,
    fun r rest hen hfreeze hmarker hfifo hfail hfull => ?full, fun r rest a hen hfreeze hmarker hfifo ha hroom hw => ?unwritable,
    fun hfail => ⟨_, exec_recordWriteRetry_idle (s := ⟨b, q⟩) hu hfail, Frame.refl.commit⟩, fun v hv => ?taken,
    fun v hv => ⟨_, exec_crnConsWrite_refused (s := ⟨b, q⟩) hu v hv, Frame.refl.commit⟩⟩
  case idle =>
    refine ⟨_, exec_logRecordWrite (s := ⟨b, q⟩) hu hfail, ?_⟩
    dsimp only
    rw [logStep_idle b hidle]
    exact ⟨Frame.refl.commit, rfl⟩
  case written =>
    subst hf
    have hstep := logStep_of_written hen hfreeze hmarker hfifo (logWrite_written b r hroom hw)
    have hown := (own_logTaken _ rest).trans (own_logCounted (b.logStored r) b.logUsed)
    have hrd (x : Nat) (hx : withEvt [CRN_STAT, CRN_CNTi 0, CRN_CNT_ROLL] x = false) : b.logStep.rd x = (b.logStored r).rd x := by
      rw [hstep, rd_logTaken _ _ (withEvt_cons_false.mp hx).1, (frame_logCounted _ _).1 x hx]
    rw [← hstep] at hown
    refine ⟨_, exec_logAttempt (s := ⟨b, q⟩) hu, ?_, ?_, ?_, ?_, ?_, ?_, fun x hx => ?_, ?_⟩ <;> dsimp only
    · rw [Block.rd_commit, hrd _ (by decide), prod_logStored]
    · rw [Block.commit_fifo, hstep]
      rfl
    · rw [Block.get_commit, hstep, fill_logTaken _ hlen]
    · rw [Block.commit_crn, crn_of_own hown]
      rfl
    · rw [Block.commit_crn, crn_of_own hown]
      rfl
    · exact congrArg (Sparse.norm memDefault) ((mem_of_own hown).trans (mem_logStored b r))
    · obtain ⟨hprod, hrest⟩ := withEvt_cons_false.mp hx
      rw [Block.rd_commit, hrd x hrest, rd_logStored _ _ hprod]
    · rw [units_commit, units_of_own hown, units_logStored]
  case full =>
    refine ⟨_, exec_logRecordWrite (s := ⟨b, q⟩) hu hfail, ?_⟩
    dsimp only
    rw [logStep_of_kept hen hfreeze hmarker hfifo (logWrite_full b r hfull)]
    exact ⟨(Block.get_commit _ _).trans (get_stopped_logStopped b), fifo_logStopped b,
      fun h => (pending_commit _ _).trans (pending_logStopped b h), (Frame.refl.logStopped b (by decide) (withEvt_of_evtReg _)).commit⟩
  case unwritable =>
    subst ha
    have hstep := logStep_of_kept hen hfreeze hmarker hfifo (logWrite_unwritable b r hroom hw)
    refine ⟨fun hfail => ⟨_, exec_logRecordWrite (s := ⟨b, q⟩) hu hfail, ?_⟩,
      fun hfail => ⟨_, exec_recordWriteRetry (s := ⟨b, q⟩) hu hfail, ?_⟩⟩
    · dsimp only
      rw [hstep]
      exact ⟨(Block.get_commit _ _).trans (get_wrFail_logFailed b _), failing_logFailed b _,
        (pending_commit _ _).trans (pending_logFailed b _ hfail), fun h => (Block.get_commit _ _).trans (get_noRegion_logFailed b _ h),
        fifo_logFailed b _, (frame_logFailed b _ rfl).commit⟩
    · have hsame : ({ b.crn with failing := true } : Crn) = b.crn := by rw [← hfail]
      dsimp only
      rw [hstep]
      exact ⟨(Block.get_commit _ _).trans (get_wrFail_logFailed b _), fifo_logFailed b _,
        fun h => (Block.get_commit _ _).trans (get_noRegion_logFailed b _ h), (frame_logFailed b _ (by rw [hsame])).commit⟩
  case taken =>
    exact ⟨_, exec_crnConsWrite_taken (s := ⟨b, q⟩) hu v hv, (Block.rd_commit _ _).trans (rd_cons_consTaken b v),
      fun h => (Block.get_commit _ _).trans (get_stopped_consTaken b v h), (frame_consTaken b v).commit⟩

end Sys2Proof.Machine

/-! # Module resets

What a reset leaves of the module (R601 to R603, R607), and the sources that cause one. -/

namespace Sys2Proof.Machine

open Sys2Proof Sys2Proof.Reg

/-- Settles O4: both tables are empty at reset. -/
theorem resetIsCanonical : Obligations.ResetIsCanonical := rfl

/-! Memories under a reset (R541, R601) -/

theorem get_filter_key {α : Type} (d : Nat → α) (p : Nat → Bool) (m : Sparse α) (k : Nat) :
    Sparse.get d (m.filter fun e => p e.1) k = if p k then Sparse.get d m k else d k := by
  induction m with
  | nil => simp
  | cons e t ih =>
    obtain ⟨j, v⟩ := e
    by_cases hj : j = k
    · subst hj
      cases hp : p j <;> simp [hp, ih]
    · cases hp : p j <;> simp [hp, ih, Sparse.get_cons_ne d hj]

theorem key_div (sp : Space) (a : Nat) : sp.key a / 2 ^ 64 = sp.index := by
  unfold Space.key
  omega

/-- DRAM reads zero and flash as before. -/
structure Block.ColdFrom (b c : Block) : Prop where
  dram : ∀ a, c.byte .dram a = 0
  flash : ∀ d a, c.byte (.flash d) a = b.byte (.flash d) a

theorem imgLock_of_own {b b' : Block} (h : b'.own = b.own) : b'.imgLock = b.imgLock := (congrArg Block.imgLock h : b'.own.imgLock = b.own.imgLock)

section
variable {b c c' : Block}

theorem Block.ColdFrom.congr (h : b.ColdFrom c) (hb : SameBytes c c') : b.ColdFrom c' where
  dram a := (hb _ a).trans (h.dram a)
  flash d a := (hb _ a).trans (h.flash d a)

/-- Host memory and flash alone outlast a cold reset. -/
theorem Block.ColdFrom.of_mem (h : c.mem = b.mem.filter fun e => memCold e.1) : b.ColdFrom c where
  dram a := by
    rw [Block.byte, h, get_filter_key, if_neg (by rw [memCold, key_div]; decide)]
    exact memDefault_key_of_index_lt .dram a (by decide)
  flash d a := by
    rw [Block.byte, h, get_filter_key, if_pos (by rw [memCold, key_div]; simp [Space.index]), Block.byte]

end

/-! The end of the lease leaves the reset controller and the memories alone -/

section
variable (b : Block)

theorem rst_gateClose : b.gateClose.rst = b.rst := by
  rcases gateClose_cases b with h | h
  · rw [h]
  · rw [h, Block.raise_rst]
    rfl

theorem mem_gateClose : b.gateClose.mem = b.mem := by
  rcases gateClose_cases b with h | h
  · rw [h]
  · rw [h, mem_of_own (own_raise _ _)]
    rfl

theorem rst_leaseDrop : b.leaseDrop.rst = b.rst := by
  unfold Block.leaseDrop
  split
  · exact rst_gateClose _
  · rfl

theorem mem_leaseDrop : b.leaseDrop.mem = b.mem := by
  unfold Block.leaseDrop
  split
  · exact mem_gateClose _
  · rfl

theorem leaseDrop_of_not_leased (h : b.leased = false) : b.leaseDrop = b := if_neg (by rw [Block.leased] at h; rw [h]; decide)

theorem leased_leaseDrop : b.leaseDrop.leased = false := by
  cases h : b.leased with
  | false => rw [leaseDrop_of_not_leased b h, h]
  | true => rw [Block.leased, rope_leaseDrop b h]

end

/-! What a reset reaches (R602, R603) -/

/-- The reset controller shows a reset of a level, for one cause: the units are no longer released, the lease is gone. -/
structure Block.ResetShown (b : Block) (lvl cause : Nat) : Prop where
  level : b.rst.level = lvl
  rel : b.rst.rel = false
  leased : b.leased = false
  lastLevel : b.get RST_LAST_LEVEL = lvl
  lastCause : b.get RST_LAST_CAUSE = cause
  lastAll : b.rd RST_LAST_ALL = BitVec.ofNat 32 (2 ^ cause)

theorem Block.ResetShown.congr {b c : Block} {lvl cause : Nat} (h : b.ResetShown lvl cause) (hlevel : c.rst.level = b.rst.level)
    (hrel : c.rst.rel = b.rst.rel) (hrope : c.rope = b.rope) (hlast : c.rd RST_LAST = b.rd RST_LAST)
    (hall : c.rd RST_LAST_ALL = b.rd RST_LAST_ALL) : c.ResetShown lvl cause where
  level := hlevel.trans h.level
  rel := hrel.trans h.rel
  leased := by rw [Block.leased, hrope, ← Block.leased, h.leased]
  lastLevel := (get_congr hlast).trans h.lastLevel
  lastCause := (get_congr hlast).trans h.lastCause
  lastAll := hall.trans h.lastAll

section
variable (b : Block) (lvl c : Nat)

/-- A reset reaches a module that no other one holds: its level and cause are shown and counted (R603, R621). -/
def Block.resetTaken : Block :=
  (((((b.modRst fun r => { r with
    storms := b.xtal :: r.storms.filter (fun t => decide (b.xtal ≤ t + 255 * 60000000000)), held := 0 }).reach lvl).showLast lvl c).wr
      RST_LAST_ALL 0).set (bitOf RST_LAST_ALL c) 1).resetCount c

theorem own_resetCount : (b.resetCount c).own = b.own := by
  unfold Block.resetCount
  split
  · exact own_count _ _ _ _ _
  · rfl

theorem rd_resetCount {a : Nat} (h : a < RST_CNTc 0) (he : evtReg a = false) : (b.resetCount c).rd a = b.rd a := by
  have ha : a < 0x10060 := h
  unfold Block.resetCount
  split
  · exact rd_count _ _ _ _ _ _ (by unfold RST_CNTc; omega) (by simp only [bitOf, RST_CNT_ROLL]; omega) he
  · rfl

/-- A warm reset keeps the causes of the reset that follows a wipe (R642). -/
theorem afterWipe_warmBlock : b.warmBlock.rst.afterWipe = b.rst.afterWipe := by
  have h : (b.dropLaunches.acqCut.each 8 (fun s b => b.auxWarm s)).rst = b.rst := by
    rw [Block.each_rst _ _ (fun i x => x.auxWarm_rst i), Block.acqCut_rst, Block.dropLaunches_rst]
  simp [Block.warmBlock, h]

theorem rope_warmBlock : b.warmBlock.rope = {} := rfl

theorem rst_reach : (b.reach lvl).rst.asserted = true ∧ (b.reach lvl).rst.level = lvl ∧ (b.reach lvl).rst.held = b.rst.held ∧
    (b.reach lvl).rst.rel = false ∧ (b.reach lvl).rst.afterWipe = b.rst.afterWipe := by
  obtain ⟨hrel, hheld, -⟩ := warmBlock_rst b
  unfold Block.reach
  rw [Block.modRst_rst]
  split
  · exact ⟨rfl, rfl, hheld, hrel, afterWipe_warmBlock b⟩
  · exact ⟨rfl, rfl, rfl, rfl, rfl⟩

theorem rope_reach : (b.reach lvl).rope = {} := by
  unfold Block.reach
  split
  · exact rope_warmBlock b
  · rfl

theorem reach_of_cold (h : lvl ≠ 2) : b.reach lvl = b.coldBlock.modRst fun r => { r with asserted := true, level := lvl } := by
  rw [Block.reach, if_neg h]

theorem rst_resetTaken : (b.resetTaken lvl c).rst.asserted = true ∧ (b.resetTaken lvl c).rst.level = lvl ∧
    (b.resetTaken lvl c).rst.held = 0 ∧ (b.resetTaken lvl c).rst.rel = false ∧ (b.resetTaken lvl c).rst.afterWipe = b.rst.afterWipe := by
  unfold Block.resetTaken
  rw [Block.resetCount_rst]
  exact rst_reach _ lvl

theorem level_resetTaken : (b.resetTaken lvl c).rst.level = lvl := by
  obtain ⟨-, hlevel, -⟩ := rst_resetTaken b lvl c
  exact hlevel

theorem held_resetTaken : (b.resetTaken lvl c).rst.held = 0 := by
  obtain ⟨-, -, hheld, -⟩ := rst_resetTaken b lvl c
  exact hheld

/-- RST_LAST is as the reset showed it: RST_LAST_ALL and the count of the cause are other registers. -/
theorem get_last_resetTaken (f : Fld) (hf : f.addr = RST_LAST) : ∃ x : Block, (b.resetTaken lvl c).get f = (x.showLast lvl c).get f := by
  unfold Block.resetTaken
  rw [get_congr (rd_resetCount _ c (by rw [hf]; decide) (by rw [hf]; decide)), Block.get_set_addr _ (by rw [hf]; simp only [bitOf]; decide),
    Block.get_wr_ne _ (by rw [hf]; decide)]
  exact ⟨_, rfl⟩

/-- RST_LAST and RST_LAST_ALL name the cause alone (R603). -/
theorem resetShown_resetTaken (hlvl : lvl ≤ 2) (hc : c < 14) : (b.resetTaken lvl c).ResetShown lvl c where
  level := level_resetTaken b lvl c
  rel := by
    obtain ⟨-, -, -, hrel, -⟩ := rst_resetTaken b lvl c
    exact hrel
  leased := by
    unfold Block.resetTaken
    rw [Block.leased, rope_of_own (own_resetCount _ c)]
    exact congrArg Rope.lease (rope_reach _ lvl)
  lastLevel := by
    obtain ⟨x, hx⟩ := get_last_resetTaken b lvl c RST_LAST_LEVEL rfl
    rw [hx, Block.showLast, Block.get_set_ne _ _ _ _ (by decide) (by decide), Block.get_set_self _ _ _ (by decide)]
    exact Nat.mod_eq_of_lt (by simp only [RST_LAST_LEVEL]; omega)
  lastCause := by
    obtain ⟨x, hx⟩ := get_last_resetTaken b lvl c RST_LAST_CAUSE rfl
    rw [hx, Block.showLast, Block.get_set_self _ _ _ (by decide)]
    exact Nat.mod_eq_of_lt (by simp only [RST_LAST_CAUSE]; omega)
  lastAll := by
    unfold Block.resetTaken
    rw [rd_resetCount _ c (by decide) (by decide), Block.set, bitOf, Block.rd_wr_self, Block.rd_wr_self]
    simp [putBits]

/-- Of the module's memories nothing outlasts a cold reset but flash; the image lock opens (R541, R601, R613). -/
theorem cold_resetTaken (h : lvl ≠ 2) : b.ColdFrom (b.resetTaken lvl c) ∧ (b.resetTaken lvl c).imgLock = false := by
  unfold Block.resetTaken
  rw [reach_of_cold _ _ h]
  exact ⟨.of_mem (mem_of_own (own_resetCount _ c)), imgLock_of_own (own_resetCount _ c)⟩

/-- A source's hold is noted, STORM cleared by SYS_RST_N; the start begins where no source is left (R602, R607). -/
def Block.holdOrStart (holds : Bool) : Block :=
  let b := (b.doIf (c == 2 && holds) fun b => b.set RST_START_STORM 0).modRst fun r => { r with held := r.held ||| (if holds then 2 ^ c else 0) }
  if b.rst.held = 0 then b.beginStart else b

theorem resetBy_of_released (holds : Bool) (ha : b.rst.asserted = false) : b.resetBy lvl c holds = (b.resetTaken lvl c).holdOrStart c holds := by
  rw [Block.resetBy, ha]
  rfl

theorem holdOrStart_held (h : b.rst.held = 0) :
    b.holdOrStart c true = (b.doIf (c == 2) fun b => b.set RST_START_STORM 0).modRst fun r => { r with held := 2 ^ c } := by
  have hstorm : (b.doIf (c == 2) fun b => b.set RST_START_STORM 0).rst.held = 0 := by
    cases c == 2
    · exact h
    · exact h
  simp [Block.holdOrStart, Block.modRst, hstorm]

theorem holdOrStart_unheld (h : b.rst.held = 0) : b.holdOrStart c false = b.beginStart := by
  have hsame : (b.modRst fun r => { r with held := r.held ||| 0 }) = b := by
    rw [Block.modRst, Nat.or_zero]
  simp only [Block.holdOrStart, Bool.and_false, Block.doIf_false, Bool.false_eq_true, if_false, hsame, h, if_true]

/-- A source that holds leaves the first reset asserted, its own bit alone held (R602). -/
theorem moduleReset_held (ha : b.rst.asserted = false) (hc : causeHolds c = true) : b.moduleReset c =
    ((b.resetTaken (causeLevel c) c).doIf (c == 2) fun b => b.set RST_START_STORM 0).modRst fun r => { r with held := 2 ^ c } := by
  rw [Block.moduleReset, resetBy_of_released _ _ _ _ ha, hc, holdOrStart_held _ _ (held_resetTaken b _ c)]

/-- After one that does not hold the start begins (R602). -/
theorem moduleReset_unheld (ha : b.rst.asserted = false) (hc : causeHolds c = false) :
    b.moduleReset c = (b.resetTaken (causeLevel c) c).beginStart := by
  rw [Block.moduleReset, resetBy_of_released _ _ _ _ ha, hc, holdOrStart_unheld _ _ (held_resetTaken b _ c)]

end

/-! The start (R607, R613) -/

section
variable (b : Block)

/-- A start that begins: its time and its stage, before the storm rule. -/
def Block.startBegun : Block :=
  (b.modRst fun r => { r with asserted := false, held := 0, startAt := b.xtal, slot := 0, failed := 0, retried := false, forceHost := false }).set
    RST_START_STAGE (if b.rst.level = 2 then 5 else 1)

/-- The start runs under HOST, with STORM and event 3, after too many module resets. -/
def Block.stormed : Block := ((b.modRst fun r => { r with forceHost := true }).set RST_START_STORM 1).raise 3

theorem beginStart_cases : b.beginStart = b.startBegun ∨ b.beginStart = b.startBegun.stormed := by
  have h : b.beginStart = if b.startBegun.get RST_STORM_STORM_LIMIT ≠ 0 ∧ b.startBegun.get RST_STORM_STORM_LIMIT ≤ b.startBegun.stormCount
    then b.startBegun.stormed else b.startBegun := rfl
  rw [h]
  split
  · exact .inr rfl
  · exact .inl rfl

theorem get_stage_startBegun : b.startBegun.get RST_START_STAGE = if b.rst.level = 2 then 5 else 1 := by
  unfold Block.startBegun
  rw [Block.get_set_self _ _ _ (by decide)]
  split <;> rfl

theorem get_stage_beginStart : b.beginStart.get RST_START_STAGE = if b.rst.level = 2 then 5 else 1 := by
  rw [← get_stage_startBegun]
  rcases beginStart_cases b with h | h
  · rw [h]
  · rw [h, Block.stormed, get_raise _ _ _ (by decide), Block.get_set_ne _ _ _ _ (by decide) (by decide), Block.modRst_get]

theorem rst_beginStart : b.beginStart.rst.asserted = false ∧ b.beginStart.rst.held = 0 ∧ b.beginStart.rst.level = b.rst.level ∧
    b.beginStart.rst.rel = b.rst.rel := by
  rcases beginStart_cases b with h | h
  · rw [h]
    exact ⟨rfl, rfl, rfl, rfl⟩
  · rw [h, Block.stormed, Block.raise_rst]
    exact ⟨rfl, rfl, rfl, rfl⟩

theorem Frame.modRst {p : Nat → Bool} {a b : Block} {f : Rst → Rst} (h : Frame p Block.noRst a b) : Frame p Block.noRst a (b.modRst f) :=
  h.unit rfl rfl rfl

/-- Outside the reset controller's own state a start changes RST_START and, by the storm rule, what event 3 changes. -/
theorem Frame.beginStart {p : Nat → Bool} {a b : Block} (h : Frame p Block.noRst a b) (hs : p RST_START = true)
    (he : ∀ y, evtReg y = true → p y = true) : Frame p Block.noRst a b.beginStart := by
  have hbegun : Frame p Block.noRst a b.startBegun := h.modRst.set hs
  rcases beginStart_cases b with hb | hb
  · rwa [hb]
  · rw [hb]
    exact (hbegun.modRst.set hs).raise he

theorem frame_beginStart : Frame (withEvt [RST_START]) Block.noRst b b.beginStart := Frame.refl.beginStart (by decide) (withEvt_of_evtReg _)

theorem rope_beginStart : b.beginStart.rope = b.rope := (congrArg Block.rope (frame_beginStart b).2.2 : b.beginStart.units.noRst.rope = b.units.noRst.rope)

end

/-! Sources (R602) -/

section
variable (b : Block) {c : Nat}

theorem source_of_on (ho : b.rst.off = false) : b.source c = b.leaseDrop.moduleReset c := by
  rw [Block.source, ho]
  rfl

/-- A source that holds, at a module that no reset holds: the lease ends, and its bit alone is held (R422, R602). -/
theorem source_held (ho : b.rst.off = false) (ha : b.rst.asserted = false) (hc : causeHolds c = true) :
    b.source c = ((b.leaseDrop.resetTaken (causeLevel c) c).doIf (c == 2) fun b => b.set RST_START_STORM 0).modRst
      fun r => { r with held := 2 ^ c } := by
  rw [source_of_on b ho, moduleReset_held _ _ (by rwa [rst_leaseDrop]) hc]

/-- One that does not hold: the start begins. -/
theorem source_unheld (ho : b.rst.off = false) (ha : b.rst.asserted = false) (hc : causeHolds c = false) :
    b.source c = (b.leaseDrop.resetTaken (causeLevel c) c).beginStart := by
  rw [source_of_on b ho, moduleReset_unheld _ _ (by rwa [rst_leaseDrop]) hc]

theorem causeLevel_le (c : Nat) : causeLevel c ≤ 2 := by
  unfold causeLevel
  split
  · decide
  · split <;> decide

theorem resetShown_doIf_storm {x : Block} {lvl n : Nat} (h : x.ResetShown lvl n) (v : Bool) :
    (x.doIf v fun b => b.set RST_START_STORM 0).ResetShown lvl n := by
  cases v
  · exact h
  · exact h.congr rfl rfl rfl (Block.rd_set_ne _ (by decide) _) (Block.rd_set_ne _ (by decide) _)

theorem resetShown_beginStart {x : Block} {lvl n : Nat} (h : x.ResetShown lvl n) : x.beginStart.ResetShown lvl n := by
  obtain ⟨-, -, hlevel, hrel⟩ := rst_beginStart x
  exact h.congr hlevel hrel (rope_beginStart x) ((frame_beginStart x).1 _ (by decide)) ((frame_beginStart x).1 _ (by decide))

/-- Whether it holds or not, the source shows its level and its cause (R603). -/
theorem resetShown_source (ho : b.rst.off = false) (ha : b.rst.asserted = false) (hc : c < 14) :
    (b.source c).ResetShown (causeLevel c) c := by
  have htaken := resetShown_resetTaken b.leaseDrop (causeLevel c) c (causeLevel_le c) hc
  cases hh : causeHolds c with
  | true =>
    rw [source_held b ho ha hh]
    exact (resetShown_doIf_storm htaken _).congr rfl rfl rfl rfl rfl
  | false =>
    rw [source_unheld b ho ha hh]
    exact resetShown_beginStart htaken

theorem byte_doIf_storm (x : Block) (v : Bool) : SameBytes x (x.doIf v fun b => b.set RST_START_STORM 0) := by
  cases v <;> exact fun _ _ => rfl

/-- A source of level 1 empties DRAM and keeps flash (R541, R601). -/
theorem coldFrom_source (ho : b.rst.off = false) (ha : b.rst.asserted = false) (hc : causeLevel c ≠ 2) : b.ColdFrom (b.source c) := by
  have htaken : b.ColdFrom (b.leaseDrop.resetTaken (causeLevel c) c) := by
    obtain ⟨⟨hdram, hflash⟩, -⟩ := cold_resetTaken b.leaseDrop _ c hc
    exact ⟨hdram, fun d a => (hflash d a).trans (by rw [Block.byte, mem_leaseDrop, Block.byte])⟩
  cases hh : causeHolds c with
  | true =>
    rw [source_held b ho ha hh]
    exact htaken.congr fun sp a => byte_doIf_storm _ _ sp a
  | false =>
    rw [source_unheld b ho ha hh]
    exact htaken.congr (frame_beginStart _).2.1

theorem imgLock_source_cold (ho : b.rst.off = false) (ha : b.rst.asserted = false) (hh : causeHolds c = true) (hc : causeLevel c ≠ 2) :
    (b.source c).imgLock = false := by
  rw [source_held b ho ha hh]
  cases c == 2 <;> exact (cold_resetTaken b.leaseDrop _ c hc).2

/-- A source that holds leaves its reset asserted, held by it alone. -/
theorem rst_source_held (ho : b.rst.off = false) (ha : b.rst.asserted = false) (hc : causeHolds c = true) :
    (b.source c).rst.asserted = true ∧ (b.source c).rst.held = 2 ^ c ∧ (b.source c).rst.afterWipe = b.rst.afterWipe := by
  obtain ⟨hasserted, -, -, -, hafter⟩ := rst_resetTaken b.leaseDrop (causeLevel c) c
  rw [rst_leaseDrop] at hafter
  rw [source_held b ho ha hc]
  cases c == 2 <;> exact ⟨hasserted, rfl, hafter⟩

/-- After one that does not hold, the start begins at the stage of its level (R602, R613). -/
theorem started_source (ho : b.rst.off = false) (ha : b.rst.asserted = false) (hc : causeHolds c = false) :
    (b.source c).commit.rst.asserted = false ∧ (b.source c).commit.get RST_START_STAGE = if causeLevel c = 2 then 5 else 1 := by
  rw [Block.commit_rst, Block.get_commit, source_unheld b ho ha hc, get_stage_beginStart, level_resetTaken b.leaseDrop _ c]
  exact ⟨(rst_beginStart _).1, rfl⟩

/-- SYS_RST_N clears STORM (R607). -/
theorem get_storm_source (ho : b.rst.off = false) (ha : b.rst.asserted = false) : (b.source 2).get RST_START_STORM = 0 := by
  rw [source_held b ho ha rfl, Block.modRst_get, beq_self_eq_true, Block.doIf_true, get_set_zero _ _ (by decide)]

end

/-! A write of RST_CMD (R604) -/

theorem units_rst_pos (m : Member) : 0 < m.units .rst := by cases m <;> decide

section
variable {s : State} (hu : s.block.up) (who : Requester) (v : Word)
include hu

theorem exec_rstCmdCold : exec (.rstCmdCold who v) s = .next ⟨(s.block.rstCmd who v 9).commit, s.pending⟩ :=
  runAt_eq .rst _ _ (released_up _ hu _) (units_rst_pos _)

theorem exec_rstCmdWarm : exec (.rstCmdWarm who v) s = .next ⟨(s.block.rstCmd who v 0xA).commit, s.pending⟩ :=
  runAt_eq .rst _ _ (released_up _ hu _) (units_rst_pos _)

end

section
variable (b : Block) (who : Requester) (v : Word) (c : Nat)

theorem rstCmd_idle (h : b.reaches who = false ∨ bits v.toNat 0 16 ≠ 0xA5C3) : b.rstCmd who v c = b := if_pos h

theorem rstCmd_refused (hw : b.reaches who = true) (hk : bits v.toNat 0 16 = 0xA5C3) (hl : b.leased = true) (hf : bit v.toNat 29 = false) :
    b.rstCmd who v c = b.rootErr who RST_CMD ROOT_ERR_REFUSED := by
  rw [Block.rstCmd, if_neg (by simp [hw, hk]), if_pos ⟨hl, hf⟩]

theorem rstCmd_taken (hw : b.reaches who = true) (hk : bits v.toNat 0 16 = 0xA5C3) (hl : b.leased = false ∨ bit v.toNat 29 = true) :
    b.rstCmd who v c = b.source c := by
  rw [Block.rstCmd, if_neg (by simp [hw, hk]), if_neg]
  rintro ⟨hleased, hforce⟩
  rcases hl with h | h
  · simp [h] at hleased
  · simp [h] at hforce

end

/-- A refused access shows in ROOT_ERR, its address in ROOT_ERR_ADDR, and event 12 is pending (R69). -/
theorem rootErr_refused (b : Block) (who : Requester) (a : Nat) :
    (b.rootErr who a ROOT_ERR_REFUSED).commit.get ROOT_ERR_REFUSED = 1 ∧ (b.rootErr who a ROOT_ERR_REFUSED).commit.pendingEvent 12 = true ∧
      Frame (withEvt [ROOT_ERR, ROOT_ERR_ADDR]) id b (b.rootErr who a ROOT_ERR_REFUSED).commit := by
  rw [Block.get_commit, pending_commit]
  exact ⟨get_rootErr_self _ who a _ rfl (by decide) (by decide), pending_rootErr _ who a _,
    (frame_rootErr Frame.refl who a _ (by decide) (by decide) (withEvt_of_evtReg _)).commit⟩

/-! Power (R422, R601) -/

/-- The block as VDD_AON rises, before the fuse map is shown: everything at reset but fuses, the life cycle, flash and host memory. -/
def Block.powerRisen (b : Block) : Block :=
  let f : Block := { member := b.member, mem := b.mem.filter (fun e => memCold e.1), outs := b.outs, freeCtr := b.freeCtr,
                     readData := b.readData, key := { ({} : Key) with enrolled := b.key.enrolled } }
  (f.wr KEY_FUSE (b.rd KEY_FUSE)).set KEY_STATUS_LC (b.get KEY_STATUS_LC)

/-- The block that a rise of VDD_AON leaves. -/
def Block.powered (b : Block) : Block := b.powerRisen.each 16 fun k f => f.wr (RST_PINFUSEk k) (b.rd (RST_PINFUSEk k))

theorem exec_powerOn (s : State) : exec .powerOn s = .next ⟨s.block.powered.commit, s.pending⟩ := rfl

/-- What each step of a fold keeps, the fold keeps. -/
theorem each_keeps {β : Type} (g : Block → β) (b : Block) (n : Nat) (f : Nat → Block → Block) (h : ∀ i < n, ∀ x, g (f i x) = g x) :
    g (b.each n f) = g b := by
  induction n with
  | zero => rfl
  | succ n ih => rw [each_succ, h n (by omega), ih fun i hi => h i (by omega)]

section
variable (b : Block)

theorem own_powered : b.powered.own = b.powerRisen.own := each_keeps Block.own _ 16 _ fun _ _ x => own_wr x _ _

/-- Registers below the fuse map read their reset values. -/
theorem rd_powered {a : Nat} (h : a < RST_PINFUSEk 0) : b.powered.rd a = resetOf a := by
  have ha : a < 0x10100 := h
  have hfuse : b.powered.rd a = b.powerRisen.rd a :=
    each_keeps (·.rd a) _ 16 _ fun i _ x => Block.rd_wr_ne x (show RST_PINFUSEk i ≠ a by unfold RST_PINFUSEk; omega) _
  have hlc : KEY_STATUS_LC.addr ≠ a := by simp only [KEY_STATUS_LC, KEY_STATUS]; omega
  have hkey : KEY_FUSE ≠ a := by unfold KEY_FUSE; omega
  rw [hfuse, Block.powerRisen, Block.rd_set_ne _ hlc, Block.rd_wr_ne _ hkey]
  rfl

theorem get_powered {f : Fld} (h : f.addr < RST_PINFUSEk 0) : b.powered.get f = State.reset.block.get f := by
  rw [Block.get, rd_powered b h]
  rfl

theorem rst_powered : b.powered.rst = {} := rst_of_own (own_powered b)

theorem imgLock_powered : b.powered.imgLock = false := imgLock_of_own (own_powered b)

theorem coldFrom_powered : b.ColdFrom b.powered := .of_mem (mem_of_own (own_powered b))

end

/-! Commands -/

theorem Block.ColdFrom.commit {b c : Block} (h : b.ColdFrom c) : b.ColdFrom c.commit := h.congr (Block.byte_commit _)

theorem Block.ResetShown.commit {c : Block} {l n : Nat} (h : c.ResetShown l n) : c.commit.ResetShown l n :=
  h.congr rfl rfl rfl (Block.rd_commit _ _) (Block.rd_commit _ _)

/-- SYS_RST_N goes low: the source acts, and ends a thermal trip where the module has cooled (R560, R602). -/
def Block.sysReset (b : Block) (cool : Bool) : Block :=
  let b := b.source 2
  if b.rst.off = false ∧ b.rst.thermtrip = true ∧ cool = true then
    b.modRst fun r => { r with thermtrip := false, held := r.held - (if bit r.held 4 then 2 ^ 4 else 0) }
  else b

theorem exec_sysRstAssert (cool : Bool) (s : State) :
    exec (.sysRstAssert cool) s = .next ⟨(s.block.sysReset cool).commit, s.pending⟩ := rfl

/-- Where SYS_RST_N alone holds the reset, the end of a thermal trip changes nothing else. -/
theorem sysReset_eq (b : Block) (cool : Bool) (h : (b.source 2).rst.held = 2 ^ 2) :
    ∃ t, b.sysReset cool = (b.source 2).modRst fun r => { r with thermtrip := t } := by
  unfold Block.sysReset
  dsimp only
  split
  · refine ⟨false, ?_⟩
    rw [Block.modRst, h]
    exact congrArg (fun r => { b.source 2 with rst := { (b.source 2).rst with thermtrip := false, held := r } }) h.symm
  · exact ⟨(b.source 2).rst.thermtrip, rfl⟩

@[simp] theorem rst_advanceXtal (b : Block) (ns : Nat) : (b.advanceXtal ns).rst = b.rst := by
  obtain ⟨t, x, h⟩ := advanceXtal_eq b ns
  rw [h]

theorem exec_crzWatchdogExpiry_idle (s : State) (h : s.block.rst.crzDue = none) :
    exec .crzWatchdogExpiry s = .next ⟨s.block.commit, s.pending⟩ := by
  change execCrzWatchdogExpiry s = _
  rw [execCrzWatchdogExpiry, run_eq]
  simp only [h]

theorem exec_crzWatchdogExpiry (s : State) {t : Nat} (h : s.block.rst.crzDue = some t) :
    exec .crzWatchdogExpiry s = .next ⟨((s.block.advanceXtal t).source 7).commit, s.pending⟩ := by
  change execCrzWatchdogExpiry s = _
  rw [execCrzWatchdogExpiry, run_eq]
  simp only [h]

/-- Settles O45: each source by what it leaves of a module that no reset holds, RST_CMD by its three answers. -/
theorem resetSources : Obligations.ResetSources := by
  intro b q hu
  have ⟨hon, hfree, _⟩ := hu
  refine ⟨?powerOn, ?powerLoss, fun hl => ?powerLossUnleased, fun cool => ?sysRst, ?rail, ?warmRst, fun who v hw hk hl => ?cold,
    fun who v hw hk hl => ?warm, fun who v hi => ?idle, fun who v hw hk hl hf => ?refused, fun hd => ?unarmed, fun t hd => ?watchdog⟩
  case powerOn =>
    have hrst : b.powered.commit.rst = {} := (Block.commit_rst _).trans (rst_powered b)
    have hget {f : Fld} (h : f.addr < RST_PINFUSEk 0) : b.powered.commit.get f = State.reset.block.get f :=
      (Block.get_commit _ f).trans (get_powered b h)
    have hlast (lo w : Nat) : b.powered.commit.get ⟨RST_LAST, lo, w⟩ = bits 1 lo w := by
      rw [hget (show RST_LAST < RST_PINFUSEk 0 by decide), Block.get, rd_reset, resetOf_rstLast]
      rfl
    exact ⟨_, exec_powerOn ⟨b, q⟩, congrArg Rst.off hrst, (hget (by decide)).trans startStage_reset, hlast 8 2, hlast 0 8, congrArg Rst.rel hrst,
      (Block.commit_imgLock _).trans (imgLock_powered b), (coldFrom_powered b).commit.flash⟩
  case powerLoss =>
    exact ⟨_, rfl, rfl, leased_leaseDrop b, congrArg (Sparse.norm memDefault) (mem_leaseDrop b)⟩
  case powerLossUnleased =>
    refine ⟨_, rfl, ?_⟩
    dsimp only
    rw [leaseDrop_of_not_leased b hl]
    exact Frame.refl.modRst.commit
  case sysRst =>
    obtain ⟨hasserted, hheld, -⟩ := rst_source_held b (c := 2) hon hfree rfl
    obtain ⟨t, ht⟩ := sysReset_eq b cool hheld
    have hshown := (resetShown_source b (c := 2) hon hfree (by decide)).commit
    have hcold := (coldFrom_source b (c := 2) hon hfree (by decide)).commit
    refine ⟨_, exec_sysRstAssert cool ⟨b, q⟩, ?_⟩
    dsimp only
    rw [ht]
    exact ⟨hasserted, hshown.level, congrArg (bit · 2) hheld, hshown.lastLevel, hshown.lastCause, hshown.lastAll,
      (Block.get_commit _ _).trans (get_storm_source b hon hfree), hshown.rel, imgLock_source_cold b hon hfree rfl (by decide), hshown.leased,
      fun a _ => hcold.dram a, hcold.flash⟩
  case rail =>
    obtain ⟨hasserted, hheld, -⟩ := rst_source_held b (c := 3) hon hfree rfl
    have hshown := (resetShown_source b (c := 3) hon hfree (by decide)).commit
    have hcold := (coldFrom_source b (c := 3) hon hfree (by decide)).commit
    exact ⟨_, rfl, hasserted, hshown.level, congrArg (bit · 3) hheld, hshown.lastLevel, hshown.lastCause, hshown.lastAll, hshown.rel,
      hshown.leased, fun a _ => hcold.dram a, hcold.flash⟩
  case warmRst =>
    obtain ⟨hasserted, hheld, -⟩ := rst_source_held b (c := 6) hon hfree rfl
    have hshown := (resetShown_source b (c := 6) hon hfree (by decide)).commit
    exact ⟨_, rfl, hasserted, hshown.level, congrArg (bit · 6) hheld, hshown.lastLevel, hshown.lastCause, hshown.lastAll, hshown.rel,
      hshown.leased⟩
  case cold =>
    obtain ⟨hasserted, hstage⟩ := started_source b (c := 9) hon hfree rfl
    have hshown := (resetShown_source b (c := 9) hon hfree (by decide)).commit
    have hcold := (coldFrom_source b (c := 9) hon hfree (by decide)).commit
    refine ⟨_, exec_rstCmdCold (s := ⟨b, q⟩) hu who v, ?_⟩
    dsimp only
    rw [rstCmd_taken b who v 9 hw hk hl]
    exact ⟨hasserted, hshown.level, hstage, hshown.lastLevel, hshown.lastCause, hshown.lastAll, hshown.rel,
      fun a _ => hcold.dram a, hcold.flash⟩
  case warm =>
    obtain ⟨hasserted, hstage⟩ := started_source b (c := 0xA) hon hfree rfl
    have hshown := (resetShown_source b (c := 0xA) hon hfree (by decide)).commit
    refine ⟨_, exec_rstCmdWarm (s := ⟨b, q⟩) hu who v, ?_⟩
    dsimp only
    rw [rstCmd_taken b who v 0xA hw hk hl]
    exact ⟨hasserted, hshown.level, hstage, hshown.lastLevel, hshown.lastCause, hshown.lastAll, hshown.rel⟩
  case idle =>
    refine ⟨⟨_, exec_rstCmdCold (s := ⟨b, q⟩) hu who v, ?_⟩, ⟨_, exec_rstCmdWarm (s := ⟨b, q⟩) hu who v, ?_⟩⟩ <;> dsimp only
    all_goals
      rw [rstCmd_idle b who v _ hi]
      exact Frame.refl.commit
  case refused =>
    refine ⟨⟨_, exec_rstCmdCold (s := ⟨b, q⟩) hu who v, ?_⟩, ⟨_, exec_rstCmdWarm (s := ⟨b, q⟩) hu who v, ?_⟩⟩ <;> dsimp only
    all_goals
      rw [rstCmd_refused b who v _ hw hk hl hf]
      exact rootErr_refused b who RST_CMD
  case unarmed => exact ⟨_, exec_crzWatchdogExpiry_idle ⟨b, q⟩ hd, Frame.refl.commit⟩
  case watchdog =>
    have hon' : (b.advanceXtal t).rst.off = false := by rwa [rst_advanceXtal]
    have hfree' : (b.advanceXtal t).rst.asserted = false := by rwa [rst_advanceXtal]
    obtain ⟨hasserted, hstage⟩ := started_source _ (c := 7) hon' hfree' rfl
    have hshown := (resetShown_source _ (c := 7) hon' hfree' (by decide)).commit
    exact ⟨_, exec_crzWatchdogExpiry ⟨b, q⟩ hd, hasserted, hshown.level, hstage, hshown.lastLevel,
      hshown.lastCause, hshown.lastAll⟩

end Sys2Proof.Machine

/-! # Reset release, Ridge watchdogs, wipe and tamper

How a held reset ends (R602), what the Ridge watchdogs do (R606), and the secure wipe with the reset that follows it (R527, R658). -/

namespace Sys2Proof.Machine

open Sys2Proof Sys2Proof.Reg

/-! The release of a held reset (R602) -/

/-- Source c lets go of its reset. -/
def Block.letGo (b : Block) (c : Nat) : Block := b.modRst fun r => { r with held := r.held - 2 ^ c }

theorem exec_resetRelease {s : State} {c : Nat} (ho : s.block.rst.off = false) (hc : bit s.block.rst.held c = true) (h4 : c ≠ 4) (h5 : c ≠ 5) :
    exec (.resetRelease c) s =
      .next ⟨(if (s.block.letGo c).rst.held = 0 then (s.block.letGo c).beginStart else s.block.letGo c).commit, s.pending⟩ := by
  change execResetRelease c s = _
  rw [execResetRelease, run_eq]
  have hacts : ¬(s.block.rst.off = true ∨ bit s.block.rst.held c = false ∨ c = 4 ∨ (c = 5 ∧ s.block.nrg.above < 1000)) := by simp [ho, hc, h4, h5]
  rw [if_neg hacts, if_neg h5]
  rfl

theorem exec_resetRelease_idle {s : State} {c : Nat} (hc : bit s.block.rst.held c = false) :
    exec (.resetRelease c) s = .next ⟨s.block.commit, s.pending⟩ := by
  change execResetRelease c s = _
  rw [execResetRelease, run_eq]
  simp only [hc, true_or, or_true, if_true]

theorem two_pow_le_of_bit {n c : Nat} (h : bit n c = true) : 2 ^ c ≤ n := Nat.ge_two_pow_of_testBit (by rwa [← bit_eq])

/-! The Ridge watchdogs (R606) -/

section
variable {p : Nat → Bool} {a b : Block}

theorem Frame.modRst_timed {f : Rst → Rst} (h : Frame p (fun x => x.noRst.noTime) a b) : Frame p (fun x => x.noRst.noTime) a (b.modRst f) :=
  h.unit rfl rfl rfl

theorem Frame.advanceXtal_rst {ns : Nat} (h : Frame p (fun x => x.noRst.noTime) a b) :
    Frame p (fun x => x.noRst.noTime) a (b.advanceXtal ns) := by
  obtain ⟨t, x, hto⟩ := advanceXtal_eq b ns
  rw [hto]
  exact h.unit rfl rfl rfl

end

section
variable (b : Block) (m : Nat)

theorem rd_advanceXtal (ns a : Nat) : (b.advanceXtal ns).rd a = b.rd a := by
  obtain ⟨t, x, h⟩ := advanceXtal_eq b ns
  rw [h]
  rfl

theorem on_advanceXtal (ns : Nat) (f : Fld) : (b.advanceXtal ns).on f = b.on f := on_congr (rd_advanceXtal b ns _)

/-- Event 2 tells that half of a watchdog's time has passed. -/
def Block.ridgeHalved (t : Nat) : Block := (b.advanceXtal (t + b.ridgeNs / 2)).modRst fun r => { r with ridgeHalf := (m, true) :: r.ridgeHalf }

theorem exec_ridgeWatchdogHalf {s : State} {t : Nat} (h : s.block.ridgeLoaded m = some t)
    (hh : s.block.rst.ridgeHalf.get (fun _ => false) m = false) :
    exec (.ridgeWatchdogHalf m) s = .next ⟨((s.block.ridgeHalved m t).raise 2).commit, s.pending⟩ := by
  change execRidgeWatchdogHalf m s = _
  rw [execRidgeWatchdogHalf, run_eq]
  simp only [h, hh, Bool.false_eq_true, if_false]
  rfl

/-- The watchdog of core m has ended: it is not armed again by itself. -/
def Block.ridgeUnarmed : Block := b.modRst fun r => { r with ridgeAt := (m, none) :: r.ridgeAt }

theorem exec_ridgeWatchdogExpiry {s : State} {t : Nat} (h : s.block.ridgeLoaded m = some t) :
    exec (.ridgeWatchdogExpiry m) s =
      .next ⟨(if s.block.on RST_WDOG_RIDGE_ACT = true ∧ m ≠ 0 then
          ((s.block.advanceXtal (t + s.block.ridgeNs)).ridgeUnarmed m).resetMark ⟨.ridge, m⟩ 3
        else (s.block.advanceXtal (t + s.block.ridgeNs)).source 8).commit, s.pending⟩ := by
  change execRidgeWatchdogExpiry m s = _
  rw [execRidgeWatchdogExpiry, run_eq]
  simp only [h, on_advanceXtal]
  rfl

/-- A unit reset that begins, at any unit but the switch core: the header's two words and the requests that the reset controller notes. -/
theorem resetMark_cases (u : UnitRef) (w : Nat) (hu : (u.cls == .swc) = false) (hb : b.on (stResetBusy u.hdr) = false) :
    ∃ f : Rst → Rst, (∀ r, (f r).ridgeAt = r.ridgeAt) ∧
      (b.resetMark u w = (b.resetBits u).modRst f ∨ b.resetMark u w = ((b.resetBits u).set (stQuiescing u.hdr) 1).modRst f) := by
  refine ⟨fun r => { r with who := (u.hdr, w) :: r.who, since := (u.hdr, b.xtal) :: r.since }, fun _ => rfl, ?_⟩
  unfold Block.resetMark
  rw [hb, if_neg Bool.false_ne_true]
  simp only [hu, Block.doIf_false]
  split
  · exact .inl rfl
  · exact .inr rfl

theorem resetMark_started (u : UnitRef) (w : Nat) (hu : (u.cls == .swc) = false) (hb : b.on (stResetBusy u.hdr) = false) :
    (b.resetMark u w).get (stResetBusy u.hdr) = 1 ∧ (b.resetMark u w).get (ctlReset u.hdr) = 1 := by
  have hbusy : ¬b.on (stResetBusy u.hdr) = true := by rw [hb]; decide
  rw [get_resetMark b u w _ hu hbusy (by simp [stResetBusy]) (by simp [stResetBusy]),
    get_resetMark b u w _ hu hbusy (by simp [ctlReset]) (by simp [ctlReset]), Block.resetBits]
  refine ⟨Block.get_set_self _ _ _ (by simp [stResetBusy]), ?_⟩
  rw [Block.get_set_addr _ (by simp [stResetBusy, ctlReset])]
  exact Block.get_set_self _ _ _ (by simp [ctlReset])

theorem ridgeAt_resetMark (u : UnitRef) (w : Nat) (hu : (u.cls == .swc) = false) (hb : b.on (stResetBusy u.hdr) = false) :
    (b.resetMark u w).rst.ridgeAt = b.rst.ridgeAt := by
  obtain ⟨f, hf, h | h⟩ := resetMark_cases b u w hu hb
  · rw [h, Block.modRst_rst, hf]
    rfl
  · rw [h, Block.modRst_rst, hf]
    rfl

end

theorem Frame.resetMark {p : Nat → Bool} {a b : Block} {u : UnitRef} {w : Nat} (h : Frame p (fun x => x.noRst.noTime) a b)
    (hu : (u.cls == .swc) = false) (hb : b.on (stResetBusy u.hdr) = false) (hs : p (u.hdr + 8) = true) (hc : p (u.hdr + 0xC) = true) :
    Frame p (fun x => x.noRst.noTime) a (b.resetMark u w) := by
  have hbits : Frame p (fun x => x.noRst.noTime) a (b.resetBits u) := ((h.set hc).set hc).set hs
  obtain ⟨f, -, he | he⟩ := resetMark_cases b u w hu hb
  · rw [he]
    exact hbits.modRst_timed
  · rw [he]
    exact (hbits.set hs).modRst_timed

/-! RST_KICK (R606) -/

section
variable (b : Block) (v : Word)

/-- A kick reloads the watchdog of core m where it is armed and its bit is set. -/
def Block.kick (v : Word) (m : Nat) (b : Block) : Block :=
  if bit v.toNat m ∧ (b.ridgeLoaded m).isSome = true then
    b.modRst fun r => { r with ridgeAt := (m, some b.xtal) :: r.ridgeAt, ridgeHalf := (m, false) :: r.ridgeHalf }
  else b

theorem exec_rstKick {s : State} (ho : s.block.rst.off = false) :
    exec (.rstKick v) s = .next ⟨(s.block.each 4 (Block.kick v)).commit, s.pending⟩ :=
  runAt_eq .rst _ s (by simp [Block.released, ho]) (units_rst_pos _)

theorem kick_cases (m : Nat) : b.kick v m = b ∨ (bit v.toNat m = true ∧
    b.kick v m = b.modRst fun r => { r with ridgeAt := (m, some b.xtal) :: r.ridgeAt, ridgeHalf := (m, false) :: r.ridgeHalf }) := by
  unfold Block.kick
  split
  · exact .inr ⟨(‹bit v.toNat m = true ∧ _›).1, rfl⟩
  · exact .inl rfl

end

section
variable (b : Block) (v : Word)

theorem xtal_kicks (n : Nat) : (b.each n (Block.kick v)).xtal = b.xtal := by
  refine each_keeps Block.xtal b n _ fun i _ x => ?_
  rcases kick_cases x v i with h | ⟨-, h⟩
  · rw [h]
  · rw [h, Block.modRst_xtal]

theorem frame_kicks (n : Nat) : Frame (within []) Block.noRst b (b.each n (Block.kick v)) := by
  induction n with
  | zero => exact Frame.refl
  | succ n ih =>
    rw [each_succ]
    rcases kick_cases (b.each n (Block.kick v)) v n with h | ⟨-, h⟩
    · rwa [h]
    · rw [h]
      exact ih.modRst

/-- A kick leaves the other watchdogs as they are. -/
theorem ridgeAt_kick_ne {i m : Nat} (h : i ≠ m ∨ bit v.toNat m = false) :
    (b.kick v i).rst.ridgeAt.get (fun _ => none) m = b.rst.ridgeAt.get (fun _ => none) m ∧
      (b.kick v i).rst.ridgeHalf.get (fun _ => false) m = b.rst.ridgeHalf.get (fun _ => false) m := by
  rcases kick_cases b v i with hk | ⟨hi, hk⟩
  · rw [hk]
    exact ⟨rfl, rfl⟩
  · have hne : i ≠ m := by
      rcases h with h | hm
      · exact h
      · rintro rfl
        exact absurd (hi.symm.trans hm) (by decide)
    rw [hk]
    exact ⟨Sparse.get_cons_ne _ hne _ _, Sparse.get_cons_ne _ hne _ _⟩

theorem ridgeLoaded_kick_ne {i m : Nat} (h : i ≠ m) : (b.kick v i).ridgeLoaded m = b.ridgeLoaded m := by
  have hoff : (b.kick v i).rst.off = b.rst.off := by
    rcases kick_cases b v i with hk | ⟨-, hk⟩ <;> rw [hk]
    rfl
  rw [Block.ridgeLoaded, hoff, (ridgeAt_kick_ne b v (.inl h)).1, Block.ridgeLoaded]

theorem kick_armed {m : Nat} (hv : bit v.toNat m = true) (hl : (b.ridgeLoaded m).isSome = true) :
    (b.kick v m).rst.ridgeAt.get (fun _ => none) m = some b.xtal ∧ (b.kick v m).rst.ridgeHalf.get (fun _ => false) m = false := by
  rw [Block.kick, if_pos ⟨hv, hl⟩]
  exact ⟨Sparse.get_cons_self _ _ _ _, Sparse.get_cons_self _ _ _ _⟩

end

/-- What step n of a fold establishes and the later steps keep holds after the fold. -/
theorem each_of_step {P : Block → Prop} (b : Block) (k n : Nat) (f : Nat → Block → Block) (hn : n < k) (hit : P (f n (b.each n f)))
    (keep : ∀ i, n < i → i < k → ∀ x, P x → P (f i x)) : P (b.each k f) := by
  induction k with
  | zero => omega
  | succ k ih =>
    rw [each_succ]
    rcases Nat.lt_succ_iff_lt_or_eq.mp hn with h | rfl
    · exact keep k h (by omega) _ (ih h fun i hi hk => keep i hi (by omega))
    · exact hit

theorem kicks_armed (b : Block) (v : Word) {m : Nat} (hm : m < 4) (hv : bit v.toNat m = true) (hl : (b.ridgeLoaded m).isSome = true) :
    (b.each 4 (Block.kick v)).rst.ridgeAt.get (fun _ => none) m = some b.xtal ∧
      (b.each 4 (Block.kick v)).rst.ridgeHalf.get (fun _ => false) m = false := by
  have hloaded : (b.each m (Block.kick v)).ridgeLoaded m = b.ridgeLoaded m :=
    each_keeps (·.ridgeLoaded m) b m _ fun i hi x => ridgeLoaded_kick_ne x v (by omega)
  refine each_of_step (P := fun x => x.rst.ridgeAt.get (fun _ => none) m = some b.xtal ∧ x.rst.ridgeHalf.get (fun _ => false) m = false)
    b 4 m _ hm ?_ fun i hi _ x hx => ?_
  · rw [← xtal_kicks b v m]
    exact kick_armed _ v hv (by rwa [hloaded])
  · obtain ⟨hat, hhalf⟩ := ridgeAt_kick_ne x v (i := i) (m := m) (.inl (by omega))
    exact ⟨hat.trans hx.1, hhalf.trans hx.2⟩

/-! The wipe's start (R527) -/

/-- A slot's registers and 64 bytes as they are once it is zeroed. -/
def Block.slotZeroed (b : Block) (n : Nat) : Block :=
  (((b.wr (KEY_SLOTn_ATTR n) 0).wr (KEY_SLOTn_GEN n) 0).wr (KEY_SLOTn_KEYID n) 0).stores .secure (keyAt n) (List.replicate 64 0)

/-- Slot n is zeroed where it holds anything. -/
def Block.slotZero (n : Nat) (b : Block) : Block :=
  b.doIf (b.rd (KEY_SLOTn_ATTR n) != 0 || b.rd (KEY_SLOTn_GEN n) != 0 || b.rd (KEY_SLOTn_KEYID n) != 0) fun b => b.slotZeroed n

/-- The root is empty, and no slot is derived from it. -/
def Block.rootEmptied (b : Block) : Block := { b with key := { b.key with root := 0, repoch := [] } }.set KEY_STATUS_ROOT_OK 0

section
variable (b : Block)

theorem rd_rootEmptied {a : Nat} (h : KEY_STATUS ≠ a) : b.rootEmptied.rd a = b.rd a := Block.rd_set_ne (f := KEY_STATUS_ROOT_OK) _ h _

theorem get_rootEmptied (f : Fld) (h : KEY_STATUS ≠ f.addr ∨ f.lo + f.width ≤ 4 ∨ 5 ≤ f.lo) (hw : f.lo + f.width ≤ 32) :
    b.rootEmptied.get f = b.get f := Block.get_set_ne _ KEY_STATUS_ROOT_OK f 0 h hw

theorem get_rootOk_rootEmptied : b.rootEmptied.get KEY_STATUS_ROOT_OK = 0 := get_set_zero _ _ (by decide)

theorem byte_rootEmptied (sp : Space) (a : Nat) : b.rootEmptied.byte sp a = b.byte sp a := rfl

theorem units_rootEmptied : b.rootEmptied.units.noKey = b.units.noKey := rfl

end

/-- WIPE_PEND and WIPING show that a wipe runs. -/
def Block.wipeMarked (b : Block) : Block := (b.set THL_SEC_STAT_WIPE_PEND 1).set THL_SEC_STAT_WIPING 1

section
variable (b : Block) (n : Nat)

theorem zeroSlots_eq : b.zeroSlots = (b.each 512 Block.slotZero).rootEmptied := by
  unfold Block.zeroSlots Block.rootEmptied Block.slotZero Block.slotZeroed
  rfl

theorem wipeStart_idle (h : b.on THL_SEC_STAT_WIPING = true) : b.wipeStart = b := if_pos h

theorem wipeStart_of_idle (h : b.on THL_SEC_STAT_WIPING = false) :
    b.wipeStart = (b.wipeMarked.each 512 Block.slotZero).rootEmptied := by
  rw [Block.wipeStart, if_neg (by rw [h]; decide), zeroSlots_eq, Block.wipeMarked]

theorem slotZero_cases : b.slotZero n = b.slotZeroed n ∨ (b.slotZero n = b ∧ b.rd (KEY_SLOTn_ATTR n) = 0) := by
  unfold Block.slotZero
  cases hc : b.rd (KEY_SLOTn_ATTR n) != 0 || b.rd (KEY_SLOTn_GEN n) != 0 || b.rd (KEY_SLOTn_KEYID n) != 0 with
  | true => exact .inl rfl
  | false =>
    simp only [Bool.or_eq_false_iff, bne_eq_false_iff_eq] at hc
    exact .inr ⟨rfl, hc.1.1⟩

theorem rd_slotZeroed (a : Nat) : (b.slotZeroed n).rd a =
    if KEY_SLOTn_ATTR n = a ∨ KEY_SLOTn_GEN n = a ∨ KEY_SLOTn_KEYID n = a then 0 else b.rd a := by
  change (((b.wr (KEY_SLOTn_ATTR n) 0).wr (KEY_SLOTn_GEN n) 0).wr (KEY_SLOTn_KEYID n) 0).rd a = _
  simp only [Block.rd_wr]
  grind

/-- A register outside the slot's three reads as before. -/
theorem rd_slotZero_ne {a : Nat} (h : a < 0x31000 + 16 * n ∨ 0x31000 + 16 * n + 16 ≤ a) : (b.slotZero n).rd a = b.rd a := by
  rcases slotZero_cases b n with hz | ⟨hz, -⟩
  · rw [hz, rd_slotZeroed, if_neg]
    unfold KEY_SLOTn_ATTR KEY_SLOTn_GEN KEY_SLOTn_KEYID
    omega
  · rw [hz]

theorem rd_attr_slotZero : (b.slotZero n).rd (KEY_SLOTn_ATTR n) = 0 := by
  rcases slotZero_cases b n with hz | ⟨hz, hattr⟩
  · rw [hz, rd_slotZeroed, if_pos (.inl rfl)]
  · rw [hz, hattr]

theorem units_slotZero : (b.slotZero n).units = b.units := by
  rcases slotZero_cases b n with hz | ⟨hz, -⟩
  · rw [hz]
    rfl
  · rw [hz]

/-- A byte of another slot reads as before. -/
theorem byte_slotZero_ne {a : Nat} (hn : n < 512) (ha : a < 2 ^ 64) (h : a < keyAt n ∨ keyAt n + 64 ≤ a) :
    (b.slotZero n).byte .secure a = b.byte .secure a := by
  rcases slotZero_cases b n with hz | ⟨hz, -⟩
  · rw [hz]
    refine Block.byte_stores_ne _ _ _ _ _ _ fun i hi => ?_
    have hi : i < 64 := by simpa using hi
    unfold keyAt at h ⊢
    rw [ne_eq, Space.key_inj _ _ _ (by omega) ha]
    omega
  · rw [hz]

theorem byte_slotZeroed {i : Nat} (hn : n < 512) (hi : i < 64) : (b.slotZeroed n).byte .secure (keyAt n + i) = 0 := by
  refine (Block.byte_stores _ _ _ _ i (by simpa using hi) ?_ (segOpen_other _ _ _ rfl)).trans (List.getElem_replicate _)
  simp only [keyAt, List.length_replicate]
  omega

/-- Where the slot's ATTR was not zero, its bytes are. -/
theorem byte_slotZero {i : Nat} (hn : n < 512) (hi : i < 64) (h : b.rd (KEY_SLOTn_ATTR n) ≠ 0) : (b.slotZero n).byte .secure (keyAt n + i) = 0 := by
  rcases slotZero_cases b n with hz | ⟨-, hattr⟩
  · rw [hz]
    exact byte_slotZeroed b n hn hi
  · exact absurd hattr h

/-- Is an offset in the table of key slots? -/
def slotReg (a : Nat) : Bool := decide (0x31000 ≤ a) && decide (a < 0x33000)

theorem not_slotReg {a : Nat} (h : slotReg a = false) : a < 0x31000 ∨ 0x33000 ≤ a := by
  simp only [slotReg, Bool.and_eq_false_iff, decide_eq_false_iff_not] at h
  omega

theorem rd_slots (k : Nat) {a : Nat} (hk : k ≤ 512) (h : slotReg a = false) : (b.each k Block.slotZero).rd a = b.rd a :=
  each_keeps (·.rd a) b k _ fun i hi x => rd_slotZero_ne x i (by have := not_slotReg h; omega)

theorem rd_attr_slots (hn : n < 512) : (b.each 512 Block.slotZero).rd (KEY_SLOTn_ATTR n) = 0 :=
  each_of_step (P := fun x => x.rd (KEY_SLOTn_ATTR n) = 0) b 512 n _ hn (rd_attr_slotZero _ n) fun i hi _ x hx =>
    (rd_slotZero_ne x i (by unfold KEY_SLOTn_ATTR; omega)).trans hx

theorem byte_slots {i : Nat} (hn : n < 512) (hi : i < 64) (h : b.rd (KEY_SLOTn_ATTR n) ≠ 0) :
    (b.each 512 Block.slotZero).byte .secure (keyAt n + i) = 0 := by
  have hattr : (b.each n Block.slotZero).rd (KEY_SLOTn_ATTR n) = b.rd (KEY_SLOTn_ATTR n) :=
    each_keeps (·.rd (KEY_SLOTn_ATTR n)) b n _ fun j hj x => rd_slotZero_ne x j (by unfold KEY_SLOTn_ATTR; omega)
  refine each_of_step (P := fun x => x.byte .secure (keyAt n + i) = 0) b 512 n _ hn (byte_slotZero _ n hn hi (by rwa [hattr]))
    fun j hj hk x hx => (byte_slotZero_ne x j hk ?_ ?_).trans hx
  · unfold keyAt
    omega
  · unfold keyAt
    omega

theorem units_slots (k : Nat) : (b.each k Block.slotZero).units = b.units := each_keeps Block.units b k _ fun i _ x => units_slotZero x i

end

section
variable (b : Block)

/-- A field of one bit that is not zero is one. -/
theorem get_of_on {f : Fld} (hf : f.width = 1) (h : b.on f = true) : b.get f = 1 := by
  have hlt : b.get f < 2 ^ 1 := hf ▸ Block.get_lt b f
  have hne : b.get f ≠ 0 := (Block.on_iff _ _).mp h
  omega

theorem rd_wipeMarked {a : Nat} (h : THL_SEC_STAT ≠ a) : b.wipeMarked.rd a = b.rd a := by
  rw [Block.wipeMarked, Block.rd_set_ne _ (f := THL_SEC_STAT_WIPING) h, Block.rd_set_ne _ (f := THL_SEC_STAT_WIPE_PEND) h]

/-- A trigger of a wipe changes THL_SEC_STAT, KEY_STATUS and the slots' registers alone. -/
theorem rd_wipeStart {a : Nat} (hsec : THL_SEC_STAT ≠ a) (hkey : KEY_STATUS ≠ a) (hslot : slotReg a = false) : b.wipeStart.rd a = b.rd a := by
  cases hw : b.on THL_SEC_STAT_WIPING with
  | true => rw [wipeStart_idle b hw]
  | false => rw [wipeStart_of_idle b hw, rd_rootEmptied _ hkey, rd_slots _ 512 (by decide) hslot, rd_wipeMarked b hsec]

/-- Of KEY_STATUS it clears ROOT_OK alone. -/
theorem get_wipeStart_key (f : Fld) (hf : f.addr = KEY_STATUS) (hne : f.lo + f.width ≤ 4 ∨ 5 ≤ f.lo) (hw : f.lo + f.width ≤ 32) :
    b.wipeStart.get f = b.get f := by
  have hslots : (b.wipeMarked.each 512 Block.slotZero).rd f.addr = b.rd f.addr := by
    rw [rd_slots _ 512 (by decide) (by rw [hf]; decide), rd_wipeMarked b (by rw [hf]; decide)]
  cases hw' : b.on THL_SEC_STAT_WIPING with
  | true => rw [wipeStart_idle b hw']
  | false => rw [wipeStart_of_idle b hw', get_rootEmptied _ f (.inr hne) hw, get_congr hslots]

theorem get_rootOk_wipeStart (h : b.on THL_SEC_STAT_WIPING = false) : b.wipeStart.get KEY_STATUS_ROOT_OK = 0 := by
  rw [wipeStart_of_idle b h, get_rootOk_rootEmptied]

/-- THL_SEC_STAT holds what the trigger set. -/
theorem get_wipeStart_sec (h : b.on THL_SEC_STAT_WIPING = false) (f : Fld) (hf : f.addr = THL_SEC_STAT) :
    b.wipeStart.get f = b.wipeMarked.get f := by
  rw [wipeStart_of_idle b h, get_congr (rd_rootEmptied _ (by rw [hf]; decide)), get_congr (rd_slots _ 512 (by decide) (by rw [hf]; decide))]

/-- A wipe runs after its trigger, begun by it or before. -/
theorem get_wiping_wipeStart : b.wipeStart.get THL_SEC_STAT_WIPING = 1 := by
  cases h : b.on THL_SEC_STAT_WIPING with
  | true => rw [wipeStart_idle b h, get_of_on _ rfl h]
  | false =>
    rw [get_wipeStart_sec b h _ rfl]
    exact Block.get_set_self _ _ _ (by decide)

theorem get_wipePend_wipeStart (h : b.on THL_SEC_STAT_WIPING = false) : b.wipeStart.get THL_SEC_STAT_WIPE_PEND = 1 := by
  rw [get_wipeStart_sec b h _ rfl, Block.wipeMarked, Block.get_set_ne _ _ _ _ (by decide) (by decide)]
  exact Block.get_set_self _ _ _ (by decide)

theorem get_valid_of_attr {n : Nat} (h : b.rd (KEY_SLOTn_ATTR n) = 0) : b.get (KEY_SLOTn_ATTR_VALID n) = 0 := by
  rw [Block.get, show (KEY_SLOTn_ATTR_VALID n).addr = KEY_SLOTn_ATTR n from rfl, h]
  simp [bits]

theorem get_valid_wipeStart (h : b.on THL_SEC_STAT_WIPING = false) {n : Nat} (hn : n < 512) :
    b.wipeStart.get (KEY_SLOTn_ATTR_VALID n) = 0 := by
  have hkey : KEY_STATUS ≠ KEY_SLOTn_ATTR n := by unfold KEY_STATUS KEY_SLOTn_ATTR; omega
  exact get_valid_of_attr _ (by rw [wipeStart_of_idle b h, rd_rootEmptied _ hkey, rd_attr_slots _ n hn])

theorem byte_wipeStart (h : b.on THL_SEC_STAT_WIPING = false) {n i : Nat} (hn : n < 512) (hi : i < 64)
    (hv : b.on (KEY_SLOTn_ATTR_VALID n) = true) : b.wipeStart.byte .secure (keyAt n + i) = 0 := by
  have hsec : THL_SEC_STAT ≠ KEY_SLOTn_ATTR n := by unfold THL_SEC_STAT KEY_SLOTn_ATTR; omega
  have hattr : b.wipeMarked.rd (KEY_SLOTn_ATTR n) ≠ 0 := fun hz =>
    (Block.on_iff _ _).mp hv (get_valid_of_attr b ((rd_wipeMarked b hsec).symm.trans hz))
  rw [wipeStart_of_idle b h, byte_rootEmptied, byte_slots _ n hn hi hattr]

/-- Of the units' own state it changes the key store's alone. -/
theorem units_wipeStart : b.wipeStart.units.noKey = b.units.noKey := by
  cases h : b.on THL_SEC_STAT_WIPING with
  | true => rw [wipeStart_idle b h]
  | false =>
    rw [wipeStart_of_idle b h, units_rootEmptied, units_slots]
    rfl

theorem exec_wipeStart {s : State} (ho : s.block.rst.off = false) : exec .wipeStart s = .next ⟨s.block.wipeStart.commit, s.pending⟩ := by
  change execWipeStart s = _
  rw [execWipeStart, run_eq, ho, if_neg Bool.false_ne_true]

end

/-! The wipe's end (R527, R528) -/

section
variable (b : Block) (v : Bool)

theorem setClosed_cases : (b.setClosed v = b ∧ b.on KEY_STATUS_CLOSED = v) ∨
    b.setClosed v = (b.set KEY_STATUS_CLOSED (if v then 1 else 0)).raise 967 := by
  unfold Block.setClosed
  split
  · exact .inl ⟨rfl, ‹_›⟩
  · exact .inr rfl

theorem get_setClosed (f : Fld) (hf : KEY_STATUS ≠ f.addr) (he : evtReg f.addr = false) : (b.setClosed v).get f = b.get f := by
  rcases setClosed_cases b v with ⟨h, -⟩ | h
  · rw [h]
  · rw [h, get_raise _ _ _ he, Block.get_set_addr _ hf]

theorem get_closed_setClosed : (b.setClosed true).get KEY_STATUS_CLOSED = 1 := by
  rcases setClosed_cases b true with ⟨h, hon⟩ | h
  · rw [h, get_of_on _ rfl hon]
  · rw [h, get_raise _ _ _ (by decide)]
    exact Block.get_set_self _ _ _ (by decide)

theorem pending_setClosed {n : Nat} (h : b.pendingEvent n = true) : (b.setClosed v).pendingEvent n = true := by
  rcases setClosed_cases b v with ⟨hc, -⟩ | hc
  · rwa [hc]
  · rw [hc]
    exact pending_raise_mono _ _ _ (by rwa [pending_set _ _ _ _ (by decide)])

theorem Frame.setClosed {p : Nat → Bool} {k : Block → Block} {a b : Block} {v : Bool} (h : Frame p k a b) (hs : p KEY_STATUS = true)
    (he : ∀ y, evtReg y = true → p y = true) : Frame p k a (b.setClosed v) := by
  rcases setClosed_cases b v with ⟨hc, -⟩ | hc
  · rwa [hc]
  · rw [hc]
    exact (h.set hs).raise he

/-- THL_SEC_STAT as a wipe ends well. -/
def Block.wipePassed : Block :=
  ((((b.set THL_SEC_STAT_WIPING 0).set THL_SEC_STAT_WIPED 1).set THL_SEC_STAT_WIPES
    (satAdd 255 ((b.set THL_SEC_STAT_WIPING 0).get THL_SEC_STAT_WIPES) 1)).set THL_SEC_STAT_WIPE_PEND 0).set THL_SEC_STAT_WIPE_FAIL 0

/-- THL_SEC_STAT and THL_ERR as a word reads back other than zero. -/
def Block.wipeFailed : Block := ((b.set THL_SEC_STAT_WIPING 0).set THL_SEC_STAT_WIPE_FAIL 1).set THL_ERR_WIPE_FAIL 1

variable (h : b.on THL_SEC_STAT_WIPING = true)
include h

theorem wipeEnd_passed : ∃ v, b.wipeEnd true = (b.wipePassed.raise 46).setClosed v := by
  rw [Block.wipeEnd, h]
  exact ⟨_, rfl⟩

theorem wipeEnd_failed : b.wipeEnd false = (b.wipeFailed.raise 46).setClosed true := by
  rw [Block.wipeEnd, h]
  rfl

end

section
variable (b : Block)

theorem own_setClosed (v : Bool) : (b.setClosed v).own = b.own := by
  rcases setClosed_cases b v with ⟨h, -⟩ | h
  · rw [h]
  · rw [h, own_raise, own_set]

theorem own_wipeEnd (ok : Bool) (h : b.on THL_SEC_STAT_WIPING = true) : (b.wipeEnd ok).own = b.own := by
  cases ok with
  | true =>
    obtain ⟨v, hv⟩ := wipeEnd_passed b h
    rw [hv, own_setClosed, own_raise]
    rfl
  | false =>
    rw [wipeEnd_failed b h, own_setClosed, own_raise]
    rfl

/-- A wipe that reads back zero ends with WIPED and event 46 (R527). -/
theorem wipeEnd_passed_shown (h : b.on THL_SEC_STAT_WIPING = true) :
    (b.wipeEnd true).get THL_SEC_STAT_WIPING = 0 ∧ (b.wipeEnd true).get THL_SEC_STAT_WIPED = 1 ∧
      (b.wipeEnd true).get THL_SEC_STAT_WIPE_PEND = 0 ∧ (b.wipeEnd true).get THL_SEC_STAT_WIPE_FAIL = 0 ∧
      (b.wipeEnd true).pendingEvent 46 = true ∧ Frame (withEvt [THL_SEC_STAT, KEY_STATUS]) id b (b.wipeEnd true) := by
  obtain ⟨v, hv⟩ := wipeEnd_passed b h
  have hsec (f : Fld) (hf : f.addr = THL_SEC_STAT) : (b.wipeEnd true).get f = b.wipePassed.get f := by
    rw [hv, get_setClosed _ _ _ (by rw [hf]; decide) (by rw [hf]; decide), get_raise _ _ _ (by rw [hf]; decide)]
  have hset (x : Block) (f g : Fld) (n : Nat) (hfg : g.lo + g.width ≤ f.lo ∨ f.lo + f.width ≤ g.lo) (hg : g.lo + g.width ≤ 32) :
    (x.set f n).get g = x.get g := Block.get_set_ne _ _ _ _ (.inr hfg) hg
  have hframe : Frame (withEvt [THL_SEC_STAT, KEY_STATUS]) id b b.wipePassed :=
    ((((Frame.refl.set (by decide)).set (by decide)).set (by decide)).set (by decide)).set (by decide)
  refine ⟨?_, ?_, ?_, ?_, ?_, ?_⟩
  · rw [hsec _ rfl, Block.wipePassed, hset _ _ _ _ (by decide) (by decide), hset _ _ _ _ (by decide) (by decide),
      hset _ _ _ _ (by decide) (by decide), hset _ _ _ _ (by decide) (by decide), get_set_zero _ _ (by decide)]
  · rw [hsec _ rfl, Block.wipePassed, hset _ _ _ _ (by decide) (by decide), hset _ _ _ _ (by decide) (by decide),
      hset _ _ _ _ (by decide) (by decide), Block.get_set_self _ _ _ (by decide)]
    rfl
  · rw [hsec _ rfl, Block.wipePassed, hset _ _ _ _ (by decide) (by decide), get_set_zero _ _ (by decide)]
  · rw [hsec _ rfl, Block.wipePassed, get_set_zero _ _ (by decide)]
  · rw [hv]
    exact pending_setClosed _ _ (pending_raise _ _)
  · rw [hv]
    exact (hframe.raise (withEvt_of_evtReg _)).setClosed (by decide) (withEvt_of_evtReg _)

/-- One that does not ends with WIPE_FAIL, event 46 and a closed key store (R527, R655). -/
theorem wipeEnd_failed_shown (h : b.on THL_SEC_STAT_WIPING = true) :
    (b.wipeEnd false).get THL_SEC_STAT_WIPING = 0 ∧ (b.wipeEnd false).get THL_SEC_STAT_WIPE_FAIL = 1 ∧
      (b.wipeEnd false).get THL_ERR_WIPE_FAIL = 1 ∧ (b.wipeEnd false).get KEY_STATUS_CLOSED = 1 ∧
      (b.wipeEnd false).pendingEvent 46 = true ∧ Frame (withEvt [THL_SEC_STAT, THL_ERR, KEY_STATUS]) id b (b.wipeEnd false) := by
  have hget (f : Fld) (hk : KEY_STATUS ≠ f.addr) (he : evtReg f.addr = false) : (b.wipeEnd false).get f = b.wipeFailed.get f := by
    rw [wipeEnd_failed b h, get_setClosed _ _ _ hk he, get_raise _ _ _ he]
  have hframe : Frame (withEvt [THL_SEC_STAT, THL_ERR, KEY_STATUS]) id b b.wipeFailed :=
    ((Frame.refl.set (by decide)).set (by decide)).set (by decide)
  refine ⟨?_, ?_, ?_, ?_, ?_, ?_⟩
  · rw [hget _ (by decide) (by decide), Block.wipeFailed, Block.get_set_addr _ (by decide), Block.get_set_ne _ _ _ _ (by decide) (by decide),
      get_set_zero _ _ (by decide)]
  · rw [hget _ (by decide) (by decide), Block.wipeFailed, Block.get_set_addr _ (by decide), Block.get_set_self _ _ _ (by decide)]
    rfl
  · rw [hget _ (by decide) (by decide), Block.wipeFailed, Block.get_set_self _ _ _ (by decide)]
    rfl
  · rw [wipeEnd_failed b h]
    exact get_closed_setClosed _
  · rw [wipeEnd_failed b h]
    exact pending_setClosed _ _ (pending_raise _ _)
  · rw [wipeEnd_failed b h]
    exact (hframe.raise (withEvt_of_evtReg _)).setClosed (by decide) (withEvt_of_evtReg _)

end

/-- The wipe ends with no reset waiting for it. -/
theorem exec_wipeDone_alone {s : State} (ok : Bool) (ho : s.block.rst.off = false) (hw : s.block.on THL_SEC_STAT_WIPING = true)
    (ha : s.block.rst.afterWipe = 0) : exec (.wipeDone ok) s = .next ⟨(s.block.wipeEnd ok).commit, s.pending⟩ := by
  have hsame : ((s.block.wipeEnd ok).modRst fun r => { r with afterWipe := 0 }) = s.block.wipeEnd ok := by
    have hafter : (s.block.wipeEnd ok).rst.afterWipe = 0 := by rw [rst_of_own (own_wipeEnd _ ok hw), ha]
    rw [Block.modRst, ← hafter]
  change execWipeDone ok s = _
  rw [execWipeDone, run_eq]
  simp [ho, hw, ha, hsame, bit]

/-- The reset of a tamper follows the wipe (R658). -/
theorem exec_wipeDone_tamper {s : State} (ok : Bool) (ho : s.block.rst.off = false) (hw : s.block.on THL_SEC_STAT_WIPING = true)
    (ha : s.block.rst.afterWipe = 2 ^ 0xD) : exec (.wipeDone ok) s =
      .next ⟨(((s.block.wipeEnd ok).modRst fun r => { r with afterWipe := 0 }).source 0xD).commit, s.pending⟩ := by
  change execWipeDone ok s = _
  rw [execWipeDone, run_eq]
  simp [ho, hw, ha, bit]

/-! A tamper (R658) -/

/-- TAMPER_N is seen, and reported to Cairn. -/
def Block.tamperSeen (b : Block) : Block :=
  let b := (b.set KEY_STATUS_TAMPER_SEEN 1).raise 965
  b.report 0x0F 965 (⟨.key, 0⟩ : UnitRef).id 0 ((leBytes 4 (b.rd KEY_STATUS).toNat).map (fun x => x.toNat))

theorem exec_tamper {s : State} (ho : s.block.rst.off = false) : exec .tamper s =
    .next ⟨(s.block.tamperSeen.wipeStart.modRst fun r => { r with afterWipe := r.afterWipe ||| 2 ^ 0xD }).commit, s.pending⟩ := by
  change execTamper s = _
  rw [execTamper, run_eq, ho]
  rfl

theorem pendReg_lost (n : Nat) : pendReg (CRN_LOSTs n) = false :=
  Bool.eq_false_iff.mpr fun h => by
    have hlt : CRN_LOSTs n < 0x2080 := ((pendReg_iff _).mp h).2
    unfold CRN_LOSTs at hlt
    omega

section
variable (b : Block) (t s u fl : Nat) (d : List Nat)

/-- A report that finds no room is counted for its source (R671). -/
def Block.reportLost (n : Nat) : Block :=
  ((b.doIf (b.get (CRN_LOSTs_COUNT n) == 0) fun b => { b with firstLost := (n, b.ns) :: b.firstLost }).set (CRN_LOSTs_COUNT n)
    (satAdd 0xFFFF (b.get (CRN_LOSTs_COUNT n)) 1)).count (CRN_CNTi 1) 1 (bitOf CRN_CNT_ROLL 1) 1002

/-- A report enters the FIFO, or is lost behind a marker that stands there or is set now (R671). -/
theorem report_cases : (∃ r : Report, b.report t s u fl d = { b with fifo := b.fifo ++ [r] }.set CRN_STAT_FIFO_FILL (b.fifo.length + 1)) ∨
    (∃ n, b.report t s u fl d = b.reportLost n) ∨
    ∃ n k, b.report t s u fl d = ({ b.reportLost n with marker := k }.set CRN_STAT_MARKER 1).raise 995 := by
  unfold Block.report
  dsimp only
  split
  · exact .inl ⟨_, rfl⟩
  · split
    · exact .inr (.inl ⟨if s = 0xFFFF then 992 else s % 1024, rfl⟩)
    · exact .inr (.inr ⟨if s = 0xFFFF then 992 else s % 1024, _, rfl⟩)

theorem pending_reportLost (n : Nat) {m : Nat} (h : b.pendingEvent m = true) : (b.reportLost n).pendingEvent m = true := by
  have hfirst (c : Bool) : (b.doIf c fun b => { b with firstLost := (n, b.ns) :: b.firstLost }).pendingEvent m = true := by
    cases c <;> exact h
  refine pending_count_mono _ _ _ _ _ _ (by decide) (by decide) ?_
  rw [pending_set _ _ _ _ (pendReg_lost n)]
  exact hfirst _

/-- A report to Cairn leaves pending events pending. -/
theorem pending_report_mono {m : Nat} (h : b.pendingEvent m = true) : (b.report t s u fl d).pendingEvent m = true := by
  rcases report_cases b t s u fl d with ⟨r, hr⟩ | ⟨n, hr⟩ | ⟨n, k, hr⟩
  · rw [hr, pending_set _ _ _ _ (by decide)]
    exact h
  · rw [hr]
    exact pending_reportLost b n h
  · rw [hr]
    refine pending_raise_mono _ _ _ ?_
    rw [pending_set _ _ _ _ (by decide)]
    exact pending_reportLost b n h

end

theorem bit_or_two_pow (n i : Nat) : bit (n ||| 2 ^ i) i = true := by
  rw [bit_eq, Nat.testBit_or, Nat.testBit_two_pow_self, Bool.or_true]

section
variable (b : Block)

theorem pending_wipeStart {n : Nat} (h : b.pendingEvent n = true) : b.wipeStart.pendingEvent n = true := by
  refine (pending_congr (fun a ha => rd_wipeStart b (ne_of_pendReg (by decide) ha) (ne_of_pendReg (by decide) ha) ?_) n).trans h
  have hlt : a < 0x2080 := ((pendReg_iff a).mp ha).2
  exact Bool.eq_false_iff.mpr fun hs => by
    simp only [slotReg, Bool.and_eq_true, decide_eq_true_eq] at hs
    omega

theorem get_tamperSeen : b.tamperSeen.get KEY_STATUS_TAMPER_SEEN = 1 := by
  rw [Block.tamperSeen, get_report _ _ _ _ _ _ _ (by decide), get_raise _ _ _ (by decide)]
  exact Block.get_set_self _ _ _ (by decide)

theorem pending_tamperSeen : b.tamperSeen.pendingEvent 965 = true := pending_report_mono _ _ _ _ _ _ (pending_raise _ _)

theorem rd_tamperSeen {a : Nat} (hk : KEY_STATUS ≠ a) (hc : crnReg a = false) : b.tamperSeen.rd a = b.rd a := by
  have he : evtReg a = false := (Bool.or_eq_false_iff.mp hc).1
  rw [Block.tamperSeen, rd_report _ _ _ _ _ _ _ hc, rd_raise _ _ _ he, Block.rd_set_ne _ (f := KEY_STATUS_TAMPER_SEEN) hk]

end

/-- Settles O46: a release by the causes that are left, the watchdogs by RIDGE_ACT, a wipe by its start and its end, a tamper by the wipe it
starts. -/
theorem resetReleaseAndWipe : Obligations.ResetReleaseAndWipe := by
  intro b q
  refine ⟨fun c ho hc h4 h5 hl => ?last, fun c ho hc h4 h5 hl => ?other,
    fun c hc => ⟨_, exec_resetRelease_idle (s := ⟨b, q⟩) hc, Frame.refl.commit⟩, fun m t hl hh => ?half, fun m t hl hm hact hb => ?unit,
    fun m t hu hl hw => ?watchdog, fun v ho => ?kick, fun ho hw => ?wipeStart, fun ho hw => ?wipeAgain, fun ho hw ha => ?passed,
    fun ho hw ha => ?failed, fun hu hw ha => ?reset, fun ho => ?tamper⟩
  case last =>
    have hheld : (b.letGo c).rst.held = 0 := by rw [Block.letGo, Block.modRst_rst, hl, Nat.sub_self]
    obtain ⟨hasserted, hheld', -⟩ := rst_beginStart (b.letGo c)
    refine ⟨_, exec_resetRelease (s := ⟨b, q⟩) ho hc h4 h5, ?_⟩
    dsimp only
    rw [if_pos hheld]
    exact ⟨hasserted, hheld', (Block.get_commit _ _).trans (get_stage_beginStart _),
      (Frame.refl.modRst.beginStart (by decide) (withEvt_of_evtReg _)).commit⟩
  case other =>
    have hheld : (b.letGo c).rst.held ≠ 0 := by
      have hle : 2 ^ c ≤ b.rst.held := two_pow_le_of_bit hc
      rw [Block.letGo, Block.modRst_rst]
      dsimp only
      omega
    refine ⟨_, exec_resetRelease (s := ⟨b, q⟩) ho hc h4 h5, ?_⟩
    dsimp only
    rw [if_neg hheld]
    exact ⟨rfl, rfl, Frame.refl.modRst.commit⟩
  case half =>
    refine ⟨_, exec_ridgeWatchdogHalf (s := ⟨b, q⟩) m hl hh, (pending_commit _ _).trans (pending_raise _ _), ?_,
      (Frame.refl.advanceXtal_rst.modRst_timed.raise (withEvt_of_evtReg _)).commit⟩
    rw [Block.commit_rst, Block.raise_rst]
    exact Sparse.get_cons_self _ _ _ _
  case unit =>
    have hhdr : ((b.advanceXtal (t + b.ridgeNs)).ridgeUnarmed m).on (stResetBusy (⟨.ridge, m⟩ : UnitRef).hdr) = false := by
      rw [Block.ridgeUnarmed, Block.modRst_on, on_advanceXtal, hb]
    obtain ⟨hbusy, hreset⟩ := resetMark_started _ ⟨.ridge, m⟩ 3 rfl hhdr
    refine ⟨_, exec_ridgeWatchdogExpiry (s := ⟨b, q⟩) m hl, ?_⟩
    dsimp only
    rw [if_pos ⟨hact, hm⟩]
    refine ⟨(Block.get_commit _ _).trans hbusy, (Block.get_commit _ _).trans hreset, ?_,
      (Frame.refl.advanceXtal_rst.modRst_timed.resetMark rfl hhdr (by simp [within]) (by simp [within])).commit⟩
    rw [Block.commit_rst, ridgeAt_resetMark _ _ _ rfl hhdr]
    exact Sparse.get_cons_self _ _ _ _
  case watchdog =>
    have ⟨hon, hfree, _⟩ := hu
    have hon' : (b.advanceXtal (t + b.ridgeNs)).rst.off = false := by rwa [rst_advanceXtal]
    have hfree' : (b.advanceXtal (t + b.ridgeNs)).rst.asserted = false := by rwa [rst_advanceXtal]
    obtain ⟨hasserted, hstage⟩ := started_source _ (c := 8) hon' hfree' rfl
    have hshown := (resetShown_source _ (c := 8) hon' hfree' (by decide)).commit
    have hmodule : ¬(b.on RST_WDOG_RIDGE_ACT = true ∧ m ≠ 0) := by
      rintro ⟨hact, hm⟩
      rcases hw with h | h
      · exact hm h
      · exact absurd (hact.symm.trans h) (by decide)
    refine ⟨_, exec_ridgeWatchdogExpiry (s := ⟨b, q⟩) m hl, ?_⟩
    dsimp only
    rw [if_neg hmodule]
    exact ⟨hasserted, hshown.level, hstage, hshown.lastCause, hshown.lastAll⟩
  case kick =>
    exact ⟨_, exec_rstKick v (s := ⟨b, q⟩) ho, fun m hm hv hl => kicks_armed b v hm hv hl,
      fun m hv => each_keeps (fun x => x.rst.ridgeAt.get (fun _ => none) m) b 4 _ fun i _ x => (ridgeAt_kick_ne x v (.inr hv)).1,
      (frame_kicks b v 4).commit⟩
  case wipeStart =>
    refine ⟨_, exec_wipeStart (s := ⟨b, q⟩) ho, ?_, ?_, ?_, fun n hn => ⟨?_, fun hv i hi => ?_⟩, fun a ha => ?_,
      (congrArg Block.noKey (units_commit _)).trans (units_wipeStart b)⟩
    · rw [Block.get_commit, get_wiping_wipeStart]
    · rw [Block.get_commit, get_wipePend_wipeStart b hw]
    · rw [Block.get_commit, get_rootOk_wipeStart b hw]
    · rw [Block.get_commit, get_valid_wipeStart b hw hn]
    · rw [Block.byte_commit, byte_wipeStart b hw hn hi hv]
    · obtain ⟨hregs, hslot⟩ := Bool.or_eq_false_iff.mp ha
      simp only [within, List.contains_cons, List.contains_nil, Bool.or_false, Bool.or_eq_false_iff, beq_eq_false_iff_ne] at hregs
      rw [Block.rd_commit, rd_wipeStart b hregs.1.symm hregs.2.symm hslot]
  case wipeAgain =>
    refine ⟨_, exec_wipeStart (s := ⟨b, q⟩) ho, ?_⟩
    dsimp only
    rw [wipeStart_idle b hw]
    exact Frame.refl.commit
  case passed =>
    obtain ⟨hwiping, hwiped, hpend, hfail, hevt, hframe⟩ := wipeEnd_passed_shown b hw
    exact ⟨_, exec_wipeDone_alone (s := ⟨b, q⟩) true ho hw ha, (Block.get_commit _ _).trans hwiping, (Block.get_commit _ _).trans hwiped,
      (Block.get_commit _ _).trans hpend, (Block.get_commit _ _).trans hfail, (pending_commit _ _).trans hevt, hframe.commit⟩
  case failed =>
    obtain ⟨hwiping, hfail, herr, hclosed, hevt, hframe⟩ := wipeEnd_failed_shown b hw
    exact ⟨_, exec_wipeDone_alone (s := ⟨b, q⟩) false ho hw ha, (Block.get_commit _ _).trans hwiping, (Block.get_commit _ _).trans hfail,
      (Block.get_commit _ _).trans herr, (Block.get_commit _ _).trans hclosed, (pending_commit _ _).trans hevt, hframe.commit⟩
  case reset =>
    have ⟨hon, hfree, _⟩ := hu
    have hrst : (b.wipeEnd true).rst = b.rst := rst_of_own (own_wipeEnd b true hw)
    have hon' : ((b.wipeEnd true).modRst fun r => { r with afterWipe := 0 }).rst.off = false := by rwa [Block.modRst_rst, hrst]
    have hfree' : ((b.wipeEnd true).modRst fun r => { r with afterWipe := 0 }).rst.asserted = false := by rwa [Block.modRst_rst, hrst]
    obtain ⟨hasserted, -, hafter⟩ := rst_source_held _ (c := 0xD) hon' hfree' rfl
    have hshown := (resetShown_source _ (c := 0xD) hon' hfree' (by decide)).commit
    exact ⟨_, exec_wipeDone_tamper (s := ⟨b, q⟩) true hon hw ha, hasserted, hshown.level, hshown.lastCause, hafter⟩
  case tamper =>
    refine ⟨_, exec_tamper (s := ⟨b, q⟩) ho, ?_, ?_, ?_, ?_, fun a ha => ?_⟩
    · rw [Block.get_commit, Block.modRst_get, get_wipeStart_key _ _ rfl (by decide) (by decide), get_tamperSeen]
    · rw [pending_commit]
      exact pending_wipeStart _ (pending_tamperSeen b)
    · rw [Block.get_commit, Block.modRst_get, get_wiping_wipeStart]
    · rw [Block.commit_rst, Block.modRst_rst]
      exact bit_or_two_pow _ _
    · obtain ⟨hregs, hslot⟩ := Bool.or_eq_false_iff.mp ha
      simp only [withCrn, List.contains_cons, List.contains_nil, Bool.or_false, Bool.or_eq_false_iff, beq_eq_false_iff_ne] at hregs
      obtain ⟨⟨hsec, hkey⟩, hcrn⟩ := hregs
      rw [Block.rd_commit, Block.modRst_rd, rd_wipeStart _ hsec.symm hkey.symm hslot, rd_tamperSeen b hkey.symm hcrn]

end Sys2Proof.Machine

/-! # The key port and the life cycle

A command of KEY_CMD (R650) as the state it begins from, its own effect and its end; what the life-cycle, anchor and debug commands then do
(R642, R646, R647, R657). -/

namespace Sys2Proof.Machine

open Sys2Proof Sys2Proof.Reg

theorem units_key_pos (m : Member) : 0 < m.units .key := by cases m <;> decide

/-- In a module that is up a command of the key store ends in a next state. -/
theorem runAt_key {s : State} (hu : s.block.up) (f : Block → Block) : runAt .key f s = .next ⟨(f s.block).commit, s.pending⟩ :=
  runAt_eq .key f s (released_up _ hu .key) (units_key_pos _)

/-! The registers of the port -/

/-- The registers that no key command changes are none of the port's, nor of events. -/
theorem keyRegs_nil_eq_false {a : Nat} : keyRegs [] a = false ↔
    evtReg a = false ∧ KEY_CMD ≠ a ∧ KEY_CONFIRM ≠ a ∧ ∀ w < 16, KEY_DATAw w ≠ a ∧ KEY_RDATAw w ≠ a := by
  simp only [keyRegs, withEvt, List.contains_nil, Bool.false_or, Bool.or_eq_false_iff, beq_eq_false_iff_ne, List.any_eq_false, List.mem_range,
    Bool.not_eq_true, and_assoc, ne_comm (a := a)]

/-- No register of the key store is one that the report of an event changes. -/
theorem evtReg_key {a : Nat} (h : 0x30000 ≤ a) (h' : a < 0x40000) : evtReg a = false := by
  simp only [evtReg, HIF_CNTi, HIF_CNT_ROLL, HIF_WAKE_CAUSE, HIF_WAKE_TIME_LO, HIF_WAKE_TIME_HI, Bool.or_eq_false_iff,
    Bool.and_eq_false_iff, beq_eq_false_iff_ne, decide_eq_false_iff_not]
  omega

theorem keyRegs_data {l : List Nat} {w : Nat} (hw : w < 16) : keyRegs l (KEY_DATAw w) = true := by
  rw [keyRegs, Bool.or_eq_true]
  exact .inr (List.any_eq_true.mpr ⟨w, List.mem_range.mpr hw, by simp⟩)

theorem keyRegs_rdata {l : List Nat} {w : Nat} (hw : w < 16) : keyRegs l (KEY_RDATAw w) = true := by
  rw [keyRegs, Bool.or_eq_true]
  exact .inr (List.any_eq_true.mpr ⟨w, List.mem_range.mpr hw, by simp⟩)

theorem keyRegs_cmd (l : List Nat) : keyRegs l KEY_CMD = true := by simp [keyRegs]

theorem keyRegs_confirm (l : List Nat) : keyRegs l KEY_CONFIRM = true := by simp [keyRegs]

theorem keyRegs_evt (l : List Nat) (a : Nat) (h : evtReg a = true) : keyRegs l a = true := by simp [keyRegs, withEvt, h]

theorem keyRegs_singleton (a : Nat) : keyRegs [a] a = true := by simp [keyRegs, withEvt]

theorem keyRegs_slot {n : Nat} (hn : n < 512) : keyRegs [] (KEY_SLOTn_ATTR n) = false := by
  refine keyRegs_nil_eq_false.mpr ⟨evtReg_key ?_ ?_, ?_, ?_, fun w hw => ⟨?_, ?_⟩⟩ <;>
    simp only [KEY_SLOTn_ATTR, KEY_CMD, KEY_CONFIRM, KEY_DATAw, KEY_RDATAw] <;> omega

/-! A command's beginning -/

section
variable (b : Block) (op : Nat) (v : Word)

/-- The block that a command acts on: KEY_CMD holds the command, KEY_RDATA is clear (R650). -/
def Block.keyBegun : Block := (b.wr KEY_CMD (BitVec.ofNat 32 (op * 2 ^ 23 + (v.toNat &&& 0x7FFFF)))).clearRdata

/-- Clearing KEY_RDATA changes registers and the key store's own note of it. -/
theorem clearRdata_eq : ∃ m, b.clearRdata = { b with regs := m, key := { b.key with rdata := false } } := by
  have hregs (n : Nat) : ∃ m, b.each n (fun w b => b.wr (KEY_RDATAw w) 0) = { b with regs := m } := by
    induction n with
    | zero => exact ⟨_, rfl⟩
    | succ n ih =>
      obtain ⟨m, h⟩ := ih
      exact ⟨_, by rw [each_succ, h]; rfl⟩
  obtain ⟨m, h⟩ := hregs 16
  exact ⟨m, by rw [Block.clearRdata, h]⟩

theorem keyBegun_eq : ∃ m, b.keyBegun op v = { b with regs := m, key := { b.key with rdata := false } } :=
  clearRdata_eq (b.wr KEY_CMD _)

theorem rd_clearRdata {a : Nat} (h : ∀ w < 16, KEY_RDATAw w ≠ a) : b.clearRdata.rd a = b.rd a := by
  have hzeros : (b.each 16 fun w b => b.wr (KEY_RDATAw w) 0).rd a = b.rd a :=
    each_keeps (·.rd a) b 16 _ fun w hw _ => Block.rd_wr_ne _ (h w hw) _
  rw [Block.rd] at hzeros
  rw [Block.clearRdata, Block.rd, hzeros]

theorem rd_keyBegun {a : Nat} (hcmd : KEY_CMD ≠ a) (hr : ∀ w < 16, KEY_RDATAw w ≠ a) : (b.keyBegun op v).rd a = b.rd a := by
  rw [Block.keyBegun, rd_clearRdata _ hr, Block.rd_wr_ne _ hcmd]

theorem get_keyBegun (f : Fld) (hcmd : KEY_CMD ≠ f.addr) (hr : ∀ w < 16, KEY_RDATAw w ≠ f.addr) : (b.keyBegun op v).get f = b.get f :=
  get_congr (rd_keyBegun b op v hcmd hr)

theorem on_keyBegun (f : Fld) (hcmd : KEY_CMD ≠ f.addr) (hr : ∀ w < 16, KEY_RDATAw w ≠ f.addr) : (b.keyBegun op v).on f = b.on f :=
  on_congr (rd_keyBegun b op v hcmd hr)

@[simp] theorem confirmed_keyBegun : (b.keyBegun op v).confirmed = b.confirmed := by
  rw [Block.confirmed, get_keyBegun b op v _ (by decide) (by decide), Block.confirmed]

@[simp] theorem leased_keyBegun : (b.keyBegun op v).leased = b.leased := by
  obtain ⟨m, h⟩ := keyBegun_eq b op v
  rw [h]
  rfl

@[simp] theorem imgLock_keyBegun : (b.keyBegun op v).imgLock = b.imgLock := by
  obtain ⟨m, h⟩ := keyBegun_eq b op v
  rw [h]

@[simp] theorem runSvn_keyBegun : (b.keyBegun op v).key.runSvn = b.key.runSvn := by
  obtain ⟨m, h⟩ := keyBegun_eq b op v
  rw [h]

/-- KEY_STATUS and KEY_FUSE are as the command finds them. -/
theorem get_status_keyBegun (f : Fld) (h : f.addr = KEY_STATUS) : (b.keyBegun op v).get f = b.get f :=
  get_keyBegun b op v f (by rw [h]; decide) (by rw [h]; decide)

theorem get_fuse_keyBegun (f : Fld) (h : f.addr = KEY_FUSE) : (b.keyBegun op v).get f = b.get f :=
  get_keyBegun b op v f (by rw [h]; decide) (by rw [h]; decide)

theorem on_status_keyBegun (f : Fld) (h : f.addr = KEY_STATUS) : (b.keyBegun op v).on f = b.on f :=
  on_keyBegun b op v f (by rw [h]; decide) (by rw [h]; decide)

@[simp] theorem tablesIdle_keyBegun : (b.keyBegun op v).tablesIdle = b.tablesIdle := by
  rw [Block.tablesIdle, get_keyBegun b op v _ (by decide) (by decide), Block.tablesIdle]

@[simp] theorem dbgAllowed_keyBegun : (b.keyBegun op v).dbgAllowed = b.dbgAllowed := by
  rw [Block.dbgAllowed, confirmed_keyBegun, leased_keyBegun, get_status_keyBegun b op v _ rfl, Block.dbgAllowed]

theorem frame_keyBegun (l : List Nat) : Frame (keyRegs l) Block.noKey b (b.keyBegun op v) := by
  obtain ⟨m, h⟩ := keyBegun_eq b op v
  refine ⟨fun a ha => rd_keyBegun b op v (fun e => ?_) (fun w hw e => ?_), fun sp a => by rw [h]; rfl, by rw [h]; rfl⟩
  · exact Bool.eq_false_iff.mp ha (e ▸ keyRegs_cmd l)
  · exact Bool.eq_false_iff.mp ha (e ▸ keyRegs_rdata hw)

end

/-! A command's end -/

section
variable (b : Block) (r : Nat)

/-- RESULT shows, KEY_DATA and KEY_CONFIRM are clear, event 960 is reported (R650). -/
def Block.keyEnded : Block := (((b.set KEY_CMD_RESULT r).each 16 (fun w b => b.wr (KEY_DATAw w) 0)).wr KEY_CONFIRM 0).raise 960

theorem own_keyEnded : (b.keyEnded r).own = b.own :=
  (own_raise _ _).trans ((own_wr _ _ _).trans (each_keeps Block.own _ 16 _ fun _ _ _ => rfl))

theorem rd_keyEnded {a : Nat} (h : keyRegs [] a = false) : (b.keyEnded r).rd a = b.rd a := by
  obtain ⟨hevt, hcmd, hconfirm, hdata⟩ := keyRegs_nil_eq_false.mp h
  rw [Block.keyEnded, rd_raise _ _ _ hevt, Block.rd_wr_ne _ hconfirm,
    each_keeps (·.rd a) _ 16 _ fun w hw _ => Block.rd_wr_ne _ (hdata w hw).1 _, Block.rd_set_ne _ (f := KEY_CMD_RESULT) hcmd]

theorem get_keyEnded (f : Fld) (h : keyRegs [] f.addr = false) : (b.keyEnded r).commit.get f = b.get f :=
  (Block.get_commit _ _).trans (get_congr (rd_keyEnded b r h))

theorem Frame.keyEnded {l : List Nat} {k : Block → Block} {a b : Block} {r : Nat} (h : Frame (keyRegs l) k a b) :
    Frame (keyRegs l) k a (b.keyEnded r) := by
  have hdata : Frame (keyRegs l) k a ((b.set KEY_CMD_RESULT r).each 16 fun w b => b.wr (KEY_DATAw w) 0) := by
    have hset : Frame (keyRegs l) k a (b.set KEY_CMD_RESULT r) := h.set (keyRegs_cmd l)
    refine List.foldlRecOn (motive := Frame (keyRegs l) k a) _ _ hset fun x hx w hw => ?_
    exact hx.wr (keyRegs_data (List.mem_range.mp hw))
  exact (hdata.wr (keyRegs_confirm l)).raise (keyRegs_evt l)

/-- The end of a command is as R650 says. -/
theorem keyEnds_keyEnded (hr : r < 8) : keyEnds r (b.keyEnded r).commit := by
  refine ⟨?_, ?_, fun w hw => ?_, (pending_commit _ _).trans (pending_raise _ _)⟩
  · have hdata : ((b.set KEY_CMD_RESULT r).each 16 fun w b => b.wr (KEY_DATAw w) 0).get KEY_CMD_RESULT =
        (b.set KEY_CMD_RESULT r).get KEY_CMD_RESULT :=
      each_keeps (·.get KEY_CMD_RESULT) _ 16 _ fun w _ _ =>
        Block.get_wr_ne _ (show KEY_DATAw w ≠ KEY_CMD by unfold KEY_DATAw KEY_CMD; omega) _
    rw [Block.get_commit, Block.keyEnded, get_raise _ _ _ (by decide), Block.get_wr_ne _ (by decide), hdata,
      Block.get_set_self _ _ _ (by decide)]
    exact Nat.mod_eq_of_lt hr
  · rw [Block.rd_commit, Block.keyEnded, rd_raise _ _ _ (by decide), Block.rd_wr_self]
  · have hevt : evtReg (KEY_DATAw w) = false := evtReg_key (by unfold KEY_DATAw; omega) (by unfold KEY_DATAw; omega)
    rw [Block.rd_commit, Block.keyEnded, rd_raise _ _ _ hevt, Block.rd_wr_ne _ (by unfold KEY_CONFIRM KEY_DATAw; omega)]
    exact each_of_step (P := fun x => x.rd (KEY_DATAw w) = 0) _ 16 w _ hw (Block.rd_wr_self _ _ _) fun i hi _ x hx =>
      (Block.rd_wr_ne _ (by unfold KEY_DATAw; omega) _).trans hx

end

/-! A whole command -/

section
variable {s : State} (hu : s.block.up) (ht : s.block.takes ⟨.key, 0⟩ = true) (hc : s.block.on KEY_STATUS_CLOSED = false)
  {c : Instr} {op r : Nat} {v : Word} {f : Block → Nat × Block} (he : exec c s = runAt .key (fun b => b.keyCmd op v f) s)
include hu ht hc he

/-- At an open key store that takes commands, a command is its beginning, its effect f and its end. -/
theorem exec_keyCmd {x : Block} (hf : f (s.block.keyBegun op v) = (r, x)) : exec c s = .next ⟨(x.keyEnded r).commit, s.pending⟩ := by
  have hopen : ¬((s.block.keyBegun op v).on KEY_STATUS_CLOSED = true ∧ op ≠ 6) := by
    rw [on_status_keyBegun _ _ _ _ rfl, hc]
    exact fun h => Bool.false_ne_true h.1
  have hacts : (if (s.block.keyBegun op v).on KEY_STATUS_CLOSED = true ∧ op ≠ 6 then (kClosed, s.block.keyBegun op v)
      else f (s.block.keyBegun op v)) = (r, x) := (if_neg hopen).trans hf
  unfold Block.keyBegun at hacts
  rw [he, runAt_key hu, Block.keyCmd, if_neg (by rw [ht]; decide)]
  dsimp only
  rw [hacts, Block.keyEnded]

/-- A command that only answers changes nothing but the port. -/
theorem leads_keyCmd_answer (hr : r < 8) (hf : f (s.block.keyBegun op v) = (r, s.block.keyBegun op v)) :
    Leads c s fun b' => keyEnds r b' ∧ Frame (keyRegs []) Block.noKey s.block b' :=
  ⟨_, exec_keyCmd hu ht hc he hf, keyEnds_keyEnded _ _ hr, (frame_keyBegun _ _ _ []).keyEnded.commit⟩

/-- A command that loads one field of another register of the key store. -/
theorem leads_keyCmd_set {g : Fld} {n : Nat} (hg : g.lo + g.width ≤ 32) (ha : keyRegs [] g.addr = false) (hn : n < 2 ^ g.width)
    (hf : f (s.block.keyBegun op v) = (kDone, (s.block.keyBegun op v).set g n)) :
    Leads c s fun b' => keyEnds 0 b' ∧ b'.get g = n ∧ Frame (keyRegs [g.addr]) Block.noKey s.block b' := by
  refine ⟨_, exec_keyCmd hu ht hc he hf, keyEnds_keyEnded _ _ (by decide), ?_, ?_⟩
  · rw [get_keyEnded _ _ _ ha, Block.get_set_self _ _ _ hg, Nat.mod_eq_of_lt hn]
  · exact ((frame_keyBegun _ _ _ _).set (keyRegs_singleton _)).keyEnded.commit

end

/-! The life-cycle commands -/

section
variable {s : State} {v : Word} (hu : s.block.up) (ht : s.block.takes ⟨.key, 0⟩ = true) (hc : s.block.on KEY_STATUS_CLOSED = false)
include hu ht hc

/-- A command whose effect asks for KEY_CONFIRM is refused without it (R650). -/
theorem leads_keyCmd_unconfirmed (h : s.block.confirmed = false) {c : Instr} {op : Nat} {f : Block → Nat × Block}
    (he : exec c s = runAt .key (fun b => b.keyCmd op v f) s) (hf : ∀ x : Block, x.confirmed = false → f x = (kRefused, x)) :
    Leads c s fun b' => keyEnds 1 b' ∧ Frame (keyRegs []) Block.noKey s.block b' :=
  leads_keyCmd_answer hu ht hc he (by decide) (hf _ ((confirmed_keyBegun _ _ _).trans h))

/-- Each of the life-cycle commands asks for it (R642, R646, R647, R650, R657). -/
theorem leads_unconfirmed (h : s.block.confirmed = false) {c : Instr}
    (hmem : c ∈ [Instr.wipe v, .enrol v, .lcAdvance v, .svnRaise v, .anchorRevoke v, .dbgArm v, .dbgDisarm v]) :
    Leads c s fun b' => keyEnds 1 b' ∧ Frame (keyRegs []) Block.noKey s.block b' := by
  have hdebug (x : Block) (hx : x.confirmed = false) : ¬x.dbgAllowed = true := by rw [Block.dbgAllowed, hx, Bool.false_and]; decide
  simp only [List.mem_cons, List.not_mem_nil, or_false] at hmem
  rcases hmem with rfl | rfl | rfl | rfl | rfl | rfl | rfl
  · exact leads_keyCmd_unconfirmed hu ht hc h (c := .wipe v) rfl fun x hx => if_neg (by rw [hx]; decide)
  · exact leads_keyCmd_unconfirmed hu ht hc h (c := .enrol v) rfl fun x hx => if_neg (by rw [hx, Bool.false_and]; decide)
  · exact leads_keyCmd_unconfirmed hu ht hc h (c := .lcAdvance v) rfl fun x hx => if_pos (.inl hx)
  · exact leads_keyCmd_unconfirmed hu ht hc h (c := .svnRaise v) rfl fun x hx => if_pos (by rw [hx]; rfl)
  · exact leads_keyCmd_unconfirmed hu ht hc h (c := .anchorRevoke v) rfl fun x hx => if_pos (by rw [hx]; rfl)
  · exact leads_keyCmd_unconfirmed hu ht hc h (c := .dbgArm v) rfl fun x hx => if_neg (hdebug x hx)
  · exact leads_keyCmd_unconfirmed hu ht hc h (c := .dbgDisarm v) rfl fun x hx => if_neg (hdebug x hx)

/-- R647: arming and disarming load DBG_ARMED, where they are allowed. -/
theorem leads_dbg (h : s.block.dbgAllowed = true) :
    (Leads (.dbgArm v) s fun b' => keyEnds 0 b' ∧ b'.get KEY_STATUS_DBG_ARMED = 1 ∧ Frame (keyRegs [KEY_STATUS]) Block.noKey s.block b') ∧
    Leads (.dbgDisarm v) s fun b' => keyEnds 0 b' ∧ b'.get KEY_STATUS_DBG_ARMED = 0 ∧ Frame (keyRegs [KEY_STATUS]) Block.noKey s.block b' := by
  have hallowed (op : Nat) : (s.block.keyBegun op v).dbgAllowed = true := (dbgAllowed_keyBegun _ _ _).trans h
  exact ⟨leads_keyCmd_set hu ht hc rfl (g := KEY_STATUS_DBG_ARMED) (by decide) (by decide) (by decide) (if_pos (hallowed 11)),
    leads_keyCmd_set hu ht hc rfl (g := KEY_STATUS_DBG_ARMED) (by decide) (by decide) (by decide) (if_pos (hallowed 12))⟩

theorem leads_dbg_refused (h : s.block.dbgAllowed = false) :
    (Leads (.dbgArm v) s fun b' => keyEnds 1 b' ∧ Frame (keyRegs []) Block.noKey s.block b') ∧
    Leads (.dbgDisarm v) s fun b' => keyEnds 1 b' ∧ Frame (keyRegs []) Block.noKey s.block b' := by
  have hrefused (op : Nat) : ¬(s.block.keyBegun op v).dbgAllowed = true := by rw [dbgAllowed_keyBegun, h]; decide
  exact ⟨leads_keyCmd_answer hu ht hc rfl (by decide) (if_neg (hrefused 11)),
    leads_keyCmd_answer hu ht hc rfl (by decide) (if_neg (hrefused 12))⟩

/-- From OPERATIONAL on ENROL is refused, KEY_CONFIRM or not (R646). -/
theorem leads_enrol_refused (h : 2 ≤ s.block.get KEY_STATUS_LC) :
    Leads (.enrol v) s fun b' => keyEnds 1 b' ∧ Frame (keyRegs []) Block.noKey s.block b' :=
  leads_keyCmd_answer hu ht hc rfl (by decide)
    (if_neg (by rw [get_status_keyBegun _ _ _ _ rfl, decide_eq_false (Nat.not_lt.mpr h), Bool.and_false]; decide))

/-- Under the lease LC_ADVANCE is refused, KEY_CONFIRM or not (R642). -/
theorem leads_lcAdvance_leased (h : s.block.leased = true) :
    Leads (.lcAdvance v) s fun b' => keyEnds 1 b' ∧ Frame (keyRegs []) Block.noKey s.block b' :=
  leads_keyCmd_answer hu ht hc rfl (by decide) (if_pos (.inr (.inl ((leased_keyBegun _ _ _).trans h))))

section
variable (hconf : s.block.confirmed = true)
include hconf

/-- R527, R650: WIPE starts the wipe. -/
theorem leads_wipe (h : s.block.on THL_SEC_STAT_WIPING = false) :
    Leads (.wipe v) s fun b' => keyEnds 0 b' ∧ b'.get THL_SEC_STAT_WIPING = 1 ∧ b'.get THL_SEC_STAT_WIPE_PEND = 1 ∧
      ∀ n, n < 512 → b'.get (KEY_SLOTn_ATTR_VALID n) = 0 := by
  have hidle : (s.block.keyBegun 6 v).on THL_SEC_STAT_WIPING = false := (on_keyBegun _ _ _ _ (by decide) (by decide)).trans h
  have hwipe : exec (.wipe v) s = .next ⟨((s.block.keyBegun 6 v).wipeStart.keyEnded kDone).commit, s.pending⟩ :=
    exec_keyCmd hu ht hc rfl (if_pos ((confirmed_keyBegun _ _ _).trans hconf))
  refine ⟨_, hwipe, keyEnds_keyEnded _ _ (by decide), ?_, ?_, fun n hn => ?_⟩
  · rw [get_keyEnded _ _ _ (by decide), get_wiping_wipeStart]
  · rw [get_keyEnded _ _ _ (by decide), get_wipePend_wipeStart _ hidle]
  · rw [get_keyEnded _ _ (KEY_SLOTn_ATTR_VALID n) (keyRegs_slot hn), get_valid_wipeStart _ hidle hn]

/-- R646: ENROL before OPERATIONAL. -/
theorem leads_enrol (h : s.block.get KEY_STATUS_LC < 2) :
    Leads (.enrol v) s fun b' => keyEnds 0 b' ∧ b'.get KEY_STATUS_ENROL_PEND = 1 ∧ Frame (keyRegs [KEY_STATUS]) Block.noKey s.block b' :=
  leads_keyCmd_set hu ht hc rfl (g := KEY_STATUS_ENROL_PEND) (by decide) (by decide) (by decide)
    (if_pos (by rw [confirmed_keyBegun, hconf, get_status_keyBegun _ _ _ _ rfl, decide_eq_true h]; rfl))

/-- R642: LC_ADVANCE with idle tables and no lease. -/
theorem leads_lcAdvance (hlease : s.block.leased = false) (hidle : s.block.tablesIdle = true) (hlc : s.block.get KEY_STATUS_LC < 4)
    (hready : s.block.get KEY_STATUS_LC = 1 → s.block.on KEY_STATUS_ROOT_OK = true ∧ s.block.get KEY_FUSE_REVOKED ≠ 15) :
    Leads (.lcAdvance v) s fun b' => keyEnds 0 b' ∧ b'.get KEY_STATUS_LC = s.block.get KEY_STATUS_LC + 1 ∧ b'.get THL_SEC_STAT_WIPING = 1 ∧
      bit b'.rst.afterWipe 9 = true := by
  have hlc' : (s.block.keyBegun 8 v).get KEY_STATUS_LC = s.block.get KEY_STATUS_LC := get_status_keyBegun _ _ _ _ rfl
  have hroot : (s.block.keyBegun 8 v).on KEY_STATUS_ROOT_OK = s.block.on KEY_STATUS_ROOT_OK := on_status_keyBegun _ _ _ _ rfl
  have hanchors : (s.block.keyBegun 8 v).get KEY_FUSE_REVOKED = s.block.get KEY_FUSE_REVOKED := get_fuse_keyBegun _ _ _ _ rfl
  have hallowed : ¬((s.block.keyBegun 8 v).confirmed = false ∨ (s.block.keyBegun 8 v).leased = true ∨
      (s.block.keyBegun 8 v).tablesIdle = false ∨ 4 ≤ (s.block.keyBegun 8 v).get KEY_STATUS_LC) := by
    rw [confirmed_keyBegun, leased_keyBegun, tablesIdle_keyBegun, hlc', hconf, hlease, hidle]
    simpa using hlc
  have hmet : ¬((s.block.keyBegun 8 v).get KEY_STATUS_LC = 1 ∧
      ((s.block.keyBegun 8 v).on KEY_STATUS_ROOT_OK = false ∨ (s.block.keyBegun 8 v).get KEY_FUSE_REVOKED = 15)) := by
    rw [hlc', hroot, hanchors]
    rintro ⟨h1, hunmet⟩
    obtain ⟨hok, hkept⟩ := hready h1
    exact hunmet.elim (fun h => Bool.false_ne_true (h.symm.trans hok)) hkept
  refine ⟨_, exec_keyCmd hu ht hc rfl ((if_neg hallowed).trans (if_neg hmet)), keyEnds_keyEnded _ _ (by decide), ?_, ?_, ?_⟩
  · rw [get_keyEnded _ _ _ (by decide), Block.modRst_get, get_wipeStart_key _ _ rfl (by decide) (by decide),
      Block.get_set_self _ _ _ (by decide), hlc']
    exact Nat.mod_eq_of_lt (by change _ < 8; omega)
  · rw [get_keyEnded _ _ _ (by decide), Block.modRst_get, get_wiping_wipeStart]
  · rw [Block.commit_rst, rst_of_own (own_keyEnded _ _), Block.modRst_rst]
    exact bit_or_two_pow _ _

/-- R657: SVN_RAISE below the running image's version. -/
theorem leads_svnRaise (hbelow : s.block.get KEY_FUSE_SVN_MIN < s.block.key.runSvn) (htop : s.block.get KEY_FUSE_SVN_MIN < 64) :
    Leads (.svnRaise v) s fun b' => keyEnds 0 b' ∧ b'.get KEY_FUSE_SVN_MIN = s.block.get KEY_FUSE_SVN_MIN + 1 ∧
      Frame (keyRegs [KEY_FUSE]) Block.noKey s.block b' := by
  have hmin : (s.block.keyBegun 9 v).get KEY_FUSE_SVN_MIN = s.block.get KEY_FUSE_SVN_MIN := get_fuse_keyBegun _ _ _ _ rfl
  refine leads_keyCmd_set hu ht hc rfl (g := KEY_FUSE_SVN_MIN) (by decide) (by decide) (by change _ < 128; omega) ?_
  rw [confirmed_keyBegun, runSvn_keyBegun, hmin, hconf, if_neg (by decide), if_neg (by omega)]

theorem leads_svnRaise_unmet (h : s.block.key.runSvn ≤ s.block.get KEY_FUSE_SVN_MIN) :
    Leads (.svnRaise v) s fun b' => keyEnds 3 b' ∧ Frame (keyRegs []) Block.noKey s.block b' := by
  have hmin : (s.block.keyBegun 9 v).get KEY_FUSE_SVN_MIN = s.block.get KEY_FUSE_SVN_MIN := get_fuse_keyBegun _ _ _ _ rfl
  refine leads_keyCmd_answer hu ht hc rfl (by decide) ?_
  rw [confirmed_keyBegun, runSvn_keyBegun, hmin, hconf, if_neg (by decide), if_pos (.inl h)]

/-- R657: ANCHOR_REVOKE of an anchor other than the running image's. -/
theorem leads_anchorRevoke (h : bits v.toNat 0 2 ≠ s.block.get KEY_STATUS_RUN_ANCHOR) :
    Leads (.anchorRevoke v) s fun b' => keyEnds 0 b' ∧ b'.get (bitOf KEY_FUSE (bits v.toNat 0 2)) = 1 ∧
      Frame (keyRegs [KEY_FUSE]) Block.noKey s.block b' := by
  have hrun : (s.block.keyBegun 10 v).get KEY_STATUS_RUN_ANCHOR = s.block.get KEY_STATUS_RUN_ANCHOR := get_status_keyBegun _ _ _ _ rfl
  have hanchor : bits v.toNat 0 2 < 4 := bits_lt _ 0 2
  refine leads_keyCmd_set hu ht hc rfl (g := bitOf KEY_FUSE (bits v.toNat 0 2)) (by change bits v.toNat 0 2 + 1 ≤ 32; omega)
    (by change keyRegs [] KEY_FUSE = false; decide) (by change 1 < 2; decide) ?_
  rw [confirmed_keyBegun, hrun, hconf, if_neg (by decide), if_neg fun hr => h hr.1]

theorem leads_anchorRevoke_running (h : bits v.toNat 0 2 = s.block.get KEY_STATUS_RUN_ANCHOR) (htest : s.block.on KEY_STATUS_TEST_IMAGE = false)
    (hlock : s.block.imgLock = true) : Leads (.anchorRevoke v) s fun b' => keyEnds 3 b' ∧ Frame (keyRegs []) Block.noKey s.block b' := by
  have hrun : (s.block.keyBegun 10 v).get KEY_STATUS_RUN_ANCHOR = s.block.get KEY_STATUS_RUN_ANCHOR := get_status_keyBegun _ _ _ _ rfl
  have htest' : (s.block.keyBegun 10 v).on KEY_STATUS_TEST_IMAGE = false := (on_status_keyBegun _ _ _ _ rfl).trans htest
  refine leads_keyCmd_answer hu ht hc rfl (by decide) ?_
  rw [confirmed_keyBegun, hrun, htest', imgLock_keyBegun, hconf, if_neg (by decide), if_pos ⟨h, rfl, hlock⟩]

end

end

/-- Settles O50: each command by its effect on the block that it begins from, between the port's beginning and its end. -/
theorem lifeCycleCommands : Obligations.LifeCycleCommands := by
  intro b q v hu ht hc
  exact ⟨fun h _ hmem => leads_unconfirmed (s := ⟨b, q⟩) hu ht hc h hmem, fun hconf =>
    ⟨leads_wipe (s := ⟨b, q⟩) hu ht hc hconf,
      leads_enrol (s := ⟨b, q⟩) hu ht hc hconf,
      leads_enrol_refused (s := ⟨b, q⟩) hu ht hc,
      fun hlease hidle hlc _ hready => leads_lcAdvance (s := ⟨b, q⟩) hu ht hc hconf hlease hidle hlc hready,
      leads_lcAdvance_leased (s := ⟨b, q⟩) hu ht hc,
      leads_svnRaise (s := ⟨b, q⟩) hu ht hc hconf,
      leads_svnRaise_unmet (s := ⟨b, q⟩) hu ht hc hconf,
      leads_anchorRevoke (s := ⟨b, q⟩) hu ht hc hconf,
      leads_anchorRevoke_running (s := ⟨b, q⟩) hu ht hc hconf,
      leads_dbg (s := ⟨b, q⟩) hu ht hc,
      leads_dbg_refused (s := ⟨b, q⟩) hu ht hc⟩⟩

end Sys2Proof.Machine

/-! # Freeze, notes and retirement

Cairn's own commands: FREEZE and its end (R677), NOTE (R676), and RETIRE (R686), whose checks read the tables of the program as the command
finds them. -/

namespace Sys2Proof.Machine

open Sys2Proof Sys2Proof.Reg

/-! Freezing (R677) -/

section
variable (b : Block) (n : Nat)

/-- FREEZE and FROZEN show that the writing stands still, or goes on. -/
def Block.frozen : Block := (b.set CRN_CTRL_FREEZE n).set CRN_STAT_FROZEN n

theorem get_freeze_frozen (h : n < 2) : (b.frozen n).get CRN_CTRL_FREEZE = n := by
  rw [Block.frozen, Block.get_set_addr _ (by decide), Block.get_set_self _ _ _ (by decide)]
  exact Nat.mod_eq_of_lt h

theorem get_frozen_frozen (h : n < 2) : (b.frozen n).get CRN_STAT_FROZEN = n :=
  (Block.get_set_self _ _ _ (by decide)).trans (Nat.mod_eq_of_lt h)

theorem rd_frozen {a : Nat} (hctrl : CRN_CTRL ≠ a) (hstat : CRN_STAT ≠ a) : (b.frozen n).rd a = b.rd a := by
  rw [Block.frozen, Block.rd_set_ne _ (f := CRN_STAT_FROZEN) hstat, Block.rd_set_ne _ (f := CRN_CTRL_FREEZE) hctrl]

theorem Frame.frozen {p : Nat → Bool} {k : Block → Block} {a : Block} (h : Frame p k a b) (hctrl : p CRN_CTRL = true)
    (hstat : p CRN_STAT = true) : Frame p k a (b.frozen n) := (h.set (f := CRN_CTRL_FREEZE) hctrl).set (f := CRN_STAT_FROZEN) hstat

/-- FREEZE is to end FREEZE_MAX_MS from now on. -/
def Block.freezeTimed : Block :=
  { b with crn := { b.crn with freezeEnd := b.xtal + clampN 1 65535 (b.get CRN_CTRL_FREEZE_MAX_MS) * 1000000 } }

theorem frame_crn {p : Nat → Bool} (x : Crn) : Frame p Block.noCrn b { b with crn := x } := Frame.refl.unit rfl rfl rfl

theorem frame_freezeTimed {p : Nat → Bool} : Frame p Block.noCrn b b.freezeTimed := frame_crn b _

/-- The time has come: the writing goes on, the end is counted and reported. -/
def Block.freezeOver : Block := (((b.advanceXtal b.crn.freezeEnd).frozen 0).crnCnt 5).raise 997

theorem get_freezeOver (f : Fld) (hcnt : CRN_CNTi 5 ≠ f.addr) (hroll : CRN_CNT_ROLL ≠ f.addr) (he : evtReg f.addr = false) :
    b.freezeOver.get f = ((b.advanceXtal b.crn.freezeEnd).frozen 0).get f :=
  (get_raise _ _ _ he).trans (get_count _ _ _ _ _ _ hcnt hroll he)

theorem rd_cnt_freezeOver : b.freezeOver.rd (CRN_CNTi 5) = b.rd (CRN_CNTi 5) + 1 := by
  rw [Block.freezeOver, rd_raise _ _ _ (by decide), Block.crnCnt, rd_count_one _ _ _ _ (by decide) (by decide),
    rd_frozen _ _ (by decide) (by decide), rd_advanceXtal]

theorem Frame.advanceXtal {p : Nat → Bool} {a b : Block} {ns : Nat} (h : Frame p Block.noTime a b) : Frame p Block.noTime a (b.advanceXtal ns) := by
  obtain ⟨t, x, he⟩ := advanceXtal_eq b ns
  rw [he]
  exact h.unit rfl rfl rfl

theorem frame_freezeOver : Frame (withEvt [CRN_CTRL, CRN_STAT, CRN_CNTi 5, CRN_CNT_ROLL]) Block.noTime b b.freezeOver := by
  have hfrozen : Frame (withEvt [CRN_CTRL, CRN_STAT, CRN_CNTi 5, CRN_CNT_ROLL]) Block.noTime b ((b.advanceXtal b.crn.freezeEnd).frozen 0) :=
    Frame.refl.advanceXtal.frozen _ _ (by decide) (by decide)
  exact (hfrozen.count (by decide) (r := bitOf CRN_CNT_ROLL 5) (by decide) (withEvt_of_evtReg _)).raise (withEvt_of_evtReg _)

end

section
variable {s : State} (hu : s.block.up)
include hu

theorem exec_freeze_begins (h : s.block.on CRN_CTRL_FREEZE = false) :
    exec (.freeze true) s = .next ⟨(s.block.freezeTimed.frozen 1).commit, s.pending⟩ := by
  refine (runAt_crn hu _).trans ?_
  dsimp only
  rw [if_pos rfl, h, Bool.not_false, Block.doIf_true]
  rfl

theorem exec_freeze_stands (h : s.block.on CRN_CTRL_FREEZE = true) :
    exec (.freeze true) s = .next ⟨(s.block.frozen 1).commit, s.pending⟩ := by
  refine (runAt_crn hu _).trans ?_
  dsimp only
  rw [if_pos rfl, h, Bool.not_true, Block.doIf_false, Block.frozen]

theorem exec_freeze_cleared : exec (.freeze false) s = .next ⟨(s.block.frozen 0).commit, s.pending⟩ := runAt_crn hu _

theorem exec_freezeTimeout (h : s.block.on CRN_CTRL_FREEZE = true) :
    exec .freezeTimeout s = .next ⟨s.block.freezeOver.commit, s.pending⟩ := by
  refine (runAt_crn hu _).trans ?_
  dsimp only
  rw [if_pos h]
  rfl

theorem exec_freezeTimeout_idle (h : s.block.on CRN_CTRL_FREEZE = false) : exec .freezeTimeout s = .next ⟨s.block.commit, s.pending⟩ := by
  refine (runAt_crn hu _).trans ?_
  dsimp only
  rw [if_neg (by rw [h]; decide)]

end

/-! Notes (R676) -/

/-- The bytes of a number make it up again. -/
theorem leNat_leBytes (n v : Nat) : leNat (leBytes n v) = v % 256 ^ n := by
  induction n generalizing v with
  | zero => rw [pow_zero, Nat.mod_one]; rfl
  | succ n ih =>
    have hbyte : (BitVec.ofNat 8 v).toNat = v % 256 := BitVec.toNat_ofNat v 8
    rw [leBytes, leNat, ih, hbyte, pow_succ', Nat.mod_mul]

theorem length_leBytes (n v : Nat) : (leBytes n v).length = n := by
  induction n generalizing v with
  | zero => rfl
  | succ n ih => rw [leBytes, List.length_cons, ih]

/-- Of pieces of n bytes set one after the other, piece w stands at n·w. -/
theorem slice_pieces {n : Nat} (f : Nat → List Byte) (hf : ∀ w, (f w).length = n) {k w : Nat} (hw : w < k) :
    slice ((List.range k).foldl (fun l w => l ++ f w) []) (n * w) n = f w := by
  have hlen (k : Nat) : ((List.range k).foldl (fun l w => l ++ f w) []).length = n * k := by
    induction k with
    | zero => rfl
    | succ k ih => rw [List.range_succ, List.foldl_append, List.foldl_cons, List.foldl_nil, List.length_append, ih, hf, Nat.mul_succ]
  induction k with
  | zero => exact absurd hw (Nat.not_lt_zero _)
  | succ k ih =>
    rw [List.range_succ, List.foldl_append, List.foldl_cons, List.foldl_nil]
    rcases Nat.lt_succ_iff_lt_or_eq.mp hw with hlt | rfl
    · have hin : n * w + n ≤ n * k := by rw [← Nat.mul_succ]; exact Nat.mul_le_mul_left n hlt
      rw [← ih hlt, slice, slice, List.drop_append_of_le_length (by rw [hlen]; omega),
        List.take_append_of_le_length (by rw [List.length_drop, hlen]; omega)]
    · rw [slice, ← hlen w, List.drop_left, List.take_of_length_le (hf w).le]

/-- The 32 bytes of CRN_NOTE. -/
def Block.noteBytes (b : Block) : List Byte := (List.range 8).foldl (fun l w => l ++ leBytes 4 (b.rd (CRN_NOTEw w)).toNat) []

theorem leAt_noteBytes (b : Block) {w : Nat} (hw : w < 8) : leAt b.noteBytes (4 * w) 4 = (b.rd (CRN_NOTEw w)).toNat := by
  rw [leAt, Block.noteBytes, slice_pieces (fun w => leBytes 4 (b.rd (CRN_NOTEw w)).toNat) (fun _ => length_leBytes _ _) hw, leNat_leBytes]
  exact Nat.mod_eq_of_lt (b.rd (CRN_NOTEw w)).isLt

theorem map_ofNat_toNat (l : List Byte) : (l.map fun x => x.toNat).map (fun n => BitVec.ofNat 8 n) = l := by
  simp [Function.comp_def]

/-- With room in the FIFO a report enters at its end, with its data and the time, and CRN_STAT shows the new fill (R670). -/
theorem report_of_room (b : Block) (t s u fl : Nat) (d : List Nat) (h : b.fifo.length < 64) :
    ∃ r : Report, r.typ = t ∧ r.source = s ∧ r.ns = b.ns ∧ r.data = d ∧
      b.report t s u fl d = Block.set { b with fifo := b.fifo ++ [r] } CRN_STAT_FIFO_FILL (b.fifo.length + 1) := by
  unfold Block.report
  dsimp only
  rw [if_pos h]
  exact ⟨_, rfl, rfl, rfl, rfl, rfl⟩

theorem exec_note {s : State} (hu : s.block.up) : exec .note s =
    .next ⟨(s.block.report 8 0xFFFF (⟨.crn, 0⟩ : UnitRef).id 0 (s.block.noteBytes.map fun x => x.toNat)).commit, s.pending⟩ := runAt_crn hu _

/-! What the program names, and where its units lie

Both are read of the tables in memory and of registers of THL, the lanes and Crozier, so a change below those leaves them. -/

section
variable {b c : Block} (hm : c.mem = b.mem)
include hm

theorem load_congr (sp : Space) (a n : Nat) : c.load sp a n = b.load sp a n := by
  induction n generalizing a with
  | zero => rfl
  | succ n ih => rw [Block.load, Block.load, ih, Block.byte, Block.byte, hm]

theorem loadNat_congr (sp : Space) (a n : Nat) : c.loadNat sp a n = b.loadNat sp a n := congrArg leNat (load_congr hm sp a n)

end

section
variable {b c : Block} (hr : ∀ x, 0x70000 ≤ x → c.rd x = b.rd x)
include hr

theorem regionOf_congr (a : Nat) : c.regionOf a = b.regionOf a := by
  have hrange (x : Block) : x.regionOfRange a 0 = x.regionOf a := by
    unfold Block.regionOfRange
    cases x.regionOf a <;> rfl
  rw [← hrange, ← hrange, regionOfRange_congr b fun x hx _ => hr x (by omega)]

theorem inControl_congr (a n : Nat) : c.inControl a n = b.inControl a n := by
  have hkind (r : Nat) : c.on (THL_RGNr_CFG_KIND r) = b.on (THL_RGNr_CFG_KIND r) :=
    on_congr (hr _ (by change 0x70000 ≤ THL_RGNr_CFG r; unfold THL_RGNr_CFG; omega))
  simp only [Block.inControl, regionOfRange_congr b fun x hx _ => hr x (by omega), hkind]

theorem lineCrcAt_congr (a : Nat) : c.lineCrcAt a = b.lineCrcAt a := by
  have hkind (r : Nat) : c.on (THL_RGNr_CFG_KIND r) = b.on (THL_RGNr_CFG_KIND r) :=
    on_congr (hr _ (by change 0x70000 ≤ THL_RGNr_CFG r; unfold THL_RGNr_CFG; omega))
  have hbase (r : Nat) : c.get (THL_RGNr_BASE_MIB r) = b.get (THL_RGNr_BASE_MIB r) :=
    get_congr (hr _ (by change 0x70000 ≤ THL_RGNr_BASE r; unfold THL_RGNr_BASE; omega))
  have hsize (r : Nat) : c.get (THL_RGNr_SIZE_MIB r) = b.get (THL_RGNr_SIZE_MIB r) :=
    get_congr (hr _ (by change 0x70000 ≤ THL_RGNr_SIZE r; unfold THL_RGNr_SIZE; omega))
  simp only [Block.lineCrcAt, regionOf_congr hr, hkind, hbase, hsize]

theorem coreOf_congr (l : Nat) : c.coreOf l = b.coreOf l := get_congr (hr _ (by change 0x70000 ≤ CRZ_LCMAPl l; unfold CRZ_LCMAPl; omega))

theorem laneMap_congr (k : Nat) : c.laneMap k = b.laneMap k := by
  rw [Block.laneMap, Block.rd64_congr (hr _ (by decide)) (hr _ (by decide)), Block.laneMap]

theorem logicalOn_congr (p : Nat) : c.logicalOn p = b.logicalOn p := by
  have hmap (l : Nat) : c.rd (CRZ_LCMAPl l) = b.rd (CRZ_LCMAPl l) := hr _ (by unfold CRZ_LCMAPl; omega)
  have hen (l : Nat) : c.on (CRZ_LCMAPl_EN l) = b.on (CRZ_LCMAPl_EN l) := on_congr (hmap l)
  have hnone (l : Nat) : c.on (CRZ_LCMAPl_NOCORE l) = b.on (CRZ_LCMAPl_NOCORE l) := on_congr (hmap l)
  simp only [Block.logicalOn, hen, hnone, coreOf_congr hr]

theorem spareLane_congr (hmem : c.member = b.member) (hsor : c.sor = b.sor) : c.spareLane = b.spareLane := by
  refine List.find?_congr fun l hl => ?_
  have hlow : ∀ l < 16, 0x70000 ≤ (stRetired (UnitRef.hdr ⟨.sor, l⟩)).addr ∧ 0x70000 ≤ (stResetBusy (UnitRef.hdr ⟨.sor, l⟩)).addr := by
    decide
  obtain ⟨hretired, hbusy⟩ := hlow l (List.mem_range.mp hl)
  rw [Block.laneOk, Block.laneOk, hmem, hsor, on_congr (hr _ hretired), on_congr (hr _ hbusy),
    on_congr (f := bitOf SOR_SPARE l) (hr SOR_SPARE (by decide))]

/-- Whether a channel has a spare lies in the maps of cores, tufts and lanes. -/
theorem channelSpare_congr (hmem : c.member = b.member) (hsor : c.sor = b.sor) (k : Nat) : c.channelSpare k = b.channelSpare k := by
  have hcore (l : Nat) : c.on (CRZ_LCMAPl_SPARE_EN l) = b.on (CRZ_LCMAPl_SPARE_EN l) :=
    on_congr (hr _ (by change 0x70000 ≤ CRZ_LCMAPl l; unfold CRZ_LCMAPl; omega))
  have htuft (u : Nat) : c.rd (CRZ_TUFTMAPt u) = b.rd (CRZ_TUFTMAPt u) := hr _ (by unfold CRZ_TUFTMAPt; omega)
  have hen (u : Nat) : c.on (CRZ_TUFTMAPt_EN u) = b.on (CRZ_TUFTMAPt_EN u) := on_congr (htuft u)
  have hspare (u : Nat) : c.on (CRZ_TUFTMAPt_SPARE_EN u) = b.on (CRZ_TUFTMAPt_SPARE_EN u) := on_congr (htuft u)
  have hphys (u : Nat) : c.tuftOf u = b.tuftOf u := get_congr (htuft u)
  simp only [Block.channelSpare, logicalOn_congr hr, hcore, hen, hspare, hphys, spareLane_congr hr hmem hsor]

variable (hm : c.mem = b.mem)
include hm

theorem lineOk_congr (a : Nat) : c.lineOk a = b.lineOk a := by
  simp only [Block.lineOk, lineCrcAt_congr hr, Block.lineCrc, load_congr hm, loadNat_congr hm]

/-- What Crozier reads of a CONTROL region (R288). -/
theorem control_congr (a n : Nat) : c.control a n = b.control a n := by
  simp only [Block.control, inControl_congr hr, lineOk_congr hr hm, load_congr hm]

theorem desc_congr (d : Nat) : c.desc d = b.desc d := by
  have haddr : c.descAddr d = b.descAddr d := by
    rw [Block.descAddr, Block.rd64_congr (hr _ (by decide)) (hr _ (by decide)), Block.descAddr]
  rw [Block.desc, haddr, control_congr hr hm, Block.desc]

theorem elems_congr (e n : Nat) : c.elems e n = b.elems e n := by
  have haddr : c.elemAddr e = b.elemAddr e := by
    rw [Block.elemAddr, Block.rd64_congr (hr _ (by decide)) (hr _ (by decide)), Block.elemAddr]
  rw [Block.elems, haddr, control_congr hr hm, Block.elems]

theorem tblEntries_congr (x k : Nat) : c.tblEntries x k = b.tblEntries x k := by
  have hlen : c.get (if k = 0 then CRZ_TBLx_LEN_LEN_A x else CRZ_TBLx_LEN_LEN_B x) =
      b.get (if k = 0 then CRZ_TBLx_LEN_LEN_A x else CRZ_TBLx_LEN_LEN_B x) := by
    refine get_congr (hr _ ?_)
    split <;> (change 0x70000 ≤ CRZ_TBLx_LEN x; unfold CRZ_TBLx_LEN; omega)
  simp only [Block.tblEntries, hlen, loadNat_congr hm]

theorem activeDescs_congr (x : Nat) : c.activeDescs x = b.activeDescs x := by
  have hbank : c.get (tblBank x) = b.get (tblBank x) := get_congr (hr _ (by change 0x70000 ≤ CRZ_TBLx_STAT x; unfold CRZ_TBLx_STAT; omega))
  simp only [Block.activeDescs, Block.activeEntries, hbank, tblEntries_congr hr hm, desc_congr hr hm]

/-- The units that the running table names (R319). -/
theorem named_congr (hrhz : c.rhz = b.rhz) : c.named = b.named := by
  have hstate : c.get (CRZ_TBLx_STAT_STATE 0) = b.get (CRZ_TBLx_STAT_STATE 0) := get_congr (hr _ (by decide))
  have hslot (k : Nat) : c.slotOf k = b.slotOf k := by rw [Block.slotOf, hrhz, Block.slotOf]
  simp only [Block.named, hstate, activeDescs_congr hr hm, coreOf_congr hr, elems_congr hr hm, laneMap_congr hr, hslot]

theorem channelNamed_congr (hrhz : c.rhz = b.rhz) (k : Nat) : c.channelNamed k = b.channelNamed k := by
  simp only [Block.channelNamed, Block.isNamed, named_congr hr hm hrhz]

end

/-! Retirement (R686) -/

section
variable (b : Block) (c : Nat)

/-- RETIRE begins: CHANNEL shows its channel. -/
def Block.retireAsked : Block := b.set CRN_RETIRE_CHANNEL c

theorem rd_retireAsked {a : Nat} (h : CRN_RETIRE ≠ a) : (b.retireAsked c).rd a = b.rd a := Block.rd_set_ne _ (f := CRN_RETIRE_CHANNEL) h _

theorem mem_retireAsked : (b.retireAsked c).mem = b.mem := rfl

theorem rhz_retireAsked : (b.retireAsked c).rhz = b.rhz := rfl

theorem hasChannel_retireAsked : (b.retireAsked c).hasChannel c = b.hasChannel c := rfl

theorem leased_retireAsked : (b.retireAsked c).leased = b.leased := rfl

theorem isRetired_retireAsked : (b.retireAsked c).isRetired c = b.isRetired c := by
  have hen : (b.retireAsked c).on CRN_CTRL_EN = b.on CRN_CTRL_EN := on_congr (rd_retireAsked b c (by decide))
  have hbase : (b.retireAsked c).logBase = b.logBase :=
    Block.rd64_congr (rd_retireAsked b c (by decide)) (rd_retireAsked b c (by decide))
  have hentry (k : Nat) : (b.retireAsked c).rd (CRN_RETk k) = b.rd (CRN_RETk k) :=
    rd_retireAsked b c (by unfold CRN_RETIRE CRN_RETk; omega)
  have hvalid (k : Nat) : (b.retireAsked c).on (CRN_RETk_VALID k) = b.on (CRN_RETk_VALID k) := on_congr (hentry k)
  have hchannel (k : Nat) : (b.retireAsked c).get (CRN_RETk_CHANNEL k) = b.get (CRN_RETk_CHANNEL k) := get_congr (hentry k)
  simp only [Block.isRetired, Block.histAt, hen, hbase, hvalid, hchannel, loadNat_congr (mem_retireAsked b c)]

theorem rd_tables_retireAsked (a : Nat) (h : 0x70000 ≤ a) : (b.retireAsked c).rd a = b.rd a := rd_retireAsked b c (by unfold CRN_RETIRE; omega)

theorem channelNamed_retireAsked : (b.retireAsked c).channelNamed c = b.channelNamed c :=
  channelNamed_congr (rd_tables_retireAsked b c) (mem_retireAsked b c) (rhz_retireAsked b c) c

theorem channelSpare_retireAsked : (b.retireAsked c).channelSpare c = b.channelSpare c :=
  channelSpare_congr (rd_tables_retireAsked b c) rfl rfl c

/-- RETIRE refuses: RESULT says why, and nothing else changes. -/
theorem retireAsked_refused {r : Nat} (hc : c < 4096) (hr : r < 4) :
    ((b.retireAsked c).set CRN_RETIRE_RESULT r).commit.get CRN_RETIRE_RESULT = r ∧
      ((b.retireAsked c).set CRN_RETIRE_RESULT r).commit.get CRN_RETIRE_CHANNEL = c ∧
      Frame (within [CRN_RETIRE]) id b ((b.retireAsked c).set CRN_RETIRE_RESULT r).commit := by
  refine ⟨?_, ?_, ((Frame.refl.set (f := CRN_RETIRE_CHANNEL) (by decide)).set (f := CRN_RETIRE_RESULT) (by decide)).commit⟩
  · rw [Block.get_commit, Block.get_set_self _ _ _ (by decide)]
    exact Nat.mod_eq_of_lt hr
  · rw [Block.get_commit, Block.get_set_ne _ _ _ _ (by decide) (by decide), Block.retireAsked, Block.get_set_self _ _ _ (by decide)]
    exact Nat.mod_eq_of_lt hc

/-- The retirement of a channel is reported by event 999 (R683). -/
theorem pending_retireWith (reason unitId : Nat) (act : Block → Retired) : (b.retireWith c reason unitId act).pendingEvent 999 = true := by
  unfold Block.retireWith
  dsimp only
  cases (act b).noSpare
  · exact pending_raise _ _
  · exact pending_raise_mono _ _ _ (pending_raise _ _)

end

section
variable {s : State} {c : Nat} (hu : s.block.up) (hc : c < 4096)
include hu hc

/-- RETIRE answers by what the block shows before the command. -/
theorem exec_retireCmd : exec (.retireCmd c) s = .next ⟨(
    if s.block.hasChannel c = false then (s.block.retireAsked c).set CRN_RETIRE_RESULT 2
    else if s.block.isRetired c then (s.block.retireAsked c).set CRN_RETIRE_RESULT 3
    else if s.block.leased && s.block.channelNamed c && !s.block.channelSpare c then (s.block.retireAsked c).set CRN_RETIRE_RESULT 1
    else ((s.block.retireAsked c).retireWith c 4 (channelUnit c).id (Block.retireAct c)).set CRN_RETIRE_RESULT 0).commit, s.pending⟩ := by
  refine (runAt_crn hu _).trans ?_
  dsimp only
  rw [Nat.mod_eq_of_lt hc, ← Block.retireAsked, hasChannel_retireAsked, isRetired_retireAsked, leased_retireAsked, channelNamed_retireAsked,
    channelSpare_retireAsked]

end

/-- Settles O52: FREEZE and its end by the equation of each, NOTE by a report that finds room, RETIRE by its checks in their order. -/
theorem recorderCommands : Obligations.RecorderCommands := by
  intro b q hu
  refine ⟨fun h => ⟨_, exec_freeze_begins (s := ⟨b, q⟩) hu h, ?begins⟩, fun h => ⟨_, exec_freeze_stands (s := ⟨b, q⟩) hu h, ?stands⟩,
    ⟨_, exec_freeze_cleared (s := ⟨b, q⟩) hu, ?cleared⟩, fun h => ⟨_, exec_freezeTimeout (s := ⟨b, q⟩) hu h, ?ends⟩,
    fun h => ⟨_, exec_freezeTimeout_idle (s := ⟨b, q⟩) hu h, Frame.refl.commit⟩, fun h => ?note, fun c hc hhas => ?absent,
    fun c hc hhas hret => ?retired, fun c hc hhas hret hlease hnamed hspare => ?needed, fun c x hc hhas hret hfree hx => ?done⟩
  case begins =>
    exact ⟨(Block.get_commit _ _).trans (get_freeze_frozen _ _ (by decide)), (Block.get_commit _ _).trans (get_frozen_frozen _ _ (by decide)), rfl,
      ((frame_freezeTimed b).frozen _ _ (by decide) (by decide)).commit⟩
  case stands =>
    exact ⟨(Block.get_commit _ _).trans (get_freeze_frozen _ _ (by decide)), (Block.get_commit _ _).trans (get_frozen_frozen _ _ (by decide)),
      (Frame.refl.frozen _ _ (by decide) (by decide)).commit⟩
  case cleared =>
    exact ⟨(Block.get_commit _ _).trans (get_freeze_frozen _ _ (by decide)), (Block.get_commit _ _).trans (get_frozen_frozen _ _ (by decide)),
      (Frame.refl.frozen _ _ (by decide) (by decide)).commit⟩
  case ends =>
    refine ⟨?_, ?_, (Block.rd_commit _ _).trans (rd_cnt_freezeOver b), (pending_commit _ _).trans (pending_raise _ _), (frame_freezeOver b).commit⟩
    · rw [Block.get_commit, get_freezeOver _ _ (by decide) (by decide) (by decide), get_freeze_frozen _ _ (by decide)]
    · rw [Block.get_commit, get_freezeOver _ _ (by decide) (by decide) (by decide), get_frozen_frozen _ _ (by decide)]
  case note =>
    obtain ⟨r, htyp, hsource, hns, hdata, hreport⟩ := report_of_room b 8 0xFFFF (⟨.crn, 0⟩ : UnitRef).id 0 (b.noteBytes.map fun x => x.toNat) h
    refine ⟨_, exec_note (s := ⟨b, q⟩) hu, ?_⟩
    dsimp only
    rw [hreport]
    refine ⟨⟨r, rfl, htyp, hsource, hns, fun w hw => ?_⟩, ?_, ?_⟩
    · rw [hdata, map_ofNat_toNat, leAt_noteBytes b hw]
    · rw [Block.get_commit, Block.get_set_self _ _ _ (by decide)]
      exact Nat.mod_eq_of_lt (by change _ < 128; omega)
    · have hqueued : Frame (within [CRN_STAT]) id b { b with fifo := b.fifo ++ [r] } := Frame.refl.own rfl fun _ _ => rfl
      exact (hqueued.set (f := CRN_STAT_FIFO_FILL) (by decide)).commit
  case absent =>
    refine ⟨_, exec_retireCmd (s := ⟨b, q⟩) hu hc, ?_⟩
    dsimp only
    rw [if_pos hhas]
    exact retireAsked_refused b c hc (by decide)
  case retired =>
    refine ⟨_, exec_retireCmd (s := ⟨b, q⟩) hu hc, ?_⟩
    dsimp only
    rw [if_neg (by rw [hhas]; decide), if_pos hret]
    exact retireAsked_refused b c hc (by decide)
  case needed =>
    refine ⟨_, exec_retireCmd (s := ⟨b, q⟩) hu hc, ?_⟩
    dsimp only
    rw [if_neg (by rw [hhas]; decide), if_neg (by rw [hret]; decide), if_pos (by rw [hlease, hnamed, hspare]; rfl)]
    exact retireAsked_refused b c hc (by decide)
  case done =>
    have hallowed : ¬(b.leased && b.channelNamed c && !b.channelSpare c) = true := by
      rcases hfree with h | h | h <;> simp [h]
    subst hx
    refine ⟨_, exec_retireCmd (s := ⟨b, q⟩) hu hc, ?_⟩
    dsimp only
    rw [if_neg (by rw [hhas]; decide), if_neg (by rw [hret]; decide), if_neg hallowed]
    refine ⟨rfl, (Block.get_commit _ _).trans (get_set_zero _ _ (by decide)), ?_⟩
    rw [pending_commit, pending_set _ _ _ _ (by decide)]
    exact pending_retireWith _ _ _ _ _

end Sys2Proof.Machine
